-- ==== Sys2Proof/Word.lean ====
section
/-! DEFINITION. The word types of the EKE6-SN32: a register is 64 bits wide (R9), an instruction word 32 bits (R78), a
memory cell one byte. -/

namespace Sys2Proof

/-- A 64-bit register, control word or address (R9). -/
abbrev Word := BitVec 64

/-- A 32-bit instruction word (R78). -/
abbrev IWord := BitVec 32

/-- One byte of memory. -/
abbrev Byte := BitVec 8

end Sys2Proof
end

