-- ==== Sys2Proof/Syntax.lean ====
section
/-! DEFINITION. The commands of the package: one constructor of `Instr` per row of the opcode table, with the operands
that say which unit it concerns and what its environment supplies. The table gives its rows no fields and no bits; what
a command carries is read from the rule that its row names. -/

namespace Sys2Proof

/-- What a read of a memory meets (R284, R285): no error, one the code corrects, or one that it cannot correct; an error in a
word of the base-die or stack-controller buffers on the way of a DRAM access, which SEC-DED corrects or detects; or a parity
error in the entry of a translation cache that a cluster's access uses. -/
inductive Ecc where
  | clean
  | corrected
  | uncorrectable
  | buffer (bad : Bool)
  | cache
  deriving DecidableEq, Repr

/-- Whose request was present at an arbiter beside the one that it granted (R51, R289): that of a cluster; of an accepted
near-memory operation, by its number; of the solver sequencer of a reach; of a barge whose executor accesses memory; or of a
host port or a remote source, which belongs to no barge. -/
inductive Rival where
  | cluster (q : Fin 576)
  | near (n : Nat)
  | solver (r : Fin 64)
  | exec (c : Fin 256) (q : Nat)
  | outside
  deriving DecidableEq, Repr

/-- One contested grant (R51): the 128-byte line (physical address / 128) that the rivals' requests name, whether one of them
writes it, and the rivals. -/
structure Grant where
  line   : Nat
  write  : Bool := true
  rivals : List Rival
  deriving DecidableEq, Repr

/-- What the accesses of one command meet: the contested grants among them, and the memory errors that its reads find, by
physical address, where the command has no operand of its own for them (R285). (DESIGN CHOICE, log entry 17.) -/
structure Contest where
  grants : List Grant := []
  errs   : List (Nat × Ecc) := []
  deriving DecidableEq, Repr

/-- No contested grant, and no memory error. -/
def Contest.free : Contest := {}

/-- What the environment of one instruction supplies: the hc that passed since the last instruction boundary, the hc in
which its unit was busy, the hc that it stalled, what its memory read meets, whether its grant was contested, the word of
the register file that its operand reads find in error (R284), by its place among the 12,288, and whether the path of an
access failed after its check: `again` where the other F-die served it, `cut` where it was the last path (R137, R591).
(DESIGN CHOICE, log entry 9.) -/
structure CEnv where
  hc      : Nat := 1
  busy    : Nat := 0
  stall   : Nat := 0
  ecc     : Ecc := .clean
  contest : Contest := .free
  reg     : Nat × Ecc := (0, .clean)
  again   : Bool := false
  cut     : Bool := false
  deriving DecidableEq, Repr

/-- A Ragar packet: the header of Table 17-3 and the lines that follow it. -/
structure Packet where
  ptype  : Nat          -- Table 17-4
  vc     : Nat := 0     -- PFLAGS bits [1:0]
  poison : Bool := false
  code   : Nat := 0     -- CODE
  dst    : Nat
  src    : Nat
  seq    : Nat := 0
  job    : Nat := 0
  offset : Nat := 0     -- ADDR bits [47:0]
  unit   : Nat := 0     -- ADDR bits [63:48], SRC_UNIT
  data   : Nat := 0     -- DATA
  body   : List Byte := []
  deriving DecidableEq, Repr

/-- How a register access reaches the package (R679, R680): the path, as PATH of GLOBAL_ACCESS_ERR numbers it, and the
view: window 0, or window 2 of a partition. -/
structure RegPath where
  path : Fin 6 := 0
  view : Option (Fin 8) := none
  deriving DecidableEq, Repr

/-- What the environment of a solver command supplies: how far its work had come when its deadline or a drain stopped
it (R260), the hc that the reaches spent, and what its memory reads meet. The progress is read only where a stop is
asked for. (DESIGN CHOICE, log entries 9 and 22.) -/
structure SolveEnv where
  done   : Nat := 0                        -- problems or outputs below this number are complete, `cut` apart
  late   : List Nat := []                  -- others that are complete: each reach stops at a point of its own (R260)
  cut    : List Nat := []                  -- problems or outputs abandoned at the stop
  iters  : Nat := 0                        -- iterations of SOLVE_ITER completed
  steps  : List (Nat × Nat) := []          -- per schedule reach: index of the step it stops before, and its next panel
  hc     : List (Nat × Nat × Nat) := []    -- reach, hc of its arrays, hc of its waits
  stopHc : List (Nat × Nat) := []          -- reach, its hc from the deadline or cancellation to the end of its stop work
  errs   : List (Nat × Ecc) := []
  came   : List (Nat × Nat) := []          -- an abandoned problem's columns or iterations performed by then
  deriving DecidableEq, Repr

/-- Which near-memory operation a command concerns: a posted one by its number, or that of a started barge. -/
inductive NmWho where
  | op (n : Nat)
  | barge (c : Fin 256) (q : Nat)
  deriving DecidableEq, Repr

/-- What another node answers to the packets that a checkpoint barge sends it: the bytes it holds by global address
(zero where unlisted), its poisoned lines by first address, the packets that fail by their global address, with the code
of Table 17-6 or 10 for one that is abandoned, the code of a flag that is sent a second time after a withholding, and the packets
that RETX_US passes for, which are sent again (R507).
(DEDUCED, log entry 42.) -/
structure Far where
  bytes  : List (Nat × BitVec 8) := []
  poison : List Nat := []
  fails  : List (Nat × Nat) := []
  again  : Nat := 0
  resent : List Nat := []
  deriving DecidableEq, Repr

/-- What the environment of a checkpoint barge supplies: the answers of other nodes, the granules that another source
writes while they are copied, how many granules were treated where its deadline stopped it, what its reads meet, and
whether its grants were contested. (DESIGN CHOICE, log entry 9; DEDUCED, log entry 42.) -/
structure CkptEnv where
  far     : Far := {}
  torn    : List Nat := []
  upto    : Nat := 0
  errs    : List (Nat × Ecc) := []
  contest : Contest := .free
  deriving DecidableEq, Repr
/-- A roast as its header and its image give it (R596, R609). -/
structure Roast where
  version  : Nat          -- the 16 bytes of R596, as a number
  svn      : Nat
  mirror   : Nat
  keyset   : Nat
  approved : Bool         -- APPROVED_BUILD
  deriving DecidableEq, Repr

/-- The roast slots of one P-die's boot flash, with the authentic roasts that they hold, and the slot that its header
selects (R632). -/
structure Flash where
  slot0 : Option Roast := none
  slot1 : Option Roast := none
  sel   : Nat := 0
  deriving DecidableEq, Repr

/-- Where a residue check fails (Table 20-1): in a matrix array or a vector engine of a cluster, or in a near-memory
engine, with the operations of which the engine had uncompleted units. -/
inductive ResidueAt where
  | matrix (p : Fin 576)
  | vector (p : Fin 576)
  | near (e : Fin 256) (ops : List Nat)
  deriving DecidableEq, Repr

/-- Where duplicated logic disagrees (Table 20-1): a sequencer, a solver sequencer or crossbar of a reach, the control
or router pair of an F-die, the controller of a base die, or the control cores of a P-die. -/
inductive LockstepAt where
  | sequencer (p : Fin 576)
  | solver (r : Fin 64)
  | crossbar (r : Fin 64)
  | fdie (f : Fin 2)
  | base (st : Fin 32)
  | pdie (k : Fin 2)
  deriving DecidableEq, Repr

/-- A power module under the package's control (R664). -/
inductive Rail where
  | vcore (d : Fin 4)
  | vunc (d : Fin 4)
  | vfab (f : Fin 2)
  | vser (f : Fin 2)
  | vserh (f : Fin 2)
  deriving DecidableEq, Repr

/-- What one cupping of a reach measures (R57, R62): the figures of CUPPING_RESULT, the error of its monitors in units of
0.01 %, and, where a figure misses its limit, where the failure lies: the physical slots to which it is isolated, none for
one in the solver sequencer (`part` 1), the crossbar (2) or the monitors (0). `parts` names by slot what failed inside a
cluster: bits [19:4] its banks, bits [3:0] its engines as CLUSTER_UNIT_MAP has them. (DESIGN CHOICE, log entry 44.) -/
structure Cupping where
  slots  : Nat := 0
  part   : Nat := 0
  margin : BitVec 16 := 0
  rate   : BitVec 16 := 0
  arb    : BitVec 8 := 0
  cal    : BitVec 16 := 0
  parts  : List (Nat × BitVec 20) := []
  deriving DecidableEq, Repr

/-- What the weir measures every 10 µs (R441, R470): the package's power over the last 10 µs, power and current of each
C-die's core rail, and by sensor (reaches, then dies as SENSOR_DIE numbers them) power, voltage and junction
temperature. (DESIGN CHOICE, log entry 9.) -/
structure WeirEnv where
  p10   : BitVec 16
  dies  : List (Nat × Nat × Nat) := []          -- C-die, power, current
  reach : List (Nat × Nat) := []                -- reach, TJ
  die   : List (Nat × Nat × Nat × Nat) := []    -- die, power, voltage, TJ
  deriving DecidableEq, Repr

/-- A response of Table 15-4 that ends. -/
inductive HeatAt where
  | dram110 (st : Fin 32)
  | dram105 (st : Fin 32)
  | cdie (d : Fin 4)
  | fpdie (k : Fin 4)           -- F-dies 0 and 1, P-dies A and B
  | target (d : Fin 4)
  deriving DecidableEq, Repr

/-- What a boot finds (Table 22-4): the straps, the P-dies whose fuses, flashes, self-tests or control cores fail, the
contents of the boot flashes where the package itself has not written them, the factory map record, the cupping of each
reach that does not pass with its figures, the stacks that fail training, the free rates, and BASE.
(DESIGN CHOICE, log entry 9.) -/
structure BootEnv where
  straps   : BitVec 7 := 0
  badFuse  : List Nat := []
  noFlash  : List Nat := []
  badTest  : List Nat := []
  badCore  : List Nat := []
  flash    : List (Nat × Flash) := []
  spare    : List (Nat × Nat) := []             -- spare slot of each reach, 8 where unlisted
  channels : List (Nat × Nat × Nat) := []       -- stack, faulty channel, spare channel (0 or 1) that serves it
  cup      : List (Nat × Cupping) := []
  badStack : List Nat := []
  base     : BitVec 16 := 0
  epoch    : Word := 0                          -- LOG_EPOCH that the random source draws for a new logbook
  deriving DecidableEq, Repr

/-- A flit that arrives on a port: its 542 bytes (Table 17-1), the symbol errors of each codeword that begins in it, and whether
it begins in the last codeword of the flit before it (R493). (DESIGN CHOICE, log entry 9.) -/
structure Flit where
  bytes : List (BitVec 8) := []
  fixed : List Nat := []
  carry : Bool := false
  deriving DecidableEq, Repr

/-- What the two ends of a link exchange during training (R498, R606). (DESIGN CHOICE, log entry 9.) -/
structure Training where
  node : BitVec 16
  f    : Bool
  port : Fin 9
  enc  : Bool := false
  kcv  : Bool := true                           -- the check values agree
  lanes : BitVec 4 := 0                         -- the lanes that the partner has declared failed (R497)
  deriving DecidableEq, Repr

/-- A read or write of device memory through window 4 (R643): the function, the offset, and for a write its bytes. -/
structure Win4 where
  vf     : Option (Fin 8) := none
  offset : Nat
  len    : Nat := 8
  write  : Option (List (BitVec 8)) := none
  ep     : Bool := false
  deriving DecidableEq, Repr

/-- What a register write is aimed at: an offset of window 0 or of a partition's view, by one access or by a PCIe request of
any length, the recovery buffer of a P-die's port, or the configuration of a function of that port (R642 to R649). -/
inductive WriteAt where
  | reg (rp : RegPath) (off size : Nat) (v : Word)
  | span (rp : RegPath) (off : Nat) (bytes : List (BitVec 8))
  | buffer (k : Fin 2) (off : Nat) (bytes : List (BitVec 8))
  | master (k : Fin 2) (fn : Fin 9) (on : Bool)
  | msix (k : Fin 2) (fn : Fin 9) (on : Bool)
  | mask (k : Fin 2) (fn : Fin 9) (entry : Fin 257) (on : Bool)
  | numVfs (k : Fin 2) (n : Fin 9)
  | bar (k : Fin 2) (fn : Fin 9) (i : Fin 6) (base : Word)
  deriving DecidableEq, Repr


/-- The commands, one constructor per row of the opcode table, in the table's order. The operands say which unit the
command concerns and what the outside supplies with it. -/
inductive Instr where
  /-- INTEGER_REG_OP (R80): Executes an integer register-register operation of major opcode 0x01, such as add, shift, compare, multiply, divide or bit count. -/
  | integerRegOp (p : Fin 576) (env : CEnv)
  /-- IMMEDIATE_OP (R82): Executes an immediate instruction (addi, andi, ori, xori, slti, sltiu, shift by immediate, lui, movk). -/
  | immediateOp (p : Fin 576) (env : CEnv)
  /-- INTEGER_LOAD (R83): Loads 1, 2, 4 or 8 bytes from a local address into an integer register, after the address checks of R709. -/
  | integerLoad (p : Fin 576) (env : CEnv)
  /-- INTEGER_STORE (R83): Stores the low bytes of an integer register to a local address, after the address checks. -/
  | integerStore (p : Fin 576) (env : CEnv)
  /-- FP_LOAD (R83): Loads a binary32 or binary64 value into an FP register under R65. -/
  | fpLoad (p : Fin 576) (env : CEnv)
  /-- FP_STORE (R83): Stores a binary32 or binary64 FP register to a local address. -/
  | fpStore (p : Fin 576) (env : CEnv)
  /-- BRANCH (R85): Compares two integer registers and branches by a word offset when the condition holds. -/
  | branch (p : Fin 576) (env : CEnv)
  /-- JAL (R85): Writes the link address and jumps by a 21-bit word offset. -/
  | jal (p : Fin 576) (env : CEnv)
  /-- JALR (R85): Writes the link address and jumps to a register plus an immediate, trapping on a misaligned target. -/
  | jalr (p : Fin 576) (env : CEnv)
  /-- FP_ARITHMETIC (R87): Executes a scalar FP arithmetic, sign-injection, min/max, compare or fclass function without exceptions. -/
  | fpArithmetic (p : Fin 576) (env : CEnv)
  /-- FUSED_MULTIPLY_ADD (R88): Computes fmadd, fmsub, fnmadd or fnmsub with one rounding. -/
  | fusedMultiplyAdd (p : Fin 576) (env : CEnv)
  /-- CONVERSION_MOVE (R89): Converts between integer and FP formats or moves bits between g and f registers. -/
  | conversionMove (p : Fin 576) (env : CEnv)
  /-- ATOMIC (R90): Performs an indivisible read-modify-write of an 8-byte local word at its memory, returning the old value; a claim word follows deal order. -/
  | atomic (p : Fin 576) (env : CEnv)
  /-- ST_FLAG (R91): Performs a flagged store once every earlier store of the cluster is visible. -/
  | stFlag (p : Fin 576) (env : CEnv)
  /-- ST_FLAG_ADD (R91): Performs a flagged atomic add that acts as both flagged store and acquire. -/
  | stFlagAdd (p : Fin 576) (env : CEnv)
  /-- WAIT_FLAG (R93): Reads a flag word and completes at once if the condition holds, otherwise watches the word. -/
  | waitFlag (p : Fin 576) (env : CEnv)
  /-- WAIT_FLAG_COMPLETE (R93): A write to a watched flag word makes a waiting wait.flag read it again and complete when the condition holds. -/
  | waitFlagComplete (p : Fin 576) (env : CEnv)
  /-- WAIT_FLAG_POLL (R93): A wait.flag without a free stack watch entry reads its flag again every 256 hc. -/
  | waitFlagPoll (p : Fin 576) (env : CEnv)
  /-- WAIT_FLAG_TIMEOUT (R92): A wait.flag with a timeout completes after 2^(tmo+9) hc, writing the last value read, with no trap. -/
  | waitFlagTimeout (p : Fin 576) (env : CEnv)
  /-- NM_POST (R95): Checks a near-memory descriptor, translates its addresses, waits for room in the lead engine's post queue and hands the operation over. -/
  | nmPost (p : Fin 576) (env : CEnv)
  /-- LD_R (R97): Sends a READ8 to a global fabric address and writes the reply, trapping precisely on rejection or loss. -/
  | ldR (p : Fin 576) (env : CEnv)
  /-- ST_R (R96): Posts a remote store and raises CW_REMOTE_OUT until acknowledged. -/
  | stR (p : Fin 576) (env : CEnv)
  /-- ST_RFLAG (R515): Posts a remote flagged store once earlier local stores are visible, delivering any pending deferred fault first. -/
  | stRflag (p : Fin 576) (env : CEnv)
  /-- FENCE_INSTRUCTION (R99): Waits until every earlier local access of the cluster is complete and visible. -/
  | fenceInstruction (p : Fin 576) (env : CEnv)
  /-- FENCE_R (R99): Waits until CW_REMOTE_OUT is zero, delivering any deferred fault. -/
  | fenceR (p : Fin 576) (env : CEnv)
  /-- FENCE_NM (R99): Waits until CW_NM_OUT is zero. -/
  | fenceNm (p : Fin 576) (env : CEnv)
  /-- FENCE_I (R99): Makes earlier own-basin stores visible to instruction fetch and refetches later instructions. -/
  | fenceI (p : Fin 576) (env : CEnv)
  /-- FENCE_WAIT_END (R99): The condition a waiting fence, fence.r or fence.nm waits for comes to hold and the fence completes. -/
  | fenceWaitEnd (p : Fin 576) (env : CEnv)
  /-- CW_RD (R100): Reads a control word into an integer register. -/
  | cwRd (p : Fin 576) (env : CEnv)
  /-- CW_WR (R100): Writes a control word under its field access rules, trapping on RO words and bad values. -/
  | cwWr (p : Fin 576) (env : CEnv)
  /-- CW_SET (R100): ORs a register into a control word, clearing W1C fields where 1 is written. -/
  | cwSet (p : Fin 576) (env : CEnv)
  /-- CW_CLR (R100): Clears bits of a control word, leaving W1C fields unchanged. -/
  | cwClr (p : Fin 576) (env : CEnv)
  /-- HALT (R101): Ends the cargo on the cluster after delivering deferred faults and waiting for outstanding operations. -/
  | halt (p : Fin 576) (env : CEnv)
  /-- HALT_WAIT_END (R101): A halt's wait for CW_NM_OUT, CW_REMOTE_OUT and store visibility ends, and the cluster ends or takes a deferred fault. -/
  | haltWaitEnd (p : Fin 576) (env : CEnv)
  /-- BRK (R101): Takes a BREAK trap. -/
  | brk (p : Fin 576) (env : CEnv)
  /-- ERET (R101): Returns from the trap handler to CW_EPC and clears HMODE. -/
  | eret (p : Fin 576) (env : CEnv)
  /-- SETVL (R116): Sets vtype and vl from a register count. -/
  | setvl (p : Fin 576) (env : CEnv)
  /-- SETVLI (R116): Sets vtype and vl from an immediate count. -/
  | setvli (p : Fin 576) (env : CEnv)
  /-- SETVLT (R116): Restores vtype and vl from a saved image. -/
  | setvlt (p : Fin 576) (env : CEnv)
  /-- VECTOR_LOAD (R131): Checks every active element address and then loads elements (vld, vlds, vldx, vldb). -/
  | vectorLoad (p : Fin 576) (env : CEnv)
  /-- VECTOR_STORE (R131): Checks every active element address and then stores elements in ascending order. -/
  | vectorStore (p : Fin 576) (env : CEnv)
  /-- VECTOR_INTEGER_OP (R121): Executes an element-wise integer vector operation. -/
  | vectorIntegerOp (p : Fin 576) (env : CEnv)
  /-- VECTOR_FP_OP (R122): Executes an element-wise FP vector operation without exceptions. -/
  | vectorFpOp (p : Fin 576) (env : CEnv)
  /-- VECTOR_COMPARE (R123): Writes a condition vector from an integer or FP compare. -/
  | vectorCompare (p : Fin 576) (env : CEnv)
  /-- VECTOR_SELECT_MOVE (R124): Executes a select, move, vid, broadcast or scalar move between vector and integer registers. -/
  | vectorSelectMove (p : Fin 576) (env : CEnv)
  /-- VECTOR_REDUCTION (R125): Reduces the active elements with a seed into element 0. -/
  | vectorReduction (p : Fin 576) (env : CEnv)
  /-- VECTOR_SCAN (R127): Computes an inclusive, exclusive or segmented scan. -/
  | vectorScan (p : Fin 576) (env : CEnv)
  /-- VECTOR_CONVERSION (R128): Converts elements between formats into a destination register group. -/
  | vectorConversion (p : Fin 576) (env : CEnv)
  /-- VECTOR_PERMUTE (R130): Executes vgather, vcompress or a slide. -/
  | vectorPermute (p : Fin 576) (env : CEnv)
  /-- VEC_POISON (R138): Poisoned data reaching a vector load in its access phase stops the cluster with VEC_POISON. -/
  | vecPoison (p : Fin 576) (env : CEnv)
  /-- MMA (R153): Checks and queues a matrix multiply-accumulate of A and B panels into a tile. -/
  | mma (p : Fin 576) (env : CEnv)
  /-- MMA_COMPLETE (R151): An mma's last k-step issues, freeing its plane, and its tile lands in the register file. -/
  | mmaComplete (p : Fin 576) (deferred : Bool) (env : CEnv)
  /-- MOUT (R154): Checks and queues a drain of a tile through the accumulator output pipeline. -/
  | mout (p : Fin 576) (env : CEnv)
  /-- MOUT_COMPLETE (R171): The output unit finishes a mout and its last write becomes visible. -/
  | moutComplete (p : Fin 576) (deferred : Bool) (env : CEnv)
  /-- MZERO (R155): Sets every byte of a tile to zero. -/
  | mzero (p : Fin 576) (env : CEnv)
  /-- MTRANS (R155): Transposes a tile in the 32-bit view. -/
  | mtrans (p : Fin 576) (env : CEnv)
  /-- MDRAIN (R155): Waits until every earlier matrix instruction has completed. -/
  | mdrain (p : Fin 576) (env : CEnv)
  /-- MAT_POISON (R162): A poisoned fetch by an mma or mout stops the cluster with MAT_POISON. -/
  | matPoison (p : Fin 576) (env : CEnv)
  /-- CANAL_ENABLE (R351): Setting ENABLE of CANAL_CTRL resets the canal's pointers and checks its configuration. -/
  | canalEnable (c : Fin 256) (cfg : Word) (rp : RegPath)
  /-- CANAL_DISABLE (R351): Clearing ENABLE stops fetching while accepted barges run on. -/
  | canalDisable (c : Fin 256) (cfg : Word) (rp : RegPath)
  /-- CANAL_DOORBELL (R352): A doorbell write sets CANAL_TAIL, withdraws unfetched slots or faults the canal. -/
  | canalDoorbell (c : Fin 256) (v : Word) (rp : RegPath)
  /-- CANAL_TALLY_HEAD (R353): A write releases tally slots when within the written range, else sets TALLY_HEAD_BAD. -/
  | canalTallyHead (c : Fin 256) (v : Word) (rp : RegPath)
  /-- BARGE_ACCEPT (R359): Fetches the next barge once a tally slot is free, enters it in the logbook and runs the acceptance checks. -/
  | bargeAccept (c : Fin 256) (ring : List Byte)
  /-- BARGE_START (R361): An accepted barge starts once canal order, fences, tokens, resources and weir admission allow. -/
  | bargeStart (c : Fin 256) (q : Nat)
  /-- BARGE_DEADLINE (R366): A barge's deadline passes: a waiting barge completes DEADLINE_MISSED, a running one acts per Table 12-7. -/
  | bargeDeadline (c : Fin 256) (q : Nat)
  /-- E4_PACKET (R384): Fetches a 64-byte E4 packet, translates it to a class 0x0E barge and groups it into batches. -/
  | e4Packet (c : Fin 256) (ring : List Byte)
  /-- E4_BATCH_WAIT (R385): No next packet arrives within BATCH_WAIT ns, closing the batch. -/
  | e4BatchWait (c : Fin 256)
  /-- NOP (R392): Completes with DONE. -/
  | nop (c : Fin 256) (q : Nat)
  /-- FENCE (R362): Completes once every earlier barge of its canal has completed, holding later ones. -/
  | fence (c : Fin 256) (q : Nat)
  /-- SIGNAL_STORE (R393): SIGNAL OP 0x00 performs a flagged 8-byte store of VALUE to ADDR. -/
  | signalStore (c : Fin 256) (q : Nat) (x : Contest)
  /-- SIGNAL_ADD (R393): SIGNAL OP 0x01 performs an indivisible add to ADDR, returning the old value. -/
  | signalAdd (c : Fin 256) (q : Nat) (ecc : Ecc) (x : Contest)
  /-- WAIT (R394): Reads and watches a word until a condition holds. -/
  | wait (c : Fin 256) (q : Nat) (ecc : Ecc) (x : Contest)
  /-- WAIT_CONDITION_MET (R394): A write to a watched word satisfies a WAIT, which completes with the value. -/
  | waitConditionMet (c : Fin 256) (q : Nat) (ecc : Ecc) (x : Contest)
  /-- WAIT_POLL (R394): A WAIT without a watch entry reads its word again every 128 ns. -/
  | waitPoll (c : Fin 256) (q : Nat) (ecc : Ecc) (x : Contest)
  /-- LOG_QUERY (R432): Copies selected logbook entries into a buffer. -/
  | logQuery (c : Fin 256) (q : Nat) (x : Contest)
  /-- CANAL_DRAIN (R369): Cancels or stops every uncompleted barge accepted earlier on a named canal. -/
  | canalDrain (c : Fin 256) (q : Nat)
  /-- MEM_COPY (R400): Copies a range in 64 KiB chunks, propagating poison. -/
  | memCopy (c : Fin 256) (q k : Nat) (errs : List (Nat × Ecc)) (x : Contest)
  /-- MEM_FILL (R400): Fills a range with an 8-byte pattern. -/
  | memFill (c : Fin 256) (q k : Nat) (x : Contest)
  /-- MEM_SCRUB (R400): Writes zero to a range and reads it back, counting mismatches. -/
  | memScrub (c : Fin 256) (q k : Nat) (errs : List (Nat × Ecc)) (x : Contest)
  /-- MAP_SET (R404): Installs mapping records all or none after the checks of R282. -/
  | mapSet (c : Fin 256) (q : Nat) (x : Contest)
  /-- MAP_CLEAR (R283): Removes the mapping records within a local range. -/
  | mapClear (c : Fin 256) (q : Nat)
  /-- MAP_CLEAR_COMPLETE (R283): Every user of the removed pages has completed and caches are clear, so MAP_CLEAR completes. -/
  | mapClearComplete (c : Fin 256) (q : Nat)
  /-- CARGO_LOAD (R410): Validates a cargo image and pass table and copies it into a cargo store slot. -/
  | cargoLoad (c : Fin 256) (q : Nat) (errs : List (Nat × Ecc)) (x : Contest)
  /-- CARGO_RUN (R413): Places a cargo in the selected clusters' basins, sets the start state and starts them. -/
  | cargoRun (c : Fin 256) (q : Nat)
  /-- CARGO_ARM (R379): Places a cargo, arms its clusters and watches a gate word. -/
  | cargoArm (c : Fin 256) (q : Nat) (ecc : Ecc)
  /-- LOCK_GATE_RELEASE (R380): A write satisfying the gate condition releases the armed clusters within 40 hc. -/
  | lockGateRelease (c : Fin 256) (q : Nat) (ecc : Ecc)
  /-- LOCK_GATE_POLL (R379): A gate without a watch entry reads its word every 256 hc. -/
  | lockGatePoll (c : Fin 256) (q : Nat) (ecc : Ecc)
  /-- CARGO_ABORT (R415): Stops or cancels a target CARGO_RUN or CARGO_ARM. -/
  | cargoAbort (c : Fin 256) (q : Nat)
  /-- CARGO_FREE (R416): Empties a cargo slot and advances its generation. -/
  | cargoFree (c : Fin 256) (q : Nat)
  /-- SOLVE_BATCH (R219): Solves a batch of dense systems by LU or Cholesky, with optional assembly. -/
  | solveBatch (c : Fin 256) (q : Nat) (e : SolveEnv)
  /-- SOLVE_SCHED (R227): Runs a fixed-pattern sparse schedule image by multifrontal factor and solve. -/
  | solveSched (c : Fin 256) (q : Nat) (e : SolveEnv)
  /-- SOLVE_ITER (R233): Solves a sparse system by CG, GMRES or BiCGSTAB. -/
  | solveIter (c : Fin 256) (q : Nat) (e : SolveEnv)
  /-- SOLVE_RESUME (R269): Checks and consumes a resume token and continues a stopped solver chain. -/
  | solveResume (c : Fin 256) (q : Nat) (e : SolveEnv)
  /-- ASSEMBLE (R226): Runs the assembly front stage alone to write outputs. -/
  | assemble (c : Fin 256) (q : Nat) (e : SolveEnv)
  /-- QP_BATCH (R240): Solves a batch of convex QPs by interior-point iterations. -/
  | qpBatch (c : Fin 256) (q : Nat) (e : SolveEnv)
  /-- AXPBY (R321): Near-memory operation writing round(alpha x + beta y). -/
  | axpby (w : NmWho) (errs : List (Nat × Ecc)) (x : Contest)
  /-- MUL (R321): Near-memory element-wise product. -/
  | mul (w : NmWho) (errs : List (Nat × Ecc)) (x : Contest)
  /-- REDUCE (R322): Near-memory sum, max, min or sum of squares in fixed blocks. -/
  | reduce (w : NmWho) (errs : List (Nat × Ecc)) (x : Contest)
  /-- SCAN (R323): Near-memory inclusive, exclusive or segmented scan. -/
  | scan (w : NmWho) (errs : List (Nat × Ecc)) (x : Contest)
  /-- GATHER (R324): Near-memory indexed gather with out-of-range indices counted. -/
  | gather (w : NmWho) (errs : List (Nat × Ecc)) (x : Contest)
  /-- SCATTER (R324): Near-memory indexed scatter, highest index winning. -/
  | scatter (w : NmWho) (errs : List (Nat × Ecc)) (x : Contest)
  /-- SCATTER_ADD (R324): Near-memory indexed add in ascending order. -/
  | scatterAdd (w : NmWho) (errs : List (Nat × Ecc)) (x : Contest)
  /-- BRIDGE_NARROW (R327): Narrows FP64 or FP32 fields into MX or narrow A panels. -/
  | bridgeNarrow (w : NmWho) (errs : List (Nat × Ecc)) (x : Contest)
  /-- BRIDGE_WIDEN (R328): Widens panels back into FP state, optionally adding. -/
  | bridgeWiden (w : NmWho) (errs : List (Nat × Ecc)) (x : Contest)
  /-- DUAL_ORDER_WRITE (R330): Writes forward and transposed B-panel copies of a weight tensor. -/
  | dualOrderWrite (w : NmWho) (errs : List (Nat × Ecc)) (x : Contest)
  /-- DIRTY_ARM (R332): Clears and arms the dirty bits of a granule range. -/
  | dirtyArm (w : NmWho) (errs : List (Nat × Ecc)) (x : Contest)
  /-- DIRTY_COLLECT (R332): Reads and clears dirty bits indivisibly into a bitmap. -/
  | dirtyCollect (w : NmWho) (errs : List (Nat × Ecc)) (x : Contest)
  /-- DIRTY_DISARM (R332): Disarms a granule range. -/
  | dirtyDisarm (w : NmWho) (errs : List (Nat × Ecc)) (x : Contest)
  /-- HASH (R334): Writes SHA-256 digests of selected granules. -/
  | hash (w : NmWho) (errs : List (Nat × Ecc)) (x : Contest)
  /-- NM_OP_COMPLETE (R314): A near-memory operation finishes; the lead engine writes STATUS and the completion add. -/
  | nmOpComplete (n : Nat) (ecc : Ecc) (x : Contest)
  /-- LANDING_SET (R519): Writes one landing-table entry after its checks. -/
  | landingSet (c : Fin 256) (q : Nat)
  /-- LANDING_REVOKE_INDEX (R520): MODE 0x00 removes one landing entry by index. -/
  | landingRevokeIndex (c : Fin 256) (q : Nat)
  /-- LANDING_REVOKE_JOB (R520): MODE 0x01 removes the partition's entries with an equal job tag. -/
  | landingRevokeJob (c : Fin 256) (q : Nat)
  /-- LANDING_REVOKE_JOB_ID (R520): MODE 0x02 removes the partition's entries of a job id, whatever generation. -/
  | landingRevokeJobId (c : Fin 256) (q : Nat)
  /-- COLL_ALLTOALL (R542): Exchanges equal blocks among all communicator members. -/
  | collAlltoall (c : Fin 256) (q : Nat) (errs : List (Nat × Ecc)) (x : Contest)
  /-- COLL_ALLTOALLV (R542): Exchanges variable blocks per send and receive tables. -/
  | collAlltoallv (c : Fin 256) (q : Nat) (errs : List (Nat × Ecc)) (x : Contest)
  /-- COLL_ALLREDUCE_SMALL (R544): Reduces up to 4 KiB over a fixed tree and returns the result to all. -/
  | collAllreduceSmall (c : Fin 256) (q : Nat) (errs : List (Nat × Ecc)) (x : Contest)
  /-- COLL_BCAST (R544): Broadcasts a buffer from the root down a tree. -/
  | collBcast (c : Fin 256) (q : Nat) (errs : List (Nat × Ecc)) (x : Contest)
  /-- COMM_FORM (R530): Forms a communicator slot. -/
  | commForm (c : Fin 256) (q : Nat) (errs : List (Nat × Ecc))
  /-- COMM_SHRINK (R531): Drops ranks from a communicator slot or releases it. -/
  | commShrink (c : Fin 256) (q : Nat) (errs : List (Nat × Ecc))
  /-- COLL_STALL_TIMEOUT (R547): A member waits STALL_MS on a peer and completes with COLL_MEMBER_STALLED, sending ABORT. -/
  | collStallTimeout (k : Fin 64) (j : Nat)
  /-- JOB_LAUNCH_ROOT (R698): Applies the job tag and sends LAUNCH down the member tree. -/
  | jobLaunchRoot (c : Fin 256) (q : Nat) (errs : List (Nat × Ecc))
  /-- JOB_LAUNCH_JOIN (R696): Consents to a job launch and waits for its LAUNCH packet. -/
  | jobLaunchJoin (c : Fin 256) (q : Nat) (errs : List (Nat × Ecc))
  /-- JOB_TEARDOWN_ROOT (R702): Tears down a job across its members by TEARDOWN packets. -/
  | jobTeardownRoot (c : Fin 256) (q : Nat) (errs : List (Nat × Ecc))
  /-- JOB_TEARDOWN_LOCAL (R702): Tears down the job on the own partition only. -/
  | jobTeardownLocal (c : Fin 256) (q : Nat)
  /-- CKPT_BEGIN (R559): Opens a checkpoint stream, optionally formatting the chamber and arming granules. -/
  | ckptBegin (c : Fin 256) (q : Nat) (e : CkptEnv)
  /-- CKPT_DIFF (R560): Copies dirty granules to the chamber and writes staging manifest entries. -/
  | ckptDiff (c : Fin 256) (q : Nat) (e : CkptEnv)
  /-- CKPT_COMMIT (R562): Seals the staging manifest and writes the commit word by flagged stores. -/
  | ckptCommit (c : Fin 256) (q : Nat) (e : CkptEnv)
  /-- CKPT_ABANDON (R564): Discards an open or unknown checkpoint, optionally releasing the slot. -/
  | ckptAbandon (c : Fin 256) (q : Nat)
  /-- SURVEY (R569): Reads every shard's chamber steps and reports the common step. -/
  | ckptSurvey (c : Fin 256) (q : Nat) (e : CkptEnv)
  /-- LOAD (R570): Restores one shard from a chamber after checks, verifying digests. -/
  | ckptLoad (c : Fin 256) (q : Nat) (e : CkptEnv)
  /-- WEIR_SET (R466): Applies power limits, junction target, voltage and idle settings. -/
  | weirSet (c : Fin 256) (q : Nat)
  /-- SLEEP (R456): Checks wake tolerances and enters sleep state S1 to S4. -/
  | sleep (c : Fin 256) (q : Nat)
  /-- DOMAIN_ENABLE (R464): Powers a reach, C-die core or port domain. -/
  | domainEnable (c : Fin 256) (q : Nat)
  /-- DOMAIN_DISABLE (R463): Waits for quiescence, scrubs and switches off a power domain. -/
  | domainDisable (c : Fin 256) (q : Nat)
  /-- PART_CREATE (R475): Creates a live partition with its reaches, canals and guarantees. -/
  | partCreate (c : Fin 256) (q : Nat)
  /-- PART_DESTROY (R478): Drains, scrubs and releases a partition. -/
  | partDestroy (c : Fin 256) (q : Nat)
  /-- KEY_LOAD_MK (R612): Unwraps and installs the machine key. -/
  | keyLoadMk (c : Fin 256) (q : Nat)
  /-- KEY_LOAD_CK (R612): Unwraps and installs a partition's checkpoint key. -/
  | keyLoadCk (c : Fin 256) (q : Nat)
  /-- KEY_CLEAR_CK (R612): Clears a partition's checkpoint key. -/
  | keyClearCk (c : Fin 256) (q : Nat)
  /-- KEY_CLEAR_MK (R612): Clears the machine key. -/
  | keyClearMk (c : Fin 256) (q : Nat)
  /-- ATTEST (R614): Writes and signs an attestation report. -/
  | attest (c : Fin 256) (q : Nat) (x : Contest)
  /-- ROAST_STAGE (R610): OP 0x01 verifies a roast and writes it to the standby's staging slot. -/
  | roastStage (c : Fin 256) (q : Nat) (errs : List (Nat × Ecc)) (x : Contest)
  /-- RAISE_FLOOR (R610): OP 0x02 blows fuses to raise SVN_FLOOR. -/
  | raiseFloor (c : Fin 256) (q : Nat)
  /-- ROAST_SWITCH_LOAD (R597): Boots the staged roast on the standby P-die. -/
  | roastSwitchLoad (c : Fin 256) (q : Nat)
  /-- HANDOVER (R597): Swaps the active and standby P-dies. -/
  | handover (c : Fin 256) (q : Nat)
  /-- DIAG_CUPPING (R417): Cups named reaches in service. -/
  | diagCupping (c : Fin 256) (q : Nat) (cup : List (Nat × Cupping))
  /-- SPARE_SUBSTITUTE (R418): Substitutes a spare for a named cluster, channel or port. -/
  | spareSubstitute (c : Fin 256) (q : Nat)
  /-- ERR_QUERY (R419): Copies retained error records into a buffer. -/
  | errQuery (c : Fin 256) (q : Nat) (x : Contest)
  /-- PACE_REQ (R48): A TIMING_CTRL write of PACE_REQ requests paced or free mode for a reach. -/
  | paceReq (r : Fin 64) (v : Bool) (rp : RegPath)
  /-- ORDER_REQ (R53): A TIMING_CTRL write of ORDER_REQ requests ordered or free arbitration. -/
  | orderReq (r : Fin 64) (v : Bool) (rp : RegPath)
  /-- TIMING_MODE_CHANGE (R48): Once the reach is quiescent the requested mode change runs per Table 2-3. -/
  | timingModeChange (r : Fin 64)
  /-- HC_RATE_UPDATE (R45): Every 1 µs the monitors derive the free rate and update HC_RATE. -/
  | hcRateUpdate (r : Fin 64) (rate : BitVec 16)
  /-- PACING_SLIP (R49): A paced stage misses a pacing edge and PACE_SLIP_COUNT rises. -/
  | pacingSlip (r : Fin 64)
  /-- PACING_LOCK_LOSS (R49): The pacing clock loses lock and paced reaches continue in free mode. -/
  | pacingLockLoss
  /-- PACING_LOCK_REGAINED (R49): Lock is regained and reaches return to paced mode from step 2 of Table 2-3. -/
  | pacingLockRegained
  /-- PART_CTRL_WRITE (R486): A write of CLASS_REQ or DLB_OFF requests a class or balancing change. -/
  | partCtrlWrite (p : Fin 8) (v : Word) (rp : RegPath)
  /-- PART_CLAIM_WRITE (R486): A write sets the partition's claim line, deferred like PART_CTRL. -/
  | partClaimWrite (p : Fin 8) (v : Word) (rp : RegPath)
  /-- PART_CHANGE_EFFECT (R486): Once reaches are quiescent and no barge runs, the pending partition change takes effect. -/
  | partChangeEffect (p : Fin 8)
  /-- MEM_INTERLEAVE_WRITE (R280): Applies interleave mode bits of groups with no mapping. -/
  | memInterleaveWrite (k : Fin 16) (v : Word) (rp : RegPath)
  /-- WEIR_TICK (R442): Every 10 µs the weir measures power, updates the bucket and allowed power, and holds admission or lowers VCORE. -/
  | weirTick (e : WeirEnv)
  /-- VMODE_ADJUST (R450): Every 100 µs with VMODE 0b01 the weir raises or lowers the VCORE target by 5 mV. -/
  | vmodeAdjust (d : Fin 4)
  /-- ISSUE_GUARD (R445): Core rail current above 1,300 A for 1 µs limits k-step issue. -/
  | issueGuard (d : Fin 4)
  /-- IDLE_DROP (R452): After IDLE_DROP_US without issue the weir lowers a C-die toward VIDLE. -/
  | idleDrop (d : Fin 4)
  /-- REACH_RETAIN (R453): A reach quiet for 100 µs enters the retained depth. -/
  | reachRetain (r : Fin 64)
  /-- REACH_WAKE (R454): A barge or basin access wakes a retained reach. -/
  | reachWake (r : Fin 64)
  /-- LATENCY_CEILING (R479): A barge waits LAT_CEIL µs for admission and is admitted or the ceiling yields. -/
  | latencyCeiling (c : Fin 256) (q : Nat)
  /-- THERMAL_TRIP (R451): A die or DRAM at 115 °C stops every cluster and asserts THERMTRIP_N. -/
  | thermalTrip
  /-- DRAM_OVER_110 (R451): A stack at 110 °C accepts no new access. -/
  | dramOver110 (st : Fin 32)
  /-- DRAM_OVER_105 (R451): A stack above 105 °C serves at half rate. -/
  | dramOver105 (st : Fin 32) (parts : BitVec 8) (waiting : List (Nat × Nat))
  /-- CDIE_OVER_105 (R451): A C-die junction at 105 °C ramps VCORE to 0.60 V and ends pacing. -/
  | cdieOver105 (d : Fin 4)
  /-- FPDIE_OVER_105 (R451): An F-die or P-die at 105 °C holds admission of class 0x05 barges. -/
  | fpdieOver105 (k : Fin 4)
  /-- TJ_TARGET_EXCEEDED (R451): The hottest C-die junction above TJ_TARGET lowers VCORE by 5 mV each 100 µs. -/
  | tjTargetExceeded (d : Fin 4)
  /-- THERMAL_RESPONSE_END (R451): A temperature falls below its release point and its response ends. -/
  | thermalResponseEnd (h : HeatAt)
  /-- REFRESH_BAND_CHANGE (R286): DRAM temperature crosses a band threshold and the refresh interval changes. -/
  | refreshBandChange (st : Fin 32) (temp : BitVec 8)
  /-- REFRESH (R286): A refresh interval elapses and the base die refreshes a bank. -/
  | refresh (st : Fin 32)
  /-- REFRESH_MANAGEMENT (R336): A bank's activate count reaches the threshold and it takes refresh management. -/
  | refreshManagement (st : Fin 32)
  /-- PATROL_SCRUB (R335): The base die reads the next stack line of its scrub pass and corrects or poisons it. -/
  | patrolScrub (st : Fin 32) (half : Fin 2) (ecc : Ecc)
  /-- SELF_REFRESH_SCRUB_BURST (R337): Every 10 s in S4 the stack leaves self-refresh to scrub. -/
  | selfRefreshScrubBurst (st : Fin 32) (lines : List (Fin 2 × Ecc))
  /-- CHANNEL_COPY_COMPLETE (R275): The base die completes copying a channel into its spare. -/
  | channelCopyComplete (st : Fin 32)
  /-- RESIDUE_MISMATCH (R577): A residue check fails and the group is recomputed once. -/
  | residueMismatch (w : ResidueAt) (again : Bool)
  /-- LOCKSTEP_MISMATCH (R577): Duplicated logic disagrees and the engine fails. -/
  | lockstepMismatch (w : LockstepAt)
  /-- SUBSTITUTION_RESUME (R582): After the copy and flash writes, the map changes and the spare re-executes its issue log. -/
  | substitutionResume (p : Fin 576) (hc : Nat)
  /-- DIE_LINK_LOST (R591): A die-to-die link fails its replays or acknowledgements and traffic reroutes. -/
  | dieLinkLost (l : Fin 54) (ops : List Nat)
  /-- TOWPATH_BREAK (R592): A towpath segment gives no response for 100 µs and management reroutes. -/
  | towpathBreak (g : Fin 40)
  /-- HEARTBEAT_MISS (R595): The standby misses three heartbeats and takes over as in Table 20-6. -/
  | heartbeatMiss
  /-- RAIL_FAULT (R664): A package-controlled power module faults or deviates for 200 µs and its units are failed. -/
  | railFault (r : Rail)
  /-- VCORE_UNDERVOLT (R663): VCORE falls below 0.55 V, voiding correctness of the C-die. -/
  | vcoreUndervolt (d : Fin 4)
  /-- BOARD_RAIL_OUT_OF_RANGE (R665): A board rail leaves its operating range while RESET_N is high. -/
  | boardRailOutOfRange
  /-- WAKE_EVENT (R459): A doorbell, acceptance, WEIR_WAKE, I3C wake or access starts exit from sleep. -/
  | wakeEvent
  /-- WEIR_WAKE (R467): A write of 1 to bit 0 is a wake event. -/
  | weirWake (v : Word) (rp : RegPath)
  /-- FLIT_RECEIVE (R494): A link flit arrives, is FEC-corrected, CRC-checked and its packets extracted. -/
  | flitReceive (k : Fin 18) (f : Flit) (errs : List (Nat × Ecc)) (x : Contest)
  /-- REPLAY_REQUEST (R496): A replay request makes the transmitter resend unacknowledged flits. -/
  | replayRequest (k : Fin 18) (ack : BitVec 16)
  /-- LINK_NOTICE (R500): A moor or going-down notice marks the link moored or lost. -/
  | linkNotice (k : Fin 18) (code : BitVec 8)
  /-- LINK_LOSS (R498): Lock loss for 1 ms or 16 replays loses a link. -/
  | linkLoss (k : Fin 18) (replays : Bool)
  /-- LINK_TRAINING (R498): A lost link attempts training once per second. -/
  | linkTraining (k : Fin 18)
  /-- LINK_TRAINING_COMPLETE (R498): Training completes with partner identity and key check. -/
  | linkTrainingComplete (k : Fin 18) (t : Training)
  /-- LANE_FAILURE (R497): A failed lane makes the link retrain at x2. -/
  | laneFailure (k : Fin 18) (lane : Fin 4) (lock : Bool) (symbols : Word)
  /-- PACKET_FORWARD (R502): A packet for another node is forwarded by its route entry. -/
  | packetForward (k : Fin 18) (p : Packet)
  /-- READ8 (R513): A remote 8-byte read passes landing lookup and is answered. -/
  | read8 (k : Fin 18) (p : Packet) (errs : List (Nat × Ecc)) (x : Contest)
  /-- WRITE8 (R513): A remote 8-byte store is landed and acknowledged once visible. -/
  | write8 (k : Fin 18) (p : Packet) (errs : List (Nat × Ecc)) (x : Contest)
  /-- FLAG8 (R514): A remote flagged store is performed after earlier stores of its unit, or withheld. -/
  | flag8 (k : Fin 18) (p : Packet) (errs : List (Nat × Ecc)) (x : Contest)
  /-- READ_LINES (R513): A remote read of up to 32 lines is landed and answered. -/
  | readLines (k : Fin 18) (p : Packet) (errs : List (Nat × Ecc)) (x : Contest)
  /-- WRITE_LINES (R513): A remote write of up to 32 lines is landed. -/
  | writeLines (k : Fin 18) (p : Packet) (errs : List (Nat × Ecc)) (x : Contest)
  /-- ACK (R513): An acknowledgement retires covered requests and lowers CW_REMOTE_OUT. -/
  | ack (k : Fin 18) (p : Packet)
  /-- NACK (R511): A rejection reports its code as a trap, deferred fault or barge status. -/
  | nack (k : Fin 18) (p : Packet)
  /-- READ_RESP (R516): A read response writes data to the requester, with poison where marked. -/
  | readResp (k : Fin 18) (p : Packet)
  /-- RETX_TIMEOUT (R507): An uncovered request is resent after RETX_US. -/
  | retxTimeout (node : BitVec 16) (vc : Fin 4) (seq : BitVec 32)
  /-- REPLY_TIMEOUT (R508): After REPLY_US every outstanding request of the node pair is abandoned. -/
  | replyTimeout (node : BitVec 16) (vc : Fin 4) (seq : BitVec 32)
  /-- NOTICE (R508): A RESYNC notice sets a new SEQ base for a node pair. -/
  | linkResync (k : Fin 18) (p : Packet) (errs : List (Nat × Ecc)) (x : Contest)
  /-- TIME (R522): A TIME packet exchange measures link delay and slews the timebase. -/
  | timePacket (k : Fin 18) (master : BitVec 16) (hops : BitVec 6) (offset : BitVec 32)
  /-- DATA (R537): A collective DATA packet is checked and lands or is combined. -/
  | collData (k : Fin 18) (p : Packet) (errs : List (Nat × Ecc)) (x : Contest)
  /-- READY (R539): A READY is held for the peer's next collective. -/
  | collReady (k : Fin 18) (p : Packet) (errs : List (Nat × Ecc)) (x : Contest)
  /-- END (R539): An END closes a peer's data stream. -/
  | collEnd (k : Fin 18) (p : Packet) (errs : List (Nat × Ecc)) (x : Contest)
  /-- ABORT (R547): A collective ABORT completes the running collective and is forwarded. -/
  | collAbort (k : Fin 18) (p : Packet) (errs : List (Nat × Ecc)) (x : Contest)
  /-- LAUNCH (R699): A LAUNCH is applied or refused and forwarded to children. -/
  | jobLaunchPacket (k : Fin 18) (p : Packet)
  /-- REPORT (R700): A REPORT collects a subtree's applied and lost ranks. -/
  | jobReport (k : Fin 18) (p : Packet)
  /-- JOB_ABORT_PACKET (R701): A job ABORT invalidates the applied tag and is forwarded. -/
  | jobAbortPacket (k : Fin 18) (p : Packet)
  /-- TEARDOWN (R702): A TEARDOWN invalidates the job tag, revokes entries and is forwarded. -/
  | jobTeardownPacket (k : Fin 18) (p : Packet)
  /-- REG (R706): A REG packet reads or authenticated-writes a window-0 register. -/
  | regPacket (k : Fin 18) (p : Packet)
  /-- ROUTE_DATA_WRITE (R502): Writes a route entry in both F-dies and compares table digests. -/
  | routeDataWrite (v : Word) (rp : RegPath)
  /-- FABRIC_NODE_WRITE (R501): Assigns the node id unless a job tag is valid. -/
  | fabricNodeWrite (v : Word) (rp : RegPath)
  /-- FABRIC_TIMERS_WRITE (R508): Sets RETX_US and REPLY_US when consistent. -/
  | fabricTimersWrite (v : Word) (rp : RegPath)
  /-- MASTER (R522): A TIME_STATUS write of MASTER makes the package time master. -/
  | timeMaster (on : Bool) (rp : RegPath)
  /-- LINK_ENC (R606): A SEC_CTRL write of LINK_ENC selects encryption at next training. -/
  | linkEnc (on : Bool) (rp : RegPath)
  /-- DEBUG_LOCK (R616): A SEC_CTRL write of DEBUG_LOCK locks TAP debug instructions. -/
  | debugLock (rp : RegPath)
  /-- APPROVED_REQ (R615): A SEC_CTRL write of APPROVED_REQ enters approved mode or is refused. -/
  | approvedReq (rp : RegPath)
  /-- SEC_ZEROISE (R617): Writing 0x5EC0 then 0x0ED5 within 10 µs triggers zeroisation. -/
  | secZeroise (v : Word) (rp : RegPath)
  /-- LID_MESH_OPEN (R617): The lid seal mesh opens and the package zeroises. -/
  | lidMeshOpen
  /-- ZEROISE_INPUT (R617): The ZEROISE input asserted for 1 µs zeroises the package. -/
  | zeroiseInput
  /-- AON_RAIL_EXCURSION (R617): The always-on rail leaves ±8 % for 50 ns, recorded or zeroising. -/
  | aonRailExcursion
  /-- PDIE_COLD (R617): A P-die junction below −25 °C, recorded or zeroising. -/
  | pdieCold
  /-- SELFTEST_FAILURE (R608): A continuous DRBG or entropy test fails and the module enters the error state. -/
  | selftestFailure
  /-- ALWAYS_ON_RAIL_RISE (R623): The always-on rail rises, starting a cold level-7 reset. -/
  | alwaysOnRailRise
  /-- RESET_N (R628): RESET_N asserted for 50 ns or more resets the package at level 7. -/
  | resetN (pulse : Option Nat) (opt : Bool)
  /-- BOOT (R634): The last level-7 reset releases and the boot sequence runs. -/
  | boot (e : BootEnv)
  /-- PERST_A_N (R626): PERST_A_N resets P-die A's host port at its fused level. -/
  | perstAN
  /-- PERST_B_N (R626): PERST_B_N resets P-die B's host port at its fused level. -/
  | perstBN
  /-- PCIE_HOT_RESET (R646): A hot reset, link down or PF Function Level Reset resets a host port at level 3. -/
  | pcieHotReset (k : Fin 2)
  /-- VF_FLR (R646): A VF Function Level Reset clears the VF and faults its partition's canals on that port. -/
  | vfFlr (k : Fin 2) (p : Fin 8)
  /-- RESET_CTRL (R640): A keyed write requests a reset of a unit or is refused. -/
  | resetCtrl (v : Word) (rp : RegPath)
  /-- RECOVERY_GO (R649): Writing GO verifies a recovery roast in the buffer. -/
  | recoveryGo (k : Fin 2) (bytes : BitVec 32)
  /-- RECOVERY_TIMEOUT (R649): 60 s without an authentic recovery roast stops the P-die. -/
  | recoveryTimeout (k : Fin 2)
  /-- PCIE_RETRAIN (R641): A port that cannot train repeats training every 100 ms. -/
  | pcieRetrain (k : Fin 2) (link : Option (Bool × Bool))
  /-- PCIE_COMPLETION_ERROR (R644): A ring read or tally write fails on PCIe and the canal faults. -/
  | pcieCompletionError (c : Fin 256) (tally : Bool)
  /-- WINDOW4_ACCESS (R643): A host read or write of device memory through window 4 is translated and performed. -/
  | window4Access (k : Fin 2) (w : Win4) (errs : List (Nat × Ecc)) (x : Contest)
  /-- REFCLK_LOSS (R670): Loss of a PCIe reference switches pacing and timebase to the other clock. -/
  | refclkLoss (k : Fin 2)
  /-- SREFCLK_LOSS (R670): Loss of a SerDes reference loses its F-die's links. -/
  | srefclkLoss (f : Fin 2)
  /-- AON_CLK_LOSS (R670): Loss of an always-on reference moves its island to the other or an internal oscillator. -/
  | aonClkLoss (k : Fin 2)
  /-- ENTDAA (R650): I3C dynamic address assignment moves the port to I3C mode. -/
  | entdaa (k : Fin 2) (addr : BitVec 7)
  /-- SETDASA (R650): I3C static-to-dynamic address assignment moves the port to I3C mode. -/
  | setdasa (k : Fin 2) (addr : BitVec 7)
  /-- RSTDAA (R650): Resets the dynamic address and returns the port to SMBus mode. -/
  | rstdaa (k : Fin 2)
  /-- ENEC (R652): Enables in-band interrupt events. -/
  | enec (k : Fin 2)
  /-- DISEC (R650): Disables in-band interrupt events. -/
  | disec (k : Fin 2)
  /-- GETPID (R650): Returns the provisioned ID. -/
  | getpid (k : Fin 2)
  /-- GETBCR (R650): Returns the bus characteristics register. -/
  | getbcr (k : Fin 2)
  /-- GETDCR (R650): Returns the device characteristics register. -/
  | getdcr (k : Fin 2)
  /-- GETSTATUS (R650): Returns target status. -/
  | getstatus (k : Fin 2)
  /-- GETMWL (R650): Returns the maximum write length. -/
  | getmwl (k : Fin 2)
  /-- GETMRL (R650): Returns the maximum read length. -/
  | getmrl (k : Fin 2)
  /-- SETMWL (R650): Sets the maximum write length. -/
  | setmwl (k : Fin 2) (n : BitVec 16)
  /-- SETMRL (R650): Sets the maximum read length. -/
  | setmrl (k : Fin 2) (n : BitVec 16)
  /-- RSTACT (R626): An I3C reset action resets the package or P-die at its fused level. -/
  | rstact (k : Fin 2)
  /-- REG_READ (R651): A vendor MCTP message reads one window-0 register. -/
  | regRead (k : Fin 2) (off : BitVec 26)
  /-- REG_WRITE (R651): A vendor MCTP message writes one window-0 register. -/
  | regWrite (k : Fin 2) (off : BitVec 26) (v : Word)
  /-- GET_VERSION (R613): SPDM version negotiation request. -/
  | getVersion (k : Fin 2)
  /-- GET_CAPABILITIES (R613): SPDM capabilities request. -/
  | getCapabilities (k : Fin 2)
  /-- NEGOTIATE_ALGORITHMS (R613): SPDM algorithm negotiation. -/
  | negotiateAlgorithms (k : Fin 2)
  /-- GET_DIGESTS (R613): Returns certificate chain digests. -/
  | getDigests (k : Fin 2)
  /-- GET_CERTIFICATE (R613): Returns an identity certificate chain. -/
  | getCertificate (k : Fin 2) (slot : Nat)
  /-- CHALLENGE (R613): Signs a challenge with the identity key. -/
  | challenge (k : Fin 2)
  /-- GET_MEASUREMENTS (R613): Returns the measurement indices. -/
  | getMeasurements (k : Fin 2) (index : Fin 6) (signed : Bool)
  /-- KEY_EXCHANGE (R613): Begins an SPDM session by ECDH key exchange. -/
  | keyExchange (k : Fin 2) (id : BitVec 32) (both : Bool)
  /-- FINISH (R613): Completes SPDM session establishment. -/
  | finish (k : Fin 2) (id : BitVec 32) (ok : Bool)
  /-- HEARTBEAT (R613): SPDM session heartbeat. -/
  | heartbeat (k : Fin 2) (id : BitVec 32)
  /-- KEY_UPDATE (R613): Updates SPDM session keys. -/
  | keyUpdate (k : Fin 2) (id : BitVec 32)
  /-- END_SESSION (R613): Ends an SPDM session and destroys its keys. -/
  | endSession (k : Fin 2) (id : BitVec 32)
  /-- BYPASS (R653): TAP bypass instruction. -/
  | bypass
  /-- IDCODE (R653): TAP instruction returning IDCODE 0x10E6_A1F5. -/
  | idcode
  /-- SAMPLE_PRELOAD (R653): TAP boundary-register sample and preload. -/
  | samplePreload
  /-- EXTEST (R653): Boundary-scan external test while RESET_N is low. -/
  | extest
  /-- EXTEST_PULSE (R653): IEEE 1149.6 pulse test of AC-coupled lanes while RESET_N is low. -/
  | extestPulse
  /-- EXTEST_TRAIN (R653): IEEE 1149.6 train test of AC-coupled lanes while RESET_N is low. -/
  | extestTrain
  /-- CLAMP (R653): Holds boundary outputs while selecting bypass, with RESET_N low. -/
  | clamp
  /-- HIGHZ (R653): Places outputs in high impedance, with RESET_N low. -/
  | highz
  /-- TAP_DEBUG_INSTRUCTION (R617): A Kwawiot debug instruction runs, or acts as BYPASS and is recorded as tamper while locked. -/
  | tapDebugInstruction
  /-- TRST_N (R626): TRST_N resets only the TAP controller. -/
  | trstN
  /-- REGISTER_WRITE (R683): A write to a register without behaviour of its own applies field access rules, dropping narrow or reserved writes into GLOBAL_ACCESS_ERR. -/
  | registerWrite (w : WriteAt)
  /-- BARGE_COMPLETION (R426): The work of a started barge ends (solver problems or fronts done, memory chunks written, cupping, placement, shut-down or scrub finished), and the package enters its COMPLETE entry and writes its tally. -/
  | bargeCompletion (c : Fin 256) (q : Nat) (fail : Bool) (ecc : Ecc) (x : Contest)
  /-- ISSUE_GUARD_END (R445): The core rail current falls below 1,250 A and the die's matrix arrays return to full k-step issue. -/
  | issueGuardEnd (d : Fin 4)
  /-- WATCHDOG_EXPIRY (R595): The active P-die's watchdog expires, and the failure report makes the standby take over and the failed P-die reset at level 6. -/
  | watchdogExpiry
  deriving DecidableEq, Repr

end Sys2Proof
end

