-- ==== Sys2Proof/Decode.lean ====
section
/-! DEFINITION. The decoder of the opcode table's words. The table gives no row any bits (its rows are the commands and
events of a package, not encodings), so no word spells a command. The instruction words of the clusters are decoded in
Machine/Operands.lean, from the encodings of R78, R118 and R152. -/

namespace Sys2Proof

/-- The command that a word of the opcode table spells: none, since no row of the table has bits.
(DESIGN CHOICE, log entry 1.) -/
def decodeTableWord (_nbits _w : Nat) : Option Instr := none

end Sys2Proof
end

