-- ==== Sys2Proof/Machine/Bits.lean ====
section
/-! DEFINITION. Bit fields, sign extension and byte order (R7): every multi-byte field is little-endian, and bit 0 is
the least significant. -/

namespace Sys2Proof.Machine

/-- Bits [hi:lo] of a natural number. -/
def bitsOf (n hi lo : Nat) : Nat := n / 2 ^ lo % 2 ^ (hi + 1 - lo)

/-- Bit `k` of a natural number. -/
def bitOf (n k : Nat) : Bool := n / 2 ^ k % 2 == 1

/-- `n` with bits [hi:lo] replaced by the low bits of `v`. -/
def withBits (n hi lo v : Nat) : Nat :=
  n / 2 ^ (hi + 1) * 2 ^ (hi + 1) + v % 2 ^ (hi + 1 - lo) * 2 ^ lo + n % 2 ^ lo

/-- The number that a Bool stands for in a one-bit field. -/
def b2n (b : Bool) : Nat := if b then 1 else 0

/-- The low `w` bits of `n` read as a signed number. -/
def signedOf (w n : Nat) : Int :=
  if 2 ^ (w - 1) ≤ n % 2 ^ w then (n % 2 ^ w : Nat) - (2 ^ w : Nat) else (n % 2 ^ w : Nat)

/-- An integer modulo 2^w. -/
def wrapInt (w : Nat) (i : Int) : Nat := (i % (2 ^ w : Nat)).toNat

/-- The low `w` bits of `n`, sign-extended to 64 bits. -/
def sext64 (w n : Nat) : Word := BitVec.ofInt 64 (signedOf w n)

/-- The `k` low bytes of `n`, lowest first (R7). -/
def bytesLE : Nat → Nat → List Byte
  | 0, _ => []
  | k + 1, n => BitVec.ofNat 8 n :: bytesLE k (n / 256)

/-- A byte string read as a little-endian number (R7). -/
def numLE : List Byte → Nat
  | [] => 0
  | b :: bs => b.toNat + 256 * numLE bs

/-- A byte string read as a big-endian number (R707). -/
def numBE (bs : List Byte) : Nat := bs.foldl (fun n b => n * 256 + b.toNat) 0

/-- The `k` low bytes of `n`, highest first. -/
def bytesBE (k n : Nat) : List Byte := (bytesLE k n).reverse

/-- Bytes `lo` to `lo + k - 1` of a byte string, zero beyond its end. -/
def sliceB (bs : List Byte) (lo k : Nat) : List Byte :=
  let t := (bs.drop lo).take k
  t ++ List.replicate (k - t.length) 0

/-- Bytes [hi:lo] of a byte string as a little-endian number. -/
def fieldB (bs : List Byte) (hi lo : Nat) : Nat := numLE (sliceB bs lo (hi + 1 - lo))

/-- Does every byte from `lo` to `hi` hold zero? -/
def zeroB (bs : List Byte) (hi lo : Nat) : Bool := (sliceB bs lo (hi + 1 - lo)).all (· == 0)

/-- A byte string with bytes `lo`… replaced by `new`. -/
def patchB (bs : List Byte) (lo : Nat) (new : List Byte) : List Byte :=
  let t := bs.take lo
  t ++ List.replicate (lo - t.length) 0 ++ new ++ bs.drop (lo + new.length)

/-- `n` rounded down, and up, to a multiple of `k`. -/
def alignDown (n k : Nat) : Nat := n / k * k

def alignUp (n k : Nat) : Nat := (n + k - 1) / k * k

/-- The number of bits of `n`: 0 for 0. -/
def bitLen (n : Nat) : Nat := if n == 0 then 0 else Nat.log2 n + 1

/-- ceil(a / b). -/
def ceilDiv (a b : Nat) : Nat := (a + b - 1) / b

/-- The number of set bits among the low `w` bits. -/
def popCount : Nat → Nat → Nat
  | 0, _ => 0
  | w + 1, n => n % 2 + popCount w (n / 2)

/-- The positions of the set bits among the low `w` bits, ascending. -/
def setBits (w n : Nat) : List Nat := (List.range w).filter (bitOf n)

/-- The mask with a bit for each listed position. -/
def maskOf (l : List Nat) : Nat := l.foldl (fun m k => m ||| 2 ^ k) 0

end Sys2Proof.Machine
end

