-- ==== Sys2Proof/Machine/Registers.lean ====
section
/-! DEFINITION. The register map of window 0 (R678 to R692, Table 25-11): the address of every register, the bit
fields that its chapter's table gives it, and the access type and the reset value of each field. -/

namespace Sys2Proof.Machine

/-- What a write does to a field (R10, R683). -/
inductive Access where
  | ro    -- ignores writes
  | rw    -- takes the written value
  | w1c   -- clears where the written value holds 1
  | wo    -- acts on the write and reads as zero
  | rwo   -- takes the first written value that differs from its reset value
  deriving DecidableEq, Repr

/-- Which resets return a register to its reset value (R624 and the register chapters). -/
inductive ResetScope where
  | level7   -- every reset that reaches level 7
  | cold     -- a cold reset only
  | alwaysOn -- only when the always-on rail is applied (R621)
  | fixed    -- fixed for the part (R690)
  | store    -- follows a store that outlives resets (R600, R423)
  | reach    -- every reset that reaches the reach
  | cluster  -- every reset that reaches the cluster
  | stack    -- every reset that reaches the stack
  | hostPort -- level 7, and a level-3 reset of the host port (R655)
  deriving DecidableEq, Repr

/-- A bit field [hi:lo] of a 64-bit register. -/
structure Fld where
  hi : Nat
  lo : Nat
  deriving DecidableEq, Repr

/-- A field with its access type and its reset value. -/
structure FieldSpec where
  hi    : Nat
  lo    : Nat
  acc   : Access
  reset : Nat
  deriving DecidableEq, Repr

/-- One row of the register index: `count` registers from `base`, `stride` bytes apart. -/
structure RegRow where
  name   : String
  base   : Nat
  stride : Nat
  count  : Nat
  scope  : ResetScope
  fields : List FieldSpec
  deriving DecidableEq, Repr


/-! Register addresses (Table 25-11). -/

/-- PKG_ID (R691, Table 25-7). -/
def Reg.pkgId : Nat := 0x00000000
/-- PKG_SERIAL. -/
def Reg.pkgSerial : Nat := 0x00000008
/-- PKG_CAPS (R691, Table 25-8). -/
def Reg.pkgCaps : Nat := 0x00000010
/-- GLOBAL_TIME. -/
def Reg.globalTime : Nat := 0x00000018
/-- VIEW_INFO (R691, Table 25-9). -/
def Reg.viewInfo : Nat := 0x00000020
/-- GLOBAL_ACCESS_ERR (R691, Table 25-10). -/
def Reg.globalAccessErr : Nat := 0x00000028
/-- GLOBAL_SCRATCH, one of 8. -/
def Reg.globalScratch (k : Nat) : Nat := 0x00000100 + 0x8 * k
/-- RESET_CAUSE (R639, Table 22-7). -/
def Reg.resetCause : Nat := 0x00010000
/-- STRAP_LATCH (R639, Table 22-8). -/
def Reg.strapLatch : Nat := 0x00010008
/-- RESET_FUSE (R639, Table 22-9). -/
def Reg.resetFuse : Nat := 0x00010010
/-- BOOT_STATUS (R639, Table 22-10), one of 2. -/
def Reg.bootStatus (k : Nat) : Nat := 0x00010020 + 0x8 * k
/-- RESET_CTRL. -/
def Reg.resetCtrl : Nat := 0x00010030
/-- RESET_REQ_STATUS (R640, Table 22-11). -/
def Reg.resetReqStatus : Nat := 0x00010038
/-- WEIR_STATUS (R468, Table 15-11). -/
def Reg.weirStatus : Nat := 0x00020000
/-- WEIR_LIMITS (R468, Table 15-12). -/
def Reg.weirLimits : Nat := 0x00020008
/-- WEIR_POWER. -/
def Reg.weirPower : Nat := 0x00020010
/-- WEIR_BUCKET. -/
def Reg.weirBucket : Nat := 0x00020018
/-- WEIR_WAKE. -/
def Reg.weirWake : Nat := 0x00020020
/-- VCORE_CTRL (R468, Table 15-13), one of 4. -/
def Reg.vcoreCtrl (k : Nat) : Nat := 0x00020100 + 0x8 * k
/-- VCORE_STATUS (R469, Table 15-14), one of 4. -/
def Reg.vcoreStatus (k : Nat) : Nat := 0x00020140 + 0x8 * k
/-- REACH_DEPTH (R469, Table 15-15), one of 64. -/
def Reg.reachDepth (k : Nat) : Nat := 0x00020200 + 0x8 * k
/-- PORT_POWER, one of 2. -/
def Reg.portPower (k : Nat) : Nat := 0x00020400 + 0x8 * k
/-- WAKE_TOLERANCE, one of 8. -/
def Reg.wakeTolerance (k : Nat) : Nat := 0x00020500 + 0x8 * k
/-- THROTTLE_COUNT, one of 8. -/
def Reg.throttleCount (k : Nat) : Nat := 0x00020600 + 0x8 * k
/-- PART_STATE (R491, Table 16-8), one of 8. -/
def Reg.partState (k : Nat) : Nat := 0x00030000 + 0x100 * k
/-- PART_REACHES, one of 8. -/
def Reg.partReaches (k : Nat) : Nat := 0x00030008 + 0x100 * k
/-- PART_CTRL (R491, Table 16-9), one of 8. -/
def Reg.partCtrl (k : Nat) : Nat := 0x00030010 + 0x100 * k
/-- PART_GUARANTEE (R491, Table 16-10), one of 8. -/
def Reg.partGuarantee (k : Nat) : Nat := 0x00030018 + 0x100 * k
/-- BASIS_DIGEST, one of 8. -/
def Reg.basisDigest (k : Nat) : Nat := 0x00030020 + 0x100 * k
/-- CHOICE_COUNT, one of 8. -/
def Reg.choiceCount (k : Nat) : Nat := 0x00030028 + 0x100 * k
/-- YIELD_COUNT, one of 8. -/
def Reg.yieldCount (k : Nat) : Nat := 0x00030030 + 0x100 * k
/-- PART_YIELD (R491, Table 16-11), one of 8. -/
def Reg.partYield (k : Nat) : Nat := 0x00030038 + 0x100 * k
/-- PART_CLAIM (R491, Table 16-12), one of 8. -/
def Reg.partClaim (k : Nat) : Nat := 0x00030040 + 0x100 * k
/-- CANAL_CTRL (R349, Table 12-2), one of 256. -/
def Reg.canalCtrl (k : Nat) : Nat := 0x00040000 + 0x100 * k
/-- CANAL_RING, one of 256. -/
def Reg.canalRing (k : Nat) : Nat := 0x00040008 + 0x100 * k
/-- CANAL_TALLY_RING, one of 256. -/
def Reg.canalTallyRing (k : Nat) : Nat := 0x00040010 + 0x100 * k
/-- CANAL_HEAD, one of 256. -/
def Reg.canalHead (k : Nat) : Nat := 0x00040018 + 0x100 * k
/-- CANAL_TAIL, one of 256. -/
def Reg.canalTail (k : Nat) : Nat := 0x00040020 + 0x100 * k
/-- CANAL_DOORBELL, one of 256. -/
def Reg.canalDoorbell (k : Nat) : Nat := 0x00040028 + 0x100 * k
/-- CANAL_TALLY_TAIL, one of 256. -/
def Reg.canalTallyTail (k : Nat) : Nat := 0x00040030 + 0x100 * k
/-- CANAL_TALLY_HEAD, one of 256. -/
def Reg.canalTallyHead (k : Nat) : Nat := 0x00040038 + 0x100 * k
/-- CANAL_STATUS (R354, Table 12-3), one of 256. -/
def Reg.canalStatus (k : Nat) : Nat := 0x00040040 + 0x100 * k
/-- CANAL_DONE_SEQ, one of 256. -/
def Reg.canalDoneSeq (k : Nat) : Nat := 0x00040048 + 0x100 * k
/-- CANAL_E4_CTRL (R388, Table 12-9), one of 256. -/
def Reg.canalE4Ctrl (k : Nat) : Nat := 0x00040050 + 0x100 * k
/-- CANAL_E4_BASE, one of 256. -/
def Reg.canalE4Base (k : Nat) : Nat := 0x00040058 + 0x100 * k
/-- LOG_HEAD. -/
def Reg.logHead : Nat := 0x00050000
/-- LOG_OLDEST. -/
def Reg.logOldest : Nat := 0x00050008
/-- LOG_EPOCH. -/
def Reg.logEpoch : Nat := 0x00050010
/-- LOG_STATUS (R434, Table 14-5). -/
def Reg.logStatus : Nat := 0x00050018
/-- LOG_READ_INDEX. -/
def Reg.logReadIndex : Nat := 0x00050020
/-- LOG_READ_DATA, one of 32. -/
def Reg.logReadData (k : Nat) : Nat := 0x00050100 + 0x8 * k
/-- LOG_CANAL_MARK, one of 256. -/
def Reg.logCanalMark (k : Nat) : Nat := 0x00050800 + 0x8 * k
/-- SEC_STATUS (R622, Table 21-12). -/
def Reg.secStatus : Nat := 0x00060000
/-- SEC_CTRL (R622, Table 21-13). -/
def Reg.secCtrl : Nat := 0x00060008
/-- SEC_TAMPER (R622, Table 21-14). -/
def Reg.secTamper : Nat := 0x00060010
/-- SEC_ZEROISE. -/
def Reg.secZeroise : Nat := 0x00060018
/-- SEC_FUSE (R622, Table 21-15). -/
def Reg.secFuse : Nat := 0x00060020
/-- SEC_KEYS (R622, Table 21-16). -/
def Reg.secKeys : Nat := 0x00060028
/-- MAP_DIGEST. -/
def Reg.mapDigest : Nat := 0x00070000
/-- MAP_GENERATION. -/
def Reg.mapGeneration : Nat := 0x00070008
/-- REACH_MAP (R36, Table 1-7), one of 64. -/
def Reg.reachMap (k : Nat) : Nat := 0x00070100 + 0x8 * k
/-- STACK_MAP (R38, Table 1-9), one of 32. -/
def Reg.stackMap (k : Nat) : Nat := 0x00070300 + 0x8 * k
/-- PORT_MAP (R39, Table 1-10), one of 2. -/
def Reg.portMap (k : Nat) : Nat := 0x00070400 + 0x8 * k
/-- CLUSTER_UNIT_MAP (R37, Table 1-8), one of 576. -/
def Reg.clusterUnitMap (k : Nat) : Nat := 0x00070800 + 0x8 * k
/-- FAILOP_STATUS (R601, Table 20-9). -/
def Reg.failopStatus : Nat := 0x00072000
/-- ERR_HEAD. -/
def Reg.errHead : Nat := 0x00072008
/-- ERR_OLDEST. -/
def Reg.errOldest : Nat := 0x00072010
/-- ROAST_VERSION, one of 4. -/
def Reg.roastVersion (k : Nat) : Nat := 0x00072100 + 0x8 * k
/-- PDIE_STATUS (R601, Table 20-10), one of 2. -/
def Reg.pdieStatus (k : Nat) : Nat := 0x00072200 + 0x8 * k
/-- ERR_COUNT, one of 8. -/
def Reg.errCount (k : Nat) : Nat := 0x00072300 + 0x8 * k
/-- MEM_INTERLEAVE (R300, Table 9-9), one of 16. -/
def Reg.memInterleave (k : Nat) : Nat := 0x00080000 + 0x8 * k
/-- STACK_STATUS (R301, Table 9-10), one of 32. -/
def Reg.stackStatus (k : Nat) : Nat := 0x00080100 + 0x8 * k
/-- STACK_ECC_COUNT (R302, Table 9-11), one of 32. -/
def Reg.stackEccCount (k : Nat) : Nat := 0x00080200 + 0x8 * k
/-- STACK_CHANNEL_MAP (R303, Table 9-12), one of 32. -/
def Reg.stackChannelMap (k : Nat) : Nat := 0x00080300 + 0x8 * k
/-- STACK_ERR_ADDR, one of 32. -/
def Reg.stackErrAddr (k : Nat) : Nat := 0x00080400 + 0x8 * k
/-- NME_STATUS (R342, Table 10-10), one of 256. -/
def Reg.nmeStatus (k : Nat) : Nat := 0x00090000 + 0x8 * k
/-- NME_OPS, one of 256. -/
def Reg.nmeOps (k : Nat) : Nat := 0x00090800 + 0x8 * k
/-- NME_READ_BYTES, one of 256. -/
def Reg.nmeReadBytes (k : Nat) : Nat := 0x00091000 + 0x8 * k
/-- SCRUB_CTRL (R343, Table 10-11), one of 32. -/
def Reg.scrubCtrl (k : Nat) : Nat := 0x00091800 + 0x8 * k
/-- SCRUB_STATUS (R344, Table 10-12), one of 32. -/
def Reg.scrubStatus (k : Nat) : Nat := 0x00091900 + 0x8 * k
/-- FABRIC_NODE (R525, Table 17-12). -/
def Reg.fabricNode : Nat := 0x000A0000
/-- FABRIC_TIMERS (R525, Table 17-13). -/
def Reg.fabricTimers : Nat := 0x000A0008
/-- TIME_STATUS (R525, Table 17-14). -/
def Reg.timeStatus : Nat := 0x000A0010
/-- ROUTE_INDEX. -/
def Reg.routeIndex : Nat := 0x000A0018
/-- ROUTE_DATA (R526, Table 17-15). -/
def Reg.routeData : Nat := 0x000A0020
/-- LANDING_INDEX. -/
def Reg.landingIndex : Nat := 0x000A0028
/-- LANDING_USED. -/
def Reg.landingUsed : Nat := 0x000A0030
/-- LANDING_DATA, one of 4. -/
def Reg.landingData (k : Nat) : Nat := 0x000A0040 + 0x8 * k
/-- FABRIC_JOB (R526, Table 17-16), one of 8. -/
def Reg.fabricJob (k : Nat) : Nat := 0x000A0100 + 0x8 * k
/-- FABRIC_REJECT (R526, Table 17-17), one of 8. -/
def Reg.fabricReject (k : Nat) : Nat := 0x000A0140 + 0x8 * k
/-- PORT_STATUS (R527, Table 17-18), one of 18. -/
def Reg.portStatus (k : Nat) : Nat := 0x000A0200 + 0x8 * k
/-- PORT_ERRORS (R527, Table 17-19), one of 18. -/
def Reg.portErrors (k : Nat) : Nat := 0x000A0300 + 0x8 * k
/-- COMM_STATE (R551, Table 18-12), one of 64. -/
def Reg.commState (k : Nat) : Nat := 0x000B0000 + 0x8 * k
/-- COMM_ID (R551, Table 18-13), one of 64. -/
def Reg.commId (k : Nat) : Nat := 0x000B0200 + 0x8 * k
/-- COMM_LAST (R551, Table 18-14), one of 64. -/
def Reg.commLast (k : Nat) : Nat := 0x000B0400 + 0x8 * k
/-- COLL_UNMATCHED. -/
def Reg.collUnmatched : Nat := 0x000B0600
/-- CKPT_STATE (R576, Table 19-11), one of 16. -/
def Reg.ckptState (k : Nat) : Nat := 0x000C0000 + 0x8 * k
/-- CKPT_STREAM (R576, Table 19-12), one of 16. -/
def Reg.ckptStream (k : Nat) : Nat := 0x000C0080 + 0x8 * k
/-- CKPT_PROGRESS (R576, Table 19-13), one of 16. -/
def Reg.ckptProgress (k : Nat) : Nat := 0x000C0100 + 0x8 * k
/-- CKPT_STEP, one of 16. -/
def Reg.ckptStep (k : Nat) : Nat := 0x000C0180 + 0x8 * k
/-- SOLVER_STATE (R243, Table 7-18), one of 64. -/
def Reg.solverState (k : Nat) : Nat := 0x000D0000 + 0x400 * k
/-- SOLVER_SEQ, one of 64. -/
def Reg.solverSeq (k : Nat) : Nat := 0x000D0008 + 0x400 * k
/-- SOLVER_DONE, one of 64. -/
def Reg.solverDone (k : Nat) : Nat := 0x000D0010 + 0x400 * k
/-- SOLVER_ARRAY_HC, one of 64. -/
def Reg.solverArrayHc (k : Nat) : Nat := 0x000D0018 + 0x400 * k
/-- SOLVER_ASM_TERMS, one of 64. -/
def Reg.solverAsmTerms (k : Nat) : Nat := 0x000D0020 + 0x400 * k
/-- SOLVER_WAIT_HC, one of 64. -/
def Reg.solverWaitHc (k : Nat) : Nat := 0x000D0028 + 0x400 * k
/-- SOLVER_PIVOT_REG, one of 64. -/
def Reg.solverPivotReg (k : Nat) : Nat := 0x000D0100 + 0x400 * k
/-- SOLVER_PIVOT_FAIL, one of 64. -/
def Reg.solverPivotFail (k : Nat) : Nat := 0x000D0108 + 0x400 * k
/-- SOLVER_LAST_PIVOT (R272, Table 8-7), one of 64. -/
def Reg.solverLastPivot (k : Nat) : Nat := 0x000D0110 + 0x400 * k
/-- SOLVER_MIN_PIVOT, one of 64. -/
def Reg.solverMinPivot (k : Nat) : Nat := 0x000D0118 + 0x400 * k
/-- SOLVER_ITER_COUNT, one of 64. -/
def Reg.solverIterCount (k : Nat) : Nat := 0x000D0120 + 0x400 * k
/-- SOLVER_RESID, one of 64. -/
def Reg.solverResid (k : Nat) : Nat := 0x000D0128 + 0x400 * k
/-- SOLVER_STOP (R273, Table 8-8), one of 64. -/
def Reg.solverStop (k : Nat) : Nat := 0x000D0130 + 0x400 * k
/-- HC_RATE (R60, Table 2-8), one of 64. -/
def Reg.hcRate (k : Nat) : Nat := 0x000E0000 + 0x8 * k
/-- TIMING_CTRL (R61, Table 2-9), one of 64. -/
def Reg.timingCtrl (k : Nat) : Nat := 0x000E0200 + 0x8 * k
/-- CUPPING_RESULT (R62, Table 2-10), one of 64. -/
def Reg.cuppingResult (k : Nat) : Nat := 0x000E0400 + 0x8 * k
/-- PACE_SLIP_COUNT, one of 64. -/
def Reg.paceSlipCount (k : Nat) : Nat := 0x000E0600 + 0x8 * k
/-- SENSOR_REACH (R470, Table 15-16), one of 64. -/
def Reg.sensorReach (k : Nat) : Nat := 0x000E0800 + 0x8 * k
/-- SENSOR_DIE (R470, Table 15-16), one of 8. -/
def Reg.sensorDie (k : Nat) : Nat := 0x000E0A00 + 0x8 * k
/-- CLUSTER_STATE (R110, Table 3-19), one of 576. -/
def Reg.clusterState (k : Nat) : Nat := 0x00100000 + 0x400 * k
/-- CLUSTER_PC, one of 576. -/
def Reg.clusterPc (k : Nat) : Nat := 0x00100008 + 0x400 * k
/-- CLUSTER_CAUSE, one of 576. -/
def Reg.clusterCause (k : Nat) : Nat := 0x00100010 + 0x400 * k
/-- CLUSTER_TVAL, one of 576. -/
def Reg.clusterTval (k : Nat) : Nat := 0x00100018 + 0x400 * k
/-- CLUSTER_EPC, one of 576. -/
def Reg.clusterEpc (k : Nat) : Nat := 0x00100020 + 0x400 * k
/-- CLUSTER_FPCTRL, one of 576. -/
def Reg.clusterFpctrl (k : Nat) : Nat := 0x00100028 + 0x400 * k
/-- CLUSTER_RETIRED, one of 576. -/
def Reg.clusterRetired (k : Nat) : Nat := 0x00100030 + 0x400 * k
/-- CLUSTER_HC, one of 576. -/
def Reg.clusterHc (k : Nat) : Nat := 0x00100038 + 0x400 * k
/-- VEC_STATE (R145, Table 4-18), one of 576. -/
def Reg.vecState (k : Nat) : Nat := 0x00100040 + 0x400 * k
/-- VEC_FAULT (R145, Table 4-19), one of 576. -/
def Reg.vecFault (k : Nat) : Nat := 0x00100048 + 0x400 * k
/-- VEC_RETIRED, one of 576. -/
def Reg.vecRetired (k : Nat) : Nat := 0x00100050 + 0x400 * k
/-- VEC_LSU_BUSY, one of 576. -/
def Reg.vecLsuBusy (k : Nat) : Nat := 0x00100058 + 0x400 * k
/-- VEC_FMA_BUSY, one of 576. -/
def Reg.vecFmaBusy (k : Nat) : Nat := 0x00100060 + 0x400 * k
/-- VEC_ALU_BUSY, one of 576. -/
def Reg.vecAluBusy (k : Nat) : Nat := 0x00100068 + 0x400 * k
/-- VEC_CVT_BUSY, one of 576. -/
def Reg.vecCvtBusy (k : Nat) : Nat := 0x00100070 + 0x400 * k
/-- VEC_CHECK_STALL, one of 576. -/
def Reg.vecCheckStall (k : Nat) : Nat := 0x00100078 + 0x400 * k
/-- MAT_STATE (R178, Table 5-8), one of 576. -/
def Reg.matState (k : Nat) : Nat := 0x00100200 + 0x400 * k
/-- MAT_RETIRED, one of 576. -/
def Reg.matRetired (k : Nat) : Nat := 0x00100208 + 0x400 * k
/-- MAT_M_HC, one of 576. -/
def Reg.matMHc (k : Nat) : Nat := 0x00100210 + 0x400 * k
/-- MAT_D_HC, one of 576. -/
def Reg.matDHc (k : Nat) : Nat := 0x00100218 + 0x400 * k
/-- MAT_SWITCHES, one of 576. -/
def Reg.matSwitches (k : Nat) : Nat := 0x00100220 + 0x400 * k
/-- MAT_FETCH_STALL, one of 576. -/
def Reg.matFetchStall (k : Nat) : Nat := 0x00100228 + 0x400 * k
/-- MAT_OUT_HC, one of 576. -/
def Reg.matOutHc (k : Nat) : Nat := 0x00100230 + 0x400 * k
/-- MAT_LOAD_HC, one of 576. -/
def Reg.matLoadHc (k : Nat) : Nat := 0x00100238 + 0x400 * k
/-- HOST_PORT_STATUS (R655, Table 23-4), one of 2. -/
def Reg.hostPortStatus (k : Nat) : Nat := 0x00200000 + 0x8 * k
/-- HOST_WIN4 (R655, Table 23-5), one of 2. -/
def Reg.hostWin4 (k : Nat) : Nat := 0x00200010 + 0x8 * k
/-- HOST_ERR (R655, Table 23-6), one of 2. -/
def Reg.hostErr (k : Nat) : Nat := 0x00200020 + 0x8 * k
/-- HOST_EVENT (R655, Table 23-7). -/
def Reg.hostEvent : Nat := 0x00200030
/-- RECOVERY_CTRL (R655, Table 23-8). -/
def Reg.recoveryCtrl : Nat := 0x00200040

/-! Field positions, named as the register tables name them. -/

def F.PKG_ID_VENDOR : Fld := ⟨63, 48⟩
def F.PKG_ID_PART : Fld := ⟨47, 16⟩
def F.PKG_ID_STEPPING : Fld := ⟨15, 0⟩
def F.PKG_CAPS_LANDING : Fld := ⟨63, 48⟩
def F.PKG_CAPS_CANALS_M1 : Fld := ⟨47, 40⟩
def F.PKG_CAPS_STACKS : Fld := ⟨39, 32⟩
def F.PKG_CAPS_PARTITIONS : Fld := ⟨31, 24⟩
def F.PKG_CAPS_REACHES : Fld := ⟨23, 16⟩
def F.PKG_CAPS_SLOTS : Fld := ⟨15, 8⟩
def F.PKG_CAPS_CDIES : Fld := ⟨7, 0⟩
def F.VIEW_INFO_LIVE : Fld := ⟨63, 63⟩
def F.VIEW_INFO_PARTITION : Fld := ⟨62, 60⟩
def F.VIEW_INFO_INCARNATION : Fld := ⟨31, 0⟩
def F.GLOBAL_ACCESS_ERR_VALID : Fld := ⟨63, 63⟩
def F.GLOBAL_ACCESS_ERR_PATH : Fld := ⟨62, 60⟩
def F.GLOBAL_ACCESS_ERR_KIND : Fld := ⟨59, 57⟩
def F.GLOBAL_ACCESS_ERR_WINDOW : Fld := ⟨56, 56⟩
def F.GLOBAL_ACCESS_ERR_PART : Fld := ⟨55, 53⟩
def F.GLOBAL_ACCESS_ERR_COUNT : Fld := ⟨47, 32⟩
def F.GLOBAL_ACCESS_ERR_OFFSET : Fld := ⟨25, 0⟩
def F.RESET_CAUSE_RESTARTS : Fld := ⟨55, 48⟩
def F.RESET_CAUSE_SHORT : Fld := ⟨47, 47⟩
def F.RESET_CAUSE_DURING_OPTLOAD : Fld := ⟨46, 46⟩
def F.RESET_CAUSE_ABSORBED : Fld := ⟨45, 45⟩
def F.RESET_CAUSE_LEVEL : Fld := ⟨42, 40⟩
def F.RESET_CAUSE_SOURCE : Fld := ⟨39, 32⟩
def F.RESET_CAUSE_UNIT : Fld := ⟨31, 0⟩
def F.STRAP_LATCH_PCIE_MODE_B : Fld := ⟨6, 6⟩
def F.STRAP_LATCH_PCIE_MODE_A : Fld := ⟨5, 5⟩
def F.STRAP_LATCH_PACE : Fld := ⟨4, 4⟩
def F.STRAP_LATCH_BOOT_SRC_B : Fld := ⟨3, 2⟩
def F.STRAP_LATCH_BOOT_SRC_A : Fld := ⟨1, 0⟩
def F.RESET_FUSE_PERST_A_LEVEL : Fld := ⟨8, 6⟩
def F.RESET_FUSE_PERST_B_LEVEL : Fld := ⟨5, 3⟩
def F.RESET_FUSE_RSTACT_LEVEL : Fld := ⟨2, 0⟩
def F.BOOT_STATUS_STAGE : Fld := ⟨63, 60⟩
def F.BOOT_STATUS_STOP_CAUSE : Fld := ⟨59, 56⟩
def F.BOOT_STATUS_SLOT : Fld := ⟨55, 55⟩
def F.BOOT_STATUS_FALLBACK : Fld := ⟨54, 54⟩
def F.BOOT_STATUS_FROM_PEER : Fld := ⟨53, 53⟩
def F.BOOT_STATUS_RECOVERY : Fld := ⟨52, 52⟩
def F.BOOT_STATUS_TIME : Fld := ⟨47, 0⟩
def F.RESET_REQ_STATUS_REASON : Fld := ⟨15, 8⟩
def F.RESET_REQ_STATUS_REFUSED : Fld := ⟨1, 1⟩
def F.RESET_REQ_STATUS_BUSY : Fld := ⟨0, 0⟩
def F.WEIR_STATUS_STATE : Fld := ⟨63, 61⟩
def F.WEIR_STATUS_TARGET : Fld := ⟨60, 58⟩
def F.WEIR_STATUS_ENTERING : Fld := ⟨57, 57⟩
def F.WEIR_STATUS_EXITING : Fld := ⟨56, 56⟩
def F.WEIR_STATUS_HOT : Fld := ⟨55, 55⟩
def F.WEIR_STATUS_ADMIT_HELD : Fld := ⟨54, 54⟩
def F.WEIR_STATUS_BUCKET_EMPTY : Fld := ⟨53, 53⟩
def F.WEIR_STATUS_ALLOWED : Fld := ⟨47, 32⟩
def F.WEIR_STATUS_COMMIT : Fld := ⟨31, 16⟩
def F.WEIR_STATUS_BASE : Fld := ⟨15, 0⟩
def F.WEIR_LIMITS_TJ_TARGET : Fld := ⟨55, 48⟩
def F.WEIR_LIMITS_EXC_MS : Fld := ⟨47, 40⟩
def F.WEIR_LIMITS_EXC_LIMIT : Fld := ⟨31, 16⟩
def F.WEIR_LIMITS_PKG_LIMIT : Fld := ⟨15, 0⟩
def F.WEIR_POWER_P1M : Fld := ⟨47, 32⟩
def F.WEIR_POWER_P100 : Fld := ⟨31, 16⟩
def F.WEIR_POWER_P10 : Fld := ⟨15, 0⟩
def F.WEIR_BUCKET_DEPTH : Fld := ⟨63, 32⟩
def F.WEIR_BUCKET_LEVEL : Fld := ⟨31, 0⟩
def F.WEIR_WAKE_WAKE : Fld := ⟨0, 0⟩
def F.VCORE_CTRL_IDLE_DROP_US : Fld := ⟨63, 52⟩
def F.VCORE_CTRL_VIDLE : Fld := ⟨51, 40⟩
def F.VCORE_CTRL_VMAX : Fld := ⟨39, 28⟩
def F.VCORE_CTRL_VSET : Fld := ⟨27, 16⟩
def F.VCORE_CTRL_VMODE : Fld := ⟨1, 0⟩
def F.VCORE_STATUS_DOMAIN : Fld := ⟨63, 62⟩
def F.VCORE_STATUS_HOST_OFF : Fld := ⟨61, 61⟩
def F.VCORE_STATUS_LENT : Fld := ⟨60, 60⟩
def F.VCORE_STATUS_THERMAL : Fld := ⟨59, 59⟩
def F.VCORE_STATUS_BUDGET : Fld := ⟨58, 58⟩
def F.VCORE_STATUS_PACE_FLOOR : Fld := ⟨57, 57⟩
def F.VCORE_STATUS_CURRENT : Fld := ⟨43, 32⟩
def F.VCORE_STATUS_POWER : Fld := ⟨31, 16⟩
def F.VCORE_STATUS_VCORE : Fld := ⟨11, 0⟩
def F.REACH_DEPTH_DEPTH : Fld := ⟨63, 62⟩
def F.REACH_DEPTH_DOMAIN : Fld := ⟨61, 60⟩
def F.REACH_DEPTH_HOST_OFF : Fld := ⟨59, 59⟩
def F.REACH_DEPTH_RETAINED_DATA : Fld := ⟨58, 58⟩
def F.REACH_DEPTH_WAKING : Fld := ⟨57, 57⟩
def F.REACH_DEPTH_RETAINS : Fld := ⟨31, 0⟩
def F.PORT_POWER_OFF : Fld := ⟨8, 0⟩
def F.WAKE_TOLERANCE_US : Fld := ⟨31, 0⟩
def F.PART_STATE_STATE : Fld := ⟨63, 62⟩
def F.PART_STATE_INCARNATION : Fld := ⟨31, 0⟩
def F.PART_CTRL_CLASS_REFUSED : Fld := ⟨9, 9⟩
def F.PART_CTRL_CHANGE_PENDING : Fld := ⟨8, 8⟩
def F.PART_CTRL_CLASS : Fld := ⟨5, 4⟩
def F.PART_CTRL_DLB_OFF : Fld := ⟨2, 2⟩
def F.PART_CTRL_CLASS_REQ : Fld := ⟨1, 0⟩
def F.PART_GUARANTEE_LAT_CEIL : Fld := ⟨63, 32⟩
def F.PART_GUARANTEE_BW_FLOOR : Fld := ⟨31, 24⟩
def F.PART_GUARANTEE_SLOTS : Fld := ⟨23, 16⟩
def F.PART_GUARANTEE_POWER_SHARE : Fld := ⟨15, 0⟩
def F.PART_YIELD_GUARANTEE : Fld := ⟨63, 60⟩
def F.PART_YIELD_CAUSE : Fld := ⟨59, 56⟩
def F.PART_YIELD_ACTIVE : Fld := ⟨55, 55⟩
def F.PART_YIELD_WINNER : Fld := ⟨54, 52⟩
def F.PART_YIELD_TIME : Fld := ⟨47, 0⟩
def F.PART_CLAIM_LINE : Fld := ⟨47, 7⟩
def F.PART_CLAIM_ENABLE : Fld := ⟨0, 0⟩
def F.CANAL_CTRL_RING_LOG2 : Fld := ⟨20, 16⟩
def F.CANAL_CTRL_IRQ : Fld := ⟨13, 12⟩
def F.CANAL_CTRL_RING_LOC : Fld := ⟨11, 10⟩
def F.CANAL_CTRL_MODE : Fld := ⟨9, 9⟩
def F.CANAL_CTRL_EHL : Fld := ⟨8, 8⟩
def F.CANAL_CTRL_SYSTEM : Fld := ⟨7, 7⟩
def F.CANAL_CTRL_PARTITION : Fld := ⟨6, 4⟩
def F.CANAL_CTRL_ENABLE : Fld := ⟨0, 0⟩
def F.CANAL_RING_BASE : Fld := ⟨63, 12⟩
def F.CANAL_TALLY_RING_BASE : Fld := ⟨63, 12⟩
def F.CANAL_HEAD_SEQ : Fld := ⟨31, 0⟩
def F.CANAL_TAIL_SEQ : Fld := ⟨31, 0⟩
def F.CANAL_DOORBELL_SEQ : Fld := ⟨31, 0⟩
def F.CANAL_TALLY_TAIL_SEQ : Fld := ⟨31, 0⟩
def F.CANAL_TALLY_HEAD_SEQ : Fld := ⟨31, 0⟩
def F.CANAL_STATUS_OUTSTANDING : Fld := ⟨63, 48⟩
def F.CANAL_STATUS_WAITING : Fld := ⟨47, 32⟩
def F.CANAL_STATUS_FAULT_CAUSE : Fld := ⟨31, 24⟩
def F.CANAL_STATUS_FAULT : Fld := ⟨7, 7⟩
def F.CANAL_STATUS_CFG_IGNORED : Fld := ⟨6, 6⟩
def F.CANAL_STATUS_TALLY_HEAD_BAD : Fld := ⟨5, 5⟩
def F.CANAL_STATUS_DOORBELL_IGNORED : Fld := ⟨4, 4⟩
def F.CANAL_STATUS_TALLY_FULL : Fld := ⟨2, 2⟩
def F.CANAL_STATUS_IDLE : Fld := ⟨1, 1⟩
def F.CANAL_STATUS_ACTIVE : Fld := ⟨0, 0⟩
def F.CANAL_DONE_SEQ_SEQ : Fld := ⟨31, 0⟩
def F.CANAL_E4_CTRL_BATCH_WAIT : Fld := ⟨31, 16⟩
def F.CANAL_E4_CTRL_BATCH_MAX : Fld := ⟨6, 0⟩
def F.CANAL_E4_BASE_BASE : Fld := ⟨47, 16⟩
def F.LOG_STATUS_ACCEPT_HELD : Fld := ⟨63, 63⟩
def F.LOG_STATUS_SINGLE : Fld := ⟨62, 62⟩
def F.LOG_STATUS_READ_VALID : Fld := ⟨61, 61⟩
def F.LOG_STATUS_OUTSTANDING : Fld := ⟨20, 0⟩
def F.SEC_STATUS_APPROVED : Fld := ⟨63, 63⟩
def F.SEC_STATUS_MODULE_ERROR : Fld := ⟨62, 62⟩
def F.SEC_STATUS_SELFTEST_DONE : Fld := ⟨61, 61⟩
def F.SEC_STATUS_APPROVED_REFUSED : Fld := ⟨60, 60⟩
def F.SEC_STATUS_REFUSE_REASON : Fld := ⟨59, 56⟩
def F.SEC_STATUS_SESSIONS : Fld := ⟨55, 48⟩
def F.SEC_STATUS_AUTH_FAILS : Fld := ⟨47, 32⟩
def F.SEC_STATUS_LINK_KEY_FAILS : Fld := ⟨31, 16⟩
def F.SEC_CTRL_LINK_ENC : Fld := ⟨2, 2⟩
def F.SEC_CTRL_DEBUG_LOCK : Fld := ⟨1, 1⟩
def F.SEC_CTRL_APPROVED_REQ : Fld := ⟨0, 0⟩
def F.SEC_TAMPER_LAST_CAUSE : Fld := ⟨63, 60⟩
def F.SEC_TAMPER_ZEROISE_COUNT : Fld := ⟨59, 52⟩
def F.SEC_TAMPER_TIME : Fld := ⟨47, 0⟩
def F.SEC_FUSE_KEYSET_REVOKED : Fld := ⟨15, 12⟩
def F.SEC_FUSE_APPROVED_FORCE : Fld := ⟨11, 11⟩
def F.SEC_FUSE_DEBUG_FUSED_OFF : Fld := ⟨10, 10⟩
def F.SEC_FUSE_SVN_FLOOR : Fld := ⟨6, 0⟩
def F.SEC_KEYS_MK_VALID : Fld := ⟨63, 63⟩
def F.SEC_KEYS_MK_GEN : Fld := ⟨47, 32⟩
def F.SEC_KEYS_CK_VALID : Fld := ⟨7, 0⟩
def F.REACH_MAP_STATE : Fld := ⟨63, 62⟩
def F.REACH_MAP_CAUSE : Fld := ⟨61, 58⟩
def F.REACH_MAP_SOLVER_FAILED : Fld := ⟨57, 57⟩
def F.REACH_MAP_XBAR_FAILED : Fld := ⟨56, 56⟩
def F.REACH_MAP_DISABLED : Fld := ⟨49, 41⟩
def F.REACH_MAP_SPARE_SLOT : Fld := ⟨39, 36⟩
def F.REACH_MAP_ENABLED_COUNT : Fld := ⟨35, 32⟩
def F.REACH_MAP_SLOT_MAP : Fld := ⟨31, 0⟩
def F.STACK_MAP_STATE : Fld := ⟨63, 62⟩
def F.STACK_MAP_CAUSE : Fld := ⟨61, 58⟩
def F.STACK_MAP_CHANNELS_SPARED : Fld := ⟨15, 8⟩
def F.STACK_MAP_NME_DISABLED : Fld := ⟨7, 0⟩
def F.PORT_MAP_STATE : Fld := ⟨63, 62⟩
def F.PORT_MAP_CAUSE : Fld := ⟨61, 58⟩
def F.PORT_MAP_DISABLED : Fld := ⟨12, 4⟩
def F.PORT_MAP_SPARE_FOR : Fld := ⟨3, 0⟩
def F.CLUSTER_UNIT_MAP_BANK_FAILED : Fld := ⟨31, 16⟩
def F.CLUSTER_UNIT_MAP_CAUSE : Fld := ⟨15, 12⟩
def F.CLUSTER_UNIT_MAP_STATE : Fld := ⟨11, 10⟩
def F.CLUSTER_UNIT_MAP_MATRIX_FAILED : Fld := ⟨3, 3⟩
def F.CLUSTER_UNIT_MAP_VECTOR_FAILED : Fld := ⟨2, 2⟩
def F.CLUSTER_UNIT_MAP_SEQ_FAILED : Fld := ⟨1, 1⟩
def F.CLUSTER_UNIT_MAP_REGFILE_FAILED : Fld := ⟨0, 0⟩
def F.FAILOP_STATUS_ACTIVE : Fld := ⟨63, 63⟩
def F.FAILOP_STATUS_STANDBY : Fld := ⟨62, 61⟩
def F.FAILOP_STATUS_SPLIT : Fld := ⟨60, 60⟩
def F.FAILOP_STATUS_TAKING_OVER : Fld := ⟨59, 59⟩
def F.FAILOP_STATUS_TOWPATH_BREAKS : Fld := ⟨58, 57⟩
def F.FAILOP_STATUS_FDIE0_OUT : Fld := ⟨56, 56⟩
def F.FAILOP_STATUS_FDIE1_OUT : Fld := ⟨55, 55⟩
def F.FAILOP_STATUS_REACHES_DEGRADED : Fld := ⟨47, 40⟩
def F.FAILOP_STATUS_REACHES_DISABLED : Fld := ⟨39, 32⟩
def F.FAILOP_STATUS_SPARES_LEFT : Fld := ⟨31, 24⟩
def F.PDIE_STATUS_ROLE : Fld := ⟨63, 62⟩
def F.PDIE_STATUS_CHANGE : Fld := ⟨61, 60⟩
def F.PDIE_STATUS_FAILS : Fld := ⟨59, 56⟩
def F.PDIE_STATUS_TIME : Fld := ⟨47, 0⟩
def F.MEM_INTERLEAVE_MODE : Fld := ⟨63, 0⟩
def F.STACK_STATUS_DRAM_TEMP : Fld := ⟨39, 32⟩
def F.STACK_STATUS_REFRESH_BAND : Fld := ⟨31, 28⟩
def F.STACK_STATUS_SELF_REFRESH : Fld := ⟨27, 27⟩
def F.STACK_STATUS_COPYING : Fld := ⟨26, 26⟩
def F.STACK_STATUS_COPY_CH : Fld := ⟨25, 20⟩
def F.STACK_ECC_COUNT_UNCORRECTED : Fld := ⟨63, 48⟩
def F.STACK_ECC_COUNT_ROWS_REPAIRED : Fld := ⟨47, 32⟩
def F.STACK_ECC_COUNT_CORRECTED : Fld := ⟨31, 0⟩
def F.STACK_CHANNEL_MAP_CH_FAILED : Fld := ⟨63, 32⟩
def F.STACK_CHANNEL_MAP_SPARE1_FAILED : Fld := ⟨17, 17⟩
def F.STACK_CHANNEL_MAP_SPARE0_FAILED : Fld := ⟨16, 16⟩
def F.STACK_CHANNEL_MAP_SPARE1_FOR : Fld := ⟨15, 8⟩
def F.STACK_CHANNEL_MAP_SPARE0_FOR : Fld := ⟨7, 0⟩
def F.STACK_ERR_ADDR_ADDR : Fld := ⟨47, 0⟩
def F.NME_STATUS_STATE : Fld := ⟨63, 62⟩
def F.NME_STATUS_LEAD_QUEUED : Fld := ⟨55, 51⟩
def F.NME_STATUS_CURRENT_OP : Fld := ⟨47, 32⟩
def F.NME_STATUS_PARTITION : Fld := ⟨31, 29⟩
def F.NME_STATUS_UNITS_LEFT : Fld := ⟨27, 0⟩
def F.SCRUB_CTRL_PERIOD_H : Fld := ⟨15, 8⟩
def F.SCRUB_CTRL_ENABLE : Fld := ⟨0, 0⟩
def F.SCRUB_STATUS_PASSES : Fld := ⟨63, 32⟩
def F.SCRUB_STATUS_NEXT_SLA : Fld := ⟨29, 0⟩
def F.FABRIC_NODE_NODE_VALID : Fld := ⟨63, 63⟩
def F.FABRIC_NODE_WRITE_IGNORED : Fld := ⟨62, 62⟩
def F.FABRIC_NODE_NODE_ID : Fld := ⟨15, 0⟩
def F.FABRIC_TIMERS_REPLY_US : Fld := ⟨47, 32⟩
def F.FABRIC_TIMERS_RETX_US : Fld := ⟨15, 0⟩
def F.TIME_STATUS_MASTER : Fld := ⟨63, 63⟩
def F.TIME_STATUS_LOCKED : Fld := ⟨62, 62⟩
def F.TIME_STATUS_HOPS : Fld := ⟨61, 56⟩
def F.TIME_STATUS_OFFSET : Fld := ⟨31, 0⟩
def F.ROUTE_INDEX_NODE : Fld := ⟨15, 0⟩
def F.ROUTE_DATA_VALID : Fld := ⟨15, 15⟩
def F.ROUTE_DATA_ALTERNATE : Fld := ⟨12, 8⟩
def F.ROUTE_DATA_PRIMARY : Fld := ⟨4, 0⟩
def F.LANDING_INDEX_INDEX : Fld := ⟨11, 0⟩
def F.LANDING_USED_COUNT : Fld := ⟨12, 0⟩
def F.FABRIC_JOB_VALID : Fld := ⟨63, 63⟩
def F.FABRIC_JOB_JOB_ID : Fld := ⟨31, 12⟩
def F.FABRIC_JOB_GENERATION : Fld := ⟨11, 0⟩
def F.FABRIC_REJECT_CODE : Fld := ⟨63, 60⟩
def F.FABRIC_REJECT_COUNT : Fld := ⟨59, 48⟩
def F.FABRIC_REJECT_OFFSET : Fld := ⟨47, 0⟩
def F.PORT_STATUS_STATE : Fld := ⟨63, 61⟩
def F.PORT_STATUS_WIDTH : Fld := ⟨60, 59⟩
def F.PORT_STATUS_SUBSTITUTED : Fld := ⟨58, 58⟩
def F.PORT_STATUS_PARTNER_NODE : Fld := ⟨47, 32⟩
def F.PORT_STATUS_PARTNER_F : Fld := ⟨31, 31⟩
def F.PORT_STATUS_PARTNER_PORT : Fld := ⟨30, 27⟩
def F.PORT_ERRORS_DISCARDED : Fld := ⟨63, 56⟩
def F.PORT_ERRORS_UNCORRECTED : Fld := ⟨55, 44⟩
def F.PORT_ERRORS_REPLAYS : Fld := ⟨43, 32⟩
def F.PORT_ERRORS_CORRECTED : Fld := ⟨31, 0⟩
def F.COMM_STATE_STATE : Fld := ⟨63, 62⟩
def F.COMM_STATE_PARTITION : Fld := ⟨61, 59⟩
def F.COMM_STATE_FDIE : Fld := ⟨58, 58⟩
def F.COMM_STATE_SIZE : Fld := ⟨48, 32⟩
def F.COMM_STATE_RANK : Fld := ⟨31, 16⟩
def F.COMM_STATE_RADIX : Fld := ⟨15, 8⟩
def F.COMM_ID_COLL_SEQ : Fld := ⟨63, 32⟩
def F.COMM_ID_ID : Fld := ⟨31, 0⟩
def F.COMM_LAST_STATUS : Fld := ⟨63, 48⟩
def F.COMM_LAST_REASON : Fld := ⟨47, 40⟩
def F.COMM_LAST_RANK : Fld := ⟨31, 16⟩
def F.CKPT_STATE_STATE : Fld := ⟨63, 61⟩
def F.CKPT_STATE_PARTITION : Fld := ⟨60, 58⟩
def F.CKPT_STATE_BUSY : Fld := ⟨57, 57⟩
def F.CKPT_STATE_FULL : Fld := ⟨56, 56⟩
def F.CKPT_STATE_CANAL : Fld := ⟨55, 48⟩
def F.CKPT_STATE_REPL_COUNT : Fld := ⟨47, 44⟩
def F.CKPT_STATE_REPL_RANK : Fld := ⟨43, 40⟩
def F.CKPT_STATE_STAGING : Fld := ⟨39, 32⟩
def F.CKPT_STATE_NGRAN : Fld := ⟨25, 0⟩
def F.CKPT_STREAM_STREAM : Fld := ⟨63, 32⟩
def F.CKPT_STREAM_NODE : Fld := ⟨31, 16⟩
def F.CKPT_PROGRESS_COVERED : Fld := ⟨57, 32⟩
def F.CKPT_PROGRESS_COPIED : Fld := ⟨25, 0⟩
def F.SOLVER_STATE_CANAL : Fld := ⟨39, 32⟩
def F.SOLVER_STATE_FORM : Fld := ⟨31, 28⟩
def F.SOLVER_STATE_PHASE : Fld := ⟨27, 24⟩
def F.SOLVER_STATE_HELD : Fld := ⟨23, 23⟩
def F.SOLVER_STATE_RELEASE_WAIT : Fld := ⟨22, 22⟩
def F.SOLVER_STATE_PARTITION : Fld := ⟨21, 19⟩
def F.SOLVER_STATE_WAITERS : Fld := ⟨15, 0⟩
def F.SOLVER_LAST_PIVOT_CAUSE : Fld := ⟨63, 60⟩
def F.SOLVER_LAST_PIVOT_COLUMN : Fld := ⟨55, 40⟩
def F.SOLVER_LAST_PIVOT_PROBLEM : Fld := ⟨31, 0⟩
def F.SOLVER_STOP_DEADLINE : Fld := ⟨63, 63⟩
def F.SOLVER_STOP_CANCELLED : Fld := ⟨62, 62⟩
def F.SOLVER_STOP_STOP_HC : Fld := ⟨31, 0⟩
def F.HC_RATE_FREE_RATE : Fld := ⟨47, 32⟩
def F.HC_RATE_RATE : Fld := ⟨31, 16⟩
def F.HC_RATE_RATE_MIN : Fld := ⟨15, 0⟩
def F.TIMING_CTRL_PACE_LOCK : Fld := ⟨7, 7⟩
def F.TIMING_CTRL_ORDER_LOCK : Fld := ⟨6, 6⟩
def F.TIMING_CTRL_PACE_STATE : Fld := ⟨5, 5⟩
def F.TIMING_CTRL_ORDER_STATE : Fld := ⟨4, 4⟩
def F.TIMING_CTRL_PACE_REQ : Fld := ⟨1, 1⟩
def F.TIMING_CTRL_ORDER_REQ : Fld := ⟨0, 0⟩
def F.CUPPING_RESULT_STATUS : Fld := ⟨63, 60⟩
def F.CUPPING_RESULT_FAILED_SLOTS : Fld := ⟨59, 51⟩
def F.CUPPING_RESULT_MARGIN : Fld := ⟨47, 32⟩
def F.CUPPING_RESULT_PACED_RATE : Fld := ⟨31, 16⟩
def F.CUPPING_RESULT_ARB_WORST : Fld := ⟨15, 8⟩
def F.CUPPING_RESULT_RUNS : Fld := ⟨7, 0⟩
def F.SENSOR_REACH_POWER : Fld := ⟨63, 48⟩
def F.SENSOR_REACH_VOLTAGE : Fld := ⟨47, 32⟩
def F.SENSOR_REACH_PEAK : Fld := ⟨31, 16⟩
def F.SENSOR_REACH_TJ : Fld := ⟨15, 0⟩
def F.SENSOR_DIE_POWER : Fld := ⟨63, 48⟩
def F.SENSOR_DIE_VOLTAGE : Fld := ⟨47, 32⟩
def F.SENSOR_DIE_PEAK : Fld := ⟨31, 16⟩
def F.SENSOR_DIE_TJ : Fld := ⟨15, 0⟩
def F.CLUSTER_STATE_MODE : Fld := ⟨15, 12⟩
def F.CLUSTER_STATE_FAULTED : Fld := ⟨11, 11⟩
def F.CLUSTER_STATE_PARTITION : Fld := ⟨10, 8⟩
def F.CLUSTER_STATE_IN_PART : Fld := ⟨7, 7⟩
def F.VEC_STATE_SEW : Fld := ⟨15, 14⟩
def F.VEC_STATE_ALT : Fld := ⟨13, 13⟩
def F.VEC_STATE_VL : Fld := ⟨10, 0⟩
def F.VEC_FAULT_VALID : Fld := ⟨10, 10⟩
def F.VEC_FAULT_INDEX : Fld := ⟨9, 0⟩
def F.MAT_STATE_M_ACTIVE : Fld := ⟨15, 15⟩
def F.MAT_STATE_M_TILE : Fld := ⟨14, 13⟩
def F.MAT_STATE_D_ACTIVE : Fld := ⟨12, 12⟩
def F.MAT_STATE_D_TILE : Fld := ⟨11, 10⟩
def F.MAT_STATE_M_QUEUED : Fld := ⟨9, 8⟩
def F.MAT_STATE_D_QUEUED : Fld := ⟨7, 6⟩
def F.MAT_STATE_OUT_ACTIVE : Fld := ⟨5, 5⟩
def F.MAT_STATE_OUT_TILE : Fld := ⟨4, 3⟩
def F.MAT_STATE_OUT_QUEUED : Fld := ⟨2, 0⟩
def F.HOST_PORT_STATUS_STATE : Fld := ⟨63, 62⟩
def F.HOST_PORT_STATUS_WIDTH : Fld := ⟨61, 60⟩
def F.HOST_PORT_STATUS_RATE : Fld := ⟨59, 59⟩
def F.HOST_PORT_STATUS_ROOT : Fld := ⟨58, 58⟩
def F.HOST_PORT_STATUS_NUM_VFS : Fld := ⟨57, 54⟩
def F.HOST_WIN4_PART : Fld := ⟨62, 60⟩
def F.HOST_WIN4_BASE : Fld := ⟨47, 16⟩
def F.HOST_WIN4_ENABLE : Fld := ⟨0, 0⟩
def F.HOST_ERR_CODE : Fld := ⟨63, 60⟩
def F.HOST_ERR_COUNT : Fld := ⟨59, 48⟩
def F.HOST_ERR_OFFSET : Fld := ⟨47, 0⟩
def F.HOST_EVENT_CANAL_FAULT : Fld := ⟨3, 3⟩
def F.HOST_EVENT_TAKEOVER : Fld := ⟨2, 2⟩
def F.HOST_EVENT_HOT : Fld := ⟨1, 1⟩
def F.HOST_EVENT_MAP_CHANGE : Fld := ⟨0, 0⟩
def F.RECOVERY_CTRL_STATE : Fld := ⟨35, 33⟩
def F.RECOVERY_CTRL_GO : Fld := ⟨32, 32⟩
def F.RECOVERY_CTRL_BYTES : Fld := ⟨31, 0⟩

/-! The rows of the register index with their fields; bits that no row names are reserved (R11). -/

/-- Rows of Table 25-11, part 1. -/
def regRows0 : List RegRow := [
  ⟨"PKG_ID", 0x00000000, 0x8, 1, .fixed, [⟨63, 48, .ro, 0x4B57⟩, ⟨47, 16, .ro, 0xE6A5320⟩, ⟨15, 0, .ro, 0xB0⟩]⟩,
  ⟨"PKG_SERIAL", 0x00000008, 0x8, 1, .fixed, [⟨63, 0, .ro, 0x0⟩]⟩,
  ⟨"PKG_CAPS", 0x00000010, 0x8, 1, .fixed, [⟨63, 48, .ro, 0x1000⟩, ⟨47, 40, .ro, 0xFF⟩, ⟨39, 32, .ro, 0x20⟩, ⟨31, 24, .ro, 0x8⟩, ⟨23, 16, .ro, 0x40⟩, ⟨15, 8, .ro, 0x9⟩, ⟨7, 0, .ro, 0x4⟩]⟩,
  ⟨"GLOBAL_TIME", 0x00000018, 0x8, 1, .cold, [⟨63, 0, .ro, 0x0⟩]⟩,
  ⟨"VIEW_INFO", 0x00000020, 0x8, 1, .level7, [⟨63, 63, .ro, 0x0⟩, ⟨62, 60, .ro, 0x0⟩, ⟨31, 0, .ro, 0x0⟩]⟩,
  ⟨"GLOBAL_ACCESS_ERR", 0x00000028, 0x8, 1, .level7, [⟨63, 63, .w1c, 0x0⟩, ⟨62, 60, .ro, 0x0⟩, ⟨59, 57, .ro, 0x0⟩, ⟨56, 56, .ro, 0x0⟩, ⟨55, 53, .ro, 0x0⟩, ⟨47, 32, .ro, 0x0⟩, ⟨25, 0, .ro, 0x0⟩]⟩,
  ⟨"GLOBAL_SCRATCH", 0x00000100, 0x8, 8, .level7, [⟨63, 0, .rw, 0x0⟩]⟩,
  ⟨"RESET_CAUSE", 0x00010000, 0x8, 1, .level7, [⟨55, 48, .ro, 0x0⟩, ⟨47, 47, .ro, 0x0⟩, ⟨46, 46, .ro, 0x0⟩, ⟨45, 45, .ro, 0x0⟩, ⟨42, 40, .ro, 0x0⟩, ⟨39, 32, .ro, 0x0⟩, ⟨31, 0, .ro, 0x0⟩]⟩,
  ⟨"STRAP_LATCH", 0x00010008, 0x8, 1, .level7, [⟨6, 6, .ro, 0x0⟩, ⟨5, 5, .ro, 0x0⟩, ⟨4, 4, .ro, 0x0⟩, ⟨3, 2, .ro, 0x0⟩, ⟨1, 0, .ro, 0x0⟩]⟩,
  ⟨"RESET_FUSE", 0x00010010, 0x8, 1, .fixed, [⟨8, 6, .ro, 0x3⟩, ⟨5, 3, .ro, 0x3⟩, ⟨2, 0, .ro, 0x7⟩]⟩,
  ⟨"BOOT_STATUS", 0x00010020, 0x8, 2, .level7, [⟨63, 60, .ro, 0x0⟩, ⟨59, 56, .ro, 0x0⟩, ⟨55, 55, .ro, 0x0⟩, ⟨54, 54, .ro, 0x0⟩, ⟨53, 53, .ro, 0x0⟩, ⟨52, 52, .ro, 0x0⟩, ⟨47, 0, .ro, 0x0⟩]⟩,
  ⟨"RESET_CTRL", 0x00010030, 0x8, 1, .level7, [⟨63, 0, .wo, 0x0⟩]⟩,
  ⟨"RESET_REQ_STATUS", 0x00010038, 0x8, 1, .level7, [⟨15, 8, .ro, 0x0⟩, ⟨1, 1, .w1c, 0x0⟩, ⟨0, 0, .ro, 0x0⟩]⟩,
  ⟨"WEIR_STATUS", 0x00020000, 0x8, 1, .level7, [⟨63, 61, .ro, 0x0⟩, ⟨60, 58, .ro, 0x0⟩, ⟨57, 57, .ro, 0x0⟩, ⟨56, 56, .ro, 0x0⟩, ⟨55, 55, .ro, 0x0⟩, ⟨54, 54, .ro, 0x0⟩, ⟨53, 53, .ro, 0x0⟩, ⟨47, 32, .ro, 0x1900⟩, ⟨31, 16, .ro, 0x0⟩, ⟨15, 0, .ro, 0x0⟩]⟩,
  ⟨"WEIR_LIMITS", 0x00020008, 0x8, 1, .level7, [⟨55, 48, .ro, 0x64⟩, ⟨47, 40, .ro, 0x14⟩, ⟨31, 16, .ro, 0x1900⟩, ⟨15, 0, .ro, 0x15E0⟩]⟩,
  ⟨"WEIR_POWER", 0x00020010, 0x8, 1, .level7, [⟨47, 32, .ro, 0x0⟩, ⟨31, 16, .ro, 0x0⟩, ⟨15, 0, .ro, 0x0⟩]⟩,
  ⟨"WEIR_BUCKET", 0x00020018, 0x8, 1, .level7, [⟨63, 32, .ro, 0x0⟩, ⟨31, 0, .ro, 0x0⟩]⟩,
  ⟨"WEIR_WAKE", 0x00020020, 0x8, 1, .level7, [⟨0, 0, .wo, 0x0⟩]⟩,
  ⟨"VCORE_CTRL", 0x00020100, 0x8, 4, .level7, [⟨63, 52, .ro, 0x14⟩, ⟨51, 40, .ro, 0x258⟩, ⟨39, 28, .ro, 0x384⟩, ⟨27, 16, .ro, 0x2EE⟩, ⟨1, 0, .ro, 0x0⟩]⟩,
  ⟨"VCORE_STATUS", 0x00020140, 0x8, 4, .level7, [⟨63, 62, .ro, 0x0⟩, ⟨61, 61, .ro, 0x0⟩, ⟨60, 60, .ro, 0x0⟩, ⟨59, 59, .ro, 0x0⟩, ⟨58, 58, .ro, 0x0⟩, ⟨57, 57, .ro, 0x0⟩, ⟨43, 32, .ro, 0x0⟩, ⟨31, 16, .ro, 0x0⟩, ⟨11, 0, .ro, 0x2EE⟩]⟩]

/-- Rows of Table 25-11, part 2. -/
def regRows1 : List RegRow := [
  ⟨"REACH_DEPTH", 0x00020200, 0x8, 64, .level7, [⟨63, 62, .ro, 0x1⟩, ⟨61, 60, .ro, 0x0⟩, ⟨59, 59, .ro, 0x0⟩, ⟨58, 58, .ro, 0x0⟩, ⟨57, 57, .ro, 0x0⟩, ⟨31, 0, .ro, 0x0⟩]⟩,
  ⟨"PORT_POWER", 0x00020400, 0x8, 2, .level7, [⟨8, 0, .ro, 0x0⟩]⟩,
  ⟨"WAKE_TOLERANCE", 0x00020500, 0x8, 8, .level7, [⟨31, 0, .rw, 0x0⟩]⟩,
  ⟨"THROTTLE_COUNT", 0x00020600, 0x8, 8, .cold, [⟨63, 0, .ro, 0x0⟩]⟩,
  ⟨"PART_STATE", 0x00030000, 0x100, 8, .level7, [⟨63, 62, .ro, 0x0⟩, ⟨31, 0, .ro, 0x0⟩]⟩,
  ⟨"PART_REACHES", 0x00030008, 0x100, 8, .level7, [⟨63, 0, .ro, 0x0⟩]⟩,
  ⟨"PART_CTRL", 0x00030010, 0x100, 8, .level7, [⟨9, 9, .w1c, 0x0⟩, ⟨8, 8, .ro, 0x0⟩, ⟨5, 4, .ro, 0x0⟩, ⟨2, 2, .rw, 0x0⟩, ⟨1, 0, .rw, 0x0⟩]⟩,
  ⟨"PART_GUARANTEE", 0x00030018, 0x100, 8, .level7, [⟨63, 32, .ro, 0x0⟩, ⟨31, 24, .ro, 0x0⟩, ⟨23, 16, .ro, 0x0⟩, ⟨15, 0, .ro, 0x0⟩]⟩,
  ⟨"BASIS_DIGEST", 0x00030020, 0x100, 8, .level7, [⟨63, 0, .ro, 0x0⟩]⟩,
  ⟨"CHOICE_COUNT", 0x00030028, 0x100, 8, .level7, [⟨63, 0, .ro, 0x0⟩]⟩,
  ⟨"YIELD_COUNT", 0x00030030, 0x100, 8, .level7, [⟨63, 0, .ro, 0x0⟩]⟩,
  ⟨"PART_YIELD", 0x00030038, 0x100, 8, .level7, [⟨63, 60, .ro, 0x0⟩, ⟨59, 56, .ro, 0x0⟩, ⟨55, 55, .ro, 0x0⟩, ⟨54, 52, .ro, 0x0⟩, ⟨47, 0, .ro, 0x0⟩]⟩,
  ⟨"PART_CLAIM", 0x00030040, 0x100, 8, .level7, [⟨47, 7, .rw, 0x0⟩, ⟨0, 0, .rw, 0x0⟩]⟩,
  ⟨"CANAL_CTRL", 0x00040000, 0x100, 256, .level7, [⟨20, 16, .rw, 0x6⟩, ⟨13, 12, .rw, 0x0⟩, ⟨11, 10, .rw, 0x0⟩, ⟨9, 9, .rw, 0x0⟩, ⟨8, 8, .rw, 0x0⟩, ⟨7, 7, .ro, 0x1⟩, ⟨6, 4, .ro, 0x0⟩, ⟨0, 0, .rw, 0x0⟩]⟩,
  ⟨"CANAL_RING", 0x00040008, 0x100, 256, .level7, [⟨63, 12, .rw, 0x0⟩]⟩,
  ⟨"CANAL_TALLY_RING", 0x00040010, 0x100, 256, .level7, [⟨63, 12, .rw, 0x0⟩]⟩,
  ⟨"CANAL_HEAD", 0x00040018, 0x100, 256, .level7, [⟨31, 0, .rw, 0x0⟩]⟩,
  ⟨"CANAL_TAIL", 0x00040020, 0x100, 256, .level7, [⟨31, 0, .ro, 0x0⟩]⟩,
  ⟨"CANAL_DOORBELL", 0x00040028, 0x100, 256, .level7, [⟨31, 0, .wo, 0x0⟩]⟩,
  ⟨"CANAL_TALLY_TAIL", 0x00040030, 0x100, 256, .level7, [⟨31, 0, .ro, 0x0⟩]⟩]

/-- Rows of Table 25-11, part 3. -/
def regRows2 : List RegRow := [
  ⟨"CANAL_TALLY_HEAD", 0x00040038, 0x100, 256, .level7, [⟨31, 0, .rw, 0x0⟩]⟩,
  ⟨"CANAL_STATUS", 0x00040040, 0x100, 256, .level7, [⟨63, 48, .ro, 0x0⟩, ⟨47, 32, .ro, 0x0⟩, ⟨31, 24, .ro, 0x0⟩, ⟨7, 7, .ro, 0x0⟩, ⟨6, 6, .w1c, 0x0⟩, ⟨5, 5, .w1c, 0x0⟩, ⟨4, 4, .w1c, 0x0⟩, ⟨2, 2, .ro, 0x0⟩, ⟨1, 1, .ro, 0x1⟩, ⟨0, 0, .ro, 0x0⟩]⟩,
  ⟨"CANAL_DONE_SEQ", 0x00040048, 0x100, 256, .level7, [⟨31, 0, .ro, 0x0⟩]⟩,
  ⟨"CANAL_E4_CTRL", 0x00040050, 0x100, 256, .level7, [⟨31, 16, .rw, 0xFA⟩, ⟨6, 0, .rw, 0x40⟩]⟩,
  ⟨"CANAL_E4_BASE", 0x00040058, 0x100, 256, .level7, [⟨47, 16, .rw, 0x0⟩]⟩,
  ⟨"LOG_HEAD", 0x00050000, 0x8, 1, .store, [⟨63, 0, .ro, 0x0⟩]⟩,
  ⟨"LOG_OLDEST", 0x00050008, 0x8, 1, .store, [⟨63, 0, .ro, 0x0⟩]⟩,
  ⟨"LOG_EPOCH", 0x00050010, 0x8, 1, .store, [⟨63, 0, .ro, 0x0⟩]⟩,
  ⟨"LOG_STATUS", 0x00050018, 0x8, 1, .level7, [⟨63, 63, .ro, 0x0⟩, ⟨62, 62, .ro, 0x0⟩, ⟨61, 61, .ro, 0x0⟩, ⟨20, 0, .ro, 0x0⟩]⟩,
  ⟨"LOG_READ_INDEX", 0x00050020, 0x8, 1, .level7, [⟨63, 0, .rw, 0x0⟩]⟩,
  ⟨"LOG_READ_DATA", 0x00050100, 0x8, 32, .level7, [⟨63, 0, .ro, 0x0⟩]⟩,
  ⟨"LOG_CANAL_MARK", 0x00050800, 0x8, 256, .level7, [⟨63, 0, .ro, 0x0⟩]⟩,
  ⟨"SEC_STATUS", 0x00060000, 0x8, 1, .level7, [⟨63, 63, .ro, 0x0⟩, ⟨62, 62, .ro, 0x0⟩, ⟨61, 61, .ro, 0x0⟩, ⟨60, 60, .w1c, 0x0⟩, ⟨59, 56, .ro, 0x0⟩, ⟨55, 48, .ro, 0x0⟩, ⟨47, 32, .ro, 0x0⟩, ⟨31, 16, .ro, 0x0⟩]⟩,
  ⟨"SEC_CTRL", 0x00060008, 0x8, 1, .level7, [⟨2, 2, .rw, 0x0⟩, ⟨1, 1, .rwo, 0x0⟩, ⟨0, 0, .rwo, 0x0⟩]⟩,
  ⟨"SEC_TAMPER", 0x00060010, 0x8, 1, .alwaysOn, [⟨63, 60, .ro, 0x0⟩, ⟨59, 52, .ro, 0x0⟩, ⟨47, 0, .ro, 0x0⟩]⟩,
  ⟨"SEC_ZEROISE", 0x00060018, 0x8, 1, .level7, [⟨63, 0, .wo, 0x0⟩]⟩,
  ⟨"SEC_FUSE", 0x00060020, 0x8, 1, .fixed, [⟨15, 12, .ro, 0x0⟩, ⟨11, 11, .ro, 0x0⟩, ⟨10, 10, .ro, 0x0⟩, ⟨6, 0, .ro, 0x0⟩]⟩,
  ⟨"SEC_KEYS", 0x00060028, 0x8, 1, .level7, [⟨63, 63, .ro, 0x0⟩, ⟨47, 32, .ro, 0x0⟩, ⟨7, 0, .ro, 0x0⟩]⟩,
  ⟨"MAP_DIGEST", 0x00070000, 0x8, 1, .level7, [⟨63, 0, .ro, 0x0⟩]⟩,
  ⟨"MAP_GENERATION", 0x00070008, 0x8, 1, .cold, [⟨63, 0, .ro, 0x0⟩]⟩]

/-- Rows of Table 25-11, part 4. -/
def regRows3 : List RegRow := [
  ⟨"REACH_MAP", 0x00070100, 0x8, 64, .level7, [⟨63, 62, .ro, 0x0⟩, ⟨61, 58, .ro, 0x0⟩, ⟨57, 57, .ro, 0x0⟩, ⟨56, 56, .ro, 0x0⟩, ⟨49, 41, .ro, 0x0⟩, ⟨39, 36, .ro, 0x0⟩, ⟨35, 32, .ro, 0x0⟩, ⟨31, 0, .ro, 0x0⟩]⟩,
  ⟨"STACK_MAP", 0x00070300, 0x8, 32, .level7, [⟨63, 62, .ro, 0x0⟩, ⟨61, 58, .ro, 0x0⟩, ⟨15, 8, .ro, 0x0⟩, ⟨7, 0, .ro, 0x0⟩]⟩,
  ⟨"PORT_MAP", 0x00070400, 0x8, 2, .level7, [⟨63, 62, .ro, 0x0⟩, ⟨61, 58, .ro, 0x0⟩, ⟨12, 4, .ro, 0x0⟩, ⟨3, 0, .ro, 0x0⟩]⟩,
  ⟨"CLUSTER_UNIT_MAP", 0x00070800, 0x8, 576, .level7, [⟨31, 16, .ro, 0x0⟩, ⟨15, 12, .ro, 0x0⟩, ⟨11, 10, .ro, 0x0⟩, ⟨3, 3, .ro, 0x0⟩, ⟨2, 2, .ro, 0x0⟩, ⟨1, 1, .ro, 0x0⟩, ⟨0, 0, .ro, 0x0⟩]⟩,
  ⟨"FAILOP_STATUS", 0x00072000, 0x8, 1, .level7, [⟨63, 63, .ro, 0x0⟩, ⟨62, 61, .ro, 0x0⟩, ⟨60, 60, .ro, 0x0⟩, ⟨59, 59, .ro, 0x0⟩, ⟨58, 57, .ro, 0x0⟩, ⟨56, 56, .ro, 0x0⟩, ⟨55, 55, .ro, 0x0⟩, ⟨47, 40, .ro, 0x0⟩, ⟨39, 32, .ro, 0x0⟩, ⟨31, 24, .ro, 0x0⟩]⟩,
  ⟨"ERR_HEAD", 0x00072008, 0x8, 1, .store, [⟨63, 0, .ro, 0x0⟩]⟩,
  ⟨"ERR_OLDEST", 0x00072010, 0x8, 1, .store, [⟨63, 0, .ro, 0x0⟩]⟩,
  ⟨"ROAST_VERSION", 0x00072100, 0x8, 4, .level7, [⟨63, 0, .ro, 0x0⟩]⟩,
  ⟨"PDIE_STATUS", 0x00072200, 0x8, 2, .level7, [⟨63, 62, .ro, 0x0⟩, ⟨61, 60, .ro, 0x0⟩, ⟨59, 56, .ro, 0x0⟩, ⟨47, 0, .ro, 0x0⟩]⟩,
  ⟨"ERR_COUNT", 0x00072300, 0x8, 8, .level7, [⟨63, 0, .ro, 0x0⟩]⟩,
  ⟨"MEM_INTERLEAVE", 0x00080000, 0x8, 16, .level7, [⟨63, 0, .rw, 0x0⟩]⟩,
  ⟨"STACK_STATUS", 0x00080100, 0x8, 32, .level7, [⟨39, 32, .ro, 0x0⟩, ⟨31, 28, .ro, 0x0⟩, ⟨27, 27, .ro, 0x0⟩, ⟨26, 26, .ro, 0x0⟩, ⟨25, 20, .ro, 0x0⟩]⟩,
  ⟨"STACK_ECC_COUNT", 0x00080200, 0x8, 32, .cold, [⟨63, 48, .ro, 0x0⟩, ⟨47, 32, .ro, 0x0⟩, ⟨31, 0, .ro, 0x0⟩]⟩,
  ⟨"STACK_CHANNEL_MAP", 0x00080300, 0x8, 32, .level7, [⟨63, 32, .ro, 0x0⟩, ⟨17, 17, .ro, 0x0⟩, ⟨16, 16, .ro, 0x0⟩, ⟨15, 8, .ro, 0x0⟩, ⟨7, 0, .ro, 0x0⟩]⟩,
  ⟨"STACK_ERR_ADDR", 0x00080400, 0x8, 32, .cold, [⟨47, 0, .ro, 0x0⟩]⟩,
  ⟨"NME_STATUS", 0x00090000, 0x8, 256, .level7, [⟨63, 62, .ro, 0x0⟩, ⟨55, 51, .ro, 0x0⟩, ⟨47, 32, .ro, 0x0⟩, ⟨31, 29, .ro, 0x0⟩, ⟨27, 0, .ro, 0x0⟩]⟩,
  ⟨"NME_OPS", 0x00090800, 0x8, 256, .cold, [⟨63, 0, .ro, 0x0⟩]⟩,
  ⟨"NME_READ_BYTES", 0x00091000, 0x8, 256, .cold, [⟨63, 0, .ro, 0x0⟩]⟩,
  ⟨"SCRUB_CTRL", 0x00091800, 0x8, 32, .stack, [⟨15, 8, .rw, 0x18⟩, ⟨0, 0, .rw, 0x1⟩]⟩,
  ⟨"SCRUB_STATUS", 0x00091900, 0x8, 32, .stack, [⟨63, 32, .ro, 0x0⟩, ⟨29, 0, .ro, 0x0⟩]⟩]

/-- Rows of Table 25-11, part 5. -/
def regRows4 : List RegRow := [
  ⟨"FABRIC_NODE", 0x000A0000, 0x8, 1, .level7, [⟨63, 63, .rw, 0x0⟩, ⟨62, 62, .w1c, 0x0⟩, ⟨15, 0, .rw, 0x0⟩]⟩,
  ⟨"FABRIC_TIMERS", 0x000A0008, 0x8, 1, .level7, [⟨47, 32, .rw, 0xC8⟩, ⟨15, 0, .rw, 0x14⟩]⟩,
  ⟨"TIME_STATUS", 0x000A0010, 0x8, 1, .level7, [⟨63, 63, .rw, 0x0⟩, ⟨62, 62, .ro, 0x0⟩, ⟨61, 56, .ro, 0x0⟩, ⟨31, 0, .ro, 0x0⟩]⟩,
  ⟨"ROUTE_INDEX", 0x000A0018, 0x8, 1, .level7, [⟨15, 0, .rw, 0x0⟩]⟩,
  ⟨"ROUTE_DATA", 0x000A0020, 0x8, 1, .level7, [⟨15, 15, .rw, 0x0⟩, ⟨12, 8, .rw, 0x1F⟩, ⟨4, 0, .rw, 0x1F⟩]⟩,
  ⟨"LANDING_INDEX", 0x000A0028, 0x8, 1, .level7, [⟨11, 0, .rw, 0x0⟩]⟩,
  ⟨"LANDING_USED", 0x000A0030, 0x8, 1, .level7, [⟨12, 0, .ro, 0x0⟩]⟩,
  ⟨"LANDING_DATA", 0x000A0040, 0x8, 4, .level7, [⟨63, 0, .ro, 0x0⟩]⟩,
  ⟨"FABRIC_JOB", 0x000A0100, 0x8, 8, .level7, [⟨63, 63, .ro, 0x0⟩, ⟨31, 12, .ro, 0x0⟩, ⟨11, 0, .ro, 0x0⟩]⟩,
  ⟨"FABRIC_REJECT", 0x000A0140, 0x8, 8, .cold, [⟨63, 60, .ro, 0x0⟩, ⟨59, 48, .ro, 0x0⟩, ⟨47, 0, .ro, 0x0⟩]⟩,
  ⟨"PORT_STATUS", 0x000A0200, 0x8, 18, .level7, [⟨63, 61, .ro, 0x0⟩, ⟨60, 59, .ro, 0x0⟩, ⟨58, 58, .ro, 0x0⟩, ⟨47, 32, .ro, 0x0⟩, ⟨31, 31, .ro, 0x0⟩, ⟨30, 27, .ro, 0x0⟩]⟩,
  ⟨"PORT_ERRORS", 0x000A0300, 0x8, 18, .cold, [⟨63, 56, .ro, 0x0⟩, ⟨55, 44, .ro, 0x0⟩, ⟨43, 32, .ro, 0x0⟩, ⟨31, 0, .ro, 0x0⟩]⟩,
  ⟨"COMM_STATE", 0x000B0000, 0x8, 64, .level7, [⟨63, 62, .ro, 0x0⟩, ⟨61, 59, .ro, 0x0⟩, ⟨58, 58, .ro, 0x0⟩, ⟨48, 32, .ro, 0x0⟩, ⟨31, 16, .ro, 0x0⟩, ⟨15, 8, .ro, 0x0⟩]⟩,
  ⟨"COMM_ID", 0x000B0200, 0x8, 64, .level7, [⟨63, 32, .ro, 0x0⟩, ⟨31, 0, .ro, 0x0⟩]⟩,
  ⟨"COMM_LAST", 0x000B0400, 0x8, 64, .level7, [⟨63, 48, .ro, 0x0⟩, ⟨47, 40, .ro, 0x0⟩, ⟨31, 16, .ro, 0x0⟩]⟩,
  ⟨"COLL_UNMATCHED", 0x000B0600, 0x8, 1, .cold, [⟨63, 0, .ro, 0x0⟩]⟩,
  ⟨"CKPT_STATE", 0x000C0000, 0x8, 16, .level7, [⟨63, 61, .ro, 0x0⟩, ⟨60, 58, .ro, 0x0⟩, ⟨57, 57, .ro, 0x0⟩, ⟨56, 56, .ro, 0x0⟩, ⟨55, 48, .ro, 0x0⟩, ⟨47, 44, .ro, 0x0⟩, ⟨43, 40, .ro, 0x0⟩, ⟨39, 32, .ro, 0x0⟩, ⟨25, 0, .ro, 0x0⟩]⟩,
  ⟨"CKPT_STREAM", 0x000C0080, 0x8, 16, .level7, [⟨63, 32, .ro, 0x0⟩, ⟨31, 16, .ro, 0x0⟩]⟩,
  ⟨"CKPT_PROGRESS", 0x000C0100, 0x8, 16, .level7, [⟨57, 32, .ro, 0x0⟩, ⟨25, 0, .ro, 0x0⟩]⟩,
  ⟨"CKPT_STEP", 0x000C0180, 0x8, 16, .level7, [⟨63, 0, .ro, 0x0⟩]⟩]

/-- Rows of Table 25-11, part 6. -/
def regRows5 : List RegRow := [
  ⟨"SOLVER_STATE", 0x000D0000, 0x400, 64, .reach, [⟨39, 32, .ro, 0x0⟩, ⟨31, 28, .ro, 0x0⟩, ⟨27, 24, .ro, 0x0⟩, ⟨23, 23, .ro, 0x0⟩, ⟨22, 22, .ro, 0x0⟩, ⟨21, 19, .ro, 0x0⟩, ⟨15, 0, .ro, 0x0⟩]⟩,
  ⟨"SOLVER_SEQ", 0x000D0008, 0x400, 64, .reach, [⟨63, 0, .ro, 0x0⟩]⟩,
  ⟨"SOLVER_DONE", 0x000D0010, 0x400, 64, .reach, [⟨63, 0, .ro, 0x0⟩]⟩,
  ⟨"SOLVER_ARRAY_HC", 0x000D0018, 0x400, 64, .reach, [⟨63, 0, .ro, 0x0⟩]⟩,
  ⟨"SOLVER_ASM_TERMS", 0x000D0020, 0x400, 64, .reach, [⟨63, 0, .ro, 0x0⟩]⟩,
  ⟨"SOLVER_WAIT_HC", 0x000D0028, 0x400, 64, .reach, [⟨63, 0, .ro, 0x0⟩]⟩,
  ⟨"SOLVER_PIVOT_REG", 0x000D0100, 0x400, 64, .reach, [⟨63, 0, .ro, 0x0⟩]⟩,
  ⟨"SOLVER_PIVOT_FAIL", 0x000D0108, 0x400, 64, .reach, [⟨63, 0, .ro, 0x0⟩]⟩,
  ⟨"SOLVER_LAST_PIVOT", 0x000D0110, 0x400, 64, .reach, [⟨63, 60, .ro, 0x0⟩, ⟨55, 40, .ro, 0x0⟩, ⟨31, 0, .ro, 0x0⟩]⟩,
  ⟨"SOLVER_MIN_PIVOT", 0x000D0118, 0x400, 64, .reach, [⟨63, 0, .ro, 0x0⟩]⟩,
  ⟨"SOLVER_ITER_COUNT", 0x000D0120, 0x400, 64, .reach, [⟨63, 0, .ro, 0x0⟩]⟩,
  ⟨"SOLVER_RESID", 0x000D0128, 0x400, 64, .reach, [⟨63, 0, .ro, 0x0⟩]⟩,
  ⟨"SOLVER_STOP", 0x000D0130, 0x400, 64, .reach, [⟨63, 63, .ro, 0x0⟩, ⟨62, 62, .ro, 0x0⟩, ⟨31, 0, .ro, 0x0⟩]⟩,
  ⟨"HC_RATE", 0x000E0000, 0x8, 64, .level7, [⟨47, 32, .ro, 0x0⟩, ⟨31, 16, .ro, 0x0⟩, ⟨15, 0, .rw, 0xFFFF⟩]⟩,
  ⟨"TIMING_CTRL", 0x000E0200, 0x8, 64, .level7, [⟨7, 7, .ro, 0x0⟩, ⟨6, 6, .ro, 0x0⟩, ⟨5, 5, .ro, 0x0⟩, ⟨4, 4, .ro, 0x0⟩, ⟨1, 1, .rw, 0x0⟩, ⟨0, 0, .rw, 0x0⟩]⟩,
  ⟨"CUPPING_RESULT", 0x000E0400, 0x8, 64, .level7, [⟨63, 60, .ro, 0x0⟩, ⟨59, 51, .ro, 0x0⟩, ⟨47, 32, .ro, 0x0⟩, ⟨31, 16, .ro, 0x0⟩, ⟨15, 8, .ro, 0x0⟩, ⟨7, 0, .ro, 0x0⟩]⟩,
  ⟨"PACE_SLIP_COUNT", 0x000E0600, 0x8, 64, .cold, [⟨63, 0, .ro, 0x0⟩]⟩,
  ⟨"SENSOR_REACH", 0x000E0800, 0x8, 64, .level7, [⟨63, 48, .ro, 0x0⟩, ⟨47, 32, .ro, 0x0⟩, ⟨31, 16, .rw, 0x0⟩, ⟨15, 0, .ro, 0x0⟩]⟩,
  ⟨"SENSOR_DIE", 0x000E0A00, 0x8, 8, .level7, [⟨63, 48, .ro, 0x0⟩, ⟨47, 32, .ro, 0x0⟩, ⟨31, 16, .rw, 0x0⟩, ⟨15, 0, .ro, 0x0⟩]⟩,
  ⟨"CLUSTER_STATE", 0x00100000, 0x400, 576, .cluster, [⟨15, 12, .ro, 0x0⟩, ⟨11, 11, .ro, 0x0⟩, ⟨10, 8, .ro, 0x0⟩, ⟨7, 7, .ro, 0x0⟩]⟩]

/-- Rows of Table 25-11, part 7. -/
def regRows6 : List RegRow := [
  ⟨"CLUSTER_PC", 0x00100008, 0x400, 576, .cluster, [⟨63, 0, .ro, 0x0⟩]⟩,
  ⟨"CLUSTER_CAUSE", 0x00100010, 0x400, 576, .cluster, [⟨63, 0, .ro, 0x0⟩]⟩,
  ⟨"CLUSTER_TVAL", 0x00100018, 0x400, 576, .cluster, [⟨63, 0, .ro, 0x0⟩]⟩,
  ⟨"CLUSTER_EPC", 0x00100020, 0x400, 576, .cluster, [⟨63, 0, .ro, 0x0⟩]⟩,
  ⟨"CLUSTER_FPCTRL", 0x00100028, 0x400, 576, .cluster, [⟨63, 0, .ro, 0x0⟩]⟩,
  ⟨"CLUSTER_RETIRED", 0x00100030, 0x400, 576, .cluster, [⟨63, 0, .ro, 0x0⟩]⟩,
  ⟨"CLUSTER_HC", 0x00100038, 0x400, 576, .cluster, [⟨63, 0, .ro, 0x0⟩]⟩,
  ⟨"VEC_STATE", 0x00100040, 0x400, 576, .cluster, [⟨15, 14, .ro, 0x0⟩, ⟨13, 13, .ro, 0x0⟩, ⟨10, 0, .ro, 0x0⟩]⟩,
  ⟨"VEC_FAULT", 0x00100048, 0x400, 576, .cluster, [⟨10, 10, .ro, 0x0⟩, ⟨9, 0, .ro, 0x0⟩]⟩,
  ⟨"VEC_RETIRED", 0x00100050, 0x400, 576, .cluster, [⟨63, 0, .ro, 0x0⟩]⟩,
  ⟨"VEC_LSU_BUSY", 0x00100058, 0x400, 576, .cluster, [⟨63, 0, .ro, 0x0⟩]⟩,
  ⟨"VEC_FMA_BUSY", 0x00100060, 0x400, 576, .cluster, [⟨63, 0, .ro, 0x0⟩]⟩,
  ⟨"VEC_ALU_BUSY", 0x00100068, 0x400, 576, .cluster, [⟨63, 0, .ro, 0x0⟩]⟩,
  ⟨"VEC_CVT_BUSY", 0x00100070, 0x400, 576, .cluster, [⟨63, 0, .ro, 0x0⟩]⟩,
  ⟨"VEC_CHECK_STALL", 0x00100078, 0x400, 576, .cluster, [⟨63, 0, .ro, 0x0⟩]⟩,
  ⟨"MAT_STATE", 0x00100200, 0x400, 576, .cluster, [⟨15, 15, .ro, 0x0⟩, ⟨14, 13, .ro, 0x0⟩, ⟨12, 12, .ro, 0x0⟩, ⟨11, 10, .ro, 0x0⟩, ⟨9, 8, .ro, 0x0⟩, ⟨7, 6, .ro, 0x0⟩, ⟨5, 5, .ro, 0x0⟩, ⟨4, 3, .ro, 0x0⟩, ⟨2, 0, .ro, 0x0⟩]⟩,
  ⟨"MAT_RETIRED", 0x00100208, 0x400, 576, .cluster, [⟨63, 0, .ro, 0x0⟩]⟩,
  ⟨"MAT_M_HC", 0x00100210, 0x400, 576, .cluster, [⟨63, 0, .ro, 0x0⟩]⟩,
  ⟨"MAT_D_HC", 0x00100218, 0x400, 576, .cluster, [⟨63, 0, .ro, 0x0⟩]⟩,
  ⟨"MAT_SWITCHES", 0x00100220, 0x400, 576, .cluster, [⟨63, 0, .ro, 0x0⟩]⟩]

/-- Rows of Table 25-11, part 8. -/
def regRows7 : List RegRow := [
  ⟨"MAT_FETCH_STALL", 0x00100228, 0x400, 576, .cluster, [⟨63, 0, .ro, 0x0⟩]⟩,
  ⟨"MAT_OUT_HC", 0x00100230, 0x400, 576, .cluster, [⟨63, 0, .ro, 0x0⟩]⟩,
  ⟨"MAT_LOAD_HC", 0x00100238, 0x400, 576, .cluster, [⟨63, 0, .ro, 0x0⟩]⟩,
  ⟨"HOST_PORT_STATUS", 0x00200000, 0x8, 2, .hostPort, [⟨63, 62, .ro, 0x0⟩, ⟨61, 60, .ro, 0x0⟩, ⟨59, 59, .ro, 0x0⟩, ⟨58, 58, .ro, 0x0⟩, ⟨57, 54, .ro, 0x0⟩]⟩,
  ⟨"HOST_WIN4", 0x00200010, 0x8, 2, .hostPort, [⟨62, 60, .rw, 0x0⟩, ⟨47, 16, .rw, 0x0⟩, ⟨0, 0, .rw, 0x0⟩]⟩,
  ⟨"HOST_ERR", 0x00200020, 0x8, 2, .hostPort, [⟨63, 60, .ro, 0x0⟩, ⟨59, 48, .ro, 0x0⟩, ⟨47, 0, .ro, 0x0⟩]⟩,
  ⟨"HOST_EVENT", 0x00200030, 0x8, 1, .level7, [⟨3, 3, .w1c, 0x0⟩, ⟨2, 2, .w1c, 0x0⟩, ⟨1, 1, .w1c, 0x0⟩, ⟨0, 0, .w1c, 0x0⟩]⟩,
  ⟨"RECOVERY_CTRL", 0x00200040, 0x8, 1, .level7, [⟨35, 33, .ro, 0x0⟩, ⟨32, 32, .wo, 0x0⟩, ⟨31, 0, .rw, 0x0⟩]⟩]

/-- Every row of the register index. -/
def regRows : List RegRow :=
  regRows0 ++ regRows1 ++ regRows2 ++ regRows3 ++ regRows4 ++ regRows5 ++ regRows6 ++ regRows7

/-- The row that holds address `a`, if a register stands there. -/
def regRow? (a : Nat) : Option RegRow :=
  regRows.find? fun r => r.base ≤ a && (a - r.base) % r.stride == 0 && (a - r.base) / r.stride < r.count

/-- The value a row's fields have at reset. (DESIGN CHOICE, log entry 3.) -/
def RegRow.resetValue (r : RegRow) : Word :=
  BitVec.ofNat 64 (r.fields.foldl (fun n f => n + f.reset * 2 ^ f.lo) 0)

/-- What the register at address `a` reads as while the state lists no value for it: its reset value, and zero at a
reserved offset (R682). -/
def regReset (a : Nat) : Word :=
  match regRow? a with
  | some r => r.resetValue
  | none => 0

end Sys2Proof.Machine
end

