-- ==== Sys2Proof/Machine/Sparse.lean ====
section
/-! DEFINITION. Sparse stores in one canonical form: a list of (key, value) pairs whose keys rise strictly and whose
values all differ from what an unlisted key reads as. Memory, the register file of window 0, the clusters and the other
large arrays of the package are held so. -/

namespace Sys2Proof.Machine

/-- What key `k` reads as: its listed value, or the default. -/
def spGet {α : Type} (d : Nat → α) : List (Nat × α) → Nat → α
  | [], k => d k
  | (j, v) :: rest, k => if j = k then v else spGet d rest k

/-- Lists value `v` at key `k` in place, keeping the keys rising. -/
def spPut {α : Type} (k : Nat) (v : α) : List (Nat × α) → List (Nat × α)
  | [] => [(k, v)]
  | (j, w) :: rest =>
    if k < j then (k, v) :: (j, w) :: rest
    else if k = j then (k, v) :: rest
    else (j, w) :: spPut k v rest

/-- Removes key `k`. -/
def spDel {α : Type} (k : Nat) (m : List (Nat × α)) : List (Nat × α) := m.filter fun c => c.1 != k

/-- Writes value `v` at key `k`; writing what an unlisted key reads as removes the entry. -/
def spSet {α : Type} [DecidableEq α] (d : Nat → α) (k : Nat) (v : α) (m : List (Nat × α)) : List (Nat × α) :=
  if v = d k then spDel k m else spPut k v m

/-- Removes every key that a test selects, returning those keys to the default. -/
def spClear {α : Type} (p : Nat → Bool) (m : List (Nat × α)) : List (Nat × α) := m.filter fun c => !p c.1

/-- The canonical form: keys rise strictly. -/
def spRising {α : Type} : List (Nat × α) → Bool
  | [] => true
  | [_] => true
  | a :: b :: rest => decide (a.1 < b.1) && spRising (b :: rest)

/-- The canonical form: keys rise strictly and no entry equals what an unlisted key reads as. -/
def spWf {α : Type} [DecidableEq α] (d : Nat → α) (m : List (Nat × α)) : Bool :=
  spRising m && m.all fun c => decide (c.2 ≠ d c.1)

/-- A set of numbers in one canonical form: rising, without repeats. -/
def setIns (k : Nat) : List Nat → List Nat
  | [] => [k]
  | j :: rest => if k < j then k :: j :: rest else if k = j then j :: rest else j :: setIns k rest

/-- Removes a number from a set. -/
def setDel (k : Nat) (s : List Nat) : List Nat := s.filter (· != k)

end Sys2Proof.Machine
end

