-- ==== Sys2Proof/Machine/State.lean ====
section
/-! DEFINITION. The state of the package as plain data, the reasons a command can stop, and the state right after
reset. Window-0 registers stand in one store keyed by their address (Table 25-11); the stores, queues and hidden
state behind them stand in the structures below, each with the rule that names it. -/

namespace Sys2Proof.Machine

/-- Why the machine stops with a fault: it never does. The manual gives every command an effect, and where it leaves that
effect undefined (R663, R665, R668) the state goes on with free values. (DESIGN CHOICE, log entries 6 and 7.) -/
inductive Fault where
  deriving DecidableEq, Repr

/-- Why a command is refused. -/
inductive Refusal where
  /-- Raised by Dispatch alone, for a command that has no meaning yet. Safe. -/
  | notModelled (mnemonic : String)
  deriving DecidableEq, Repr

/-- The outcome of a command. -/
abbrev Res (σ : Type) := Host.Outcome σ Fault Refusal

/-! ### Clusters (R63 to R178) -/

/-- What a cluster does, apart from what a running one waits for (MODE of Table 3-19). -/
inductive Act where
  | idle
  | running
  | stopped   -- stopped by trap or poison (R106, R138, R162)
  | paused    -- paused for a substitution (R107, R582)
  | armed     -- armed on a lock gate (R379)
  deriving DecidableEq, Repr

/-- A wait.flag that watches its word (R92, R93). -/
structure FlagWait where
  rd      : Nat          -- the register that takes the last value read
  la      : Nat          -- the local address of the flag word
  pa      : Nat          -- its physical address
  ref     : Word         -- x[rC]
  cond    : Nat          -- mod[7:5]
  tmo     : Nat          -- mod[4:0]
  watched : Bool         -- a watch stands; without one the word is read every 256 hc
  last    : Word         -- the last value read
  since   : Nat          -- CW_HC at its first read (R92)
  deriving DecidableEq, Repr

/-- What an issued instruction of a running cluster waits for. -/
inductive CWait where
  | none
  | flag (w : FlagWait)                  -- wait.flag (R93)
  | fence                                -- fence (R99)
  | fenceR                               -- fence.r
  | fenceNm                              -- fence.nm
  | halt (exit : BitVec 32)              -- halt, with the exit value (R101)
  | remoteLoad (rd : Nat) (addr : Word) (seq : Nat)  -- ld.r, waiting for its reply (R96)
  deriving DecidableEq, Repr

/-- The matrix instructions that enter a queue (R164). -/
inductive MatKind where
  | mma | mout | mzero | mtrans
  deriving DecidableEq, Repr

/-- A matrix instruction that has passed its check and has not completed (R163, R164). -/
structure MatOp where
  num    : Nat    -- position in program order
  kind   : MatKind
  word   : Nat    -- the instruction word
  xa     : Nat    -- x[rA], x[rB], x[rC] as read at issue (R153)
  xb     : Nat
  xc     : Nat
  pc     : Nat    -- its address
  ord    : Nat    -- instructions retired before it (R187)
  fpctrl : Nat    -- CW_FPCTRL at issue
  chain  : Bool   -- an mma with ACC that chains on the one before it (R168)
  desc   : List Byte            -- the output descriptor of an mout as read after its check (R198)
  rdMem  : List (Nat × Nat)     -- own-basin ranges it reads, in the order of R169, and writes: offset and length
  wrMem  : List (Nat × Nat)
  rdReg  : List (Nat × Nat)     -- vector registers it reads and writes: first and number
  wrReg  : List (Nat × Nat)
  deriving DecidableEq, Repr

/-- The architectural state of a physical cluster (R63) with the hidden flags and counters the manual gives it. -/
structure Cluster where
  act        : Act := .idle
  wait       : CWait := .none
  pc         : Nat := 0
  g          : List (Nat × Word) := []      -- g1–g31, zero where unlisted (R64)
  v          : List (Nat × Byte) := []      -- v0–v95: byte b of v[n] at key 1024n + b, zero where unlisted
  vpois      : List Nat := []               -- poisoned 64-bit words of v0–v95, word k at byte 8k (R285)
  fpctrl     : Nat := 0                     -- CW_FPCTRL (Table 3-2)
  hmode      : Bool := false                -- CW_STATUS.HMODE
  deferred   : Bool := false                -- CW_STATUS.DEFERRED_PENDING
  tvec       : Nat := 0
  epc        : Nat := 0
  cause      : Nat := 0
  tval       : Nat := 0
  tscratch   : Nat := 0
  hc         : Nat := 0                     -- CW_HC
  retired    : Nat := 0                     -- CW_RETIRED
  seed       : Nat := 0                     -- CW_SEED
  deadline   : Nat := 0                     -- CW_DEADLINE
  nmOut      : Nat := 0                     -- CW_NM_OUT
  remoteOut  : Nat := 0                     -- CW_REMOTE_OUT
  vl         : Nat := 0                     -- CW_VL
  vtype      : Nat := 3                     -- CW_VTYPE (R114)
  fresh      : Bool := true                 -- no instruction boundary since its reset (R144)
  defCause   : Nat := 0                     -- first deferred cause (R98)
  defAddr    : Nat := 0                     -- address of the first rejected store
  defMore    : Nat := 0                     -- further rejected stores
  faulted    : Bool := false                -- FAULTED of Table 3-19
  stopCause  : Nat := 0                     -- CLUSTER_CAUSE, CLUSTER_TVAL, CLUSTER_EPC of a stop under R106
  stopTval   : Nat := 0
  stopEpc    : Nat := 0
  flushed    : Bool := false                -- the hidden barge flag (R70)
  clipped    : Bool := false                -- the hidden clip flag (R190)
  barge      : Option (Nat × Nat) := none   -- the CARGO_RUN or CARGO_ARM that runs here: canal and sequence number
  stale      : List (Nat × Byte) := []      -- own-basin bytes before stores not yet seen by fetch (R76)
  mat        : List MatOp := []             -- issued, unfinished matrix instructions in program order
  matNum     : Nat := 0                     -- matrix instructions issued
  plane      : Option Bool := none          -- the plane that issued last: true for D (R166)
  lastMma    : List (Nat × Bool) := []      -- tiles that an mma touched last, with its DEFER (R168)
  seen       : List Nat := []               -- what the mirrors showed at the last instruction boundary (R109, R177)
  vecFault   : Option Nat := none           -- VEC_FAULT (Table 4-19)
  vecRetired : Nat := 0                     -- counters of Table 4-17
  lsuBusy    : Nat := 0
  fmaBusy    : Nat := 0
  aluBusy    : Nat := 0
  cvtBusy    : Nat := 0
  checkStall : Nat := 0
  matRetired : Nat := 0                     -- counters of Table 5-7
  matMHc     : Nat := 0
  matDHc     : Nat := 0
  matSwitch  : Nat := 0
  fetchStall : Nat := 0
  matOutHc   : Nat := 0
  matLoadHc  : Nat := 0
  deriving DecidableEq, Repr

/-- A cluster at reset: idle, every word zero (R109, R144, R177). (DESIGN CHOICE, log entry 3.) -/
def Cluster.reset : Cluster := {}

/-! ### Maps, watches and stores -/

/-- A mapping record of a partition's page map (Table 9-3). -/
structure MapRec where
  part  : Nat
  va    : Nat
  pa    : Nat
  size  : Nat          -- 0: 64 KiB; 1: 2 MiB; 2: 1 GiB
  write : Bool
  deriving DecidableEq, Repr

/-- A fill of memory: what the bytes of a range read as where nothing is listed, zero for `gen` 0 and a free value
otherwise (R280). -/
structure MemFill where
  base : Nat
  len  : Nat
  gen  : Nat
  deriving DecidableEq, Repr

/-- Who holds one of the 128 watch entries of a stack controller (R93). -/
inductive Watcher where
  | cluster (p : Nat)
  | barge (canal seq : Nat)
  deriving DecidableEq, Repr

/-- A watch entry in use. -/
structure Watch where
  stack : Nat
  who   : Watcher
  deriving DecidableEq, Repr

/-- A slot of a partition's cargo store that was ever used (R407). -/
structure CargoSlot where
  part   : Nat
  slot   : Nat
  gen    : Nat
  loaded : Bool
  image  : List Byte
  mapVer : Nat          -- the partition map's version at the cargo's last overlap check (R176)
  deriving DecidableEq, Repr

/-! ### Barges (R355 to R381) -/

/-- A dependency token as resolved at acceptance (R363). -/
structure Dep where
  token : Nat
  canal : Nat
  seq   : Nat
  past  : Bool             -- accepted before the dependent barge
  deriving DecidableEq, Repr

/-- Where an accepted barge stands. -/
inductive Phase where
  | waiting                                   -- accepted, not started
  | started                                   -- its START entry is in the logbook; its work has not begun
  | working                                   -- its work is under way and ends by a later event
  | ended (status r0 r1 : Nat)                -- its work has ended; its COMPLETE is to be entered
  deriving DecidableEq, Repr

/-- The lock gate of a CARGO_ARM (R377 to R381). -/
structure Gate where
  la       : Nat
  pa       : Nat
  cond     : Nat
  ref      : Word
  watched  : Bool
  tripped  : Bool              -- the condition was met, and a solver barge holds a reach of the mask (R210)
  released : Bool
  deriving DecidableEq, Repr

/-- The stop by trap that a run reports (R106): when it fell, on which logical cluster, its cause and its value. -/
structure RunFault where
  time  : Nat
  log   : Nat
  cause : Nat
  tval  : Nat
  deriving DecidableEq, Repr

/-- The clusters of a CARGO_RUN or CARGO_ARM and what those that halted left (R414). -/
structure RunWork where
  clusters : List Nat        -- physical clusters started or armed
  live     : List Nat        -- those that have neither halted nor stopped
  halted   : Nat             -- how many halted
  exitOr   : Nat             -- bitwise OR of the exit values
  maxHc    : Nat             -- largest CW_HC among the clusters that ended
  gate     : Option Gate
  args     : List Word
  claims   : List (Nat × Nat)   -- claims performed in deal order: claim word and cluster (R484)
  fault    : Option RunFault := none   -- a cluster has stopped by trap: the others stop at their next boundaries (R106)
  deriving DecidableEq, Repr

/-- A WAIT that watches its word (R394). -/
structure WaitWork where
  la      : Nat
  pa      : Nat
  cond    : Nat
  ref     : Word
  watched : Bool
  deriving DecidableEq, Repr

/-- The work of a barge whose work ends by a later event. -/
inductive Work where
  | none
  | wait (w : WaitWork)                               -- WAIT
  | run (w : RunWork)                                 -- CARGO_RUN, CARGO_ARM
  -- CANAL_DRAIN: its drain set by canal and sequence number, how many it cancelled, and the solver barges it asked to stop
  | drain (set : List (Nat × Nat)) (cancelled : Nat) (asked : List (Nat × Nat))
  | abort (canal seq : Nat)                           -- CARGO_ABORT of a target
  | unmap (recs : List (Nat × MapRec)) (n : Nat)      -- MAP_CLEAR: the pages it waits for, and how many it removed
  | near (op : Nat)                                   -- a near-memory barge's operation
  deriving DecidableEq, Repr

/-- A barge that the package has accepted and not completed. -/
structure Barge where
  canal    : Nat
  seq      : Nat
  bytes    : List Byte          -- the 128 bytes as fetched; for an E4 packet its translation
  packet   : List Byte          -- the 64-byte E4 packet, empty for a native barge
  entry    : Nat                -- the number of its ACCEPT or latest CARRY
  part     : Nat                -- the header's PARTITION
  headAt   : List (Nat × Nat)   -- CANAL_HEAD of the canals it may name, at acceptance (R363, R415)
  deps     : List Dep
  phase    : Phase
  notes    : Nat                -- the note bits set so far (Table 12-10)
  work     : Work
  admitted : Bool               -- admitted under its latency ceiling (R479)
  startAt  : Nat                -- timebase at its start
  batch    : Nat                -- the E4 batch it belongs to (R385)
  acc      : Nat                -- the number of its ACCEPT
  readyAt  : Option Nat := none -- timebase at which conditions 1 to 4 of R361 were found to hold
  passedAt : Option Nat := none -- timebase at which the weir first passed it over (R447)
  begun    : Bool := false      -- its START has been entered
  stopBy   : Nat := 0           -- a stop that its work row takes up: 1 its deadline, 2 a drain, 3 a lost reach (R260, R264, R587)
  waitFrom : Option Nat := none -- timebase from which it waits for a shut-down, a scrub or clusters (R386, R465, R473)
  yielded  : Bool := false      -- Table 16-4 names it: DONE becomes GUARANTEE_YIELDED (R482)
  lost     : List Nat := []     -- reaches of its mask that were lost since its start (R587)
  startNo  : Nat := 0           -- the number of its START
  doomed   : Bool := false      -- accepted after a PART_DESTROY of its partition that has completed (R478)
  dies     : List Nat := []     -- C-dies on whose stacks or clusters it has used memory (R448)
  deriving DecidableEq, Repr

/-- What the package remembers of a completed barge: canal, sequence number, status (R360). -/
structure Done where
  canal  : Nat
  seq    : Nat
  status : Nat
  deriving DecidableEq, Repr

/-- An E4 reply that waits for its order (R387). -/
structure HeldTally where
  canal : Nat
  seq   : Nat
  bytes : List Byte
  write : Bool                  -- false: a packet that takes no reply
  irq   : Bool                  -- its interrupt is asked for
  entry : Nat                   -- the number of its COMPLETE
  part  : Option Nat            -- the PARTITION of its entries
  deriving DecidableEq, Repr

/-! ### Logbook and error records -/

/-- A logbook entry (Table 14-1). -/
structure LogEntry where
  number : Nat
  kind   : Nat
  time   : Nat
  canal  : Nat
  seq    : Nat
  status : Nat
  part   : Option Nat          -- PARTITION where PART_VALID is 1 (R425)
  writer : Nat                 -- the P-die that wrote it
  single : Bool                -- SINGLE
  copies : Nat                 -- the copies that hold it: bit 0 A, bit 1 B (R421)
  barge  : List Byte
  tally  : List Byte
  event  : List Byte
  deriving DecidableEq, Repr

/-- The logbook (R421 to R428). (DEDUCED, log entry 57.) -/
structure LogBook where
  entries : List LogEntry := []   -- retained entries, ascending
  next    : Nat := 0              -- the number of the next entry
  epoch   : Nat := 0              -- LOG_EPOCH
  valid   : Bool := false         -- the stacks hold a logbook (R423)
  orphans : List Barge := []      -- barges that a reset of level 7 cut off: the next boot closes them (R429)
  gap     : Option (Nat × Nat) := none   -- entries that neither copy could take and that no GAP entry names yet
  deriving DecidableEq, Repr, Inhabited

/-- An error record (Table 20-3). -/
structure ErrRec where
  number   : Nat
  time     : Nat
  logEntry : Nat
  unit     : Nat
  kind     : Nat
  level    : Nat
  part     : Option Nat
  action   : Nat
  count    : Nat
  addr     : Nat
  detail   : Nat
  deriving DecidableEq, Repr

/-- An event that the thresholds of Table 20-2 count: the unit, the KIND and where and when it fell. -/
structure FaultEvent where
  unit  : Nat
  kind  : Nat
  place : Nat
  time  : Nat
  deriving DecidableEq, Repr

/-- The error records, the failure counts and the in-service record (R29, R578, R579). -/
structure ErrStore where
  recs    : List ErrRec := []
  next    : Nat := 0
  events  : List FaultEvent := []
  deriving DecidableEq, Repr, Inhabited

/-! ### Near-memory operations (R305 to R340) -/

/-- Where a near-memory operation came from. -/
inductive NmSource where
  | cluster (p : Nat) (run : Option (Nat × Nat))   -- the posting cluster and the barge that ran there
  | barge (canal seq : Nat)
  deriving DecidableEq, Repr

/-- A near-memory operation from its acceptance to its completion (R306). -/
structure NmOp where
  num    : Nat
  lead   : Nat                 -- lead engine
  desc   : List Byte           -- the 64-byte descriptor
  part   : Nat
  view   : List MapRec         -- the partition's page map at acceptance (R313)
  source : NmSource
  status : Option Nat          -- physical address of the STATUS field of an nm.post
  flag   : Option Nat          -- physical address of the completion word
  seed   : Nat
  src    : Nat
  ord    : Nat                 -- op_ord of R319
  done   : Bool
  code   : Nat                 -- CODE, DETAIL and NOTES once done (Table 10-5)
  detail : Nat
  notes  : Nat
  deriving DecidableEq, Repr

/-! ### Solver sequencers (R207 to R273) -/

/-- A front of a sparse schedule as its workspace area holds it (R229, R232). The manual gives that area no layout: which
bytes stand for the front is free, and the front is there as long as the area holds them. (DESIGN CHOICE, log entry 26.) -/
structure FrontData where
  work  : Nat              -- physical address of the front's area
  bytes : List Byte        -- the bytes of the area that stand for it
  num   : Nat              -- front number
  mat  : List (List Nat)   -- the front's matrix, by local row
  perm : List Nat          -- the local row that each pivot position holds
  vec  : List (List Nat)   -- right-hand-side contributions, by local row
  deriving DecidableEq, Repr

/-- The vectors of an iterative method as its workspace holds them (R235). The manual gives them no layout: which bytes
stand for them is free. (DESIGN CHOICE, log entry 26.) -/
structure KrylovData where
  work  : Nat              -- physical address of the workspace
  bytes : List Byte        -- the bytes after the result record that stand for them
  vecs  : List (List Nat)
  deriving DecidableEq, Repr

/-! ### Fabric (R492 to R527) -/

/-- A landing-table entry (Table 17-5). -/
structure Landing where
  index : Nat
  wbase : Nat
  lbase : Nat          -- LOCAL
  wlen  : Nat          -- in 64 KiB units
  job   : Nat
  srcLo : Nat
  srcHi : Nat
  read  : Bool
  write : Bool
  flag  : Bool
  part  : Nat
  deriving DecidableEq, Repr

/-- Who issued a remote request. -/
inductive ReqOwner where
  | cluster (p : Nat) (run : Option (Nat × Nat))   -- the cluster, and the barge that ran there
  | slot (k : Nat)                                 -- a communicator slot
  | job (key rank : Nat)                           -- a launch or teardown, and the rank the packet goes to
  | none
  deriving DecidableEq, Repr

/-- A request that no ACK, NACK or response has covered yet (R506 to R508). -/
structure ReqOut where
  pkt    : Packet
  owner  : ReqOwner
  sentAt : Nat           -- timebase when it was first sent
  lastAt : Nat           -- timebase when it was last sent
  deriving DecidableEq, Repr

/-- What a TIME exchange has measured on a link (R522): the master, its distance in links, and OFFSET. -/
structure TimeRec where
  master : Nat
  hops   : Nat
  offset : BitVec 32
  deriving DecidableEq, Repr

/-- A unit of a source node whose flags are withheld, with the code of the rejection (R515). -/
structure Withhold where
  src  : Nat
  unit : Nat
  code : Nat
  deriving DecidableEq, Repr

/-- A data flit that the partner has not acknowledged, and how often it was replayed (R496, R498). -/
structure HeldFlit where
  fseq  : Nat
  tries : Nat
  bytes : List Byte
  deriving DecidableEq, Repr

/-- What a port keeps of its link: flit counters, failed lanes and the packet stream (R494 to R497). -/
structure LinkSt where
  fseq    : Nat := 0            -- FSEQ of the last data flit sent
  recv    : Nat := 0            -- FSEQ of the last data flit received in order
  held    : List HeldFlit := [] -- the data flits sent and not acknowledged, ascending
  queue   : List Packet := []   -- packets that wait to be sent, in the order in which they came to the port
  rest    : List Byte := []     -- what is still to be sent of the packet that has begun
  turn    : Bool := false       -- VC2 goes before VC0
  spent   : List Nat := []      -- 32-byte units of the partner's buffers in use, by virtual channel
  owed    : List Nat := []      -- 32-byte units of the own buffers freed and not yet returned
  ackDue  : Bool := false       -- a data flit came that no flit has acknowledged
  stream  : List Byte := []     -- what has come of a packet that is not whole yet
  lastCw  : Nat := 0            -- symbol errors of the last codeword that came
  failed  : Nat := 0            -- mask of failed lanes
  losses  : Nat := 0            -- losses (Table 20-2)
  lastTry : Nat := 0            -- timebase of the last training attempt
  enc     : Bool := false       -- the link is encrypted (R606)
  deriving DecidableEq, Repr

/-- A collective that runs on a communicator slot (R535 to R547). -/
structure CollRun where
  canal  : Nat
  seq    : Nat
  op     : Nat                   -- opcode
  num    : Nat                   -- the COLL_SEQ it took
  sig    : Nat                   -- SIG of its own signature record
  sendT  : List (Nat × Nat × Nat) := []  -- SEND_TAB as read at the start: source, LEN, DISP
  recvT  : List (Nat × Nat) := []        -- RECV_TAB: DISP, LEN
  took   : List Nat := []        -- peers whose READY it has consumed
  sent   : List (Nat × Nat) := []  -- bytes sent to each peer
  closed : List Nat := []        -- peers to which END was sent
  got    : List (Nat × Nat) := []  -- bytes landed from each peer
  ended  : List Nat := []        -- peers whose END was performed
  acc    : List Nat := []        -- the partial, by element
  accBad : List Nat := []        -- lines of the partial that depend on poison
  summed : List Nat := []        -- children whose partial was combined
  up     : Bool := false         -- the partial is complete: sent to the parent, or written at the root
  lines  : Nat := 0              -- lines sent
  inl    : Nat := 0              -- lines received
  poison : Bool := false         -- a poisoned line was sent or received
  heard  : List (Nat × Nat) := []  -- when each peer's last COLL packet came
  from_  : Nat := 0              -- timebase at its start
  deriving DecidableEq, Repr

/-- A formed communicator slot (R528 to R532). -/
structure CommSlot where
  job     : Nat                  -- the recorded job tag
  members : List Nat             -- node ids in rank order
  stall   : Nat                  -- STALL_MS
  scr     : Nat                  -- SCR_WOFF
  digest  : Nat                  -- MEMBER_DIGEST
  ready   : List (Nat × Nat) := []      -- held READYs: peer and SIG
  early   : Option (Nat × Nat) := none  -- an ABORT that names this waiting member as stalled: reason and rank
  run     : Option CollRun := none
  deriving DecidableEq, Repr

/-- A launch or teardown as one member takes part in it (R697 to R702). -/
structure JobRun where
  tag     : Nat
  root    : Bool
  tear    : Bool
  barge   : Option (Nat × Nat)   -- its JOB_LAUNCH or JOB_TEARDOWN, until that has ended
  members : List Nat             -- entries of the member list
  rank    : Nat
  radix   : Nat
  flags   : Nat                  -- LFLAGS
  digest  : Nat                  -- LIST_DIGEST
  started : Bool := false        -- the tag was applied, or the teardown done, here
  sender  : Nat := 0             -- the rank from which the LAUNCH or TEARDOWN came
  wait    : List Nat := []       -- ranks whose REPORT is awaited
  applied : Nat := 0             -- members applied in the subtree
  lost    : List Nat := []       -- lost ranks, ascending
  more    : Nat := 0             -- further ranks lost, by count alone
  refused : Option Nat := none   -- the first rank that refused for reason 0x2 or 0x3
  report  : Bool := false        -- its REPORT is sent
  deriving DecidableEq, Repr

/-- The fabric state that lives in the F-dies. -/
structure Fabric where
  landing  : List Landing := []
  routes   : List (Nat × Nat) := []       -- ROUTE_DATA images by node id; unlisted ones read as reset (Table 17-15)
  seqOut   : List (Nat × Nat) := []       -- next SEQ, by destination node × 4 + virtual channel
  seqIn    : List (Nat × Nat) := []       -- next expected SEQ, by source node × 4 + virtual channel
  baseIn   : List (Nat × Nat) := []       -- SEQ base set by RESYNC, by source node
  resync   : List Nat := []               -- destinations that need a NOTICE before the next request (R508)
  sent     : List ReqOut := []            -- outstanding requests of this package
  early    : List Packet := []            -- requests buffered ahead of the expected SEQ (R506)
  withhold : List Withhold := []
  refused  : List Withhold := []          -- first rejection of a store by destination node and own unit, since its last flag (R511)
  times    : List (Nat × TimeRec) := []   -- the last TIME exchange of each port (R522)
  links    : List (Nat × LinkSt) := []    -- by port f × 9 + p
  slots    : List (Nat × CommSlot) := []  -- formed, running and broken communicator slots
  jobs     : List (Nat × JobRun) := []    -- launches and teardowns, by (tag × 8 + partition) × 2, + 1 for a teardown
  launches : List Packet := []            -- LAUNCH packets held until their JOIN starts (R698)
  regSeen  : List (Nat × Nat) := []       -- last REG counter performed, by source node (R706)
  gain     : Nat := 0                     -- ns by which the timebase still has to run faster (R522)
  lag      : Nat := 0                     -- ns by which it still has to run slower
  paused   : Bool := false                -- the last ns was held back
  deriving DecidableEq, Repr, Inhabited

/-! ### Checkpoint streams (R552 to R564) -/

/-- A manifest entry (Table 19-3). -/
structure CkptEntry where
  digest : Nat
  block  : Nat
  holder : Nat
  deriving DecidableEq, Repr

/-- A stream slot in use. -/
structure Stream where
  part    : Nat
  id      : Nat
  canal   : Nat                          -- canal of the opening CKPT_BEGIN
  chamber : Nat                          -- global address
  blocks  : Nat                          -- CHAMBER_BLOCKS
  ranges  : List (Nat × Nat)             -- tracked ranges: local base and length
  repl    : List Nat                     -- chamber addresses by replica rank
  rc      : Nat                          -- REPL_COUNT
  rank    : Nat                          -- REPL_RANK
  shard   : Nat
  nshard  : Nat
  step    : Nat                          -- step of the open checkpoint
  keep    : Nat                          -- KEEP_STEP
  full    : Bool
  cur     : Nat                          -- CURRENT and PREVIOUS areas as read at the begin
  prev    : Nat
  prevStep : Nat                         -- the step that the PREVIOUS area holds, 0 for none
  commits : Nat                          -- commit count
  man     : List CkptEntry               -- the CURRENT manifest
  used    : List Nat                     -- pool blocks in use
  entries : List (Nat × CkptEntry) := [] -- the staging manifest, by granule
  covered : List Nat := []               -- granules covered and not torn
  torn    : List Nat := []
  copied  : Nat := 0                     -- granules copied in the open checkpoint
  treated : List Nat := []               -- granules that the open checkpoint treated
  phys    : List Nat := []               -- the physical granule that each tracked granule was armed at
  last    : Nat := 0                     -- the last committed step
  deriving DecidableEq, Repr

/-! ### Security module (R602 to R622) -/

/-- An SPDM session (R613). -/
structure Session where
  pdie   : Nat               -- the P-die whose port carries it
  id     : Nat
  secret : Nat               -- which secrets its key exchange agreed on
  both   : Bool               -- with mutual authentication
  open_  : Bool              -- FINISH has completed
  nonce  : Option Nat        -- the highest NONCE that KEY_LOAD has consumed
  deriving DecidableEq, Repr

/-- The keys and the state of the security modules. The MEK, the table key and the identity keys are not held as values:
what the manual gives of them is which data they leave readable. -/
structure Security where
  mkey     : Option (List Byte) := none
  ckeys    : List (Nat × List Byte) := []
  dusShut  : Bool := false               -- access to DUS is closed (R618)
  sessions : List Session := []
  stages   : List (Nat × Nat) := []      -- how far each P-die's SPDM connection has been negotiated
  drawn    : Nat := 0                    -- key exchanges made
  running  : List (Nat × Roast) := []    -- the roast that each P-die runs
  flash    : List (Nat × Flash) := []    -- the boot flashes
  received : List (Nat × Roast) := []    -- roasts that host recovery has received and verified, by P-die (R649)
  armedAt  : Option Nat := none          -- timebase at which SEC_ZEROISE took 0x5EC0
  deriving DecidableEq, Repr, Inhabited

/-! ### Substitutions, the weir, boot and the test port -/

/-- A cluster substitution from its MAP entry to its end (R582). -/
structure Subst where
  failed : Nat               -- physical clusters
  spare  : Nat
  was    : Act               -- what the failed cluster did
  cause  : Nat               -- CAUSE of the map entry
  bits   : Nat               -- bits [31:16] and [3:0] of its CLUSTER_UNIT_MAP entry
  kind   : Nat               -- KIND of the failure's error record
  deriving DecidableEq, Repr

/-- A unit that fails, as a map change names it (R31, R578). -/
inductive Failing where
  | cluster (P bits : Nat)   -- physical cluster, and the bits of its CLUSTER_UNIT_MAP entry
  | reach (r part : Nat)     -- 1: its solver sequencer failed; 2: its crossbar; 0: neither
  | stack (st : Nat)
  | engine (e : Nat)
  | channel (st c : Nat)     -- data channel 0–31, or spare channel 32 or 33
  | port (k : Nat)
  | fdie (f : Nat)
  deriving DecidableEq, Repr

/-- A map change that waits for the one before it (R31, R599). -/
structure MapEvent where
  what  : Failing
  cause : Nat                -- CAUSE of R35
  kind  : Nat                -- KIND of its error record
  time  : Nat                -- timebase of the detection
  was   : Act := .idle       -- what a failed cluster did
  deriving DecidableEq, Repr

/-- An entry of the in-service record: a unit in the form of UNIT of Table 20-3, its CAUSE, and what failed in a cluster
(bits [31:16] and [3:0] of CLUSTER_UNIT_MAP) or in a reach (1 its solver sequencer, 2 its crossbar). R632 gives the entry
no bytes for the last. (DESIGN CHOICE, log entry 44.) -/
structure InService where
  unit  : Nat
  cause : Nat
  bits  : Nat := 0
  deriving DecidableEq, Repr

/-- The factory fuse record (R28): the spare slot of each reach, 8 where unlisted, and the faulty data channels with the
spare channel (0 or 1) that serves each. -/
structure Factory where
  spare    : List (Nat × Nat) := []
  channels : List (Nat × Nat × Nat) := []
  deriving DecidableEq, Repr

/-- A situation of Table 16-4 that lasts: whose guarantee yields, which one, by which cause, and where. -/
structure Yield where
  part  : Nat
  guar  : Nat
  cause : Nat
  site  : Nat                -- the C-die, the stack, the reach, or the ACCEPT of the barge that it is about; 0 for the package
  shown : Bool               -- PART_YIELD names it
  deriving DecidableEq, Repr

/-- What the weir keeps besides its registers (R441, R442, R445). -/
structure Weir where
  resort : List Nat := []    -- C-dies with paced reaches that the last resort of R444 has below the paced floor
  yields : List Yield := []  -- the situations of Table 16-4 that last
  level : Nat := 0           -- bucket level in 10 µJ
  p10s  : List Nat := []     -- P10 of the last 100 updates, newest first
  guard : List Nat := []     -- C-dies whose issue guard acts
  target : List (Nat × Nat) := []   -- the target of R450 of dies with VMODE 0b01, in mV
  shares : List (Nat × Nat) := []   -- POWER_SHARE by partition as PART_CREATE gave it, before any scaling
  forced : Bool := false     -- the sleep state was entered with FORCE (R457)
  woken  : Bool := false     -- a wake event arrived during the entry that runs (R461)
  portsOff : List Nat := []  -- the ports that DOMAIN_DISABLE put off
  deriving DecidableEq, Repr, Inhabited

/-- What a write to PART_CTRL or PART_CLAIM asks for until it takes effect (R486). -/
structure PartReq where
  dlbOff : Bool
  claim  : Nat
  deriving DecidableEq, Repr

/-- The test access port (R653) and the level of RESET_N. -/
structure Tap where
  inst   : Nat := 1          -- the instruction in force, as `tapCode` numbers it: IDCODE after a reset of the TAP
  loaded : Nat := 1          -- the instruction loaded
  low    : Bool := false     -- RESET_N is held low
  deriving DecidableEq, Repr, Inhabited

/-! ### What the package sends out -/

/-- An output of the package on one of its interfaces. The manual's machine drives pins; the model lists what it
drove, in order. (DESIGN CHOICE, log entry 58.) -/
inductive Out where
  | packet (port : Nat) (pkt : Packet)               -- a packet given to the transmitter of a Ragar port, f × 9 + p
  | hostWrite (port addr : Nat) (bytes : List Byte)  -- a write into host memory through a P-die's PCIe port
  | msix (port fn entry : Nat)                       -- an MSI-X message: function 0 is the PF, p + 1 a VF
  | value (v : Nat)                                  -- the value a read returns on its path
  | bytes (b : List Byte)                            -- a byte string a read or message returns
  | spdm (port req : Nat) (err : Bool)               -- an SPDM response or error to a request of Table 21-6
  | poisoned (b : List Byte)                         -- a completion with the poisoned (EP) bit set
  | unsupported                                      -- completion with Unsupported Request
  | ibi (port v : Nat)                               -- an I3C in-band interrupt
  | alert (port : Nat)                               -- ALERT_N asserted
  | thermTrip                                        -- THERMTRIP_N asserted
  | flit (port : Nat) (bytes : List Byte)            -- a link flit (Table 17-1)
  | pins (inst : Nat)                                -- the boundary register drives the pins under a test instruction
  deriving DecidableEq, Repr

/-! ### Health of the dies and links -/

/-- What the manual lets fail besides the units of the map registers. -/
structure Health where
  voidDies : List Nat := []    -- C-dies whose VCORE fell below 0.55 V (R663)
  railOut  : Bool := false     -- a rail left the order of Table 24-5, or fed more than stacks out of its range (R665, R668)
  stackOut : List Nat := []    -- C-dies with a stack rail outside its operating range (R665)
  linksOut : List Nat := []    -- lost die-to-die links, in the order of Table 1-2 (R591)
  towOut   : List Nat := []    -- broken towpath segments (R592)
  lockLost : Bool := false     -- the pacing clock has lost lock (R49)
  clkOut   : List Nat := []    -- lost references: REFCLK A, B (0, 1), SREFCLK 0, 1 (2, 3), AON_CLK A, B (4, 5) (R670)
  deriving DecidableEq, Repr, Inhabited

/-- The thermal responses of Table 15-4 in force. -/
structure Heat where
  trip  : Bool := false        -- the thermal trip
  s110  : List Nat := []       -- stacks at 110 °C
  s105  : List Nat := []       -- stacks above 105 °C
  cdie  : List Nat := []       -- C-dies at 105 °C
  fpdie : List Nat := []       -- F-dies and P-dies at 105 °C, as SENSOR_DIE numbers them
  tj    : List Nat := []       -- C-dies above TJ_TARGET
  waits : Bool := false        -- the model's own: the command that runs has met a stack at 110 °C; false between commands
  deriving DecidableEq, Repr, Inhabited

/-- The batch of an E4 canal (R385). The numbers go on while the canal is disabled. -/
structure E4Batch where
  num  : Nat := 0              -- its number on the canal
  size : Nat := 0
  openB : Bool := false        -- the next packet joins it
  deriving DecidableEq, Repr

/-! ### Host ports -/

/-- What a host has configured in the functions of one PCIe port (R642 to R646). Function 0 is the PF, p + 1 the VF of
partition p. -/
structure HostPort where
  recovery : List (Nat × Byte) := []  -- the recovery buffer of R649, by offset
  window   : List (Nat × Nat) := []   -- configured base addresses: function × 8 + BAR
  master   : List Nat := []    -- functions with Bus Master Enable
  msixOn   : List Nat := []    -- functions with MSI-X enabled
  unmasked : List Nat := []    -- unmasked MSI-X entries, as function × 512 + entry
  waiting  : List Nat := []    -- MSI-X pending bits, numbered alike
  deriving DecidableEq, Repr

/-- The state of one management port (R650 to R652). -/
structure MgmtPort where
  i3c   : Bool := false        -- I3C mode; otherwise SMBus mode
  addr  : Nat := 0             -- dynamic address, in I3C mode
  ibiOn : Bool := false        -- in-band interrupts enabled by ENEC
  mwl   : Nat := 256           -- maximum write and read lengths
  mrl   : Nat := 256
  deriving DecidableEq, Repr

/-! ### The state -/

/-- The package. -/
structure State where
  pending   : List Instr                     -- the commands that wait, first in, first out
  freeCount : Nat                            -- the model's own counter of free values drawn
  out       : List Out                       -- the model's own record of what the package sent, in order
  regs      : List (Nat × Word)              -- window-0 registers by address; unlisted ones read their reset value
  mem       : List Host.Cell                 -- device memory and basins by physical address (Table 9-2)
  fills     : List MemFill                   -- ranges of memory whose contents became undefined, newest first (R280)
  poison    : List Nat                       -- poisoned 64-byte sectors and 8-byte basin words, by first address
  armed     : List Nat                       -- armed granules, by physical address / 64 KiB (R331)
  dirty     : List Nat                       -- dirty bits: granule × 32 + stack
  clusters  : List (Nat × Cluster)           -- physical clusters; unlisted ones are at reset
  maps      : List MapRec                    -- the page maps of all partitions
  mapVer    : List (Nat × Nat)               -- changes of each partition's map since its creation
  unmapped  : List (Nat × MapRec)            -- removed records whose waits may not be over, with the START of the removal (R283)
  watches   : List Watch                     -- stack watch entries in use
  cargo     : List CargoSlot                 -- the cargo stores
  barges    : List Barge                     -- accepted, uncompleted barges in order of acceptance
  done      : List Done                      -- completed barges (R360)
  tallies   : List HeldTally                 -- tallies and replies that wait to be written
  log       : LogBook
  errs      : ErrStore
  nmOps     : List NmOp                      -- accepted, uncompleted near-memory operations
  nmNum     : Nat                            -- near-memory operations accepted
  fronts    : List FrontData                 -- fronts of sparse schedules (R232)
  krylov    : List KrylovData                -- vectors of iterative methods (R235)
  chains    : List (Nat × Nat)               -- tally notes of stopped solver chains, by CHECK of their token (R270)
  tokenKey  : List (Nat × Word)              -- token keys by partition (R265)
  partReq   : List (Nat × PartReq)           -- changes that wait, by partition (R486)
  fabric    : Fabric
  health    : Health
  heat      : Heat
  e4        : List (Nat × E4Batch)           -- the batch of each E4 canal
  hostPort  : List (Nat × HostPort)          -- the functions of the PCIe ports of P-die A (0) and B (1)
  mgmt      : List (Nat × MgmtPort)          -- the management ports of P-die A (0) and B (1)
  logRead   : List (Nat × Nat)               -- LOG_READ_INDEX of each partition's view (R689)
  streams   : List (Nat × Stream)            -- stream slots in use
  sec       : Security
  subs      : List Subst                     -- the cluster substitution in progress
  mapWait   : List MapEvent                  -- map changes that wait for it, in the order of their detection (R31)
  copies    : List (Nat × Nat)               -- channels being copied to a spare: stack and channel (R275)
  inService : List InService                 -- the in-service record (R29, R31, R632)
  factory   : Option Factory                 -- the factory fuse record, once a boot has read it (R28, R29)
  weir      : Weir
  booting   : Bool                           -- a level-7 reset or boot is not over (R629)
  tap       : Tap
  deriving DecidableEq, Repr, Inhabited

/-- The package right after a cold level-7 reset, before its boot: every register at its reset value, memory with
nothing listed, every queue and store empty; RESET_CAUSE and one error record name the rise of the always-on rail
(R627). Values that the manual does not state are zero. (DESIGN CHOICE, log entry 3.) -/
def State.reset : State :=
  { pending := [], freeCount := 0, out := [], regs := [(0x00010000, 0x0000070100000000), (0x00072338, 1)], mem := [],
    fills := [], poison := [], armed := [], dirty := [], clusters := [], maps := [], mapVer := [], unmapped := [],
    watches := [], cargo := [], barges := [], done := [], tallies := [], log := {},
    errs := { recs := [⟨0, 0, 0, 0, 0x0C, 7, none, 9, 0, 0, 0x0000070100000000⟩], next := 1 }, nmOps := [],
    nmNum := 0, fronts := [], krylov := [], chains := [], tokenKey := [], partReq := [], fabric := {}, health := {},
    heat := {}, e4 := [], hostPort := [], mgmt := [], logRead := [], streams := [], sec := {}, subs := [],
    mapWait := [], copies := [], inService := [], factory := none, weir := {}, booting := true, tap := {} }

end Sys2Proof.Machine
end

