-- ==== Sys2Proof/Config.lean ====
section
/-! DEFINITION. What an implementation fixes and what the manual leaves open. Every value here is a constant without a
body: nothing in Lean can evaluate it, so a statement about it holds whatever the value is. -/

namespace Sys2Proof

/-- A fresh 64-bit value that the manual leaves open; `State.freeCount` numbers the draws. (DESIGN CHOICE, log entry 5.) -/
opaque Config.freeWord : Nat → Word

/-- A byte of a memory group whose contents the manual calls undefined: which fill left the byte undefined, and its
physical address (R280). (DESIGN CHOICE, log entries 4 and 5.) -/
opaque Config.freeByte : Nat → Nat → Byte

/-- Does the sequencer fetch the new word, where a cargo has stored into its own basin without fence.i (R76)?
(DESIGN CHOICE, log entry 11.) -/
opaque Config.fetchesNew : Nat → Bool

/-- Does the solver engine fuse a multiplication and an addition, of these operands, into one rounding (R213)?
(DESIGN CHOICE, log entry 5; PRESUMED, log entry 24.) -/
opaque Config.solverFuses : Nat → Nat → Nat → Bool

/-- OUT_BASE of an ASSEMBLE barge, of bytes 32 to 119 of its payload with the mask and the working range taken as zero
(R214): R226 names the field, and Table 7-9 gives it no bytes. (DESIGN CHOICE, log entry 23.) -/
opaque Config.asmOutBase : List Byte → Nat

/-- NRHS, less one, of the SOLVE_BATCH layout in which preconditioner 0x02 reads its blocks: no field of SOLVE_ITER gives
it (R235). (DESIGN CHOICE, log entry 26.) -/
opaque Config.precNrhs : Nat

/-- Did a cluster's engine flush a value of a solver barge (canal, sequence number) whose form runs on whole reaches and
flushed one (R193)? (DESIGN CHOICE, log entries 5 and 22.) -/
opaque Config.flushesIn : Nat → Nat → Nat → Bool

/-- Which free bytes a workspace holds whose data are given: the same data, the same bytes (R214, R270).
(DESIGN CHOICE, log entries 5 and 26.) -/
opaque Config.workTag : List (List Nat) → Nat

/-- Does the solver sequencer of a reach stand in a wait on a step counter at a time (R243)?
(DESIGN CHOICE, log entry 30.) -/
opaque Config.solverWaits : Nat → Nat → Bool

/-- Does a backward substitution sum its terms in ascending column order?
(DESIGN CHOICE, log entry 5; PRESUMED, log entry 24.) -/
opaque Config.backAscends : Bool

/-- The roast version of the package that is the root of the job with a tag, as a number (R698 compares it; no packet
carries it). Free. (DESIGN CHOICE, log entry 5; DEDUCED, log entry 41.) -/
opaque Config.rootVersion : Nat → Nat

/-- Byte `i` of AES-256-XTS of a data unit, under the key pair that HKDF derives from a key, with a tweak: encrypting,
then decrypting (R607). The manual takes the algorithm from FIPS 197 and SP 800-38E. (PRESUMED, log entry 56.) -/
opaque Config.xtsEnc : List Byte → Nat → List Byte → Nat → Byte
/-- (PRESUMED, log entry 56.) -/
opaque Config.xtsDec : List Byte → Nat → List Byte → Nat → Byte

/-- Does the barge with a canal and sequence number access the lines of a data channel (stack × 32 + channel) while that
channel is being copied to a spare (R593)? (DESIGN CHOICE, log entry 5.) -/
opaque Config.touchesCopy : Nat → Nat → Nat → Bool

/-- The bank, as the base die numbers bank group and bank, in which a stack line lies (R279, Table 20-3).
(DESIGN CHOICE, log entries 5 and 47.) -/
opaque Config.dramBank : Nat → BitVec 8

/-- The row of its bank in which a stack line lies (R279, Table 20-3). (DESIGN CHOICE, log entries 5 and 47.) -/
opaque Config.dramRow : Nat → BitVec 32

/-- Has the bank of a row no repair row left, after so many repairs in its channel (Table 20-2)?
(DESIGN CHOICE, log entries 5 and 47.) -/
opaque Config.noRepairRow : Nat → Nat → Bool

/-- The stack (modulo 8) of its C-die that holds the frame of a ring slot in copy A (0) or B (1) of the logbook, and, times 8, the
data channel (modulo 32) of the stack (R421).
(DESIGN CHOICE, log entries 5 and 57.) -/
opaque Config.logStack : Nat → Nat → Nat

/-- Do the signatures of a roast image verify: ECDSA P-384 and ML-DSA-87 (R609)? (PRESUMED, log entry 56.) -/
opaque Config.ecdsaOk : List Byte → Bool

/-- (PRESUMED, log entry 56.) -/
opaque Config.mldsaOk : List Byte → Bool

/-- A signature over a message, by the identity key pair that a module derives: ECDSA in 96 bytes, ML-DSA-87 in 4,627
(R614). (PRESUMED, log entry 56.) -/
opaque Config.signByte : Bool → List Byte → Nat → Byte

/-- What AES-256-GCM unwraps with the wrapping key of an SPDM session's secret: nonce, additional data, ciphertext, tag;
none where the tag does not verify (R611). (PRESUMED, log entry 56.) -/
opaque Config.unwrap : Nat → Nat → List Byte → List Byte → List Byte → Option (List Byte)

/-- What the management port of a P-die answers to GETPID, GETBCR and GETDCR (0 to 2), which are fixed for the part (R650).
(DESIGN CHOICE, log entries 5 and 33.) -/
opaque Config.i3cReply : Nat → Nat → BitVec 48

/-- A state of the package that nothing is known of: what a package holds that the manual leaves in an undefined state
(R668). (DESIGN CHOICE, log entries 5 and 6.) -/
opaque Config.anyState : Nat → Machine.State

end Sys2Proof
end

