-- ==== Sys2Proof/Machine/Float.lean ====
section
/-! DEFINITION. The number formats of R179 to R194: encodings, the three rounding modes, overflow and saturation,
flushing, and the arithmetic that every engine shares. A value is computed exactly and rounded once. -/

namespace Sys2Proof.Machine

/-! ### Formats (Table 6-1) -/

/-- What the all-ones exponent field means in a format. -/
inductive Specials where
  | ieee    -- M = 0 is an infinity and any other M a NaN
  | e4m3    -- only E and M all ones is a NaN; there is no infinity
  | finite  -- every code is finite
  deriving DecidableEq, Repr

/-- The parameters of a floating-point format (Table 6-1). -/
structure Fmt where
  expBits  : Nat
  manBits  : Nat
  bias     : Nat
  specials : Specials
  deriving DecidableEq, Repr

def Fmt.binary64 : Fmt := ⟨11, 52, 1023, .ieee⟩
def Fmt.binary32 : Fmt := ⟨8, 23, 127, .ieee⟩
def Fmt.binary16 : Fmt := ⟨5, 10, 15, .ieee⟩
def Fmt.bf16 : Fmt := ⟨8, 7, 127, .ieee⟩
def Fmt.e4m3 : Fmt := ⟨4, 3, 7, .e4m3⟩
def Fmt.e5m2 : Fmt := ⟨5, 2, 15, .ieee⟩
def Fmt.e3m2 : Fmt := ⟨3, 2, 3, .finite⟩
def Fmt.e2m3 : Fmt := ⟨2, 3, 1, .finite⟩
def Fmt.e2m1 : Fmt := ⟨2, 1, 1, .finite⟩

/-- The width of a format in bits. -/
def Fmt.width (f : Fmt) : Nat := 1 + f.expBits + f.manBits

/-- The exponent of the smallest normal value. -/
def Fmt.emin (f : Fmt) : Int := 1 - (f.bias : Int)

/-- The exponent of the largest finite value. -/
def Fmt.emax (f : Fmt) : Int :=
  match f.specials with
  | .ieee => (2 ^ f.expBits - 2 : Nat) - (f.bias : Int)
  | _ => (2 ^ f.expBits - 1 : Nat) - (f.bias : Int)

/-- The significand of the largest finite value, in units of its last place. -/
def Fmt.maxSig (f : Fmt) : Nat :=
  match f.specials with
  | .e4m3 => 2 ^ (f.manBits + 1) - 2
  | _ => 2 ^ (f.manBits + 1) - 1

/-- The canonical NaN's code (Table 6-2); zero in a format without a NaN. -/
def Fmt.nan (f : Fmt) : Nat :=
  match f.specials with
  | .ieee => (2 ^ f.expBits - 1) * 2 ^ f.manBits + 2 ^ (f.manBits - 1)
  | .e4m3 => 2 ^ (f.expBits + f.manBits) - 1
  | .finite => 0

/-- The code of an infinity, in a format that has one. -/
def Fmt.inf (f : Fmt) (neg : Bool) : Nat :=
  b2n neg * 2 ^ (f.expBits + f.manBits) + (2 ^ f.expBits - 1) * 2 ^ f.manBits

/-- The code of a zero. -/
def Fmt.zero (f : Fmt) (neg : Bool) : Nat := b2n neg * 2 ^ (f.expBits + f.manBits)

/-- The code of the largest finite value. -/
def Fmt.maxCode (f : Fmt) (neg : Bool) : Nat :=
  b2n neg * 2 ^ (f.expBits + f.manBits) +
    (f.emax + (f.bias : Int)).toNat * 2 ^ f.manBits + (f.maxSig - 2 ^ f.manBits)

/-! ### Values -/

/-- The value a code stands for: (-1)^neg × m × 2^e for a finite one. -/
inductive FVal where
  | nan
  | inf (neg : Bool)
  | fin (neg : Bool) (m : Nat) (e : Int)
  deriving DecidableEq, Repr

/-- Reads a code of a format (R179). -/
def Fmt.decode (f : Fmt) (code : Nat) : FVal :=
  let neg := bitOf code (f.expBits + f.manBits)
  let ex := code / 2 ^ f.manBits % 2 ^ f.expBits
  let m := code % 2 ^ f.manBits
  let top := 2 ^ f.expBits - 1
  if f.specials = .ieee ∧ ex = top then (if m = 0 then .inf neg else .nan)
  else if f.specials = .e4m3 ∧ ex = top ∧ m = 2 ^ f.manBits - 1 then .nan
  else if ex = 0 then .fin neg m (f.emin - f.manBits)
  else .fin neg (2 ^ f.manBits + m) ((ex : Int) - f.bias - f.manBits)

/-- Is the code a NaN? -/
def Fmt.isNan (f : Fmt) (code : Nat) : Bool := f.decode code == .nan

/-- The sign of a value; a NaN counts as positive. -/
def FVal.neg : FVal → Bool
  | .nan => false
  | .inf n => n
  | .fin n _ _ => n

/-- Is the value a zero? -/
def FVal.isZero : FVal → Bool
  | .fin _ 0 _ => true
  | _ => false

/-- The value with its sign changed. -/
def FVal.negate : FVal → FVal
  | .nan => .nan
  | .inf n => .inf (!n)
  | .fin n m e => .fin (!n) m e

/-- Does a finite value of the format's grid lie in its subnormal range? -/
def Fmt.isSub (f : Fmt) : FVal → Bool
  | .fin _ m e => m != 0 && decide ((bitLen m : Int) - 1 + e < f.emin)
  | _ => false

/-! ### Rounding (R184 to R189) -/

/-- The rounding modes of R184; the stochastic one carries its 24-bit draw. -/
inductive Rnd where
  | rne
  | rtz
  | stoch (r : Nat)
  deriving DecidableEq, Repr

/-- The flags an operation leaves: a flush (R193) and a saturation that sets the clip flag (R190). -/
structure Fx where
  flush : Bool := false
  clip  : Bool := false
  deriving DecidableEq, Repr

/-- The flags of two operations together. -/
def Fx.or (a b : Fx) : Fx := ⟨a.flush || b.flush, a.clip || b.clip⟩

/-- Does rounding m / 2^d, with remainder `rem` above `lo`, go away from zero (R184, R185)? -/
def roundsUp (r : Rnd) (lo rem d : Nat) : Bool :=
  match r with
  | .rne => decide (2 ^ d < 2 * rem) || (decide (2 * rem = 2 ^ d) && lo % 2 == 1)
  | .rtz => false
  | .stoch draw => decide (draw < rem * 2 ^ 24 / 2 ^ d)

/-- Rounds m × 2^e onto the grid of step 2^u: the number of steps. -/
def roundGrid (r : Rnd) (m : Nat) (e u : Int) : Nat :=
  if u ≤ e then m * 2 ^ (e - u).toNat
  else
    let d := (u - e).toNat
    let lo := m / 2 ^ d
    if roundsUp r lo (m % 2 ^ d) d then lo + 1 else lo

/-- The code of the non-zero grid value k × 2^u of a format. -/
def Fmt.encodeGrid (f : Fmt) (neg : Bool) (k : Nat) (u : Int) : Nat :=
  let s := b2n neg * 2 ^ (f.expBits + f.manBits)
  if k < 2 ^ f.manBits then s + k
  else if k = 2 ^ (f.manBits + 1) then s + (u + 1 + f.manBits + f.bias).toNat * 2 ^ f.manBits
  else s + (u + f.manBits + f.bias).toNat * 2 ^ f.manBits + (k - 2 ^ f.manBits)

/-- Does k × 2^u exceed the largest finite magnitude? -/
def Fmt.exceeds (f : Fmt) (k : Nat) (u : Int) : Bool :=
  let top := f.emax - f.manBits
  if u ≤ top then decide (f.maxSig * 2 ^ (top - u).toNat < k)
  else decide (f.maxSig < k * 2 ^ (u - top).toNat)

/-- Rounds an exact value into a format. `sat` selects saturation (R189) in place of the overflow of R188; `ftz`
flushes a subnormal result (R192). -/
def Fmt.round (f : Fmt) (r : Rnd) (sat ftz : Bool) : FVal → Nat × Fx
  | .nan => (f.nan, {})
  | .inf neg => if sat then (f.maxCode neg, ⟨false, true⟩) else (f.inf neg, {})
  | .fin neg 0 _ => (f.zero neg, {})
  | .fin neg m e =>
    let top : Int := (bitLen m : Int) - 1 + e
    let ex := if top < f.emin then f.emin else if sat && decide (f.emax < top) then f.emax else top
    let u := ex - f.manBits
    let k := roundGrid r m e u
    if k = 0 then (f.zero neg, {})
    else if f.exceeds k u then
      if sat then (f.maxCode neg, ⟨false, true⟩)
      else if r = .rtz then (f.maxCode neg, {})
      else (f.inf neg, {})
    else if ftz && decide (k < 2 ^ f.manBits) then (f.zero neg, ⟨true, false⟩)
    else (f.encodeGrid neg k u, {})

/-- Does rounding into the format saturate (R189)? E4M3 and the MX element formats do; E5M2 does on request. -/
def Fmt.saturates (f : Fmt) : Bool := f.specials != .ieee

/-- Reads a code as an operand: under FTZ a subnormal is taken as zero of its sign (R192). -/
def Fmt.operand (f : Fmt) (ftz : Bool) (code : Nat) : FVal × Fx :=
  let v := f.decode code
  if ftz && f.isSub v then (.fin v.neg 0 0, ⟨true, false⟩) else (v, {})

/-! ### Exact arithmetic -/

/-- A signed significand at exponent `e`. -/
def FVal.signedAt (neg : Bool) (m : Nat) (e lo : Int) : Int :=
  let n : Int := (m * 2 ^ (e - lo).toNat : Nat)
  if neg then -n else n

/-- The exact sum; an exact cancellation gives +0 unless both operands are −0. -/
def FVal.add : FVal → FVal → FVal
  | .nan, _ => .nan
  | _, .nan => .nan
  | .inf a, .inf b => if a = b then .inf a else .nan
  | .inf a, _ => .inf a
  | _, .inf b => .inf b
  | .fin n1 m1 e1, .fin n2 m2 e2 =>
    let lo := min e1 e2
    let s := signedAt n1 m1 e1 lo + signedAt n2 m2 e2 lo
    if s = 0 then .fin (n1 && n2) 0 0 else .fin (decide (s < 0)) s.natAbs lo

/-- The exact difference. -/
def FVal.sub (a b : FVal) : FVal := a.add b.negate

/-- The exact product. -/
def FVal.mul : FVal → FVal → FVal
  | .nan, _ => .nan
  | _, .nan => .nan
  | .inf a, .inf b => .inf (a != b)
  | .inf a, .fin b m _ => if m = 0 then .nan else .inf (a != b)
  | .fin a m _, .inf b => if m = 0 then .nan else .inf (a != b)
  | .fin n1 m1 e1, .fin n2 m2 e2 => .fin (n1 != n2) (m1 * m2) (e1 + e2)

/-- The quotient to far more bits than any format holds, with a sticky bit for the rest, so that every rounding of
R184 sees it as it sees the exact quotient. -/
def FVal.div : FVal → FVal → FVal
  | .nan, _ => .nan
  | _, .nan => .nan
  | .inf _, .inf _ => .nan
  | .inf a, .fin b _ _ => .inf (a != b)
  | .fin a _ _, .inf b => .fin (a != b) 0 0
  | .fin n1 m1 e1, .fin n2 m2 e2 =>
    if m2 = 0 then (if m1 = 0 then .nan else .inf (n1 != n2))
    else if m1 = 0 then .fin (n1 != n2) 0 0
    else
      let p := 160 + bitLen m2
      let q := m1 * 2 ^ p / m2
      let sticky := b2n (m1 * 2 ^ p % m2 != 0)
      .fin (n1 != n2) (2 * q + sticky) (e1 - e2 - p - 1)

/-- The integer square root by bits, `k` of them from the top. -/
def isqrtBits (n : Nat) : Nat → Nat → Nat
  | 0, r => r
  | k + 1, r =>
    let t := r + 2 ^ k
    isqrtBits n k (if t * t ≤ n then t else r)

/-- The integer square root, rounded down. -/
def isqrt (n : Nat) : Nat := isqrtBits n (bitLen n / 2 + 1) 0

/-- The square root with a sticky bit, as `FVal.div` gives the quotient; −0 stays −0. -/
def FVal.sqrt : FVal → FVal
  | .nan => .nan
  | .inf n => if n then .nan else .inf false
  | .fin n m e =>
    if m = 0 then .fin n 0 0
    else if n then .nan
    else
      let p : Nat := 160 + (if e % 2 = 0 then 0 else 1)
      let m' := m * 2 ^ p
      let e' := e - p
      let r := isqrt m'
      .fin false (2 * r + b2n (r * r != m')) (e' / 2 - 1)

/-- Compares two values that are not NaN: −1, 0 or 1. -/
def FVal.cmp : FVal → FVal → Int
  | .inf a, .inf b => if a = b then 0 else if a then -1 else 1
  | .inf a, _ => if a then -1 else 1
  | _, .inf b => if b then 1 else -1
  | .fin n1 m1 e1, .fin n2 m2 e2 =>
    let lo := min e1 e2
    let x := signedAt n1 m1 e1 lo
    let y := signedAt n2 m2 e2 lo
    if x < y then -1 else if x = y then 0 else 1
  | _, _ => 0

/-- Equal, less, and less or equal; false with a NaN. -/
def FVal.eq (a b : FVal) : Bool := a != .nan && b != .nan && a.cmp b == 0

def FVal.lt (a b : FVal) : Bool := a != .nan && b != .nan && a.cmp b == -1

def FVal.le (a b : FVal) : Bool := a.eq b || a.lt b

/-- The value of an integer. -/
def FVal.ofInt (i : Int) : FVal := .fin (decide (i < 0)) i.natAbs 0

/-! ### Operations on codes of one format -/

/-- A rounding into a format under the format's own overflow rule. -/
def Fmt.fin1 (f : Fmt) (r : Rnd) (ftz : Bool) (v : FVal) (fx : Fx) : Nat × Fx :=
  let (c, g) := f.round r f.saturates ftz v
  (c, fx.or g)

/-- A two-operand operation: operands read under FTZ, computed exactly, rounded once (R86, R184, R192). -/
def Fmt.op2 (f : Fmt) (g : FVal → FVal → FVal) (r : Rnd) (ftz : Bool) (a b : Nat) : Nat × Fx :=
  let (x, fa) := f.operand ftz a
  let (y, fb) := f.operand ftz b
  f.fin1 r ftz (g x y) (fa.or fb)

def Fmt.addC (f : Fmt) := f.op2 FVal.add
def Fmt.subC (f : Fmt) := f.op2 FVal.sub
def Fmt.mulC (f : Fmt) := f.op2 FVal.mul
def Fmt.divC (f : Fmt) := f.op2 FVal.div

/-- The square root of a code. -/
def Fmt.sqrtC (f : Fmt) (r : Rnd) (ftz : Bool) (a : Nat) : Nat × Fx :=
  let (x, fa) := f.operand ftz a
  f.fin1 r ftz x.sqrt fa

/-- ±(a × b) ± c with one rounding (R88). -/
def Fmt.fmaC (f : Fmt) (negProd negAdd : Bool) (r : Rnd) (ftz : Bool) (a b c : Nat) : Nat × Fx :=
  let (x, fa) := f.operand ftz a
  let (y, fb) := f.operand ftz b
  let (z, fc) := f.operand ftz c
  let p := x.mul y
  f.fin1 r ftz ((if negProd then p.negate else p).add (if negAdd then z.negate else z)) ((fa.or fb).or fc)

/-- The smaller (or, with `big`, the larger) of two codes: −0 is less than +0, a NaN operand yields the other operand,
and two NaNs yield the canonical NaN (Table 3-11); a flushed operand is delivered flushed (R192). -/
def Fmt.minMaxC (f : Fmt) (big ftz : Bool) (a b : Nat) : Nat × Fx :=
  let (x, fa) := f.operand ftz a
  let (y, fb) := f.operand ftz b
  let fx := fa.or fb
  let cx := if fa.flush then f.zero x.neg else a
  let cy := if fb.flush then f.zero y.neg else b
  if x = .nan then (if y = .nan then (f.nan, fx) else (cy, fx))
  else if y = .nan then (cx, fx)
  else
    let less := x.cmp y == -1 || (x.isZero && y.isZero && x.neg && !y.neg)
    (if less != big then cx else cy, fx)

/-- A comparison of two codes under FTZ. -/
def Fmt.cmpC (f : Fmt) (p : FVal → FVal → Bool) (ftz : Bool) (a b : Nat) : Bool × Fx :=
  let (x, fa) := f.operand ftz a
  let (y, fb) := f.operand ftz b
  (p x y, fa.or fb)

/-- Sign injection on the stored bits (R87): mode 0 copies, 1 inverts, 2 XORs the sign of `b`. -/
def Fmt.sgnjC (f : Fmt) (mode a b : Nat) : Nat :=
  let k := f.expBits + f.manBits
  let sa := bitOf a k
  let sb := bitOf b k
  let s := if mode = 0 then sb else if mode = 1 then !sb else sa != sb
  a % 2 ^ k + b2n s * 2 ^ k

/-- fclass on the stored bits (Table 3-11): a word with one bit set. -/
def Fmt.classC (f : Fmt) (a : Nat) : Nat :=
  let quiet := bitOf a (f.manBits - 1)
  2 ^ (match f.decode a with
    | .nan => if quiet then 9 else 8
    | .inf n => if n then 0 else 7
    | .fin n m e =>
      if m = 0 then (if n then 3 else 4)
      else if f.isSub (.fin n m e) then (if n then 2 else 5)
      else (if n then 1 else 6))

/-! ### Conversions (R194, Table 6-4) -/

/-- From one format to another: exact when wider, one rounding when narrower. `e5sat` makes E5M2 saturate. -/
def Fmt.convC (src dst : Fmt) (e5sat : Bool) (r : Rnd) (ftzSrc ftzDst : Bool) (a : Nat) : Nat × Fx :=
  let (x, fa) := src.operand ftzSrc a
  let (c, g) := dst.round r (dst.saturates || e5sat) ftzDst x
  (c, fa.or g)

/-- An integer format: its width and signedness (R181). -/
structure IFmt where
  width  : Nat
  signed : Bool
  deriving DecidableEq, Repr

/-- The least and the greatest value of an integer format. -/
def IFmt.lo (i : IFmt) : Int := if i.signed then -(2 ^ (i.width - 1) : Nat) else 0

def IFmt.hi (i : IFmt) : Int := if i.signed then (2 ^ (i.width - 1) : Nat) - 1 else (2 ^ i.width : Nat) - 1

/-- The integer a code stands for. -/
def IFmt.decode (i : IFmt) (code : Nat) : Int :=
  if i.signed then signedOf i.width code else (code % 2 ^ i.width : Nat)

/-- Saturates an integer into the format, saying whether that changed it. -/
def IFmt.sat (i : IFmt) (v : Int) : Nat × Bool :=
  if v < i.lo then (wrapInt i.width i.lo, true)
  else if i.hi < v then (wrapInt i.width i.hi, true)
  else (wrapInt i.width v, false)

/-- A rounding mode for conversions to integers: the stochastic mode rounds to nearest even (R186). -/
def Rnd.noStoch : Rnd → Rnd
  | .stoch _ => .rne
  | r => r

/-- FP to integer: rounded, saturated, a NaN gives 0; both a saturation and a NaN set the clip flag (R190). -/
def Fmt.toIntC (f : Fmt) (i : IFmt) (r : Rnd) (ftz : Bool) (a : Nat) : Nat × Fx :=
  let (x, fa) := f.operand ftz a
  match x with
  | .nan => (0, fa.or ⟨false, true⟩)
  | .inf n => (wrapInt i.width (if n then i.lo else i.hi), fa.or ⟨false, true⟩)
  | .fin n m e =>
    let k : Int := (roundGrid r.noStoch m e 0 : Nat)
    let (c, cl) := i.sat (if n then -k else k)
    (c, fa.or ⟨false, cl⟩)

/-- Integer to FP: one rounding. -/
def IFmt.toFpC (i : IFmt) (f : Fmt) (r : Rnd) (ftz : Bool) (a : Nat) : Nat × Fx :=
  f.round r f.saturates ftz (FVal.ofInt (i.decode a))

/-- Integer to integer: extended when wider, saturated when narrower or of the same width. -/
def IFmt.convC (s d : IFmt) (a : Nat) : Nat × Fx :=
  let v := s.decode a
  if s.width < d.width then (wrapInt d.width v, {})
  else
    let (c, cl) := d.sat v
    (c, ⟨false, cl⟩)

/-! ### The draw of stochastic rounding (R187) -/

/-- The mixed counter z of R187. -/
def drawZ (seed src ord idx : Nat) : Nat :=
  let w := 2 ^ 64
  let c := (src % 2 ^ 10 * 2 ^ 54 + ord % 2 ^ 41 * 2 ^ 13 + idx % 2 ^ 13) % w
  let z := Nat.xor c (seed % w)
  let z := Nat.xor z (z / 2 ^ 30) * 0xC3A56B1D94E72F8B % w
  let z := Nat.xor z (z / 2 ^ 27) * 0x8F2D4C61B7A93E55 % w
  Nat.xor z (z / 2 ^ 31)

/-- The draw used by every single rounding. -/
def drawR1 (seed src ord idx : Nat) : Nat := bitsOf (drawZ seed src ord idx) 63 40

/-- The draw used by the pack stage alone. -/
def drawR2 (seed src ord idx : Nat) : Nat := bitsOf (drawZ seed src ord idx) 39 16

/-- The rounding mode that the RM field of CW_FPCTRL names (Table 3-2), with a draw for the stochastic one. -/
def Rnd.ofRM (rm draw : Nat) : Rnd := if rm = 1 then .rtz else if rm = 2 then .stoch draw else .rne

/-! ### Element precision and MX elements (R202 to R204) -/

/-- Rounds to `bits` significant bits with no limit on the exponent (R202). -/
def roundSig (bits : Nat) (r : Rnd) : FVal → FVal
  | .fin n m e =>
    if m = 0 then .fin n 0 0
    else
      let u := (bitLen m : Int) + e - bits
      if u ≤ e then .fin n m e else .fin n (roundGrid r m e u) u
  | v => v

/-- The value divided by 2^x. -/
def FVal.scaleDown (x : Int) : FVal → FVal
  | .fin n m e => .fin n m (e - x)
  | v => v

/-- floor(log2 |v|) of a non-zero finite value. -/
def FVal.log2 : FVal → Int
  | .fin _ m e => (bitLen m : Int) - 1 + e
  | _ => 0

/-- The magnitude comparison |a| < |b| of finite values. -/
def FVal.magLt : FVal → FVal → Bool
  | .fin _ m1 e1, .fin _ m2 e2 => (FVal.fin false m1 e1).cmp (.fin false m2 e2) == -1
  | _, _ => false

/-- The MX element kinds: a floating-point element, or the 8-bit MXINT8 element (R180). -/
inductive MxElem where
  | fp (f : Fmt)
  | int8
  deriving DecidableEq, Repr

/-- The width of an element in bits. -/
def MxElem.width : MxElem → Nat
  | .fp f => f.width
  | .int8 => 8

/-- Encodes an element already divided by its block scale (R204): rounding onto the subnormal grid under `r`, and
saturating (R189). The flag says whether it saturated. -/
def MxElem.pack (el : MxElem) (r : Rnd) (v : FVal) : Nat × Bool :=
  match el with
  | .fp f =>
    let (c, g) := f.round r true false v
    (c, g.clip)
  | .int8 =>
    match v with
    | .fin n m e =>
      let k := roundGrid r m e (-6)
      let i : Int := if n then -(k : Int) else k
      if i < -128 then (0x80, true) else if 127 < i then (0x7F, true) else (wrapInt 8 i, false)
    | _ => (0, false)

/-- Does an element, rounded as the pack stage rounds it, exceed the largest finite magnitude (R203 step 3)? An MXINT8
element that rounds to −2.0, which the format holds, does not. (DEDUCED, log entry 63.) -/
def MxElem.overflows (el : MxElem) (r : Rnd) (v : FVal) : Bool := (el.pack r v).2

/-- The value of an element code under a block scale code (R180); a scale of 0xFF makes it NaN. -/
def MxElem.value (el : MxElem) (scale code : Nat) : FVal :=
  if scale = 0xFF then .nan
  else
    let v := match el with
      | .fp f => f.decode code
      | .int8 =>
        let i := signedOf 8 code
        .fin (decide (i < 0)) i.natAbs (-6)
    v.scaleDown (127 - (scale : Int))

end Sys2Proof.Machine
end

