-- ==== Sys2Proof/Machine/Ops.lean ====
section
/-! DEFINITION. The named operations over the state: registers and their fields, physical memory with its poison and its
dirty bits, the page map and the checks of local addresses, clusters, the logbook, error records and
the end of a barge. -/

namespace Sys2Proof.Machine

/-! ### Registers -/

/-- The register at a window-0 address, as a number. -/
def State.reg (s : State) (a : Nat) : Nat := (spGet regReset s.regs a).toNat

/-- A field of the register at `a`. -/
def State.fld (s : State) (a : Nat) (f : Fld) : Nat := bitsOf (s.reg a) f.hi f.lo

/-- Is a one-bit field set? -/
def State.flag (s : State) (a : Nat) (f : Fld) : Bool := s.fld a f != 0

/-- Sets the register at `a`. -/
def State.setReg (s : State) (a v : Nat) : State := { s with regs := spSet regReset a (BitVec.ofNat 64 v) s.regs }

/-- Sets one field and leaves the rest of the register. -/
def State.setFld (s : State) (a : Nat) (f : Fld) (v : Nat) : State := s.setReg a (withBits (s.reg a) f.hi f.lo v)

/-- Sets several fields of one register. -/
def State.setFlds (s : State) (a : Nat) (l : List (Fld × Nat)) : State :=
  s.setReg a (l.foldl (fun n fv => withBits n fv.1.hi fv.1.lo fv.2) (s.reg a))

/-- Adds to a field that saturates at all ones. -/
def State.satAdd (s : State) (a : Nat) (f : Fld) (k : Nat) : State :=
  s.setFld a f (min (s.fld a f + k) (2 ^ (f.hi + 1 - f.lo) - 1))

/-- Adds to a whole 64-bit counter, modulo 2^64. -/
def State.count (s : State) (a k : Nat) : State := s.setReg a ((s.reg a + k) % 2 ^ 64)

/-- Adds to a whole 64-bit counter that does not wrap (R59). -/
def State.countSat (s : State) (a k : Nat) : State := s.setReg a (min (s.reg a + k) (2 ^ 64 - 1))

/-- The device timebase (R6). -/
def State.now (s : State) : Nat := s.reg Reg.globalTime

/-! ### The frames of the logbook (R421) -/

/-- The number of entries in the ring (R421). -/
def logRing : Nat := 4194304

/-- Is a data channel of a stack lost: failed, with no spare that has its lines (R588)? -/
def State.channelGone (s : State) (st c : Nat) : Bool :=
  let a := Reg.stackChannelMap st
  bitOf (s.fld a F.STACK_CHANNEL_MAP_CH_FAILED) c && s.fld a F.STACK_CHANNEL_MAP_SPARE0_FOR != c &&
    s.fld a F.STACK_CHANNEL_MAP_SPARE1_FOR != c

/-- Is no stack lost, and has no channel failed? -/
def State.stacksWhole (s : State) : Bool :=
  s.regs.all fun r =>
    !(decide (Reg.stackMap 0 ≤ r.1 ∧ r.1 ≤ Reg.stackMap 31) && s.fld r.1 F.STACK_MAP_STATE == 2) &&
    !(decide (Reg.stackChannelMap 0 ≤ r.1 ∧ r.1 ≤ Reg.stackChannelMap 31) && s.fld r.1 F.STACK_CHANNEL_MAP_CH_FAILED != 0)

/-- The copies, of those in a mask, in which the frame of entry `n` stands. Copy A lies on C-die 0 and copy B on C-die 3, and
fills its frames there; which stack and channel of its C-die hold a slot is free. (DESIGN CHOICE, log entry 57.) -/
def State.framesLeft (s : State) (n mask : Nat) : Nat :=
  let on := fun (k : Nat) =>
    let x := Config.logStack k (n % logRing)
    let st := x % 8 + 24 * k
    bitOf mask k && s.fld (Reg.stackMap st) F.STACK_MAP_STATE != 2 && !s.channelGone st (x / 8 % 32)
  if s.stacksWhole then mask else b2n (on 0) + 2 * b2n (on 1)

/-- Entries in lost frames stand in no copy that lay there; those in none leave the ring. -/
def State.dropLostFrames (s : State) : State :=
  let es := s.log.entries.map fun e => { e with copies := s.framesLeft e.number e.copies }
  { s with log := { s.log with entries := es.filter fun e => e.copies != 0 } }

/-- The standby P-die has finished synchronising its mirror: 55 ms after its role last changed (step 13 of Table
22-4). By then the other copy of the logbook has been rebuilt (R422). (DESIGN CHOICE, log entry 2.) -/
def State.syncDone (s : State) : State :=
  let k := 1 - s.fld Reg.failopStatus F.FAILOP_STATUS_ACTIVE
  if s.fld Reg.failopStatus F.FAILOP_STATUS_STANDBY = 1 ∧
      55000000 ≤ (s.now + 2 ^ 48 - s.fld (Reg.pdieStatus k) F.PDIE_STATUS_TIME) % 2 ^ 48 then
    let t := (s.setFld Reg.failopStatus F.FAILOP_STATUS_STANDBY 0).setFld Reg.logStatus F.LOG_STATUS_SINGLE 0
    ({ t with log := { t.log with entries := t.log.entries.map fun e => { e with copies := 3 } } } : State).dropLostFrames
  else s

/-- One ns of the device timebase (R6). A slew toward the time master moves one ns in 10,000, which is 100 ppm, and never
steps the timebase backward (R522). (DESIGN CHOICE, log entries 2 and 38.) -/
def State.tickTime (s : State) : State :=
  let f := s.fabric
  let due := decide (s.now % 10000 = 0)
  if due && decide (0 < f.lag) && !f.paused then { s with fabric := { f with lag := f.lag - 1, paused := true } }
  else
    let up := due && decide (0 < f.gain)
    ({ s with fabric := { f with paused := false, gain := if up then f.gain - 1 else f.gain } } : State).setReg
      Reg.globalTime ((s.now + 1 + b2n up) % 2 ^ 64)

/-- The package with no command waiting: the device timebase advances by 1 ns (R6). (DESIGN CHOICE, log entry 2.) -/
def State.idle (s : State) : State := s.tickTime.syncDone

/-- Draws a fresh free value. (DESIGN CHOICE, log entry 5.) -/
def State.draw (s : State) : Word × State := (Config.freeWord s.freeCount, { s with freeCount := s.freeCount + 1 })

/-- Records an output. (DESIGN CHOICE, log entry 58.) -/
def State.emit (s : State) (o : Out) : State := { s with out := s.out ++ [o] }

/-! ### Physical addresses (R277 to R279) -/

/-- The first address of the basin aperture. -/
def basinBase : Nat := 0x800000000000

/-- The size of a basin. -/
def basinSize : Nat := 0x400000

/-- The basin of physical cluster `p` in the aperture (Table 9-2). -/
def basinPA (p : Nat) : Nat := basinBase + p * basinSize

/-- Does a physical address lie in the basin aperture? -/
def inBasin (pa : Nat) : Bool := decide (basinBase ≤ pa)

/-- The physical cluster whose basin holds an aperture address. -/
def basinOwner (pa : Nat) : Nat := (pa - basinBase) / basinSize

/-- Is group `g` interleaved across the package? -/
def State.packageWide (s : State) (g : Nat) : Bool := bitOf (s.reg (Reg.memInterleave (g / 64))) (g % 64)

/-- The stack and the stack line of a DRAM physical address (R278). -/
def State.dramLine (s : State) (pa : Nat) : Nat × Nat :=
  let g := bitsOf pa 41 32
  if s.packageWide g then
    let m := bitsOf pa 31 7
    (Nat.xor (Nat.xor (bitsOf m 4 0) (bitsOf m 9 5)) (bitsOf m 14 10), g * 2 ^ 20 + bitsOf m 24 5)
  else
    let d := bitsOf pa 31 30
    let l := bitsOf pa 29 7
    (8 * d + Nat.xor (Nat.xor (bitsOf l 2 0) (bitsOf l 5 3)) (bitsOf l 8 6), g * 2 ^ 20 + bitsOf l 22 3)

/-- The stack that holds a DRAM physical address. -/
def State.stackOf (s : State) (pa : Nat) : Nat := (s.dramLine pa).1

/-- The data channel and pseudo-channel of a stack line (R279). -/
def channelOf (sla : Nat) : Nat × Nat := (Nat.xor (bitsOf sla 4 0) (bitsOf sla 14 10), bitsOf sla 5 5)

/-- The C-die on which a physical address lies. -/
def State.dieOf (s : State) (pa : Nat) : Nat :=
  if inBasin pa then basinOwner pa / 144 else s.stackOf pa / 8

/-- Does the failure of a unit wait for the map change before it? The unit is lost already (R31, R599). -/
def State.awaits (s : State) (u : Failing) : Bool := s.mapWait.any fun e => e.what == u

/-- Is F-die `f` lost: STATE 0b10, or about to be (R589)? -/
def State.fdieOut (s : State) (f : Nat) : Bool := s.fld (Reg.portMap f) F.PORT_MAP_STATE == 2 || s.awaits (.fdie f)

/-- Is stack `st` lost: STATE 0b10, or about to be (R588)? -/
def State.stackLost (s : State) (st : Nat) : Bool := s.fld (Reg.stackMap st) F.STACK_MAP_STATE == 2 || s.awaits (.stack st)

/-- Is F-die `f` in service, with its link to C-die `d` (R17, R589, R591)? The links are numbered in the order of
Table 1-2. -/
def State.linkCF (s : State) (d f : Nat) : Bool := !s.fdieOut f && !s.health.linksOut.contains (32 + 2 * d + f)

/-- Does a path on the package lead from C-die `d` to C-die `e` (R17)? -/
def State.linksTo (s : State) (d e : Nat) : Bool :=
  d == e || (s.linkCF d 0 && s.linkCF e 0) || (s.linkCF d 1 && s.linkCF e 1)

/-- Does a path on the package lead from C-die `d` to a physical address (R17, R18, R591)? -/
def State.pathTo (s : State) (d pa : Nat) : Bool := s.linksTo d (s.dieOf pa)

/-- Does no working unit hold the line: a failed stack, or a failed channel that no spare serves (R588)? -/
def State.lineLost (s : State) (pa : Nat) : Bool :=
  if inBasin pa then false
  else
    let (st, sla) := s.dramLine pa
    let ch := (channelOf sla).1
    let m := Reg.stackChannelMap st
    s.stackLost st ||
      (bitOf (s.fld m F.STACK_CHANNEL_MAP_CH_FAILED) ch &&
        s.fld m F.STACK_CHANNEL_MAP_SPARE0_FOR != ch && s.fld m F.STACK_CHANNEL_MAP_SPARE1_FOR != ch)

/-! ### Bytes, poison and dirty bits -/

/-- What a byte of memory that nothing has written reads as: zero, except where the newest fill that covers it left it
undefined. (DESIGN CHOICE, log entry 4.) -/
def memDefault (fills : List MemFill) (pa : Nat) : Byte :=
  match fills.find? fun f => decide (f.base ≤ pa ∧ pa < f.base + f.len) with
  | none => 0
  | some f => if f.gen = 0 then 0 else Config.freeByte f.gen pa

/-- The byte at a physical address. (DESIGN CHOICE, log entry 4.) -/
def State.byteAt (s : State) (pa : Nat) : Byte := spGet (memDefault s.fills) s.mem pa

/-- The `n` bytes from a physical address. -/
def State.bytesAt (s : State) (pa n : Nat) : List Byte := (List.range n).map fun i => s.byteAt (pa + i)

/-- The `n`-byte little-endian number at a physical address. -/
def State.numAt (s : State) (pa n : Nat) : Nat := numLE (s.bytesAt pa n)

/-- The canonical form of memory. -/
def State.memWf (s : State) : Bool := spWf (memDefault s.fills) s.mem

/-- The size of the unit that holds poison: a DRAM sector or a basin word (R285). -/
def poisonUnit (pa : Nat) : Nat := if inBasin pa then 8 else 64

/-- The first address of the poison unit that holds an address. -/
def poisonBase (pa : Nat) : Nat := alignDown pa (poisonUnit pa)

/-- Is the byte at a physical address poisoned? -/
def State.poisonedAt (s : State) (pa : Nat) : Bool := s.poison.contains (poisonBase pa) || s.lineLost pa

/-- The first poisoned byte among `n` from a physical address, as an offset. -/
def State.poisonIn (s : State) (pa n : Nat) : Option Nat := (List.range n).find? fun i => s.poisonedAt (pa + i)

/-- Does a read from C-die `d` get poison at a physical address: the word is poisoned, or no path leads to it (R591)? -/
def State.poisonedFrom (s : State) (d pa : Nat) : Bool := s.poisonedAt pa || !s.pathTo d pa

/-- Sets the dirty bit of an armed granule for the stack that holds the address (R331). -/
def State.touch (s : State) (pa : Nat) : State :=
  if !inBasin pa && s.armed.contains (pa / 65536) then
    { s with dirty := setIns (pa / 65536 * 32 + s.stackOf pa) s.dirty }
  else s

/-- Poisons the unit that holds an address (R285). -/
def State.setPoison (s : State) (pa : Nat) : State :=
  { (s.touch pa) with poison := setIns (poisonBase pa) s.poison }

/-- Does a write of `n` bytes at `pa` cover the whole unit at `u`? -/
def coversUnit (pa n u : Nat) : Bool := decide (pa ≤ u ∧ u + poisonUnit u ≤ pa + n)

/-- Writes one byte. -/
def State.putByte (s : State) (pa : Nat) (b : Byte) : State :=
  { s with mem := spSet (memDefault s.fills) pa b s.mem }

/-- Lists bytes from a physical address, with no other effect. -/
def State.putBytes (s : State) (pa : Nat) : List Byte → State
  | [] => s
  | b :: bs => (s.putByte pa b).putBytes (pa + 1) bs

/-- Sets the dirty bits that a write of `n` bytes sets, line by line. -/
def State.touchRange (s : State) (pa n : Nat) : State :=
  (List.range (n / 128 + 2)).foldl (fun t i =>
    let a := max pa (alignDown pa 128 + 128 * i)
    if a < pa + n then t.touch a else t) s

/-- Returns `n` bytes from a physical address to what an unlisted byte reads as after a fill: zero for `gen` 0, else
undefined. Whole poison units are cleared, and dirty bits set. (DESIGN CHOICE, log entry 4.) -/
def State.fillRange (s : State) (pa n gen : Nat) : State :=
  if n = 0 then s
  else
    let meets := s.fills.any fun f => decide (f.base < pa + n ∧ pa < f.base + f.len)
    let kept := s.fills.filter fun f => !decide (pa ≤ f.base ∧ f.base + f.len ≤ pa + n)
    let t : State := { s with
      mem := spClear (fun k => decide (pa ≤ k ∧ k < pa + n)) s.mem
      fills := if gen = 0 && !meets then s.fills else ⟨pa, n, gen⟩ :: kept }
    { (if t.armed.isEmpty then t else t.touchRange pa n) with poison := t.poison.filter fun u => !coversUnit pa n u }

/-- Writes zero to `n` bytes from a physical address. -/
def State.zeroRange (s : State) (pa n : Nat) : State := s.fillRange pa n 0

/-- Leaves `n` bytes from a physical address undefined: each reads a free value from then on.
(DESIGN CHOICE, log entry 4; DEDUCED, log entry 64.) -/
def State.undefine (s : State) (pa n : Nat) : State :=
  { s.fillRange pa n (s.freeCount + 1) with freeCount := s.freeCount + 1 }

/-- A write as the memory performs it: the bytes change, whole poison units it covers are cleared, and the dirty bits of
armed granules are set. A line that no working unit holds drops the write (R588). -/
def State.store (s : State) (pa : Nat) (bs : List Byte) : State :=
  if s.lineLost pa then s
  else
    { ((s.putBytes pa bs).touchRange pa bs.length) with
      poison := s.poison.filter fun u => !coversUnit pa bs.length u }

/-- A write from C-die `d`: dropped where no path leads to the line (R591). -/
def State.storeFrom (s : State) (d pa : Nat) (bs : List Byte) : State := if s.pathTo d pa then s.store pa bs else s

/-- Writes an 8-byte word. -/
def State.store8 (s : State) (pa v : Nat) : State := s.store pa (bytesLE 8 v)

/-! ### Units, partitions and numbering (R24, R25) -/

/-- The state of partition `p`: 0 none, 1 creating, 2 live, 3 destroying. -/
def State.partSt (s : State) (p : Nat) : Nat := s.fld (Reg.partState p) F.PART_STATE_STATE

/-- Is partition `p` live? -/
def State.live (s : State) (p : Nat) : Bool := s.partSt p == 2

/-- Does reach `r` belong to partition `p`? -/
def State.ownsReach (s : State) (p r : Nat) : Bool := s.partSt p != 0 && bitOf (s.reg (Reg.partReaches p)) r

/-- The partition that a reach belongs to. -/
def State.reachPart (s : State) (r : Nat) : Option Nat := (List.range 8).find? fun p => s.ownsReach p r

/-- The reaches of a partition, ascending. -/
def State.partReachList (s : State) (p : Nat) : List Nat := (List.range 64).filter (s.ownsReach p)

/-- The reach and the physical slot of a physical cluster. -/
def reachOfPhys (P : Nat) : Nat := P / 144 * 16 + P % 144 / 9

def slotOfPhys (P : Nat) : Nat := P % 144 % 9

/-- The physical cluster in slot `k` of reach `r`. -/
def physOf (r k : Nat) : Nat := r / 16 * 144 + r % 16 * 9 + k

/-- The reach and the logical slot of a logical cluster. -/
def reachOfLog (L : Nat) : Nat := L / 128 * 16 + L % 128 / 8

/-- The logical cluster in slot `x` of reach `r`. -/
def logOf (r x : Nat) : Nat := r / 16 * 128 + r % 16 * 8 + x

/-- The physical slot that SLOT_MAP gives logical slot `x` of reach `r`; none for 0xF. -/
def State.slotOf (s : State) (r x : Nat) : Option Nat :=
  let k := bitsOf (s.fld (Reg.reachMap r) F.REACH_MAP_SLOT_MAP) (4 * x + 3) (4 * x)
  if k = 0xF then none else some k

/-- The physical cluster of a logical cluster (R25). -/
def State.physOfLog (s : State) (L : Nat) : Option Nat :=
  (s.slotOf (reachOfLog L) (L % 8)).map (physOf (reachOfLog L))

/-- The logical cluster that a physical cluster backs. -/
def State.logOfPhys (s : State) (P : Nat) : Option Nat :=
  let r := reachOfPhys P
  ((List.range 8).find? fun x => s.slotOf r x == some (slotOfPhys P)).map (logOf r)

/-- Is a reach disabled: STATE 0b10, or about to be (R587)? -/
def State.reachOut (s : State) (r : Nat) : Bool :=
  s.fld (Reg.reachMap r) F.REACH_MAP_STATE == 2 || [0, 1, 2].any fun part => s.awaits (.reach r part)

/-- The backed logical clusters of a reach, ascending. -/
def State.backed (s : State) (r : Nat) : List Nat :=
  ((List.range 8).filter fun x => (s.slotOf r x).isSome).map (logOf r)

/-- The backed logical clusters of a partition, ascending. -/
def State.partBacked (s : State) (p : Nat) : List Nat := (s.partReachList p).flatMap s.backed

/-- The cluster record of physical cluster `P`. -/
def State.cl (s : State) (P : Nat) : Cluster := spGet (fun _ => Cluster.reset) s.clusters P

/-- Sets the cluster record of physical cluster `P`. -/
def State.setCl (s : State) (P : Nat) (c : Cluster) : State :=
  { s with clusters := spSet (fun _ => Cluster.reset) P c s.clusters }

/-- The partition of a physical cluster. -/
def State.clPart (s : State) (P : Nat) : Option Nat := s.reachPart (reachOfPhys P)

/-! ### Local addresses (R71 to R75, R709) -/

/-- Trap causes (Table 3-3, Table 4-15, Table 5-4). -/
def Cause.illegal : Nat := 0x0001
def Cause.fetchFault : Nat := 0x0002
def Cause.misaligned : Nat := 0x0003
def Cause.addrNoncanonical : Nat := 0x0004
def Cause.addrReserved : Nat := 0x0005
def Cause.basinDenied : Nat := 0x0006
def Cause.pageUnmapped : Nat := 0x0007
def Cause.pageWriteDenied : Nat := 0x0008
def Cause.dataPoison : Nat := 0x0009
def Cause.fabricDenied : Nat := 0x000A
def Cause.fabricStaleGen : Nat := 0x000B
def Cause.fabricUnreachable : Nat := 0x000C
def Cause.nmDescriptor : Nat := 0x000D
def Cause.cwAccess : Nat := 0x000E
def Cause.brk : Nat := 0x000F
def Cause.doubleFault : Nat := 0x0010
def Cause.vecConfig : Nat := 0x0020
def Cause.vecPoison : Nat := 0x0021
def Cause.matConfig : Nat := 0x0040
def Cause.matRange : Nat := 0x0041
def Cause.matDescriptor : Nat := 0x0042
def Cause.matPoison : Nat := 0x0043

/-- The bytes of a page of a size code. -/
def pageBytes (size : Nat) : Nat := if size = 0 then 2 ^ 16 else if size = 1 then 2 ^ 21 else 2 ^ 30

/-- The record of a map that holds a local address for a partition. -/
def mapFind (maps : List MapRec) (part la : Nat) : Option MapRec :=
  maps.find? fun r => r.part == part && decide (r.va ≤ la ∧ la < r.va + pageBytes r.size)

/-- The result of translating a local address: a physical address, or the cause of the trap. -/
abbrev Tr := Except Nat Nat

/-- Translates a local address for a source of partition `part`. `own` is the physical cluster whose own-basin range the
source reaches, none for a source without a basin (R289); `write` asks for write permission; `align` is the alignment
the access needs. The checks come in the order of R709. -/
def State.translate (s : State) (maps : List MapRec) (part : Option Nat) (own : Option Nat) (write : Bool)
    (align la : Nat) : Tr :=
  if 2 ^ 48 ≤ la then .error Cause.addrNoncanonical
  else if la % align ≠ 0 then .error Cause.misaligned
  else if la < basinSize then
    match own with
    | some P => .ok (basinPA P + la)
    | none => .error Cause.addrReserved
  else if la < 0x40000000 then .error Cause.addrReserved
  else if la < 0xC0000000 then
    let L := (la - 0x40000000) / basinSize
    let r := reachOfLog L
    if part.isSome && s.reachPart r == part then
      match s.physOfLog L with
      | some P => .ok (basinPA P + la % basinSize)
      | none => .error Cause.basinDenied
    else .error Cause.basinDenied
  else if la < 0x100000000 then .error Cause.addrReserved
  else
    match part.bind (mapFind maps · la) with
    | none => .error Cause.pageUnmapped
    | some r => if write && !r.write then .error Cause.pageWriteDenied else .ok (r.pa + (la - r.va))

/-- A cluster's translation (R71 to R75). -/
def State.clTranslate (s : State) (P : Nat) (write : Bool) (align la : Nat) : Tr :=
  s.translate s.maps (s.clPart P) (some P) write align la

/-- A translation for a source without a basin of its own: a barge executor or a host port (R289). -/
def State.execTranslate (s : State) (part : Nat) (write : Bool) (align la : Nat) : Tr :=
  s.translate s.maps (some part) none write align la

/-- The first address from `a` up to `stop` at which a page of a partition's map cannot be used. The range is cut at
64 KiB boundaries, the smallest page. -/
def State.walk (s : State) (maps : List MapRec) (part : Nat) (write : Bool) (stop : Nat) : Nat → Nat → Option Nat
  | 0, _ => none
  | k + 1, a =>
    if stop ≤ a then none
    else
      match s.translate maps (some part) none write 1 a with
      | .ok _ => s.walk maps part write stop k (alignDown a 65536 + 65536)
      | .error _ => some a

/-- Checks every page of a range for a source without a basin: the first failing address. -/
def State.rangeFault (s : State) (maps : List MapRec) (part : Nat) (write : Bool) (la len : Nat) : Option Nat :=
  s.walk maps part write (la + len) (len / 65536 + 2) la

/-- The physical address of a local address of a partition, 0 where it translates to none (used after a check). -/
def State.paOf (s : State) (maps : List MapRec) (part la : Nat) : Nat :=
  match s.translate maps (some part) none false 1 la with
  | .ok pa => pa
  | .error _ => 0

/-- The bytes of a local range of a partition. -/
def State.localBytes (s : State) (maps : List MapRec) (part la n : Nat) : List Byte :=
  (List.range n).map fun i => s.byteAt (s.paOf maps part (la + i))

/-- The first poisoned address of a local range, at 8-byte steps. -/
def State.localPoison (s : State) (maps : List MapRec) (part la n : Nat) : Option Nat :=
  ((List.range (n / 8)).map fun i => la + 8 * i).find? fun a => s.poisonedAt (s.paOf maps part a)

/-- Writes bytes to a local range in pieces that stay inside one 128-byte line, those that `on` lets through. -/
def State.storeLocalIf (s : State) (maps : List MapRec) (part la : Nat) (bs : List Byte) (on : Nat → Bool) : State :=
  (List.range (bs.length / 128 + 2)).foldl (fun t i =>
    let a := max la (alignDown la 128 + 128 * i)
    let b := min (la + bs.length) (alignDown la 128 + 128 * (i + 1))
    if a < b && on a then t.store (s.paOf maps part a) ((bs.drop (a - la)).take (b - a)) else t) s

/-- Writes bytes to a local range. -/
def State.storeLocal (s : State) (maps : List MapRec) (part la : Nat) (bs : List Byte) : State :=
  s.storeLocalIf maps part la bs fun _ => true

/-! ### Error records (R578, R579) -/

/-- UNIT types of Table 20-3. -/
def unitCluster (P : Nat) : Nat := 0x01000000 + P
def unitChannel (st c : Nat) : Nat := 0x02000000 + st * 34 + c
def unitPort (k : Nat) : Nat := 0x03000000 + k
def unitLane (f l : Nat) : Nat := 0x04000000 + f * 36 + l
def unitReach (r : Nat) : Nat := 0x05000000 + r
def unitNme (e : Nat) : Nat := 0x06000000 + e
def unitStack (st : Nat) : Nat := 0x07000000 + st
def unitFdie (f : Nat) : Nat := 0x08000000 + f
def unitPdie (k : Nat) : Nat := 0x09000000 + k
def unitCdie (d : Nat) : Nat := 0x0A000000 + d
def unitDieLink (l : Nat) : Nat := 0x0B000000 + l
def unitTowpath (g : Nat) : Nat := 0x0C000000 + g

/-- The partition that a page of some map gives a physical address to. -/
def State.pagePart (s : State) (pa : Nat) : Option Nat :=
  if inBasin pa then s.clPart (basinOwner pa)
  else (s.maps.find? fun r => decide (r.pa ≤ pa ∧ pa < r.pa + pageBytes r.size)).map (·.part)

/-- Notes an event that the thresholds of Table 20-2 count. -/
def State.noteFault (s : State) (unit kind place : Nat) : State :=
  { s with errs := { s.errs with events := s.errs.events ++ [⟨unit, kind, place, s.now⟩] } }

/-- How many events of a kind fell on a unit in the last `window` ns. -/
def State.faultsIn (s : State) (unit kind window : Nat) : Nat :=
  (s.errs.events.filter fun e => e.unit == unit && e.kind == kind && decide (s.now < e.time + window)).length

/-- One hour and 24 hours of the timebase. -/
def hourNs : Nat := 3600 * 10 ^ 9
def dayNs : Nat := 24 * 3600 * 10 ^ 9

/-- The window of Table 20-2 in which the events of a kind on a unit count: an hour for the corrected errors of a cluster, for
recomputations, losses of a port's link and losses of lock, 10 s for lane errors, else 24 hours. Where the table gives no
window, 24 hours. (DESIGN CHOICE, log entry 47.) -/
def windowOf (unit kind : Nat) : Nat :=
  match unit / 2 ^ 24, kind with
  | 1, 1 => hourNs
  | _, 3 => hourNs
  | 3, 5 => hourNs
  | _, 6 => 10 * 10 ^ 9
  | _, 7 => hourNs
  | _, _ => dayNs

/-- COUNT of an error record: the events of its kind on its unit in the current window. A kind whose events no threshold
counts is counted by its records. (DEDUCED, log entry 47.) -/
def State.recordCount (s : State) (unit kind : Nat) : Nat :=
  let w := windowOf unit kind
  let n := s.faultsIn unit kind w
  if n = 0 then 1 + (s.errs.recs.filter fun r => r.unit == unit && r.kind == kind && decide (s.now < r.time + w)).length else n

/-- Writes an error record (Table 20-3). The ring keeps 65,536 records. -/
def State.errRecord (s : State) (unit kind level action : Nat) (part : Option Nat) (logEntry addr detail : Nat)
    (time : Nat) : State :=
  let r : ErrRec := ⟨s.errs.next, time, logEntry, unit, kind, level, part, action, s.recordCount unit kind, addr,
    detail⟩
  { (s.count (Reg.errCount level) 1) with
    errs := { s.errs with
      recs := (s.errs.recs ++ [r]).filter fun e => decide (s.errs.next < e.number + 65536)
      next := s.errs.next + 1 } }

/-- The location of a DRAM error as DETAIL reports it (Table 20-3): data channel, pseudo-channel, bank and row.
(DESIGN CHOICE, log entry 47.) -/
def State.dramPlace (s : State) (pa : Nat) : Nat :=
  let sla := (s.dramLine pa).2
  let c := channelOf sla
  c.1 + c.2 * 2 ^ 6 + (Config.dramBank sla).toNat * 2 ^ 8 + (Config.dramRow sla).toNat * 2 ^ 16

/-- DETAIL of a memory error: the syndrome, which is a free value, and the location of a DRAM error.
(DESIGN CHOICE, log entry 47.) -/
def State.memDetail (s : State) (pa : Nat) : Nat × State :=
  let (w, t) := s.draw
  (w.toNat + (if inBasin pa then 0 else s.dramPlace pa * 2 ^ 64), t)

/-- The channel of a stack that holds the lines of data channel `c`: the spare that serves it, or itself (R275, R303). -/
def State.serving (s : State) (st c : Nat) : Nat :=
  let a := Reg.stackChannelMap st
  if !bitOf (s.fld a F.STACK_CHANNEL_MAP_CH_FAILED) c then c
  else if s.fld a F.STACK_CHANNEL_MAP_SPARE0_FOR = c then 32
  else if s.fld a F.STACK_CHANNEL_MAP_SPARE1_FOR = c then 33
  else c

/-- The kind of the mark that a unit's corrected error has written a record. -/
def evRecorded : Nat := 0x21

/-- A corrected error of a unit, noted already, writes a record at most once an hour (R579). -/
def State.recordCorrected (s : State) (unit : Nat) (part : Option Nat) (addr : Nat) (detail : State → Nat × State) : State :=
  if s.faultsIn unit evRecorded hourNs = 0 then
    let (d, t) := detail (s.noteFault unit evRecorded 0)
    t.errRecord unit 1 1 0 part 0 addr d t.now
  else s

/-- A syndrome, which is a free value. (DESIGN CHOICE, log entry 47.) -/
def State.syndrome (s : State) : Nat × State := let (w, t) := s.draw; (w.toNat, t)

/-- What a read of memory meets (R284, R285): a corrected error is counted, an uncorrectable one poisons its unit. An error in
a buffer of the stack counts for the stack, and is no DRAM error. (DEDUCED, log entry 47.) -/
def State.meetEcc (s : State) (e : Ecc) (pa : Nat) : State :=
  let st := s.stackOf pa
  let unit := if inBasin pa then unitCluster (basinOwner pa) else unitChannel st (s.serving st (channelOf (s.dramLine pa).2).1)
  match e with
  | .clean => s
  | .cache => s
  | .corrected =>
    let t := s.noteFault unit 1 (pa / 128)
    let t := if inBasin pa then t else t.satAdd (Reg.stackEccCount st) F.STACK_ECC_COUNT_CORRECTED 1
    t.recordCorrected unit (s.pagePart pa) pa fun u => u.memDetail pa
  | .uncorrectable =>
    let t := s.noteFault unit 2 (pa / 128)
    let t := if inBasin pa then t
      else (t.satAdd (Reg.stackEccCount st) F.STACK_ECC_COUNT_UNCORRECTED 1).setFld (Reg.stackErrAddr st) F.STACK_ERR_ADDR_ADDR pa
    let (d, t) := t.memDetail pa
    (t.setPoison pa).errRecord unit 2 1 1 (s.pagePart pa) 0 pa d s.now
  | .buffer bad =>
    if inBasin pa then s
    else if bad then
      let (d, t) := (s.noteFault (unitStack st) 2 (pa / 128)).syndrome
      (t.setPoison pa).errRecord (unitStack st) 2 1 1 (s.pagePart pa) 0 pa d s.now
    else (s.noteFault (unitStack st) 1 (pa / 128)).recordCorrected (unitStack st) (s.pagePart pa) pa State.syndrome

/-- What the reads of a command meet: corrected and uncorrectable errors by physical address (R285). -/
def State.meetAll (s : State) (errs : List (Nat × Ecc)) : State := errs.foldl (fun t e => t.meetEcc e.2 e.1) s

/-- The read-merge-write of a store of `n` bytes reads the unit first, unless it covers the whole of it (R284, R285). -/
def State.mergeRead (s : State) (e : Ecc) (pa n : Nat) : State :=
  if coversUnit pa n (poisonBase pa) then s else s.meetEcc e pa

/-- Where the events of a cluster's register file, and of its translation cache, stand among those of its unit
(Table 20-2). -/
def regPlace : Nat := 2 ^ 60

def cachePlace : Nat := 2 ^ 61

/-- What an operand read finds in a word of the register file of cluster `P` (R284, R285): a corrected error is counted, an
uncorrectable one poisons the word. The error record has no address. -/
def State.regEcc (s : State) (P : Nat) (e : Nat × Ecc) : State :=
  let unit := unitCluster P
  match e.2 with
  | .corrected => (s.noteFault unit 1 (regPlace + e.1 % 12288)).recordCorrected unit (s.clPart P) 0 State.syndrome
  | .uncorrectable =>
    let (d, t) := (s.noteFault unit 2 (regPlace + e.1 % 12288)).syndrome
    let c := t.cl P
    (t.setCl P { c with vpois := setIns (e.1 % 12288) c.vpois }).errRecord unit 2 1 1 (s.clPart P) 0 0 d s.now
  | _ => s

/-- A parity error in the translation cache that cluster `P` uses is corrected by a refetch from the page map, and counted
(R284, R577). (DEDUCED, log entry 47.) -/
def State.cacheEcc (s : State) (P : Nat) (e : Ecc) : State :=
  match e with
  | .cache =>
    (s.noteFault (unitCluster P) 1 cachePlace).recordCorrected (unitCluster P) (s.clPart P) 0 State.syndrome
  | _ => s

/-! ### Opcodes (Table 13-1) -/

/-- Which canals may send an opcode (R347, R389). -/
inductive Sources where
  | any          -- P S
  | system       -- S
  | ehl          -- E
  | translated   -- T
  deriving DecidableEq, Repr

/-- The sources of an opcode; none for one that is not assigned. -/
def opSources (op : Nat) : Option Sources :=
  if op ≤ 5 ∨ (0x100 ≤ op ∧ op ≤ 0x104) ∨ (0x200 ≤ op ∧ op ≤ 0x204) ∨ (0x300 ≤ op ∧ op ≤ 0x305) ∨
      (0x400 ≤ op ∧ op ≤ 0x403) ∨ (0x600 ≤ op ∧ op ≤ 0x604) ∨ op = 0x802 ∨ op = 0x803 ∨ op = 0x900 ∨ op = 0x902 then
    some .any
  else if op = 0x500 ∨ op = 0x501 ∨ (0x510 ≤ op ∧ op ≤ 0x513) ∨ op = 0x518 ∨ op = 0x519 ∨ op = 0x520 ∨ op = 0x521 then
    some .ehl
  else if (0x700 ≤ op ∧ op ≤ 0x703) ∨ op = 0x800 ∨ op = 0x801 ∨ op = 0x804 ∨ op = 0x805 ∨ op = 0x901 then some .system
  else if [0xE00, 0xE01, 0xE02, 0xE10, 0xE18, 0xE20, 0xE21, 0xE30].contains op then some .translated
  else none

/-- Does an opcode act for the partition that the header names? -/
def opForPart (op : Nat) : Bool :=
  match opSources op with
  | none => false
  | some _ => !([0x0, 0x1, 0x4, 0x5, 0x804, 0x805, 0x900, 0x901].contains op || op / 256 == 7)

/-- The native opcode that an opcode runs as (Table 12-13). -/
def nativeOp (op : Nat) : Nat :=
  match op with
  | 0xE00 => 0x000
  | 0xE01 => 0x100
  | 0xE02 => 0x101
  | 0xE10 => 0x201
  | 0xE18 => 0x300
  | 0xE20 => 0x002
  | 0xE21 => 0x003
  | 0xE30 => 0x001
  | n => n

/-- Bytes [hi:lo] of a barge. -/
def Barge.f (b : Barge) (hi lo : Nat) : Nat := fieldB b.bytes hi lo

/-- The opcode of a barge, and the native opcode it runs as. -/
def Barge.opcode (b : Barge) : Nat := b.f 1 0

def Barge.native (b : Barge) : Nat := nativeOp b.opcode

/-- The 128 bytes that ACCEPT and CARRY hold: for an E4 canal the translated header and the packet (Table 14-1). -/
def Barge.logBytes (b : Barge) : List Byte :=
  if b.packet.isEmpty then b.bytes else sliceB b.bytes 0 32 ++ sliceB b.packet 0 64 ++ List.replicate 32 0

/-- The partition that a barge acts for. -/
def Barge.actsFor (b : Barge) : Option Nat := if opForPart b.opcode then some b.part else none

/-- Which P-die is active: 0 for A, 1 for B. -/
def State.activePdie (s : State) : Nat := s.fld Reg.failopStatus F.FAILOP_STATUS_ACTIVE

/-- Does only one copy take entries (R422)? -/
def State.logSingle (s : State) : Bool := s.flag Reg.logStatus F.LOG_STATUS_SINGLE

/-- Appends an entry with the next number; the entry that its slot held is overwritten. One whose frames are lost in both
copies is held nowhere, and a GAP entry names it. (DESIGN CHOICE, log entry 57.) -/
def State.logPut (s : State) (kind canal seq status : Nat) (part : Option Nat) (barge tally event : List Byte) :
    State :=
  let w := s.activePdie
  let n := s.log.next
  let copies := s.framesLeft n (if s.logSingle then 2 ^ w else 3)
  let e : LogEntry := ⟨n, kind, s.now, canal, seq, status, part, w, s.logSingle, copies, barge, tally, event⟩
  { s with log := { s.log with
      entries := (if copies = 0 then s.log.entries else s.log.entries ++ [e]).filter fun x => decide (n < x.number + logRing)
      gap := if copies = 0 then some ((s.log.gap.map (·.1)).getD n, n) else s.log.gap
      next := n + 1 } }

/-- Enters the GAP entry that is due (Table 14-2). -/
def State.logGap (s : State) : State :=
  match s.log.gap with
  | none => s
  | some (a, b) =>
    let t := ({ s with log := { s.log with gap := none } } : State).logPut 0xB 0 0 0 none [] [] (bytesLE 8 a ++ bytesLE 8 b)
    match t.log.gap with
    | none => t
    | some (_, c) => { t with log := { t.log with gap := some (a, c) } }

/-- The uncompleted barge whose ACCEPT or latest CARRY stands in the slot that the next entry takes (R427): one of the
package, or one that a reset of level 7 cut off. (DEDUCED, log entry 57.) -/
def State.carryDue (s : State) : Option Barge := (s.log.orphans ++ s.barges).find? fun b => b.entry + logRing == s.log.next

/-- The PART of a barge's entries: its canal's partition, or, on a system canal, the partition it acts for (R425). -/
def State.logPart (s : State) (canal : Nat) (actsFor : Option Nat) : Option Nat :=
  if s.flag (Reg.canalCtrl canal) F.CANAL_CTRL_SYSTEM then actsFor
  else some (s.fld (Reg.canalCtrl canal) F.CANAL_CTRL_PARTITION)

/-- The PART that the retained entry of a number has; none where it is held nowhere. -/
def State.partOfEntry (s : State) (n : Nat) : Option Nat := (s.log.entries.find? fun x => x.number == n).bind (·.part)

/-- Replaces the record of one barge. -/
def State.setBarge (s : State) (b : Barge) : State :=
  { s with barges := s.barges.map fun x => if x.canal == b.canal && x.seq == b.seq then b else x }

/-- Enters CARRY entries while the next slot holds the entry of an uncompleted barge (R427). (DEDUCED, log entry 57.) -/
def State.logCarry (s : State) : Nat → State
  | 0 => s
  | k + 1 =>
    match s.carryDue with
    | none => s
    | some b =>
      let t := s.logPut 0x3 b.canal b.seq 0 (s.partOfEntry b.entry) b.logBytes []
        [BitVec.ofNat 8 (b2n b.begun)]
      let u := t.setBarge { b with entry := s.log.next }
      ({ u with log := { u.log with orphans := u.log.orphans.map fun x =>
        if x.entry == b.entry then { x with entry := s.log.next } else x } } : State).logCarry k

/-- Enters an event in the logbook (R426). (DEDUCED, log entry 57.) -/
def State.logEnter (s : State) (kind canal seq status : Nat) (part : Option Nat) (barge tally event : List Byte) :
    State :=
  ((s.logCarry (s.barges.length + s.log.orphans.length + 1)).logPut kind canal seq status part barge tally event).logGap

/-- The runs of consecutive numbers of an ascending list, as first and last. -/
def runsOf (l : List Nat) : List (Nat × Nat) :=
  l.foldr (fun n acc => match acc with
    | (a, b) :: rest => if a = n + 1 then (n, b) :: rest else (n, n) :: acc
    | [] => [(n, n)]) []

/-- Frames of the logbook are lost: entries that can be read from neither copy leave the ring, and GAP entries name them
(Table 14-2). (DESIGN CHOICE, log entry 57.) -/
def State.logLose (s : State) : State :=
  let t := s.dropLostFrames
  let gone := s.log.entries.filter fun e => !t.log.entries.any fun x => x.number == e.number
  (runsOf (gone.map (·.number))).foldl (fun u g => u.logEnter 0xB 0 0 0 none [] [] (bytesLE 8 g.1 ++ bytesLE 8 g.2)) t

/-! ### Host events and interrupts (R645, R652) -/

/-- The functions of one PCIe port as the host configured them. -/
def State.host (s : State) (k : Nat) : HostPort := spGet (fun _ => {}) s.hostPort k

/-- Sets the functions of one PCIe port. -/
def State.setHost (s : State) (k : Nat) (h : HostPort) : State :=
  { s with hostPort := spSet (fun _ => ({} : HostPort)) k h s.hostPort }

/-- A management port. -/
def State.mgmtPort (s : State) (k : Nat) : MgmtPort := spGet (fun _ => {}) s.mgmt k

/-- Sets a management port. -/
def State.setMgmt (s : State) (k : Nat) (m : MgmtPort) : State :=
  { s with mgmt := spSet (fun _ => ({} : MgmtPort)) k m s.mgmt }

/-- Sends the interrupt of an MSI-X entry: a masked entry sets its pending bit, a function with MSI-X disabled sends
nothing. (DESIGN CHOICE, log entry 58.) -/
def State.interrupt (s : State) (port fn entry : Nat) : State :=
  let h := s.host port
  if !h.msixOn.contains fn then s
  else if h.unmasked.contains (fn * 512 + entry) then s.emit (.msix port fn entry)
  else s.setHost port { h with waiting := setIns (fn * 512 + entry) h.waiting }

/-- Sets a bit of HOST_EVENT; a bit that changes from 0 to 1 fires entry 256 of the PF and raises an in-band interrupt
or ALERT_N on the management ports (R645, R652). -/
def State.hostEvt (s : State) (f : Fld) : State :=
  if s.flag Reg.hostEvent f then s
  else
    let t := s.setFld Reg.hostEvent f 1
    let t := (t.interrupt 0 0 256).interrupt 1 0 256
    [0, 1].foldl (fun u k =>
      let m := u.mgmtPort k
      if m.i3c then (if m.ibiOn then u.emit (.ibi k (u.reg Reg.hostEvent % 256)) else u)
      else u.emit (.alert k)) t

/-! ### Canals: what their registers show (R354, R359, R360) -/

/-- The accepted, uncompleted barges of a canal, in order of acceptance. -/
def State.canalBarges (s : State) (c : Nat) : List Barge := s.barges.filter fun b => b.canal == c

/-- The tallies of a canal that wait to be written. -/
def State.canalHeld (s : State) (c : Nat) : List HeldTally := s.tallies.filter fun h => h.canal == c

/-- The slot count of a canal's rings. -/
def State.canalSlots (s : State) (c : Nat) : Nat := 2 ^ s.fld (Reg.canalCtrl c) F.CANAL_CTRL_RING_LOG2

/-- Is a canal active: ENABLE 1 and FAULT 0? -/
def State.canalActive (s : State) (c : Nat) : Bool :=
  s.flag (Reg.canalCtrl c) F.CANAL_CTRL_ENABLE && !s.flag (Reg.canalStatus c) F.CANAL_STATUS_FAULT

/-- Is no barge of a canal outstanding and no tally pending? -/
def State.canalIdle (s : State) (c : Nat) : Bool := (s.canalBarges c).isEmpty && (s.canalHeld c).isEmpty

/-- Has the tally ring a free slot that no accepted barge has reserved (R359)? -/
def State.tallyFree (s : State) (c : Nat) : Bool :=
  let written := (s.reg (Reg.canalTallyTail c) + 2 ^ 32 - s.reg (Reg.canalTallyHead c)) % 2 ^ 32
  decide (written + (s.canalBarges c).length + (s.canalHeld c).length < s.canalSlots c)

/-- CANAL_STATUS as it reads. -/
def State.canalStatus (s : State) (c : Nat) : Nat :=
  let w := s.canalBarges c
  let r := s.reg (Reg.canalStatus c)
  [(F.CANAL_STATUS_OUTSTANDING, min w.length 0xFFFF),
    (F.CANAL_STATUS_WAITING, min (w.filter fun b => !b.begun).length 0xFFFF),
    (F.CANAL_STATUS_TALLY_FULL, b2n (!s.tallyFree c)), (F.CANAL_STATUS_IDLE, b2n (s.canalIdle c)),
    (F.CANAL_STATUS_ACTIVE, b2n (s.canalActive c))].foldl (fun n fv => withBits n fv.1.hi fv.1.lo fv.2) r

/-- The CANAL entry of Table 14-2. -/
def State.logCanal (s : State) (c : Nat) : State :=
  s.logEnter 0x6 c 0 0 (s.logPart c none) [] []
    (bytesLE 8 (s.reg (Reg.canalCtrl c)) ++ bytesLE 8 (s.canalStatus c) ++ bytesLE 8 (s.reg (Reg.canalHead c)))

/-- A canal faults: fetching stops, and barges already accepted run on (R354). (DEDUCED, log entry 19.) -/
def State.canalFault (s : State) (c cause : Nat) : State :=
  ((s.setFlds (Reg.canalStatus c) [(F.CANAL_STATUS_FAULT, 1), (F.CANAL_STATUS_FAULT_CAUSE, cause)]).logCanal c).hostEvt
    F.HOST_EVENT_CANAL_FAULT

/-! ### Barges -/

/-- The accepted, uncompleted barge with a canal and sequence number. -/
def State.barge? (s : State) (canal seq : Nat) : Option Barge :=
  s.barges.find? fun b => b.canal == canal && b.seq == seq

/-- The seed of a barge (R357). -/
def Barge.seed (b : Barge) : Nat := b.f 15 10

/-- The deadline of a barge, 0 for none. -/
def Barge.deadline (b : Barge) : Nat := b.f 23 16

/-- FLAGS of a barge (Table 12-5). -/
def Barge.flags (b : Barge) : Nat := b.f 9 8

/-- Status codes (Table 13-9). -/
def St.done : Nat := 0x0000
def St.doneWithNotes : Nat := 0x0001
def St.cancelled : Nat := 0x0002
def St.malformed : Nat := 0x0003
def St.notPermitted : Nat := 0x0004
def St.noResource : Nat := 0x0005
def St.deadlineMissed : Nat := 0x0007
def St.execFault : Nat := 0x0211

/-- Note bits (Table 12-10). -/
def Note.flushSeen : Nat := 0x01
def Note.pivotRegularised : Nat := 0x02
def Note.basisChanged : Nat := 0x04
def Note.throttled : Nat := 0x08
def Note.clipped : Nat := 0x10
def Note.choiceMade : Nat := 0x20
def Note.spareUsed : Nat := 0x40
def Note.retried : Nat := 0x80

/-- Adds note bits to a barge. -/
def State.addNote (s : State) (canal seq note : Nat) : State :=
  match s.barge? canal seq with
  | some b => s.setBarge { b with notes := b.notes ||| note }
  | none => s

/-- Ends the work of a barge with its status and result words; its COMPLETE is entered by BARGE_COMPLETION. A barge
that has ended keeps its status (R370). -/
def State.endBarge (s : State) (canal seq status r0 r1 : Nat) : State :=
  match s.barge? canal seq with
  | some b =>
    match b.phase with
    | .ended _ _ _ => s
    | _ => s.setBarge { b with phase := .ended status (r0 % 2 ^ 64) (min r1 (2 ^ 32 - 1)), work := .none }
  | none => s

/-! ### VCORE (R448 to R450) -/

/-- The target of a C-die, in mV (R450). -/
def State.vTarget (s : State) (d : Nat) : Nat :=
  let a := Reg.vcoreCtrl d
  let lo := s.fld a F.VCORE_CTRL_VSET
  if s.fld a F.VCORE_CTRL_VMODE = 1 then
    max lo (min (s.fld a F.VCORE_CTRL_VMAX) (((s.weir.target.find? fun x => x.1 == d).map (·.2)).getD lo))
  else lo

/-- Is a die's VCORE below its target by R444 or heat, or does its issue guard act? -/
def State.slowDie (s : State) (d : Nat) : Bool :=
  let a := Reg.vcoreStatus d
  s.weir.guard.contains d || ((s.flag a F.VCORE_STATUS_BUDGET || s.flag a F.VCORE_STATUS_THERMAL) &&
    decide (s.fld a F.VCORE_STATUS_VCORE < s.vTarget d))

/-! ### Yields (R480 to R482) -/

/-- Guarantees as PART_YIELD numbers them, and the causes of Table 16-4. -/
def Gu.timing : Nat := 2
def Gu.latency : Nat := 3
def Gu.bandwidth : Nat := 4
def Gu.throughput : Nat := 5

def Ca.thermal : Nat := 1
def Ca.power : Nat := 2
def Ca.pacing : Nat := 3
def Ca.containment : Nat := 4
def Ca.timingOther : Nat := 5
def Ca.latencyOther : Nat := 6

/-- A guarantee of a partition yields: where its situation does not last already it is counted and recorded, and the barges of
the partition that `sel` names complete with GUARANTEE_YIELDED. -/
def State.yieldG (s : State) (p guar cause site winner : Nat) (sel : Barge → Bool) : State :=
  let t := if s.weir.yields.any fun y => y.part == p && y.guar == guar && y.cause == cause && y.site == site then s
    else
      let t := (s.count (Reg.yieldCount p) 1).setFlds (Reg.partYield p) [(F.PART_YIELD_GUARANTEE, guar),
        (F.PART_YIELD_CAUSE, cause), (F.PART_YIELD_ACTIVE, 1), (F.PART_YIELD_WINNER, winner),
        (F.PART_YIELD_TIME, s.now % 2 ^ 48)]
      { t with weir := { t.weir with yields := ⟨p, guar, cause, site, true⟩ :: t.weir.yields.map fun y =>
          if y.part = p then { y with shown := false } else y } }
  { t with barges := t.barges.map fun b => if b.actsFor = some p ∧ sel b then { b with yielded := true } else b }

/-- The situations that `past` names have ended; ACTIVE reads 0 where PART_YIELD names one of them. -/
def State.yieldEnd (s : State) (past : Yield → Bool) : State :=
  let t := (s.weir.yields.filter fun y => past y && y.shown).foldl (fun t y => t.setFld (Reg.partYield y.part)
    F.PART_YIELD_ACTIVE 0) s
  { t with weir := { t.weir with yields := t.weir.yields.filter fun y => !past y } }

/-- Does a guarantee of a partition yield, in one of the situations that `p` names? -/
def State.yielding (s : State) (on : Yield → Bool) : Bool := s.weir.yields.any on

/-- Steps through a range at which the C-die that holds a line can change: every line, 33 of each 64 KiB at most. -/
def lineSteps (len : Nat) : List Nat :=
  (List.range (len / 65536 + 1)).flatMap fun i =>
    (List.range (min 33 (len / 128 + 1))).map fun j => 65536 * i + 128 * j

/-- Do `len` bytes from a physical address touch a stack at 110 °C, which accepts no new access (R451)? -/
def State.hotAt (s : State) (pa len : Nat) : Bool :=
  !inBasin pa && ((pa + max len 1 - 1) :: (lineSteps len).map (pa + ·)).any fun a => s.heat.s110.contains (s.stackOf a)

/-- Do `len` bytes from a physical address touch the basin of a failed cluster that is being substituted (R582)? -/
def State.movedAt (s : State) (pa len : Nat) : Bool :=
  inBasin pa && s.subs.any fun x => decide (pa < basinPA x.failed + basinSize ∧ basinPA x.failed < pa + max len 1)

/-- Does a takeover run: steps 1 to 4 of Table 20-6, in which nothing is fetched, admitted or tallied (R595)? -/
def State.takingOver (s : State) : Bool := s.flag Reg.failopStatus F.FAILOP_STATUS_TAKING_OVER

/-- Is there anything at which accesses wait: a stack at 110 °C, or a substitution in progress? -/
def State.holds (s : State) : Bool := !s.heat.s110.isEmpty || !s.subs.isEmpty

/-- A command accesses memory: one that touches a stack at 110 °C waits (R451), and so does one that touches a basin which is
being moved (R582, R584); `State.go` sees it. -/
def State.stall (s : State) (l : List (Nat × Nat)) : State :=
  if s.holds && l.any fun r => s.hotAt r.1 r.2 || s.movedAt r.1 r.2 then { s with heat := { s.heat with waits := true } } else s

/-- An access to the basins of retained reaches wakes them, and completes then (R454). (DESIGN CHOICE, log entry 50.) -/
def State.rouse (s : State) (pas : List Nat) : State :=
  let s := s.stall (pas.map (·, 1))
  if s.fld Reg.weirStatus F.WEIR_STATUS_STATE ≠ 0 then s
  else
    ((((pas.filter inBasin).map fun pa => reachOfPhys (basinOwner pa)).eraseDups).filter fun r =>
      s.fld (Reg.reachDepth r) F.REACH_DEPTH_DEPTH == 2).foldl (fun t r => t.setFlds (Reg.reachDepth r)
        [(F.REACH_DEPTH_DEPTH, 1), (F.REACH_DEPTH_DOMAIN, 0), (F.REACH_DEPTH_WAKING, 0)]) s

/-- A request of a barge waits at the stacks of some physical addresses that are above 105 °C: the bandwidth floor of its
partition yields there (Table 16-4). (DEDUCED, log entry 51.) -/
def State.slowStacks (s : State) (b : Barge) (pas : List Nat) : State :=
  match b.actsFor with
  | none => s
  | some p =>
    if s.fld (Reg.partGuarantee p) F.PART_GUARANTEE_BW_FLOOR = 0 then s
    else
      (s.heat.s105.filter fun st => pas.any fun pa => !inBasin pa && s.stackOf pa == st).foldl (fun t st =>
        t.yieldG p Gu.bandwidth Ca.thermal st 0 fun x => x.canal == b.canal && x.seq == b.seq) s

/-- A barge uses memory at some physical addresses: the C-dies that hold them are noted, and THROTTLED where one of them is
slow (R448). (DEDUCED, log entry 49.) -/
def State.usePas (s : State) (who : Option (Nat × Nat)) (pas : List Nat) : State :=
  match who.bind fun w => s.barge? w.1 w.2 with
  | none => s
  | some b =>
    let ds := (pas.map s.dieOf).eraseDups
    (s.setBarge { b with
      dies := ds.foldl (fun l d => setIns d l) b.dies
      notes := if ds.any s.slowDie then b.notes ||| Note.throttled else b.notes }).slowStacks b pas

/-- The physical ranges that a checked local range covers, cut at 64 KiB boundaries. -/
def State.physRanges (s : State) (p la len : Nat) : List (Nat × Nat) :=
  ((List.range (len / 65536 + 2)).filterMap fun i =>
    let a := max la (alignDown la 65536 + 65536 * i)
    let b := min (la + len) (alignDown la 65536 + 65536 * (i + 1))
    if a < b then some (s.paOf s.maps p a, b - a) else none)

/-- A barge uses a range of local addresses of a partition (R448). (DEDUCED, log entry 49.) -/
def State.useRange (s : State) (who : Option (Nat × Nat)) (maps : List MapRec) (part la len : Nat) : State :=
  let pas := (lineSteps len).map fun k => s.paOf maps part (la + k)
  (s.rouse pas).usePas who pas

/-- Is dynamic load balancing off for partition `q` (R485)? -/
def State.dlbOff (s : State) (q : Nat) : Bool :=
  s.fld (Reg.partCtrl q) F.PART_CTRL_CLASS != 0 || s.flag (Reg.partCtrl q) F.PART_CTRL_DLB_OFF

/-- Has a barge not yet ended and been started? -/
def Barge.executing (b : Barge) : Bool :=
  match b.phase with
  | .started => true
  | .working => true
  | _ => false

/-! ### Choices (R51, R55) -/

/-- Counts a choice for a partition and sets CHOICE_MADE in the barges whose sources took part, or in every executing
barge of the partition where a request cannot be attributed; the count does not wrap (R490).
(DESIGN CHOICE, log entry 17.) -/
def State.choice (s : State) (part : Nat) (who : Option (List (Nat × Nat))) : State :=
  let t := s.countSat (Reg.choiceCount part) 1
  match who with
  | some l => l.foldl (fun u b => u.addNote b.1 b.2 Note.choiceMade) t
  | none => { t with barges := t.barges.map fun b =>
      if b.part == part && b.executing then { b with notes := b.notes ||| Note.choiceMade } else b }

/-- The barge for which a near-memory operation runs. -/
def NmOp.barges (o : NmOp) : List (Nat × Nat) :=
  match o.source with
  | .cluster _ run => run.toList
  | .barge c q => [(c, q)]

/-- Is ordered arbitration on for a reach, and for every reach of a partition (R53)? -/
def State.orderedReach (s : State) (r : Nat) : Bool := s.flag (Reg.timingCtrl r) F.TIMING_CTRL_ORDER_STATE

def State.orderedPart (s : State) (p : Nat) : Bool := (s.partReachList p).all s.orderedReach

/-- A requester at an arbiter: its partition, the barges whose sources made the request (none where it belongs to no
barge), and whether its requests keep to the ordered rounds of R52. -/
structure Requester where
  part   : Option Nat
  who    : Option (List (Nat × Nat))
  rounds : Bool
  deriving DecidableEq, Repr

/-- A cluster as a requester. -/
def State.asCluster (s : State) (P : Nat) : Requester :=
  ⟨s.clPart P, some (s.cl P).barge.toList, s.orderedReach (reachOfPhys P)⟩

/-- A near-memory operation as a requester: the request of an engine keeps to the rounds of the reach whose cluster posted the
operation, one of a barge to those of its partition (R53). -/
def State.asNear (s : State) (o : NmOp) : Requester :=
  ⟨some o.part, some o.barges, match o.source with
    | .cluster P _ => s.orderedReach (reachOfPhys P)
    | .barge _ _ => s.orderedPart o.part⟩

/-- The solver sequencer of a reach as a requester: it never sets CHOICE_MADE in its own barge (R214). -/
def State.asSolver (s : State) (r : Nat) : Requester := ⟨s.reachPart r, some [], s.orderedReach r⟩

/-- The executor of a barge as a requester, outside the rounds (R51). -/
def Barge.asExec (b : Barge) : Requester := ⟨some b.part, some [(b.canal, b.seq)], false⟩

/-- A host port or a remote source as a requester at a location of a partition. -/
def asOutside (part : Nat) : Requester := ⟨some part, none, false⟩

/-- Another requester of a contest; none where it is not there. -/
def State.rival (s : State) (c : Rival) : Option Requester :=
  match c with
  | .cluster q => some (s.asCluster q.val)
  | .near n => (s.nmOps.find? fun o => o.num == n).map s.asNear
  | .solver r => if s.barges.any fun b => b.begun && b.native / 256 == 3 && bitOf (b.f 39 32) r.val then some (s.asSolver r.val)
    else none
  | .exec c q => (s.barge? c.val q).map Barge.asExec
  | .outside => some ⟨none, none, false⟩

/-- An access of a command: where, how many bytes, and whether it writes. -/
structure Touch where
  pa    : Nat
  len   : Nat
  write : Bool
  deriving DecidableEq, Repr

/-- Does an access touch a 128-byte line? -/
def Touch.meets (t : Touch) (line : Nat) : Bool := decide (t.len ≠ 0 ∧ t.pa / 128 ≤ line ∧ line ≤ (t.pa + t.len - 1) / 128)

/-- What one contested grant counts. It decides a point of R51 where an access of the command and one of a rival touch the
same line and one of them writes it. Between different partitions, which share no line, nothing is decided (R53), and
nothing is left to chance where every request keeps to the ordered rounds; else it is a choice of the partition that owns the
location (R51, R55, R56). A grant between two reaches of one partition of which only one has ORDER_STATE 1 is taken as
free. (DESIGN CHOICE, log entry 17.) -/
def State.grant (s : State) (me : Requester) (ts : List Touch) (g : Grant) : State :=
  match me.part with
  | none => s
  | some p =>
    let rs := (g.rivals.filterMap s.rival).filter fun r => r.part.all (· == p)
    let all := me :: rs
    if rs.isEmpty || !(ts.any fun t => t.meets g.line && (t.write || g.write)) || all.all (·.rounds) then s
    else s.choice p (if all.all (·.who.isSome) then some (all.flatMap fun r => r.who.getD []) else none)

/-- A command's accesses ask for their grants: what the contested ones count, and whether the command waits at a hot stack. -/
def State.contest (s : State) (me : Requester) (ts : List Touch) (x : Contest) : State :=
  x.grants.foldl (fun t g => t.grant me ts g) (s.stall (ts.map fun t => (t.pa, t.len)))

/-- The contested grants of accesses of cluster `P`. (DESIGN CHOICE, log entry 17.) -/
def State.contested (s : State) (P : Nat) (ts : List Touch) (x : Contest) : State := s.contest (s.asCluster P) ts x

/-! ### Clusters: registers of the programmer's model -/

/-- x[n]: integer register `n`; g0 reads as zero (R64). -/
def Cluster.x (c : Cluster) (n : Nat) : Word := if n = 0 then 0 else spGet (fun _ => 0) c.g n

/-- Writes integer register `n`; a write to g0 is discarded. -/
def Cluster.setX (c : Cluster) (n : Nat) (v : Word) : Cluster :=
  if n = 0 then c else { c with g := spSet (fun _ => 0) n v c.g }

/-- Byte `k` of the register file, v0 first. -/
def Cluster.vbyte (c : Cluster) (k : Nat) : Byte := spGet (fun _ => 0) c.v k

/-- The `n`-byte number at byte `k` of the register file. -/
def Cluster.vnum (c : Cluster) (k n : Nat) : Nat := numLE ((List.range n).map fun i => c.vbyte (k + i))

/-- Writes bytes of the register file, with no other effect. -/
def Cluster.putVB (c : Cluster) (k : Nat) : List Byte → Cluster
  | [] => c
  | b :: bs => { c with v := spSet (fun _ => 0) k b c.v }.putVB (k + 1) bs

/-- Writes bytes of the register file; a word that the write covers is no longer poisoned (R285). -/
def Cluster.putV (c : Cluster) (k : Nat) (bs : List Byte) : Cluster :=
  { c.putVB k bs with vpois := c.vpois.filter fun w => !decide (k ≤ 8 * w ∧ 8 * w + 8 ≤ k + bs.length) }

/-- Pieces of the register file have been written by one instruction: a word that they cover together is no longer poisoned
(R285). -/
def Cluster.covered (c : Cluster) (l : List (Nat × Nat)) : Cluster :=
  { c with vpois := c.vpois.filter fun w => !(List.range 8).all fun i =>
      l.any fun r => decide (r.1 ≤ 8 * w + i ∧ 8 * w + i < r.1 + r.2) }

/-- The first poisoned word of the register file among `n` bytes from byte `k`. -/
def Cluster.vpoisIn (c : Cluster) (k n : Nat) : Option Nat := c.vpois.find? fun w => decide (k < 8 * w + 8 ∧ 8 * w < k + n)

/-- Writes an `n`-byte number to the register file. -/
def Cluster.setV (c : Cluster) (k n v : Nat) : Cluster := c.putV k (bytesLE n v)

/-- FTZ and RM of CW_FPCTRL (Table 3-2). -/
def ftzOf (fpctrl : Nat) : Bool := bitOf fpctrl 0

def rmOf (fpctrl : Nat) : Nat := bitsOf fpctrl 3 2

/-- Sets the flags that an operation leaves: a flush sets FLUSH_SEEN and the hidden barge flag (R193), a saturation the
hidden clip flag (R190). -/
def Cluster.note (c : Cluster) (fx : Fx) : Cluster :=
  { c with
    fpctrl := if fx.flush then withBits c.fpctrl 8 8 1 else c.fpctrl
    flushed := c.flushed || fx.flush
    clipped := c.clipped || fx.clip }

/-- The MODE field of CLUSTER_STATE (Table 3-19). -/
def Cluster.mode (c : Cluster) : Nat :=
  match c.act with
  | .idle => 0
  | .running =>
    match c.wait with
    | .flag _ => 3
    | _ => if c.hmode then 2 else 1
  | .stopped => 4
  | .paused => 5
  | .armed => 6

/-- Does the cluster issue instructions now? -/
def Cluster.issues (c : Cluster) : Bool := c.act == .running && c.wait == .none

/-! ### Changing one cluster -/

/-- Lets `hc` pass on cluster `P`. (DEDUCED, log entry 12; DESIGN CHOICE, log entry 60.) -/
def State.tick (s : State) (P hc : Nat) : State := s.setCl P { s.cl P with hc := (s.cl P).hc + hc }

/-- Changes the record of cluster `P`. -/
def State.modCl (s : State) (P : Nat) (f : Cluster → Cluster) : State := s.setCl P (f (s.cl P))


/-! ### What the manual leaves undefined or voids (R663, R665, R668) -/

/-- A package in an undefined state (R668): every field is free but the queue of commands and what ends the state.
(DESIGN CHOICE, log entry 6.) -/
def State.voided (s : State) : State :=
  { Config.anyState s.freeCount with
    pending := s.pending
    freeCount := s.freeCount + 1
    mem := []
    fills := [⟨0, 2 ^ 48, s.freeCount + 1⟩]
    health := s.health }

/-- Device memory while a stack rail is out of its range: its contents are free after every command (R665).
(DESIGN CHOICE, log entry 6.) -/
def State.dramFree (s : State) : State :=
  { s with
    mem := s.mem.filter fun c => inBasin c.1
    fills := ⟨0, basinBase, s.freeCount + 1⟩ :: s.fills
    freeCount := s.freeCount + 1 }

/-- The outcome of a command that makes no access: its next state, as far as the rails of the package leave one defined.
(DESIGN CHOICE, log entry 6.) -/
def State.goOn (s : State) (t : State) : Res State :=
  if s.health.railOut then .next s.voided else if s.health.stackOut.isEmpty then .next t else .next t.dramFree

/-- The outcome of a command. One whose accesses wait, at a stack of 110 °C or at a basin that is being moved, leaves the state
as it is (R451, R582). (DESIGN CHOICE, log entries 6, 46 and 51.) -/
def State.go (s : State) (t : State) : Res State :=
  if !s.health.railOut && s.holds && t.heat.waits then .next { s with heat := { s.heat with waits := false } } else s.goOn t

/-- The outcome of a command that acts on the logic of C-die `d`: the results of a void die are not limited by any rule,
nor is what they reach (R663). (DESIGN CHOICE, log entries 6 and 7.) -/
def State.goDie (s : State) (d : Nat) (t : State) : Res State :=
  if s.health.voidDies.contains d then .next s.voided else s.go t

/-- The outcome of such a command that makes no access. (DESIGN CHOICE, log entries 6 and 7.) -/
def State.goDieOn (s : State) (d : Nat) (t : State) : Res State :=
  if s.health.voidDies.contains d then .next s.voided else s.goOn t

/-- The outcome of a command of stack `st`: nothing is promised of a stack whose rail is out of its range (R665).
(DESIGN CHOICE, log entry 6.) -/
def State.goStack (s : State) (st : Nat) (t : State) : Res State :=
  if s.health.stackOut.contains (st / 8) then .next s.voided else s.go t

/-! ### Fetching (R76) -/

/-- Is the word at an own-basin offset one that the cargo stored into without a fence.i since? -/
def Cluster.staleAt (c : Cluster) (off : Nat) : Bool :=
  c.stale.any fun e => decide (off ≤ e.1 ∧ e.1 < off + 4)

/-- The instruction word at own-basin offset `off` of cluster `P`: the word in the basin, or, after a store without
fence.i, either that word or the old one. (DEDUCED, log entry 10; DESIGN CHOICE, log entry 11.) -/
def State.fetchWord (s : State) (P off : Nat) : Nat :=
  let c := s.cl P
  let new := s.numAt (basinPA P + off) 4
  if c.staleAt off && !Config.fetchesNew s.freeCount then
    numLE ((List.range 4).map fun i => spGet (fun k => s.byteAt (basinPA P + k)) c.stale (off + i))
  else new

/-- Keeps the bytes that a store of the cluster into its own basin replaces (R76). (DESIGN CHOICE, log entry 11.) -/
def State.markStale (s : State) (P pa n : Nat) : State :=
  if inBasin pa && basinOwner pa == P then
    let c := s.cl P
    let off := pa - basinPA P
    s.setCl P { c with stale := (List.range n).foldl (fun l i =>
      if l.any (·.1 == off + i) then l else spPut (off + i) (s.byteAt (pa + i)) l) c.stale }
  else s

end Sys2Proof.Machine
end

