-- ==== Sys2Proof/Machine/Operands.lean ====
section
/-! DEFINITION. The fields of a cluster's 32-bit instruction word (R78, R118, R152) and the group that a word belongs
to: a word whose opcode, function or width code is unassigned, or that a table forbids, belongs to none. -/

namespace Sys2Proof.Machine

/-! ### Fields (Table 3-5, Table 4-4, Table 5-2) -/

/-- The major opcode. -/
def opOf (w : Nat) : Nat := bitsOf w 31 26

/-- rd, fd, rA: bits [25:21]; rs1, rB: bits [20:16]; rs2, rC: bits [15:11]. -/
def fA (w : Nat) : Nat := bitsOf w 25 21
def fB (w : Nat) : Nat := bitsOf w 20 16
def fC (w : Nat) : Nat := bitsOf w 15 11

/-- func of the RR format. -/
def fFunc (w : Nat) : Nat := bitsOf w 10 0

/-- imm16, off13 and off21, sign-extended. -/
def fImm16 (w : Nat) : Int := signedOf 16 (bitsOf w 15 0)
def fOff13 (w : Nat) : Int := signedOf 13 (bitsOf w 12 0)
def fOff21 (w : Nat) : Int := signedOf 21 (bitsOf w 20 0)

/-- w of the M format; cond of the B format. -/
def fW (w : Nat) : Nat := bitsOf w 15 13

/-- sub and mod of the X format. -/
def fSub (w : Nat) : Nat := bitsOf w 10 8
def fMod (w : Nat) : Nat := bitsOf w 7 0

/-- sub and cw of the CW format. -/
def fCwSub (w : Nat) : Nat := bitsOf w 15 14
def fCw (w : Nat) : Nat := bitsOf w 11 0

/-- vd, vs1, vs2 and func of the vector formats. -/
def vD (w : Nat) : Nat := bitsOf w 25 19
def vS1 (w : Nat) : Nat := bitsOf w 18 12
def vS2 (w : Nat) : Nat := bitsOf w 11 5
def vFunc (w : Nat) : Nat := bitsOf w 4 0

/-- rs2 of the VX format. -/
def vX2 (w : Nat) : Nat := bitsOf w 11 7

/-- rs1, the register field, rs2 and mode of the VM format. -/
def vmRs1 (w : Nat) : Nat := bitsOf w 18 14
def vmF (w : Nat) : Nat := bitsOf w 13 7
def vmRs2 (w : Nat) : Nat := bitsOf w 11 7
def vmMode (w : Nat) : Nat := bitsOf w 6 5

/-- dst and src of the CV format. -/
def cvDst (w : Nat) : Nat := bitsOf w 8 5
def cvSrc (w : Nat) : Nat := bitsOf w 3 0

/-- The tile of an MA or MO word. -/
def mT (w : Nat) : Nat := bitsOf w 10 9

/-- x + i modulo 2^64. -/
def addr64 (x : Word) (i : Int) : Nat := (x + BitVec.ofInt 64 i).toNat

/-! ### Groups -/

/-- What a word executes: one group for each command that executes an instruction. -/
inductive Group where
  | integerRegOp | immediateOp | integerLoad | integerStore | fpLoad | fpStore | branch | jal | jalr
  | fpArithmetic | fusedMultiplyAdd | conversionMove | atomic | stFlag | waitFlag | stFlagAdd | nmPost
  | ldR | stR | stRflag | fence | fenceR | fenceNm | fenceI | cwRd | cwWr | cwSet | cwClr
  | halt | brk | eret | setvl | setvli | setvlt | vectorLoad | vectorStore | vectorIntegerOp | vectorFpOp
  | vectorCompare | vectorSelectMove | vectorReduction | vectorScan | vectorConversion | vectorPermute
  | mma | mout | mzero | mtrans | mdrain
  deriving DecidableEq, Repr

/-- A group under a condition on the word. -/
def Group.when (g : Group) (b : Bool) : Option Group := if b then some g else none

/-- A vector register exists: v0 to v95. -/
def vOk (n : Nat) : Bool := decide (n < 96)

/-- The width in bytes of a conversion format code (Table 4-12). -/
def cvBytes (c : Nat) : Nat :=
  if c ≤ 1 then 1 else if c ≤ 3 then 2 else if c ≤ 5 then 4 else if c ≤ 7 then 8
  else if c ≤ 9 then 1 else if c ≤ 11 then 2 else if c = 12 then 4 else 8

/-- The number of registers of a conversion's destination group (R128). -/
def cvRegs (w : Nat) : Nat := max 1 (cvBytes (cvDst w) / cvBytes (cvSrc w))

/-- Vector words (R116 to R131). -/
def classifyVector (w : Nat) : Option Group :=
  let op := opOf w
  let f := vFunc w
  let d := vOk (vD w)
  let a := vOk (vS1 w)
  let b := vOk (vS2 w)
  let z65 := bitsOf w 6 5 == 0
  let vv := d && a && b
  let vx := d && a && z65
  let altOk := !(bitOf w 4 && bitsOf w 3 2 != 1)
  if op = 0x20 then
    match bitsOf w 1 0 with
    | 0 => Group.setvl.when (bitsOf w 15 5 == 0 && altOk)
    | 1 => Group.setvli.when (fB w == 0 && altOk)
    | 2 => Group.setvlt.when (bitsOf w 15 2 == 0)
    | _ => none
  else if op = 0x21 ∨ op = 0x22 then
    let g := if op = 0x21 then Group.vectorLoad else Group.vectorStore
    let fld := match vmMode w with
      | 0 => vmF w == 0
      | 1 => bitsOf w 13 12 == 0
      | 2 => vOk (vmF w)
      | _ => false
    g.when (d && fld && (f == 0 || (f == 1 && op == 0x21 && vmMode w == 0)))
  else if op = 0x23 then
    Group.vectorIntegerOp.when (vv && decide (f ≤ 0x13) && f != 0x02)
  else if op = 0x24 then
    Group.vectorIntegerOp.when (vx && decide (f ≤ 0x13))
  else if op = 0x25 then
    Group.vectorIntegerOp.when (d && a && [0x00, 0x02, 0x06, 0x07, 0x08, 0x09, 0x0A, 0x0B, 0x0C, 0x0D, 0x0E, 0x0F].contains f)
  else if op = 0x26 then
    Group.vectorFpOp.when (vv && (decide (f ≤ 0x0D) || f == 0x10) && ((f != 0x04 && f != 0x10) || vS2 w == 0))
  else if op = 0x27 then
    Group.vectorFpOp.when (vx && decide (f ≤ 0x0F) && f != 0x04)
  else if op = 0x28 then
    Group.vectorCompare.when (vv && (decide (f ≤ 0x05) || (decide (0x08 ≤ f) && decide (f ≤ 0x0B))))
  else if op = 0x29 then
    Group.vectorCompare.when (vx && decide (f ≤ 0x0D))
  else if op = 0x2A then
    Group.vectorSelectMove.when (vv && (f ≤ 1 || (f == 2 && vS2 w == 0) || (f == 3 && vS1 w == 0 && vS2 w == 0)))
  else if op = 0x2B then
    Group.vectorSelectMove.when (vx && ((f == 1) || (f == 3 && bitsOf w 25 24 == 0) ||
      ((f == 0 || f == 2 || f == 4) && vS1 w == 0)))
  else if op = 0x2C then
    Group.vectorReduction.when (vv && decide (f ≤ 0x0D) && (decide (f < 0x0C) || vS1 w == 0))
  else if op = 0x2D then
    Group.vectorScan.when (vv && (bitOf w 4 || vS1 w == 0))
  else if op = 0x2E then
    let src := cvSrc w
    let dst := cvDst w
    let overlap := decide (vD w ≤ vS1 w ∧ vS1 w < vD w + cvRegs w)
    Group.vectorConversion.when (d && a && bitsOf w 11 9 == 0 && !bitOf w 4 && decide (src < 0xE) &&
      decide (dst < 0xE) && src != dst && !overlap)
  else if op = 0x2F then
    if f ≤ 1 then Group.vectorPermute.when (vv && vD w != vS1 w && vD w != vS2 w)
    else Group.vectorPermute.when (vx && decide (f ≤ 5) && ((f != 2 && f != 4) || vD w != vS1 w))
  else none

/-- Matrix words (R152, R155). -/
def classifyMatrix (w : Nat) : Option Group :=
  if opOf w = 0x38 then Group.mma.when (decide (bitsOf w 8 5 ≤ 0xA) && !bitOf w 0)
  else if opOf w = 0x39 then Group.mout.when (bitsOf w 3 0 == 0)
  else if bitsOf w 25 11 != 0 then none
  else
    match fSub w with
    | 0 => Group.mzero.when (bitsOf w 7 2 == 0)
    | 1 => Group.mtrans.when (bitsOf w 7 2 == 0)
    | 2 => Group.mdrain.when (fMod w == 0)
    | _ => none

/-- Scalar words (R80 to R101). -/
def classifyScalar (w : Nat) : Option Group :=
  let f := bitsOf w 5 0
  match opOf w with
  | 0x01 =>
    Group.integerRegOp.when (bitsOf w 10 6 == 0 &&
      (decide (f ≤ 0x0D) || [0x10, 0x11, 0x12, 0x14, 0x15, 0x16, 0x17].contains f ||
        ([0x18, 0x19, 0x1A].contains f && fC w == 0)))
  | 0x02 => some .immediateOp
  | 0x03 => some .immediateOp
  | 0x04 => some .immediateOp
  | 0x05 => some .immediateOp
  | 0x06 => some .immediateOp
  | 0x07 => some .immediateOp
  | 0x08 => Group.immediateOp.when (bitsOf w 15 8 == 0)
  | 0x09 => Group.immediateOp.when (fB w == 0)
  | 0x0A => Group.immediateOp.when (bitsOf w 18 16 == 0)
  | 0x0B => Group.integerLoad.when (fW w != 7)
  | 0x0C => Group.integerStore.when (decide (fW w ≤ 3))
  | 0x0D =>
    match fW w with
    | 2 => some .fpLoad
    | 3 => some .fpLoad
    | 6 => some .fpStore
    | 7 => some .fpStore
    | _ => none
  | 0x0E => Group.branch.when (decide (fW w ≤ 5))
  | 0x0F => some .jal
  | 0x10 => some .jalr
  | 0x11 =>
    Group.fpArithmetic.when (bitsOf w 9 6 == 0 && decide (f ≤ 0x0D) && ((f != 0x04 && f != 0x0D) || fC w == 0))
  | 0x12 => Group.fusedMultiplyAdd.when (bitsOf w 2 0 == 0)
  | 0x13 => Group.conversionMove.when (bitsOf w 10 6 == 0 && fC w == 0 && decide (f ≤ 9))
  | 0x14 => Group.atomic.when (bitsOf w 10 3 == 0 && bitsOf w 2 0 != 7)
  | 0x15 =>
    match fSub w with
    | 0 => Group.stFlag.when (fMod w == 0 && fA w == 0)
    | 1 => some .waitFlag
    | 2 => Group.stFlagAdd.when (fMod w == 0)
    | _ => none
  | 0x16 => Group.nmPost.when (fSub w == 0 && fA w == 0 && fMod w == 0)
  | 0x17 =>
    match fSub w with
    | 0 => Group.ldR.when (fMod w == 0 && fC w == 0)
    | 1 => Group.stR.when (fMod w == 0 && fA w == 0)
    | 2 => Group.stRflag.when (fMod w == 0 && fA w == 0)
    | _ => none
  | 0x18 =>
    if bitsOf w 25 11 != 0 || fMod w != 0 then none
    else
      match fSub w with
      | 0 => some .fence
      | 1 => some .fenceR
      | 2 => some .fenceNm
      | 3 => some .fenceI
      | _ => none
  | 0x19 =>
    if bitsOf w 13 12 != 0 then none
    else
      match fCwSub w with
      | 0 => Group.cwRd.when (fB w == 0)
      | 1 => Group.cwWr.when (fA w == 0)
      | 2 => Group.cwSet.when (fA w == 0)
      | _ => Group.cwClr.when (fA w == 0)
  | 0x1A =>
    if bitsOf w 20 11 != 0 || fMod w != 0 then none
    else
      match fSub w with
      | 0 => some .halt
      | 1 => Group.brk.when (fA w == 0)
      | 2 => Group.eret.when (fA w == 0)
      | _ => none
  | _ => none

/-- The group of a word; none is an illegal word (R78, R120, R152). (DEDUCED, log entry 10.) -/
def classify (w : Nat) : Option Group :=
  let op := opOf w
  if 0x20 ≤ op ∧ op ≤ 0x37 then classifyVector w
  else if 0x38 ≤ op ∧ op ≤ 0x3A then classifyMatrix w
  else classifyScalar w

end Sys2Proof.Machine
end

