-- ==== Sys2Proof/Machine/Flags.lean ====
section
/-! DEFINITION. The conditions that the machine tests: the flag conditions of R92 (which barges and lock gates share),
the branch conditions of R85, and what an unfinished matrix instruction holds back (R142, R167, R169). -/

namespace Sys2Proof.Machine

/-- The condition `k` of R92 on a value `v` against a reference. -/
def condHolds (k : Nat) (v ref : Word) : Bool :=
  match k with
  | 0 => v == ref
  | 1 => v != ref
  | 2 => decide (ref.toNat ≤ v.toNat)
  | 3 => decide (v.toNat < ref.toNat)
  | 4 => decide (ref.toInt ≤ v.toInt)
  | 5 => decide (v.toInt < ref.toInt)
  | 6 => (v &&& ref) != 0
  | _ => (v &&& ref) == 0

/-- The branch condition `k` of Table 3-10. -/
def branchHolds (k : Nat) (a b : Word) : Bool :=
  match k with
  | 0 => a == b
  | 1 => a != b
  | 2 => decide (a.toInt < b.toInt)
  | 3 => decide (b.toInt ≤ a.toInt)
  | 4 => decide (a.toNat < b.toNat)
  | _ => decide (b.toNat ≤ a.toNat)

/-- 1 where a condition holds, 0 elsewhere. -/
def boolWord (b : Bool) : Word := if b then 1 else 0

/-! ### What unfinished matrix instructions hold back -/

/-- Do two ranges (first, number) share a member? -/
def rangesMeet (a b : Nat × Nat) : Bool := decide (a.1 < b.1 + b.2 ∧ b.1 < a.1 + a.2 ∧ 0 < a.2 ∧ 0 < b.2)

/-- A byte range widened to whole 128-byte lines. -/
def linesOf (r : Nat × Nat) : Nat × Nat :=
  (alignDown r.1 128, if r.2 = 0 then 0 else alignUp (r.1 + r.2) 128 - alignDown r.1 128)

/-- Does an unfinished matrix instruction write a register of the range? A reader of it waits. -/
def Cluster.regBusyR (c : Cluster) (r : Nat × Nat) : Bool := c.mat.any fun m => m.wrReg.any (rangesMeet r)

/-- Does an unfinished matrix instruction read or write a register of the range? A writer of it waits. -/
def Cluster.regBusyW (c : Cluster) (r : Nat × Nat) : Bool :=
  c.mat.any fun m => m.wrReg.any (rangesMeet r) || m.rdReg.any (rangesMeet r)

/-- Does an unfinished mout write a line of the own-basin range? A later load waits (R169). -/
def Cluster.memBusyR (c : Cluster) (r : Nat × Nat) : Bool :=
  c.mat.any fun m => m.wrMem.any fun q => rangesMeet (linesOf r) (linesOf q)

/-- Does an unfinished matrix instruction read or write a line of the own-basin range? A later store waits (R169). -/
def Cluster.memBusyW (c : Cluster) (r : Nat × Nat) : Bool :=
  c.memBusyR r || c.mat.any fun m => m.rdMem.any fun q => rangesMeet (linesOf r) (linesOf q)

/-- Is it an instruction of the output-unit queue (R164)? -/
def MatOp.out (m : MatOp) : Bool := m.kind != .mma

/-- Is a mout unfinished? A flagged store waits for its writes (R293). -/
def Cluster.moutOpen (c : Cluster) : Bool := c.mat.any fun m => m.kind == .mout

/-- The own-basin range that an access of cluster `P` touches, empty for any other memory. -/
def ownRange (P pa n : Nat) : Nat × Nat :=
  if inBasin pa && basinOwner pa == P then (pa - basinPA P, n) else (0, 0)

end Sys2Proof.Machine
end

