-- ==== Sys2Proof/Machine/OutPipe.lean ====
section
/-! DEFINITION. The accumulator output pipeline (R195 to R206): the output descriptor, the seven stages, the choice of
block exponents and the placing of the elements. -/

namespace Sys2Proof.Machine

/-! ### The output descriptor (Table 6-6, Table 6-7) -/

/-- An output format of Table 6-7. -/
inductive OutFmt where
  | fp (m : Fmt)
  | int8
  | int32
  | mx (el : MxElem) (emax : Int)
  deriving DecidableEq, Repr

/-- The format of an OFMT value; none for an unassigned one. -/
def outFmt? (n : Nat) : Option OutFmt :=
  match n with
  | 0x00 => some (.fp .binary64)
  | 0x01 => some (.fp .binary32)
  | 0x02 => some (.fp .binary16)
  | 0x03 => some (.fp .bf16)
  | 0x04 => some (.fp .e4m3)
  | 0x05 => some (.fp .e5m2)
  | 0x06 => some .int8
  | 0x07 => some .int32
  | 0x08 => some (.mx (.fp .e4m3) 8)
  | 0x09 => some (.mx (.fp .e5m2) 15)
  | 0x0A => some (.mx (.fp .e3m2) 4)
  | 0x0B => some (.mx (.fp .e2m3) 2)
  | 0x0C => some (.mx (.fp .e2m1) 2)
  | 0x0D => some (.mx .int8 0)
  | _ => none

/-- The width of an output element in bits: 8 × ob. -/
def OutFmt.bits : OutFmt → Nat
  | .fp m => m.width
  | .int8 => 8
  | .int32 => 32
  | .mx el _ => el.width

/-- Is it an MX format? -/
def OutFmt.isMx : OutFmt → Bool
  | .mx _ _ => true
  | _ => false

/-- A well-formed output descriptor. -/
structure OutDesc where
  ofmt   : OutFmt
  afmt   : Nat
  bs     : Nat           -- block size
  sel    : Bool
  e5sat  : Bool
  scale  : Option Nat    -- SCALE, binary64, where SCALE_EN is 1
  bias   : Option Nat    -- BIAS_OFF where BIAS_EN is 1
  byRow  : Bool          -- BIAS_ROW
  clip   : Option (Nat × Nat)
  deriving DecidableEq, Repr

/-- The columns of a tile under AFMT. -/
def afmtCols (afmt : Nat) : Nat := if afmt = 1 then 32 else 64

/-- Is the working format W binary64 (R195)? -/
def OutDesc.wide (d : OutDesc) : Bool := d.afmt == 1 || d.ofmt == .fp .binary64

/-- The working format. -/
def OutDesc.w (d : OutDesc) : Fmt := if d.wide then .binary64 else .binary32

/-- The bytes of the bias vector. -/
def OutDesc.biasLen (d : OutDesc) : Nat := (if d.byRow then 64 else afmtCols d.afmt) * (if d.wide then 8 else 4)

/-- Is a binary64 code neither a NaN nor an infinity? -/
def finite64 (c : Nat) : Bool :=
  match Fmt.binary64.decode c with
  | .fin _ _ _ => true
  | _ => false

/-- Reads a descriptor; none where it is malformed (R198). -/
def parseOut (b : List Byte) : Option OutDesc :=
  let ofmt := fieldB b 0 0
  let ctrl := fieldB b 1 1
  let afmt := fieldB b 2 2
  let scaleEn := bitOf ctrl 3
  let biasEn := bitOf ctrl 4
  let clipEn := bitOf ctrl 6
  let scale := fieldB b 15 8
  let lo := fieldB b 31 24
  let hi := fieldB b 39 32
  match outFmt? ofmt with
  | none => none
  | some f =>
    let d : OutDesc := ⟨f, afmt, if bitOf ctrl 0 then 16 else 32, bitOf ctrl 1, bitOf ctrl 2,
      if scaleEn then some scale else none, if biasEn then some (fieldB b 19 16) else none, bitOf ctrl 5,
      if clipEn then some (lo, hi) else none⟩
    let bad :=
      decide (2 < afmt) || !zeroB b 63 40 || !zeroB b 23 20 || !zeroB b 7 3 || bitOf ctrl 7 ||
      ((bitOf ctrl 0 || bitOf ctrl 1) && decide (ofmt < 8)) ||
      (bitOf ctrl 2 && ofmt != 5 && ofmt != 9) ||
      (ofmt == 7 && (afmt != 2 || scaleEn || biasEn || clipEn)) ||
      (scaleEn && !finite64 scale) ||
      (clipEn && (Fmt.binary64.isNan lo || Fmt.binary64.isNan hi ||
        (Fmt.binary64.decode hi).lt (Fmt.binary64.decode lo))) ||
      (biasEn && (fieldB b 19 16 % 64 != 0 || decide (basinSize < fieldB b 19 16 + d.biasLen)))
    if bad then none else some d

/-! ### Stages 1 to 5 -/

/-- What a pipeline run needs besides the tile: FTZ, RM and the draws of R187. -/
structure PipeCtx where
  ftz   : Bool
  rm    : Nat
  seed  : Nat
  src   : Nat
  ord   : Nat
  deriving DecidableEq, Repr

/-- The rounding mode with draw r1 of an index, and with draw r2. An index beyond 8,191 carries into `ord` (R319). -/
def PipeCtx.r1 (x : PipeCtx) (idx : Nat) : Rnd := Rnd.ofRM x.rm (drawR1 x.seed x.src (x.ord + idx / 8192) (idx % 8192))

def PipeCtx.r2 (x : PipeCtx) (idx : Nat) : Rnd := Rnd.ofRM x.rm (drawR2 x.seed x.src (x.ord + idx / 8192) (idx % 8192))

/-- The accumulator stage: an element's code in its tile format brought into W (R199). -/
def accStage (d : OutDesc) (ftz : Bool) (code : Nat) : FVal × Fx :=
  if d.afmt = 2 then
    let (c, fx) := (⟨32, true⟩ : IFmt).toFpC d.w .rne ftz code
    (d.w.decode c, fx)
  else (if d.afmt = 1 then Fmt.binary64 else Fmt.binary32).operand ftz code

/-- A binary64 constant of the descriptor converted to W (R200). -/
def constW (d : OutDesc) (ftz : Bool) (code : Nat) : FVal × Fx :=
  let (c, fx) := Fmt.convC .binary64 d.w false .rne ftz ftz code
  let (v, gx) := d.w.operand ftz c
  (v, fx.or gx)

/-- The scale and bias stages: one RNE rounding into W (R200); `bias` is the entry's code. -/
def scaleBias (d : OutDesc) (ftz : Bool) (bias : Nat) (v : FVal) : FVal × Fx :=
  let (sv, fs) := match d.scale with
    | some c => constW d ftz c
    | none => (FVal.fin false 1 0, {})
  let (bv, fb) := if d.bias.isSome then d.w.operand ftz bias else (FVal.fin false 0 0, {})
  let exact := match d.scale, d.bias with
    | some _, some _ => some ((v.mul sv).add bv)
    | some _, none => some (v.mul sv)
    | none, some _ => some (v.add bv)
    | none, none => none
  match exact with
  | none => (v, {})
  | some e =>
    let (c, fx) := d.w.round .rne false ftz e
    (d.w.decode c, (fs.or fb).or fx)

/-- The clip stage (R201). -/
def clipStage (d : OutDesc) (ftz : Bool) (v : FVal) : FVal × Fx :=
  match d.clip with
  | none => (v, {})
  | some (lo, hi) =>
    let (l, fl) := constW d ftz lo
    let (h, fh) := constW d ftz hi
    let m := if v.lt l then l else v
    (if h.lt m then h else m, fl.or fh)

/-- An element after the round stage: a code for a format below 0x08, a value for an MX format. -/
inductive Rounded where
  | code (c : Nat)
  | val (v : FVal)
  deriving DecidableEq, Repr

/-- The round stage (R202). -/
def roundStage (d : OutDesc) (ftz : Bool) (r : Rnd) (v : FVal) : Rounded × Fx :=
  match d.ofmt with
  | .fp m =>
    let (c, fx) := m.round r (m.saturates || (m == .e5m2 && d.e5sat)) ftz v
    (.code c, fx)
  | .int8 =>
    match v with
    | .nan => (.code 0, ⟨false, true⟩)
    | .inf n => (.code (if n then 0x80 else 0x7F), ⟨false, true⟩)
    | .fin n m e =>
      let k : Int := (roundGrid r.noStoch m e 0 : Nat)
      let (c, cl) := (⟨8, true⟩ : IFmt).sat (if n then -k else k)
      (.code c, ⟨false, cl⟩)
  | .int32 => (.code 0, {})
  | .mx (.fp m) _ => (.val (roundSig (m.manBits + 1) r v), {})
  | .mx .int8 _ => (.val v, {})

/-- Stages 1 to 5 of the element with code `code`, bias entry `bias` and index `idx`. -/
def pipeElem (d : OutDesc) (x : PipeCtx) (code bias idx : Nat) : Rounded × Fx :=
  if d.ofmt = .int32 then (.code code, {})
  else
    let (a, f1) := accStage d x.ftz code
    let (b, f2) := scaleBias d x.ftz bias a
    let (c, f3) := clipStage d x.ftz b
    let (e, f4) := roundStage d x.ftz (x.r1 idx) c
    (e, ((f1.or f2).or f3).or f4)

/-! ### Stages 6 and 7 (R203 to R205) -/

/-- The value of a round-stage element. -/
def Rounded.value : Rounded → FVal
  | .val v => v
  | .code _ => .fin false 0 0

/-- The block scale chosen for a block of (value, index) pairs: the exponent and whether it was clamped at 127; none for
scale 0xFF (R203). -/
def blockExp (el : MxElem) (emax : Int) (sel : Bool) (x : PipeCtx) (blk : List (FVal × Nat)) : Option (Int × Bool) :=
  if blk.any (fun v => match v.1 with | .fin _ _ _ => false | _ => true) then none
  else
    let amax := blk.foldl (fun (a : FVal) v => if a.magLt v.1 then v.1 else a) (.fin false 0 0)
    if amax.isZero then some (-127, false)
    else
      let x0 := amax.log2 - emax
      let high := sel && blk.any fun v =>
        !v.1.magLt amax && el.overflows (x.r2 v.2) (v.1.scaleDown x0)
      let X := if high then x0 + 1 else x0
      if 127 < X then some (127, true) else some (max (-127) X, false)

/-- Packs a block: its scale code, its element codes and the flags (R204, R205). -/
def packBlock (el : MxElem) (emax : Int) (sel : Bool) (x : PipeCtx) (blk : List (FVal × Nat)) : Nat × List Nat × Fx :=
  match blockExp el emax sel x blk with
  | none => (0xFF, blk.map fun _ => 0, {})
  | some (X, clamped) =>
    let r := blk.map fun v =>
      let e := v.1.scaleDown X
      let (c, sat) := el.pack (x.r2 v.2) e
      (c, sat && (sel || clamped || (el == MxElem.int8 && e.lt (.fin true 2 0))))
    ((X + 127).toNat, r.map (·.1), ⟨false, clamped || r.any (·.2)⟩)

/-! ### A whole tile -/

/-- Packs codes of `w` bits into bytes from bit 0 upward (R183). -/
def packCodes (w : Nat) (codes : List Nat) : List Byte :=
  bytesLE (ceilDiv (w * codes.length) 8) (codes.foldr (fun c n => n * 2 ^ w + c % 2 ^ w) 0)

/-- One copy of an output: the data bytes in strip order, the bytes of its scale panel by offset, and the flags. -/
structure OutCopy where
  data   : List Byte
  scales : List (Nat × Byte)
  fx     : Fx
  deriving DecidableEq, Repr

/-- The block size under which `n` elements are cut; a format below 0x08 has one block of all. -/
def OutDesc.blocks (d : OutDesc) (n : Nat) : Nat := n / d.bs

/-- Forms one copy. `e r c` is the round-stage element, `byCol` says that MX blocks run down the columns, `strips` that
strip c holds column c, and `shift` is added to the indices of the draws r2. -/
def formCopy (d : OutDesc) (x : PipeCtx) (cols : Nat) (e : Nat → Nat → Rounded) (byCol strips : Bool) (shift : Nat) :
    OutCopy :=
  let order : List (Nat × Nat) :=
    if strips then (List.range cols).flatMap fun c => (List.range 64).map fun r => (r, c)
    else (List.range 64).flatMap fun r => (List.range cols).map fun c => (r, c)
  match d.ofmt with
  | .mx el emax =>
    let lines := if byCol then cols else 64
    let per := d.blocks (if byCol then 64 else cols)
    let packed := (List.range lines).map fun l => (List.range per).map fun b =>
      packBlock el emax d.sel x ((List.range d.bs).map fun i =>
        let j := b * d.bs + i
        let (r, c) := if byCol then (j, l) else (l, j)
        ((e r c).value, r * 64 + c + shift))
    let codeOf := fun (r c : Nat) =>
      let (l, j) := if byCol then (c, r) else (r, c)
      let blk := (packed.getD l []).getD (j / d.bs) (0, [], {})
      blk.2.1.getD (j % d.bs) 0
    let scales := (List.range per).flatMap fun b => (List.range lines).map fun l =>
      (b * 64 + l, BitVec.ofNat 8 (((packed.getD l []).getD b (0, [], {})).1))
    ⟨packCodes el.width (order.map fun rc => codeOf rc.1 rc.2), scales,
      packed.foldl (fun f l => l.foldl (fun g b => g.or b.2.2) f) {}⟩
  | f =>
    ⟨packCodes f.bits (order.map fun rc => match e rc.1 rc.2 with
      | .code c => c
      | .val _ => 0), [], {}⟩

end Sys2Proof.Machine
end

