-- ==== Sys2Proof/Machine/NearDesc.lean ====
section
/-! DEFINITION. Near-memory descriptors (R310 to R313): Table 10-3, the operations of Table 10-4 with the ranges that
they name, the parameter block of R326, and the engines that lead and run an operation (R306, R307, R588). -/

namespace Sys2Proof.Machine

/-! ### Operation numbers (Table 10-4) -/

def Nm.axpby : Nat := 0x10
def Nm.mul : Nat := 0x11
def Nm.reduce : Nat := 0x18
def Nm.scan : Nat := 0x19
def Nm.narrow : Nat := 0x20
def Nm.widen : Nat := 0x21
def Nm.dual : Nat := 0x22
def Nm.gather : Nat := 0x30
def Nm.scatter : Nat := 0x31
def Nm.scatterAdd : Nat := 0x32
def Nm.dirtyArm : Nat := 0x40
def Nm.dirtyCollect : Nat := 0x41
def Nm.dirtyDisarm : Nat := 0x42
def Nm.hash : Nat := 0x48

/-- A descriptor's fields. -/
structure NmDesc where
  op  : Nat
  ftz : Bool
  rm  : Nat
  sel : Bool
  bs  : Nat      -- block size
  e5  : Bool
  sub : Nat
  fi  : Nat
  fo  : Nat
  nf  : Nat
  n   : Nat      -- COUNT
  a0  : Nat
  a1  : Nat
  a2  : Nat
  a3  : Nat
  a4  : Nat
  deriving DecidableEq, Repr

/-- Reads the fields of a descriptor. -/
def nmFields (b : List Byte) : NmDesc :=
  let fl := fieldB b 2 2
  ⟨fieldB b 1 0, bitOf fl 0, bitsOf fl 2 1, bitOf fl 3, if bitOf fl 4 then 16 else 32, bitOf fl 5, fieldB b 3 3,
    fieldB b 4 4, fieldB b 5 5, fieldB b 7 6, fieldB b 15 8, fieldB b 23 16, fieldB b 31 24, fieldB b 39 32,
    fieldB b 47 40, fieldB b 55 48⟩

/-- Is a format code an MX format, or one that a panel may hold? -/
def nmMx (f : Nat) : Bool := decide (8 ≤ f ∧ f ≤ 0xD)

def nmPanel (f : Nat) : Bool := decide (2 ≤ f ∧ f ≤ 5) || nmMx f

/-- The bytes of an element of a format that is not packed. -/
def nmBytes (f : Nat) : Nat :=
  match f with
  | 0x00 => 8
  | 0x01 => 4
  | 0x10 => 8
  | _ => 2

/-- The width in bits of a panel element. -/
def nmBits (f : Nat) : Nat := ((outFmt? f).map OutFmt.bits).getD 8

/-- Is the operation NARROW or WIDEN? -/
def NmDesc.bridge (d : NmDesc) : Bool := d.op == Nm.narrow || d.op == Nm.widen

/-- The format of the panel side of the field bridge and of DUAL_ORDER's copies. -/
def NmDesc.pf (d : NmDesc) : Nat := if d.op = Nm.widen then d.fi else d.fo

/-- Is the panel an MX one? -/
def NmDesc.mx (d : NmDesc) : Bool := (d.bridge || d.op == Nm.dual) && nmMx d.pf

/-- IN and OUT of DUAL_ORDER. -/
def NmDesc.ins (d : NmDesc) : Nat := d.n % 2 ^ 32

def NmDesc.outs (d : NmDesc) : Nat := d.n / 2 ^ 32

/-- KP (R325). -/
def NmDesc.kp (d : NmDesc) : Nat :=
  if d.mx then alignUp d.nf d.bs else if nmBits d.pf = 8 then alignUp d.nf 2 else d.nf

/-! ### Malformed descriptors (R312) -/

/-- Do the formats suit the operation (Table 10-4)? -/
def NmDesc.fmtOk (d : NmDesc) : Bool :=
  let (i, o) := (d.fi, d.fo)
  match d.op with
  | 0x10 => (i == 0 || i == 1) && o == i
  | 0x11 => (i == 0 || i == 1) && o == i
  | 0x18 => (i == 0 || i == 1 || i == 0x10) && o == (if i = 0x10 then 0x10 else 0)
  | 0x19 => (i == 0 || i == 0x10) && o == i
  | 0x30 => (i == 0 || i == 1 || i == 0x10) && o == 0
  | 0x31 => (i == 0 || i == 1 || i == 0x10) && o == 0
  | 0x32 => (i == 0 || i == 0x10) && o == 0
  | 0x20 => (i == 0 || i == 1) && nmPanel o
  | 0x21 => (i == 1 || nmPanel i) && (o == 0 || o == 1)
  | 0x22 => (i == 1 || i == 3) && nmPanel o
  | 0x40 => i == 0 && o == 0
  | 0x41 => i == 0 && o == 0
  | 0x42 => i == 0 && o == 0
  | 0x48 => i == 0 && o == 0
  | _ => false

/-- Is SUBOP one that the operation has? -/
def NmDesc.subOk (d : NmDesc) : Bool :=
  match d.op with
  | 0x18 => decide (d.sub < 4) && !(d.sub == 3 && d.fi == 0x10)
  | 0x19 => decide (d.sub < 4)
  | 0x30 => decide (d.sub < 2)
  | 0x31 => decide (d.sub < 2)
  | 0x32 => decide (d.sub < 2)
  | 0x21 => decide (d.sub < 2)
  | _ => d.sub == 0

/-- Are COUNT and NF in their limits (Table 10-4, R329)? -/
def NmDesc.countOk (d : NmDesc) : Bool :=
  (if d.bridge then decide (1 ≤ d.nf ∧ d.nf ≤ 4096) else d.nf == 0) &&
  (if d.op = Nm.dual then
    [d.ins, d.outs].all fun x => x % 64 == 0 && decide (64 ≤ x ∧ x ≤ 2 ^ 20)
  else
    decide (1 ≤ d.n) && decide (d.n ≤ (if d.bridge then 2 ^ 34 else if 0x40 ≤ d.op then 2 ^ 26 else 2 ^ 40)))

/-- What an address field must be: zero, an address, or either (R311). -/
inductive NmNeed where
  | zero
  | addr
  | maybe
  | value    -- not an address
  deriving DecidableEq, Repr

/-- What A1 to A4 must be. -/
def NmDesc.needs (d : NmDesc) : List (Nat × NmNeed) :=
  let mx := if d.mx then NmNeed.addr else .zero
  let (k1, k2, k3, k4) : NmNeed × NmNeed × NmNeed × NmNeed := match d.op with
    | 0x10 => (.maybe, .addr, .value, if d.a1 = 0 then .zero else .value)
    | 0x11 => (.addr, .addr, .zero, .zero)
    | 0x18 => (.zero, .addr, .zero, .zero)
    | 0x19 => (if bitOf d.sub 1 then .addr else .zero, .addr, .zero, .zero)
    | 0x30 => (.addr, .addr, .value, .zero)
    | 0x31 => (.addr, .addr, .value, .zero)
    | 0x32 => (.addr, .addr, .value, .zero)
    | 0x20 => (.value, .addr, mx, .maybe)
    | 0x21 => (.value, .addr, mx, .maybe)
    | 0x22 => (.addr, .addr, mx, mx)
    | 0x41 => (.zero, .addr, .zero, .zero)
    | 0x48 => (.maybe, .addr, .zero, .zero)
    | _ => (.zero, .zero, .zero, .zero)
  [(d.a1, k1), (d.a2, k2), (d.a3, k3), (d.a4, k4)]

/-- Is an address field well formed: at or above 0x1_0000_0000, and aligned? -/
def nmAddrOk (align a : Nat) : Bool := decide (2 ^ 32 ≤ a) && a % align == 0

/-- Are the address fields as the operation needs them? (DEDUCED, log entry 27.) -/
def NmDesc.addrsOk (d : NmDesc) : Bool :=
  nmAddrOk (if 0x40 ≤ d.op then 65536 else 128) d.a0 &&
  (d.needs.all fun x =>
    let al := if d.op = Nm.reduce then 8 else 128
    match x.2 with
    | .zero => x.1 == 0
    | .addr => nmAddrOk al x.1
    | .maybe => x.1 == 0 || nmAddrOk al x.1
    | .value => true) &&
  (!d.bridge || (d.a1 % 128 == 0 && decide (d.n * nmBytes (if d.op = Nm.widen then d.fo else d.fi) ≤ d.a1)))

/-- Are FTZ and RM zero where the operation reads no FP value arithmetically, and RM where it rounds to nearest (R310, R322 to
R324)? -/
def NmDesc.flagsOk (d : NmDesc) : Bool :=
  (d.rm == 0 || [Nm.axpby, Nm.mul, Nm.narrow, Nm.widen, Nm.dual].contains d.op) &&
    (!d.ftz || (decide (d.op < 0x40) && d.op != Nm.gather && d.op != Nm.scatter))

/-- A well-formed descriptor, leaving its parameter block aside; none for a malformed one (R312).
(DEDUCED, log entry 27.) -/
def nmParse (b : List Byte) : Option NmDesc :=
  let d := nmFields b
  let fl := fieldB b 2 2
  let bs16 := bitOf fl 4
  if d.fmtOk && d.subOk && d.countOk && d.addrsOk && d.flagsOk && decide (fl < 64) && d.rm != 3 && (d.mx || (!d.sel && !bs16)) &&
      !(d.sel && d.op == Nm.widen) && !(d.e5 && d.fo != 5 && d.fo != 9) then some d
  else none

/-! ### Ranges (R311, R313, R325, R329, R332) -/

/-- A range that a descriptor names: its first address, its length, whether it is written, and whether its bytes are
operands, as the granules of dirty tracking are not. -/
structure NmRange where
  la    : Nat
  len   : Nat
  write : Bool
  data  : Bool := true
  deriving DecidableEq, Repr

/-- The bytes of a panel strip. -/
def NmDesc.strip (d : NmDesc) : Nat := 8 * nmBits d.pf

/-- The cell tiles of the field bridge. -/
def NmDesc.tiles (d : NmDesc) : Nat := ceilDiv d.n 64

/-- The bytes of a bitmap over the granules (R332). -/
def NmDesc.bitmapLen (d : NmDesc) : Nat := ceilDiv d.n 1024 * 128

/-- The bytes of one index. -/
def NmDesc.idxBytes (d : NmDesc) : Nat := if bitOf d.sub 0 then 8 else 4

/-- The ranges of a descriptor, in the order of its address fields. -/
def NmDesc.ranges (d : NmDesc) : List NmRange :=
  let es := nmBytes d.fi
  let tables := [⟨d.a3, d.tiles * (d.kp / d.bs) * 64, d.op == Nm.narrow, true⟩, ⟨d.a4, 32 + 16 * d.nf, false, true⟩]
  let l : List NmRange := match d.op with
    | 0x10 => [⟨d.a0, d.n * es, false, true⟩, ⟨d.a1, d.n * es, false, true⟩, ⟨d.a2, d.n * es, true, true⟩]
    | 0x11 => [⟨d.a0, d.n * es, false, true⟩, ⟨d.a1, d.n * es, false, true⟩, ⟨d.a2, d.n * es, true, true⟩]
    | 0x18 => [⟨d.a0, d.n * es, false, true⟩, ⟨d.a2, 8, true, true⟩]
    | 0x19 => [⟨d.a0, d.n * 8, false, true⟩, ⟨d.a1, d.n, false, true⟩, ⟨d.a2, d.n * 8, true, true⟩]
    | 0x30 => [⟨d.a0, d.a3 * es, false, true⟩, ⟨d.a1, d.n * d.idxBytes, false, true⟩, ⟨d.a2, d.n * es, true, true⟩]
    | 0x31 => [⟨d.a0, d.n * es, false, true⟩, ⟨d.a1, d.n * d.idxBytes, false, true⟩, ⟨d.a2, d.a3 * es, true, true⟩]
    | 0x32 => [⟨d.a0, d.n * es, false, true⟩, ⟨d.a1, d.n * d.idxBytes, false, true⟩, ⟨d.a2, d.a3 * es, true, true⟩]
    | 0x20 => ((List.range d.nf).map fun f => ⟨d.a0 + f * d.a1, d.n * es, false, true⟩) ++
        ⟨d.a2, d.tiles * d.kp * d.strip, true, true⟩ :: tables
    | 0x21 => ⟨d.a0, d.tiles * d.kp * d.strip, false, true⟩ ::
        (((List.range d.nf).map fun f => ⟨d.a2 + f * d.a1, d.n * nmBytes d.fo, true, true⟩) ++ tables)
    | 0x22 =>
      let copy := d.ins * d.outs * nmBits d.fo / 8
      [⟨d.a0, d.ins * d.outs * es, false, true⟩, ⟨d.a1, copy, true, true⟩, ⟨d.a2, copy, true, true⟩,
        ⟨d.a3, d.outs / 64 * (d.ins / d.bs) * 64, true, true⟩, ⟨d.a4, d.ins / 64 * (d.outs / d.bs) * 64, true, true⟩]
    | 0x41 => [⟨d.a0, d.n * 65536, false, false⟩, ⟨d.a2, d.bitmapLen, true, true⟩]
    | 0x48 => [⟨d.a0, d.n * 65536, false, true⟩, ⟨d.a1, d.bitmapLen, false, true⟩, ⟨d.a2, d.n * 32, true, true⟩]
    | _ => [⟨d.a0, d.n * 65536, false, false⟩]
  l.filter fun r => r.la != 0 && r.len != 0

/-- The first failing address of a descriptor's ranges (R313). (DEDUCED, log entry 27.) -/
def State.nmFault (s : State) (part : Nat) (d : NmDesc) : Option (Nat × Bool) :=
  d.ranges.findSome? fun r => (s.rangeFault s.maps part r.write r.la r.len).map fun a => (a, r.write)

/-! ### The parameter block (R326) -/

/-- A parameter block: the affine entries and the clip bounds that are enabled. -/
structure NmParams where
  affine : Bool := false
  clip   : Option (Nat × Nat) := none
  raw    : List Byte := []
  deriving DecidableEq, Repr

/-- s_f and b_f of a feature. -/
def NmParams.entry (p : NmParams) (f : Nat) : Nat × Nat :=
  (fieldB p.raw (39 + 16 * f) (32 + 16 * f), fieldB p.raw (47 + 16 * f) (40 + 16 * f))

/-- Reads a parameter block of `nf` entries; none where it makes the descriptor malformed. (DEDUCED, log entry 27.) -/
def nmParams (nf : Nat) (raw : List Byte) : Option NmParams :=
  let fl := fieldB raw 16 16
  let (lo, hi) := (fieldB raw 7 0, fieldB raw 15 8)
  let p : NmParams := ⟨bitOf fl 0, if bitOf fl 1 then some (lo, hi) else none, raw⟩
  let bad := decide (4 ≤ fl) || !zeroB raw 31 17 ||
    ((List.range nf).any fun f => !finite64 (p.entry f).1 || !finite64 (p.entry f).2) ||
    (p.clip.isSome && (Fmt.binary64.isNan lo || Fmt.binary64.isNan hi ||
      (Fmt.binary64.decode hi).lt (Fmt.binary64.decode lo)))
  if bad then none else some p

/-- The parameter block of a descriptor as it stands in memory; an absent one enables nothing. -/
def State.nmBlock (s : State) (maps : List MapRec) (part : Nat) (d : NmDesc) : Option NmParams :=
  if d.bridge && d.a4 != 0 then nmParams d.nf (s.localBytes maps part d.a4 (32 + 16 * d.nf)) else some {}

/-- A well-formed descriptor, its parameter block included where that can be translated. (DEDUCED, log entry 27.) -/
def State.nmWell (s : State) (part : Nat) (b : List Byte) : Option NmDesc :=
  (nmParse b).bind fun d =>
    if d.bridge && d.a4 != 0 && (s.rangeFault s.maps part false d.a4 (32 + 16 * d.nf)).isNone &&
        (s.nmBlock s.maps part d).isNone then none
    else some d

/-! ### Engines (R306, R307, R588) -/

/-- Is an engine enabled? -/
def State.nmEnabled (s : State) (e : Nat) : Bool :=
  s.fld (Reg.stackMap (e / 8)) F.STACK_MAP_STATE != 2 && !bitOf (s.fld (Reg.stackMap (e / 8)) F.STACK_MAP_NME_DISABLED) (e % 8)

/-- The engines that run the units of a stack: its own, or those of the other stacks of its C-die.
(DEDUCED, log entry 28.) -/
def State.nmEngines (s : State) (st : Nat) : List Nat :=
  let own := ((List.range 8).map (st * 8 + ·)).filter s.nmEnabled
  if own.isEmpty then ((List.range 64).map (st / 8 * 64 + ·)).filter s.nmEnabled else own

/-- The first address of the primary range (Table 10-4). -/
def NmDesc.primary (d : NmDesc) : Nat :=
  if d.op = Nm.gather ∨ d.op = Nm.scatter ∨ d.op = Nm.scatterAdd then d.a1 else if d.op = Nm.widen then d.a2 else d.a0

/-- The lead engine of an operation, `k` being the number of its source mod 8. (DEDUCED, log entry 28.) -/
def State.nmLead (s : State) (part : Nat) (d : NmDesc) (k : Nat) : Nat :=
  let st := s.stackOf (s.paOf s.maps part d.primary)
  match ((List.range 8).map fun j => st * 8 + (k + j) % 8).find? s.nmEnabled with
  | some e => e
  | none => (s.nmEngines st).headD (st * 8 + k % 8)

/-- The descriptor that a near-memory barge carries (Table 10-6). -/
def Barge.nmDesc (b : Barge) : List Byte := sliceB b.bytes 32 56 ++ List.replicate 8 0

/-- The lead engine of a near-memory barge's operation; none where its descriptor fails a check. -/
def State.nmBargeLead (s : State) (b : Barge) : Option Nat :=
  (s.nmWell b.part b.nmDesc).bind fun d =>
    if (s.nmFault b.part d).isSome then none else some (s.nmLead b.part d (b.seq % 8))

/-- The operations that occupy the post queue of an engine, besides one barge's own: those accepted, and those of
started barges whose operation has not been formed. -/
def State.nmQueued (s : State) (e : Nat) (but : Option Barge) : Nat :=
  (s.nmOps.filter fun o => o.lead == e).length +
    (s.barges.filter fun b => b.begun && b.phase == .started && b.native / 256 == 4 && but != some b &&
      s.nmBargeLead b == some e).length

end Sys2Proof.Machine
end

