-- ==== Sys2Proof/Machine/Sha.lean ====
section
/-! DEFINITION. SHA-256 and SHA-384 over byte strings, with the HMAC and HKDF built on SHA-384. The manual names these
digests and does not spell them out; they are the public standard's (FIPS 180-4, RFC 2104, RFC 5869). Digest bytes
stand in the order in which the standard prints them (R707). -/

namespace Sys2Proof.Machine

/-- The round constants of SHA-256. -/
def sha256K : List (BitVec 32) :=
  [0x428A2F98, 0x71374491, 0xB5C0FBCF, 0xE9B5DBA5, 0x3956C25B, 0x59F111F1, 0x923F82A4, 0xAB1C5ED5, 0xD807AA98, 0x12835B01, 0x243185BE, 0x550C7DC3, 0x72BE5D74, 0x80DEB1FE, 0x9BDC06A7, 0xC19BF174] ++
  [0xE49B69C1, 0xEFBE4786, 0xFC19DC6, 0x240CA1CC, 0x2DE92C6F, 0x4A7484AA, 0x5CB0A9DC, 0x76F988DA, 0x983E5152, 0xA831C66D, 0xB00327C8, 0xBF597FC7, 0xC6E00BF3, 0xD5A79147, 0x6CA6351, 0x14292967] ++
  [0x27B70A85, 0x2E1B2138, 0x4D2C6DFC, 0x53380D13, 0x650A7354, 0x766A0ABB, 0x81C2C92E, 0x92722C85, 0xA2BFE8A1, 0xA81A664B, 0xC24B8B70, 0xC76C51A3, 0xD192E819, 0xD6990624, 0xF40E3585, 0x106AA070] ++
  [0x19A4C116, 0x1E376C08, 0x2748774C, 0x34B0BCB5, 0x391C0CB3, 0x4ED8AA4A, 0x5B9CCA4F, 0x682E6FF3, 0x748F82EE, 0x78A5636F, 0x84C87814, 0x8CC70208, 0x90BEFFFA, 0xA4506CEB, 0xBEF9A3F7, 0xC67178F2]

/-- The round constants of SHA-384. -/
def sha512K : List (BitVec 64) :=
  [0x428A2F98D728AE22, 0x7137449123EF65CD, 0xB5C0FBCFEC4D3B2F, 0xE9B5DBA58189DBBC, 0x3956C25BF348B538, 0x59F111F1B605D019, 0x923F82A4AF194F9B, 0xAB1C5ED5DA6D8118, 0xD807AA98A3030242, 0x12835B0145706FBE, 0x243185BE4EE4B28C, 0x550C7DC3D5FFB4E2, 0x72BE5D74F27B896F, 0x80DEB1FE3B1696B1, 0x9BDC06A725C71235, 0xC19BF174CF692694] ++
  [0xE49B69C19EF14AD2, 0xEFBE4786384F25E3, 0xFC19DC68B8CD5B5, 0x240CA1CC77AC9C65, 0x2DE92C6F592B0275, 0x4A7484AA6EA6E483, 0x5CB0A9DCBD41FBD4, 0x76F988DA831153B5, 0x983E5152EE66DFAB, 0xA831C66D2DB43210, 0xB00327C898FB213F, 0xBF597FC7BEEF0EE4, 0xC6E00BF33DA88FC2, 0xD5A79147930AA725, 0x6CA6351E003826F, 0x142929670A0E6E70] ++
  [0x27B70A8546D22FFC, 0x2E1B21385C26C926, 0x4D2C6DFC5AC42AED, 0x53380D139D95B3DF, 0x650A73548BAF63DE, 0x766A0ABB3C77B2A8, 0x81C2C92E47EDAEE6, 0x92722C851482353B, 0xA2BFE8A14CF10364, 0xA81A664BBC423001, 0xC24B8B70D0F89791, 0xC76C51A30654BE30, 0xD192E819D6EF5218, 0xD69906245565A910, 0xF40E35855771202A, 0x106AA07032BBD1B8] ++
  [0x19A4C116B8D2D0C8, 0x1E376C085141AB53, 0x2748774CDF8EEB99, 0x34B0BCB5E19B48A8, 0x391C0CB3C5C95A63, 0x4ED8AA4AE3418ACB, 0x5B9CCA4F7763E373, 0x682E6FF3D6B2B8A3, 0x748F82EE5DEFB2FC, 0x78A5636F43172F60, 0x84C87814A1F0AB72, 0x8CC702081A6439EC, 0x90BEFFFA23631E28, 0xA4506CEBDE82BDE9, 0xBEF9A3F7B2C67915, 0xC67178F2E372532B] ++
  [0xCA273ECEEA26619C, 0xD186B8C721C0C207, 0xEADA7DD6CDE0EB1E, 0xF57D4F7FEE6ED178, 0x6F067AA72176FBA, 0xA637DC5A2C898A6, 0x113F9804BEF90DAE, 0x1B710B35131C471B, 0x28DB77F523047D84, 0x32CAAB7B40C72493, 0x3C9EBE0A15C9BEBC, 0x431D67C49C100D4C, 0x4CC5D4BECB3E42B6, 0x597F299CFC657E2A, 0x5FCB6FAB3AD6FAEC, 0x6C44198C4A475817]

/-- The first hash value of SHA-256. -/
def sha256H : List (BitVec 32) :=
  [0x6A09E667, 0xBB67AE85, 0x3C6EF372, 0xA54FF53A, 0x510E527F, 0x9B05688C, 0x1F83D9AB, 0x5BE0CD19]

/-- The first hash value of SHA-384. -/
def sha384H : List (BitVec 64) :=
  [0xCBBB9D5DC1059ED8, 0x629A292A367CD507, 0x9159015A3070DD17, 0x152FECD8F70E5939, 0x67332667FFC00B31, 0x8EB44A8768581511, 0xDB0C2E0D64F98FA7, 0x47B5481DBEFA4FA4]

/-- The working variables of a round. -/
structure ShaVars (w : Nat) where
  a : BitVec w
  b : BitVec w
  c : BitVec w
  d : BitVec w
  e : BitVec w
  f : BitVec w
  g : BitVec w
  h : BitVec w
  deriving DecidableEq, Repr

/-- The rotation amounts of one digest: the two large sums, then the two small ones, whose last is a shift. -/
structure ShaRot where
  s1 : Nat × Nat × Nat
  s0 : Nat × Nat × Nat
  m0 : Nat × Nat × Nat
  m1 : Nat × Nat × Nat

/-- The rotations of SHA-256. -/
def sha256Rot : ShaRot := ⟨(6, 11, 25), (2, 13, 22), (7, 18, 3), (17, 19, 10)⟩

/-- The rotations of SHA-384. -/
def sha512Rot : ShaRot := ⟨(14, 18, 41), (28, 34, 39), (1, 8, 7), (19, 61, 6)⟩

/-- A large sum: three rotations. -/
def shaBig {w : Nat} (r : Nat × Nat × Nat) (x : BitVec w) : BitVec w :=
  x.rotateRight r.1 ^^^ x.rotateRight r.2.1 ^^^ x.rotateRight r.2.2

/-- A small sum: two rotations and a shift. -/
def shaSmall {w : Nat} (r : Nat × Nat × Nat) (x : BitVec w) : BitVec w :=
  x.rotateRight r.1 ^^^ x.rotateRight r.2.1 ^^^ (x >>> r.2.2)

/-- The word that the schedule appends to sixteen words of it. -/
def shaNext {w : Nat} (r : ShaRot) (l : List (BitVec w)) : BitVec w :=
  shaSmall r.m1 (l.getD 14 0) + l.getD 9 0 + shaSmall r.m0 (l.getD 1 0) + l.getD 0 0

/-- One round. -/
def shaRound {w : Nat} (r : ShaRot) (v : ShaVars w) (k m : BitVec w) : ShaVars w :=
  let t1 := v.h + shaBig r.s1 v.e + ((v.e &&& v.f) ^^^ (~~~v.e &&& v.g)) + k + m
  let t2 := shaBig r.s0 v.a + ((v.a &&& v.b) ^^^ (v.a &&& v.c) ^^^ (v.b &&& v.c))
  ⟨t1 + t2, v.a, v.b, v.c, v.d + t1, v.e, v.f, v.g⟩

/-- The rounds of one block: the schedule's window of sixteen words moves along. -/
def shaRounds {w : Nat} (r : ShaRot) : List (BitVec w) → List (BitVec w) → ShaVars w → ShaVars w
  | [], _, v => v
  | k :: ks, l, v => shaRounds r ks (l.drop 1 ++ [shaNext r l]) (shaRound r v k (l.getD 0 0))

/-- Compresses one block into the hash value. -/
def shaBlock {w : Nat} (r : ShaRot) (ks h block : List (BitVec w)) : List (BitVec w) :=
  let g := fun i => h.getD i 0
  let v := shaRounds r ks block ⟨g 0, g 1, g 2, g 3, g 4, g 5, g 6, g 7⟩
  [g 0 + v.a, g 1 + v.b, g 2 + v.c, g 3 + v.d, g 4 + v.e, g 5 + v.f, g 6 + v.g, g 7 + v.h]

/-- The padded message: a 1 bit, zeros, and the length in bits, to a multiple of `blk` bytes. -/
def shaPad (blk lenBytes : Nat) (m : List Byte) : List Byte :=
  let z := (2 * blk - (m.length + 1 + lenBytes) % blk) % blk
  m ++ [0x80] ++ List.replicate z 0 ++ bytesBE lenBytes (8 * m.length)

/-- The big-endian words of `n` bytes each at the front of a byte string. -/
def shaWords (w n : Nat) (bs : List Byte) (count : Nat) : List (BitVec w) :=
  (List.range count).map fun i => BitVec.ofNat w (numBE ((bs.drop (n * i)).take n))

/-- Digests `count` blocks of a padded message. -/
def shaBlocks {w : Nat} (r : ShaRot) (ks : List (BitVec w)) (n : Nat) :
    Nat → List Byte → List (BitVec w) → List (BitVec w)
  | 0, _, h => h
  | k + 1, bs, h => shaBlocks r ks n k (bs.drop (16 * n)) (shaBlock r ks h (shaWords w n bs 16))

/-- SHA-256. (PRESUMED, log entry 56.) -/
def sha256 (m : List Byte) : List Byte :=
  let p := shaPad 64 8 m
  (shaBlocks sha256Rot sha256K 4 (p.length / 64) p sha256H).flatMap fun x => bytesBE 4 x.toNat

/-- SHA-384. (PRESUMED, log entry 56.) -/
def sha384 (m : List Byte) : List Byte :=
  let p := shaPad 128 16 m
  ((shaBlocks sha512Rot sha512K 8 (p.length / 128) p sha384H).flatMap fun x => bytesBE 8 x.toNat).take 48

/-- The low 64 bits of a digest: its last eight bytes, big-endian (R707). -/
def low64 (d : List Byte) : Nat := numBE (d.drop (d.length - 8))

/-- The low 64 bits of SHA-256 over a byte string. -/
def digest64 (m : List Byte) : Nat := low64 (sha256 m)

/-- HMAC with SHA-384. (PRESUMED, log entry 56.) -/
def hmac384 (key m : List Byte) : List Byte :=
  let k0 := if key.length > 128 then sha384 key else key
  let k := k0 ++ List.replicate (128 - k0.length) 0
  sha384 (k.map (· ^^^ 0x5C) ++ sha384 (k.map (· ^^^ 0x36) ++ m))

/-- The expansion of HKDF, block by block. -/
def hkdfBlocks (prk info : List Byte) : Nat → Nat → List Byte → List Byte
  | 0, _, _ => []
  | n + 1, i, prev =>
    let t := hmac384 prk (prev ++ info ++ [BitVec.ofNat 8 i])
    t ++ hkdfBlocks prk info n (i + 1) t

/-- HKDF with SHA-384: `len` bytes from a salt, a key and an info string. (PRESUMED, log entry 56.) -/
def hkdf384 (salt key info : List Byte) (len : Nat) : List Byte :=
  (hkdfBlocks (hmac384 (if salt.isEmpty then List.replicate 48 0 else salt) key) info (ceilDiv len 48) 1 []).take len

/-- CRC-32C over a byte string (Table 14-1), one bit at a time, reflected. -/
def crc32cBits : Nat → BitVec 32 → BitVec 32
  | 0, c => c
  | n + 1, c => crc32cBits n (if c.getLsbD 0 then (c >>> 1) ^^^ 0x82F63B78 else c >>> 1)

/-- CRC-32C. (PRESUMED, log entry 56.) -/
def crc32c (bs : List Byte) : Nat :=
  (~~~(bs.foldl (fun c b => crc32cBits 8 (c ^^^ b.zeroExtend 32)) (0xFFFFFFFF : BitVec 32))).toNat

end Sys2Proof.Machine
end

