-- ==== Sys2Proof/Machine/MatrixArith.lean ====
section
/-! DEFINITION. What the matrix instructions compute (R146 to R158, R164 to R169): formats, panels, the checks of R159,
the accumulation of an mma, the drain of a mout, and the completion of an issued instruction. -/

namespace Sys2Proof.Machine

/-! ### Formats (Table 5-1) -/

/-- An operand element of the array. -/
inductive MatEl where
  | fp (m : Fmt)
  | int8
  | mx (el : MxElem)
  deriving DecidableEq, Repr

/-- The element width in bits. -/
def MatEl.bits : MatEl → Nat
  | .fp m => m.width
  | .int8 => 8
  | .mx el => el.width

/-- A row of Table 5-1: element types, accumulator, columns, k-steps in one rounding, and the k-step rate as hc per
`den` steps. -/
structure MatFmt where
  a    : MatEl
  b    : MatEl
  acc  : Option Fmt      -- none: int32
  cols : Nat
  g    : Nat
  num  : Nat
  den  : Nat
  mult : Nat             -- K is a multiple of it
  deriving DecidableEq, Repr

/-- FP8 by type bit. -/
def fp8 (e5 : Bool) : Fmt := if e5 then .e5m2 else .e4m3

/-- The format of a fmt code with the control operand's type bits and block size. -/
def matFmt (fmt : Nat) (at5 bt5 : Bool) (bs : Nat) : MatFmt :=
  let mx := fun (el : MxElem) (g : Nat) => (⟨.mx el, .mx el, some .binary32, 64, g, 1, g, bs⟩ : MatFmt)
  match fmt with
  | 0x0 => ⟨.fp .binary64, .fp .binary64, some .binary64, 32, 1, 8, 1, 1⟩
  | 0x1 => ⟨.fp .binary32, .fp .binary32, some .binary32, 64, 1, 4, 1, 1⟩
  | 0x2 => ⟨.fp .bf16, .fp .bf16, some .binary32, 64, 1, 1, 1, 1⟩
  | 0x3 => ⟨.fp .binary16, .fp .binary16, some .binary32, 64, 1, 1, 1, 1⟩
  | 0x4 => ⟨.fp (fp8 at5), .fp (fp8 bt5), some .binary32, 64, 2, 1, 2, 2⟩
  | 0x5 => ⟨.int8, .int8, none, 64, 2, 1, 2, 2⟩
  | 0x6 => ⟨.mx (.fp (fp8 at5)), .mx (.fp (fp8 bt5)), some .binary32, 64, 2, 1, 2, bs⟩
  | 0x7 => mx (.fp .e3m2) 2
  | 0x8 => mx (.fp .e2m3) 2
  | 0x9 => mx (.fp .e2m1) 4
  | _ => mx .int8 2

/-- Is a fmt code an MX format? -/
def fmtMx (fmt : Nat) : Bool := decide (6 ≤ fmt)

/-- The strip bytes of an operand with `n` elements in a k-step. -/
def stripBytes (el : MatEl) (n : Nat) : Nat := el.bits * n / 8

/-! ### The mma word and its control operand (R152, R153) -/

/-- fmt, ACC, DEFER, AREG and BREG of an MA word. -/
def maFmt (w : Nat) : Nat := bitsOf w 8 5
def maAcc (w : Nat) : Bool := bitOf w 4
def maDefer (w : Nat) : Bool := bitOf w 3
def maAreg (w : Nat) : Bool := bitOf w 2
def maBreg (w : Nat) : Bool := bitOf w 1

/-- K, the scale panel offsets and the block size of a control operand. -/
def ctlK (x : Nat) : Nat := bitsOf x 15 0
def ctlSa (x : Nat) : Nat := bitsOf x 31 16 * 64
def ctlSb (x : Nat) : Nat := bitsOf x 47 32 * 64
def ctlBs (x : Nat) : Nat := if bitOf x 50 then 16 else 32

/-- The format of an mma from its word and control operand. -/
def mmaFmt (w x : Nat) : MatFmt := matFmt (maFmt w) (bitOf x 48) (bitOf x 49) (ctlBs x)

/-- Does the control operand keep R147 and R153? -/
def ctlOk (w x : Nat) : Bool :=
  let k := ctlK x
  let f := mmaFmt w x
  decide (1 ≤ k ∧ k ≤ 8192) && k % f.mult == 0 && bitsOf x 63 51 == 0 &&
    (fmtMx (maFmt w) || (bitsOf x 47 16 == 0 && !bitOf x 50)) &&
    (maFmt w == 4 || maFmt w == 6 || bitsOf x 49 48 == 0)

/-- The registers of tile `t` (R113). -/
def tileRegs (t : Nat) : Nat × Nat := (32 + 16 * t, 16)

/-- A register group for `n` bytes that begins at the register in bits [6:0] of `x`. -/
def regGroup (x n : Nat) : Nat × Nat := (bitsOf x 6 0, ceilDiv n 1024)

/-- Does a register group extend past v95 or overlap a tile? -/
def groupBad (g : Nat × Nat) (t : Nat) : Bool := decide (96 < g.1 + g.2) || rangesMeet g (tileRegs t)

/-- Does a range leave the basin, or its base fail the alignment? -/
def rangeBad (align : Nat) (r : Nat × Nat) : Bool := decide (r.1 % align ≠ 0 ∨ basinSize < r.1 + r.2)

/-- The operands of an mma: the four panels, each with the range or the register group that holds it. -/
structure MmaOps where
  f      : MatFmt
  k      : Nat
  aReg   : Option (Nat × Nat)
  bReg   : Option (Nat × Nat)
  a      : Nat × Nat
  b      : Nat × Nat
  sa     : Nat × Nat
  sb     : Nat × Nat
  deriving DecidableEq, Repr

/-- The operands that a word and its three register values name. -/
def mmaOps (w xa xb xc : Nat) : MmaOps :=
  let f := mmaFmt w xc
  let k := ctlK xc
  let na := k * stripBytes f.a 64
  let nb := k * stripBytes f.b f.cols
  let ns := if fmtMx (maFmt w) then k / ctlBs xc * 64 else 0
  ⟨f, k, if maAreg w then some (regGroup xa na) else none, if maBreg w then some (regGroup xb nb) else none,
    (xa, if maAreg w then 0 else na), (xb, if maBreg w then 0 else nb), (ctlSa xc, ns), (ctlSb xc, ns)⟩

/-- The check of an mma (R159): the cause and CW_TVAL of its trap. -/
def mmaCheck (w xa xb xc : Nat) : Option (Nat × Nat) :=
  let o := mmaOps w xa xb xc
  let t := mT w
  if !ctlOk w xc || o.aReg.any (groupBad · t) || o.bReg.any (groupBad · t) then some (Cause.matConfig, w)
  else if !maAreg w && rangeBad 128 o.a then some (Cause.matRange, o.a.1)
  else if fmtMx (maFmt w) && rangeBad 1 o.sa then some (Cause.matRange, o.sa.1)
  else if !maBreg w && rangeBad 128 o.b then some (Cause.matRange, o.b.1)
  else if fmtMx (maFmt w) && rangeBad 1 o.sb then some (Cause.matRange, o.sb.1)
  else none

/-! ### The mout word (R154) -/

/-- LAYOUT, DUAL, OREG, CLEAR and DEFER of an MO word. -/
def moLayout (w : Nat) : Bool := bitOf w 8
def moDual (w : Nat) : Bool := bitOf w 7
def moOreg (w : Nat) : Bool := bitOf w 6
def moClear (w : Nat) : Bool := bitOf w 5
def moDefer (w : Nat) : Bool := bitOf w 4

/-- The ranges that a mout writes: primary output, primary scales, second copy, second scales. -/
structure MoutOps where
  cols : Nat
  len  : Nat
  p    : Nat × Nat
  ps   : Nat × Nat
  d    : Nat × Nat
  ds   : Nat × Nat
  deriving DecidableEq, Repr

/-- The output ranges under a well-formed descriptor. -/
def moutOps (w xa xc : Nat) (d : OutDesc) : MoutOps :=
  let cols := afmtCols d.afmt
  let len := d.ofmt.bits * 64 * cols / 8
  let mx := d.ofmt.isMx
  let dual := moDual w
  ⟨cols, len, (xa, if moOreg w then 0 else len),
    (bitsOf xc 15 0 * 64, if mx then cols / d.bs * 64 else 0),
    (bitsOf xc 37 16, if dual then len else 0),
    (bitsOf xc 53 38 * 64, if mx && dual then 64 / d.bs * 64 else 0)⟩

/-- The check of a mout after its descriptor has been read (R159, items 2 to 5). -/
def moutCheck (w xa xb xc : Nat) (desc : Option OutDesc) : Option (Nat × Nat) :=
  let t := mT w
  if moOreg w && moDual w then some (Cause.matConfig, w)
  else if rangeBad 64 (xb, 64) then some (Cause.matRange, xb)
  else
    match desc with
    | none => some (Cause.matDescriptor, xb)
    | some d =>
      let o := moutOps w xa xc d
      let mx := d.ofmt.isMx
      if !moOreg w && rangeBad 128 o.p then some (Cause.matRange, o.p.1)
      else if mx && rangeBad 1 o.ps then some (Cause.matRange, o.ps.1)
      else if moDual w && rangeBad 128 o.d then some (Cause.matRange, o.d.1)
      else if mx && moDual w && rangeBad 1 o.ds then some (Cause.matRange, o.ds.1)
      else if (moOreg w && (mx || groupBad (regGroup xa o.len) t)) || ((mx || moDual w) && bitsOf xc 63 54 != 0) then
        some (Cause.matConfig, w)
      else none

/-! ### Reading and writing tiles -/

/-- The byte of tile `t`'s element (r, c) in the 32-bit or the 64-bit view (R113). -/
def tileByte (t : Nat) (wide : Bool) (r c : Nat) : Nat :=
  1024 * (32 + 16 * t) + r * 256 + (if wide then 8 else 4) * c

/-- The code of a tile element. -/
def Cluster.tileEl (c : Cluster) (t : Nat) (wide : Bool) (r j : Nat) : Nat :=
  c.vnum (tileByte t wide r j) (if wide then 8 else 4)

/-- Sets every byte of a tile to zero. -/
def Cluster.zeroTile (c : Cluster) (t : Nat) : Cluster :=
  let lo := tileByte t false 0 0
  { c with
    v := spClear (fun k => decide (lo ≤ k ∧ k < lo + 16384)) c.v
    vpois := c.vpois.filter fun w => !decide (lo ≤ 8 * w ∧ 8 * w < lo + 16384) }

/-- Writes the elements of one row from column `j` on. -/
def Cluster.putRow (c : Cluster) (t : Nat) (wide : Bool) (r j : Nat) : List Nat → Cluster
  | [] => c
  | x :: xs => (c.setV (tileByte t wide r j) (if wide then 8 else 4) x).putRow t wide r (j + 1) xs

/-- Writes a tile row by row. -/
def Cluster.putTile (c : Cluster) (t : Nat) (wide : Bool) (rows : List (List Nat)) : Cluster :=
  ((rows.zipIdx).foldl (fun d r => d.putRow t wide r.2 0 r.1) c).covered
    (rows.zipIdx.map fun r => (tileByte t wide r.2 0, r.1.length * if wide then 8 else 4))

/-- The flags of a list of results together. -/
def fxAll (l : List (Nat × Fx)) : Fx := l.foldl (fun f r => f.or r.2) {}

/-! ### The accumulation (R156, R157) -/

/-- The code of element `j` of k-step `k` in a panel of which strip `k` is `strip k`. -/
def stripEl (bits : Nat) (strip : Nat) (j : Nat) : Nat := strip / 2 ^ (bits * j) % 2 ^ bits

/-- The value of an operand element, flushed where R192 applies, without its block scale. -/
def matVal (el : MatEl) (ftz : Bool) (code : Nat) : FVal × Fx :=
  match el with
  | .fp m => m.operand ftz code
  | .int8 => (FVal.ofInt (signedOf 8 code), {})
  | .mx e => (e.value 127 code, {})

/-- What an accumulation reads: strips of both panels and the scale of a row or column in a block. -/
structure MmaIn where
  aStrip : List Nat           -- by k-step
  bStrip : List Nat
  sa     : List (List Nat)    -- by block, then by row or column
  sb     : List (List Nat)
  deriving DecidableEq, Repr

/-- The exact sum of one group of k-steps, `k0` to `k0 + g` − 1, for element (r, j). -/
def groupSum (f : MatFmt) (i : MmaIn) (ftz : Bool) (r j k0 : Nat) : FVal × Fx :=
  (List.range f.g).foldl (fun (acc : FVal × Fx) d =>
    let (a, fa) := matVal f.a ftz (stripEl f.a.bits (i.aStrip.getD (k0 + d) 0) r)
    let (b, fb) := matVal f.b ftz (stripEl f.b.bits (i.bStrip.getD (k0 + d) 0) j)
    (if d = 0 then a.mul b else acc.1.add (a.mul b), (acc.2.or fa).or fb)) (.fin false 0 0, {})

/-- The group sum with its block scales; a scale of 0xFF gives a NaN. -/
def scaledSum (f : MatFmt) (i : MmaIn) (bs : Nat) (mx ftz : Bool) (r j k0 : Nat) : FVal × Fx :=
  let (v, fx) := groupSum f i ftz r j k0
  if mx then
    let sa := (i.sa.getD (k0 / bs) []).getD r 0
    let sb := (i.sb.getD (k0 / bs) []).getD j 0
    if sa = 0xFF ∨ sb = 0xFF then (.nan, fx) else (v.scaleDown (254 - (sa : Int) - (sb : Int)), fx)
  else (v, fx)

/-- One element's accumulation over all groups: the new code and the flags. (DEDUCED, log entry 12.) -/
def accumulate (f : MatFmt) (i : MmaIn) (bs : Nat) (mx ftz : Bool) (r : Rnd) (k row col acc0 : Nat) : Nat × Fx :=
  (List.range (k / f.g)).foldl (fun (a : Nat × Fx) n =>
    let (s, fx) := scaledSum f i bs mx ftz row col (n * f.g)
    match f.acc with
    | some m =>
      let (v, hx) := m.operand ftz a.1
      let (c, gx) := m.round r false ftz (v.add s)
      (c, ((a.2.or hx).or fx).or gx)
    | none =>
      let v : Int := match s with
        | .fin neg m e => signedAt neg m e 0
        | _ => 0
      (wrapInt 32 (signedOf 32 a.1 + v), a.2)) (acc0, {})
where
  /-- The integer (−1)^neg × m × 2^e of an exact integer sum. -/
  signedAt (neg : Bool) (m : Nat) (e _ : Int) : Int :=
    let n : Int := (m * 2 ^ e.toNat : Nat)
    if neg then -n else n

/-- A panel strip as a number, from the basin of cluster `P` or from a register group. -/
def State.strip (s : State) (P : Nat) (reg : Option (Nat × Nat)) (base n k : Nat) : Nat :=
  match reg with
  | some g => (s.cl P).vnum (1024 * g.1 + k * n) n
  | none => s.numAt (basinPA P + base + k * n) n

/-- The effect of an mma on its tile (R151, R156). (DEDUCED, log entry 14.) -/
def State.mmaEffect (s : State) (P : Nat) (m : MatOp) : State :=
  let o := mmaOps m.word m.xa m.xb m.xc
  let t := mT m.word
  let ftz := ftzOf m.fpctrl
  let r : Rnd := if rmOf m.fpctrl = 1 then .rtz else .rne
  let wide := o.f.acc == some .binary64
  let ks := List.range o.k
  let blocks := List.range (o.sa.2 / 64)
  let i : MmaIn := ⟨ks.map (s.strip P o.aReg o.a.1 (stripBytes o.f.a 64)),
    ks.map (s.strip P o.bReg o.b.1 (stripBytes o.f.b o.f.cols)),
    blocks.map fun b => (s.bytesAt (basinPA P + o.sa.1 + b * 64) 64).map BitVec.toNat,
    blocks.map fun b => (s.bytesAt (basinPA P + o.sb.1 + b * 64) 64).map BitVec.toNat⟩
  let c := s.cl P
  let rows := (List.range 64).map fun row => (List.range o.f.cols).map fun col =>
    accumulate o.f i (ctlBs m.xc) (fmtMx (maFmt m.word)) ftz r o.k row col
      (if maAcc m.word then c.tileEl t wide row col else 0)
  s.setCl P ((c.putTile t wide (rows.map (·.map (·.1)))).note (rows.foldl (fun f l => f.or (fxAll l)) {}))

/-! ### The drain (R154, R195) -/

/-- Writes bytes into the basin of cluster `P` as the cluster's own stores. -/
def State.ownStore (s : State) (P off : Nat) (bs : List Byte) : State :=
  (List.range (bs.length / 128 + 2)).foldl (fun t i =>
    let a := max off (alignDown off 128 + 128 * i)
    let b := min (off + bs.length) (alignDown off 128 + 128 * (i + 1))
    if a < b then
      (t.markStale P (basinPA P + a) (b - a)).store (basinPA P + a) ((bs.drop (a - off)).take (b - a))
    else t) s

/-- Writes a scale panel; a basin word that its bytes cover together is no longer poisoned (R285). -/
def State.ownPanel (s : State) (P base : Nat) (l : List (Nat × Byte)) : State :=
  let t := l.foldl (fun t b => t.ownStore P (base + b.1) [b.2]) s
  { t with poison := t.poison.filter fun u => !((basinPA P ≤ u && decide (u < basinPA P + basinSize)) &&
      (List.range 8).all fun i => l.any fun b => basinPA P + base + b.1 == u + i) }

/-- The effect of a mout: its outputs in ascending strip order, each scale panel after its data. (DEDUCED, log entry 14.) -/
def State.moutEffect (s : State) (P : Nat) (m : MatOp) : State :=
  match parseOut m.desc with
  | none => s
  | some d =>
    let c := s.cl P
    let t := mT m.word
    let o := moutOps m.word m.xa m.xc d
    let x : PipeCtx := ⟨ftzOf m.fpctrl, rmOf m.fpctrl, c.seed, (s.logOfPhys P).getD 0, m.ord⟩
    let eb := if d.wide then 8 else 4
    let bias := fun r j => match d.bias with
      | some off => s.numAt (basinPA P + off + (if d.byRow then r else j) * eb) eb
      | none => 0
    let rows := (List.range 64).map fun r => (List.range o.cols).map fun j =>
      pipeElem d x (c.tileEl t (d.afmt == 1) r j) (bias r j) (r * 64 + j)
    let e := fun r j => ((rows.getD r []).getD j (.code 0, {})).1
    let fx := rows.foldl (fun f l => l.foldl (fun g y => g.or y.2) f) ({} : Fx)
    let p := formCopy d x o.cols e false (moLayout m.word) 0
    let s := if moOreg m.word then s.setCl P (c.putV (1024 * (regGroup m.xa o.len).1) p.data)
      else s.ownStore P o.p.1 p.data
    let s := s.ownPanel P o.ps.1 p.scales
    let q := formCopy d x o.cols e true (!moLayout m.word) 4096
    let s := if moDual m.word then
        (s.ownStore P o.d.1 q.data).ownPanel P o.ds.1 q.scales
      else s
    let c := (s.cl P).note ((fx.or p.fx).or (if moDual m.word then q.fx else {}))
    s.setCl P (if moClear m.word then c.zeroTile t else c)

/-! ### The queues (R164 to R168) -/

/-- The tile that an instruction names. -/
def MatOp.tile (m : MatOp) : Nat :=
  match m.kind with
  | .mma => mT m.word
  | .mout => mT m.word
  | _ => bitsOf m.word 1 0

/-- DEFER of an issued instruction; a tile operation has none. -/
def MatOp.deferred (m : MatOp) : Bool :=
  match m.kind with
  | .mma => maDefer m.word
  | .mout => moDefer m.word
  | _ => false

/-- Does `a` have to wait for the earlier, unfinished `b`? -/
def MatOp.waitsFor (a b : MatOp) : Bool :=
  let meet := fun (x y : List (Nat × Nat)) => x.any fun r => y.any (rangesMeet r)
  let lines := fun (x : List (Nat × Nat)) => x.map linesOf
  decide (b.num < a.num) &&
    (meet a.wrReg b.rdReg || meet a.wrReg b.wrReg || meet a.rdReg b.wrReg ||
      meet (lines a.wrMem) (lines b.rdMem) || meet (lines a.wrMem) (lines b.wrMem) ||
      meet (lines a.rdMem) (lines b.wrMem))

/-- Can an unfinished instruction proceed: does it wait for no earlier one? (DEDUCED, log entry 14.) -/
def Cluster.matReady (c : Cluster) (m : MatOp) : Bool := !c.mat.any m.waitsFor

/-- The mma instructions of the main or of the deferred queue, the one in its plane among them. -/
def Cluster.mmas (c : Cluster) (deferred : Bool) : List MatOp := c.mat.filter fun m => !m.out && m.deferred == deferred

/-- The mma that holds a plane: the oldest of its queue, once it can proceed. -/
def Cluster.inPlane (c : Cluster) (deferred : Bool) : Option MatOp := ((c.mmas deferred).head?).filter c.matReady

/-- The mma instructions that wait in a queue besides the one in its plane. -/
def Cluster.mmaQueued (c : Cluster) (deferred : Bool) : Nat :=
  (c.mmas deferred).length - (if (c.inPlane deferred).isSome then 1 else 0)

/-- The oldest instruction of the output-unit queue with a DEFER value, once it can proceed: instructions of one value start
in program order (R165, R166). (DEDUCED, log entry 14.) -/
def Cluster.outReady (c : Cluster) (deferred : Bool) : Option MatOp :=
  (c.mat.find? fun m => m.out && m.deferred == deferred).filter c.matReady

/-- The instruction that the array or the output unit serves for a DEFER value: one with DEFER 1 only where none with DEFER 0
can proceed (R166). (DEDUCED, log entry 14.) -/
def Cluster.matHead (c : Cluster) (out deferred : Bool) : Option MatOp :=
  let of := if out then c.outReady else c.inPlane
  if deferred && (of false).isSome then none else of deferred

/-- The instruction that occupies the output unit. -/
def Cluster.outActive (c : Cluster) : Option MatOp := (c.outReady false).or (c.outReady true)

/-- The instructions that wait in the output-unit queue. -/
def Cluster.outQueued (c : Cluster) : Nat := (c.mat.filter (·.out)).length - (if c.outActive.isSome then 1 else 0)

/-! ### What the mirrors show (R109, R177, Table 5-8) -/

/-- MAT_STATE (Table 5-8). -/
def Cluster.matState (c : Cluster) : Nat :=
  let plane := fun (m : Option MatOp) => match m with
    | some x => 4 + x.tile
    | none => 0
  plane (c.inPlane false) * 2 ^ 13 + plane (c.inPlane true) * 2 ^ 10 + c.mmaQueued false * 2 ^ 8 + c.mmaQueued true * 2 ^ 6 +
    plane c.outActive * 2 ^ 3 + c.outQueued

/-- What the mirrors that can change inside an instruction would show: CW_HC, CW_FPCTRL and the registers of Table 5-7. -/
def Cluster.mirrors (c : Cluster) : List Nat :=
  [c.hc, c.fpctrl, c.matState, c.matRetired, c.matMHc, c.matDHc, c.matSwitch, c.fetchStall, c.matOutHc, c.matLoadHc]

/-- An instruction boundary: the mirrors take their values. -/
def Cluster.mark (c : Cluster) : Cluster := { c with seen := c.mirrors }

/-! ### Completing an issued instruction (R164 to R169) -/

/-- The k-steps' hc of an mma (Table 5-5). -/
def MatOp.stepHc (m : MatOp) : Nat :=
  let f := mmaFmt m.word m.xc
  ceilDiv (ctlK m.xc * f.num) f.den

/-- The output unit's hc of an instruction (Table 5-5). -/
def MatOp.outHc (m : MatOp) : Nat :=
  match m.kind with
  | .mma => 0
  | .mout => if moDual m.word then 128 else 64
  | .mzero => 16
  | .mtrans => 64

/-- Where an instruction meets poison (R162): the offset of the first poisoned line that it reads, or the number of the first
poisoned register. (DESIGN CHOICE, log entry 66, for the registers that an mma or mtrans reads.) -/
def State.matPoisoned (s : State) (P : Nat) (m : MatOp) : Option Nat :=
  let lines := m.rdMem.flatMap fun r => (List.range ((linesOf r).2 / 128)).map fun i => (linesOf r).1 + 128 * i
  (lines.find? fun off => (List.range 16).any fun i => s.poisonedAt (basinPA P + off + 8 * i)).or
    ((m.rdReg.findSome? fun r => (s.cl P).vpoisIn (1024 * r.1) (1024 * r.2)).map (· / 128))

/-- mtrans: elements (r, c) and (c, r) of the 32-bit view exchange (R155). -/
def Cluster.transTile (c : Cluster) (t : Nat) : Cluster :=
  c.putTile t false ((List.range 64).map fun r => (List.range 64).map fun j => c.tileEl t false j r)

/-- The counters of Table 5-7 once an instruction has completed. A change of plane counts where the last k-step came from
the other plane. -/
def Cluster.matCount (c : Cluster) (m : MatOp) : Cluster :=
  let mma := !m.out
  let d := m.deferred
  { c with
    matRetired := c.matRetired + 1
    matMHc := c.matMHc + (if mma && !d then m.stepHc else 0)
    matDHc := c.matDHc + (if mma && d then m.stepHc else 0)
    matLoadHc := c.matLoadHc + (if mma && maAcc m.word && !m.chain then 16 else 0)
    matOutHc := c.matOutHc + m.outHc
    matSwitch := c.matSwitch + (if mma && c.plane == some (!d) then 1 else 0)
    plane := if mma then some d else c.plane }

/-- Performs an issued instruction and takes it out of its queue. -/
def State.matFinish (s : State) (P : Nat) (m : MatOp) : State :=
  let t := match m.kind with
    | .mma => s.mmaEffect P m
    | .mout => s.moutEffect P m
    | .mzero => s.modCl P fun c => c.zeroTile m.tile
    | .mtrans => s.modCl P fun c => c.transTile m.tile
  t.modCl P fun c => { c.matCount m with mat := c.mat.filter (·.num != m.num) }

/-- The record of a cluster that stops under R106. -/
def Cluster.stopAs (c : Cluster) (cause tval epc : Nat) : Cluster :=
  { c with
    act := .stopped, wait := .none, mat := [], faulted := true
    stopCause := cause, stopTval := tval, stopEpc := epc }.mark

/-- Completes every issued matrix instruction in program order, as a stop at an instruction boundary lets them (R163). Poison
that one of them meets stops the cluster by R162. (DEDUCED, log entry 14.) -/
def State.drainMat (s : State) (P : Nat) : State :=
  (s.cl P).mat.foldl (fun t m =>
    if (t.cl P).act == .stopped then t
    else
      match t.matPoisoned P m with
      | some at_ => t.modCl P fun c => c.stopAs Cause.matPoison at_ m.pc
      | none => t.matFinish P m) s

end Sys2Proof.Machine
end

