-- ==== Sys2Proof/Machine/Voltage.lean ====
section
/-! DEFINITION. VCORE of the C-dies: the paced floor (R47, R449), the target that VCORE follows (R450), and the rise at the
first issue on a die (R452). -/

namespace Sys2Proof.Machine

/-- The reaches of a C-die. -/
def reachesOfDie (d : Nat) : List Nat := (List.range 16).map (16 * d + ·)

/-- Is the core of a C-die powered? -/
def State.coreOn (s : State) (d : Nat) : Bool :=
  s.fld (Reg.vcoreStatus d) F.VCORE_STATUS_DOMAIN != 2 && decide (s.fld Reg.weirStatus F.WEIR_STATUS_STATE < 3) &&
    !s.heat.trip

/-- VCORE of a C-die, in mV. -/
def State.vcore (s : State) (d : Nat) : Nat := s.fld (Reg.vcoreStatus d) F.VCORE_STATUS_VCORE

def State.setVcore (s : State) (d v : Nat) : State := s.setFld (Reg.vcoreStatus d) F.VCORE_STATUS_VCORE v

/-! ### The paced floor (R47, R449) -/

/-- Is a reach paced, or waiting to be? -/
def State.paced (s : State) (r : Nat) : Bool := s.flag (Reg.timingCtrl r) F.TIMING_CTRL_PACE_STATE

def State.pacing (s : State) (r : Nat) : Bool := s.paced r || s.flag (Reg.timingCtrl r) F.TIMING_CTRL_PACE_REQ

/-- Does a C-die hold a reach that is paced or waits to be? -/
def State.diePacing (s : State) (d : Nat) : Bool := (reachesOfDie d).any s.pacing

/-- The paced floor of a C-die, in mV: 0.75 V while a junction sensor reads below 25 °C. -/
def State.paceFloor (s : State) (d : Nat) : Nat :=
  if ((reachesOfDie d).any fun r => decide (s.fld (Reg.sensorReach r) F.SENSOR_REACH_TJ < 100)) ||
      decide (s.fld (Reg.sensorDie d) F.SENSOR_DIE_TJ < 100) then 750 else 700

/-- May VCORE of a C-die lie below its paced floor: a response of Table 15-4 or the last resort of R444 lowers it? -/
def State.floorOpen (s : State) (d : Nat) : Bool :=
  s.heat.cdie.contains d || s.heat.tj.contains d || s.weir.resort.contains d

/-- The voltage below which VCORE of a C-die with paced reaches is not set now, in mV. -/
def State.floorNow (s : State) (d : Nat) : Nat :=
  if s.floorOpen d then min (s.paceFloor d) (s.vcore d) else s.paceFloor d

/-- Can no reach of a C-die be paced now: its core is off, or heat or the last resort holds it below the paced floor? -/
def State.paceBarred (s : State) (d : Nat) : Bool :=
  !s.coreOn d || (s.floorOpen d && decide (s.vcore d < s.paceFloor d))

/-- Sets VCORE of a C-die to a voltage, or to the floor where paced reaches hold it there; PACE_FLOOR says which. -/
def State.placeVcore (s : State) (d v : Nat) : State :=
  let floor := s.floorNow d
  let held := s.diePacing d && decide (v < floor)
  (s.setVcore d (if held then floor else v)).setFld (Reg.vcoreStatus d) F.VCORE_STATUS_PACE_FLOOR
    (b2n (held && floor == s.paceFloor d))

/-! ### The target (R450, R452) -/

/-- VCORE follows the target of R450, except where R444, heat or an idle drop set it lower. (DEDUCED, log entry 49.) -/
def State.follow (s : State) (d : Nat) : State :=
  let a := Reg.vcoreStatus d
  if !s.coreOn d then s
  else
    let v := s.vTarget d
    let low := s.flag a F.VCORE_STATUS_LENT || s.flag a F.VCORE_STATUS_BUDGET || s.flag a F.VCORE_STATUS_THERMAL
    s.placeVcore d (if low then min (s.vcore d) v else v)

/-- The first issue on a C-die after an idle drop: VCORE rises to its target (R452). -/
def State.firstIssue (s : State) (d : Nat) : State :=
  if s.flag (Reg.vcoreStatus d) F.VCORE_STATUS_LENT then (s.setFld (Reg.vcoreStatus d) F.VCORE_STATUS_LENT 0).follow d else s

end Sys2Proof.Machine
end

