-- ==== Sys2Proof/Machine/Traps.lean ====
section
/-! DEFINITION. The end of a cluster's part in a cargo (R102, R106, R107), taking a trap (R105, R106) with the delivery
of deferred faults (R98) and the return from a trap beside it, and the run of one instruction (R76, R78). -/

namespace Sys2Proof.Machine

/-! ### The end of a cluster's part in a cargo (R102, R106) -/

/-- The barge's notes that a cluster's hidden flags raise (R70, R190). -/
def Cluster.bargeNotes (c : Cluster) : Nat := (if c.flushed then Note.flushSeen else 0) ||| (if c.clipped then Note.clipped else 0)

/-- The run record of a barge. -/
def Barge.run? (b : Barge) : Option RunWork :=
  match b.work with
  | .run w => some w
  | _ => none

/-- Frees the watch entries that a watcher holds. -/
def State.unwatch (s : State) (w : Watcher) : State := { s with watches := s.watches.filter fun x => x.who != w }

/-- Takes one cluster off its barge: its halt value and hc are gathered, its notes passed on. (DEDUCED, log entry 15.) -/
def State.leaveRun (s : State) (P : Nat) (exit : Option Nat) : State :=
  let c := s.cl P
  match c.barge with
  | none => s
  | some (k, q) =>
    match s.barge? k q with
    | none => s
    | some b =>
      match b.run? with
      | none => s
      | some w =>
        s.setBarge { b with
          notes := b.notes ||| c.bargeNotes
          work := .run { w with
            live := w.live.filter (· != P)
            halted := w.halted + (if exit.isSome then 1 else 0)
            exitOr := w.exitOr ||| exit.getD 0
            maxHc := max w.maxHc c.hc } }

/-- Stops one cluster at its instruction boundary without a trap: pc holds the first instruction that did not issue
(R107, R139, R163). Its issued matrix instructions have completed. -/
def Cluster.halted (c : Cluster) (a : Act) : Cluster := { c with act := a, wait := .none, barge := none, mat := [] }.mark

/-- Stops a cluster because its run stops (R106, R107): its issued matrix instructions complete, and it ends idle, with FAULTED
as it was; one of them that meets poison stops it instead (R162). (DEDUCED, log entries 14 and 15.) -/
def State.stopOne (s : State) (P : Nat) : State :=
  let t := s.drainMat P
  let c := t.cl P
  ((t.leaveRun P none).setCl P (if c.act = .stopped then { c with barge := none } else c.halted .idle)).unwatch (.cluster P)

/-- Stops every live cluster of a run; those that took no trap keep FAULTED as it was. (DEDUCED, log entry 15.) -/
def State.stopRun (s : State) (k q : Nat) : State :=
  match (s.barge? k q).bind Barge.run? with
  | none => s
  | some w => w.live.foldl State.stopOne s

/-- The stop by trap that a barge's run reports. -/
def Barge.fault? (b : Barge) : Option RunFault := b.run?.bind (·.fault)

/-- Ends a run that a trap of one of its clusters stopped, where there is one: the clusters left stop, and the barge completes
with EXEC_FAULT, the cause and the logical cluster in RESULT0 (R106, R414). (DEDUCED, log entry 15.) -/
def State.endFault (s : State) (k q : Nat) : State :=
  match (s.barge? k q).bind Barge.fault? with
  | none => s
  | some f => (s.stopRun k q).endBarge k q St.execFault (f.cause + f.log * 2 ^ 16) f.tval

/-- The runs that a trap stopped end as time passes: no cluster of theirs goes beyond its next instruction boundary.
(DESIGN CHOICE, log entry 15.) -/
def State.endFaults (s : State) : State := s.barges.foldl (fun t b => t.endFault b.canal b.seq) s

/-- Completes a CARGO_RUN whose last live cluster has halted (R102, R414). -/
def State.finishRun (s : State) (k q : Nat) : State :=
  match s.barge? k q with
  | none => s
  | some b =>
    match b.run? with
    | none => s
    | some w =>
      if !w.live.isEmpty then s
      else if w.fault.isSome then s.endFault k q
      else s.endBarge k q St.done (w.exitOr % 2 ^ 32 + w.clusters.length * 2 ^ 32) (min w.maxHc (2 ^ 32 - 1))

/-- Is a stop by trap reported rather than another: the earlier one, and at one time that of the lower logical cluster? -/
def RunFault.before (f g : RunFault) : Bool := decide (f.time < g.time ∨ (f.time = g.time ∧ f.log ≤ g.log))

/-- A cluster of a run has stopped by trap or poison: the run keeps the stop that it reports, and every other cluster stops at
its next instruction boundary (R106). The STOP is entered at the first one. (DEDUCED, log entry 15.) -/
def State.faultRun (s : State) (P cause tval : Nat) : State :=
  match (s.cl P).barge with
  | none => s
  | some (k, q) =>
    let f : RunFault := ⟨s.now, (s.logOfPhys P).getD 0, cause % 2 ^ 16, tval % 2 ^ 32⟩
    let t := (s.leaveRun P none).modCl P fun c => { c with barge := none }
    match t.barge? k q with
    | none => t
    | some b =>
      match b.run? with
      | none => t
      | some w =>
        let t := if w.fault.isSome then t else t.logEnter 0x4 k q 0 (t.logPart k (some b.part)) [] [] [0x04]
        let b := (t.barge? k q).getD b
        (t.setBarge { b with work := .run { w with
          fault := some (match w.fault with
            | some g => if g.before f then g else f
            | none => f) } }).finishRun k q

/-- Stops a cluster as under R106 with what its status registers then hold: `shown` is the cause that the barge's tally
carries. -/
def State.stopCluster (s : State) (P cause tval epc shown : Nat) : State :=
  ((s.modCl P fun c => c.stopAs cause tval epc).unwatch (.cluster P)).faultRun P shown tval

/-! ### Taking a trap and returning from one (R105, R106) -/

/-- Takes a trap of cluster `P` at the instruction at its pc: entry to the handler when HMODE is 0 and CW_TVEC is not
zero (R105), otherwise the stop of R106, with DOUBLE_FAULT while the handler runs. An earlier matrix instruction that meets
poison on that stop is the one that stops the cluster (R162). -/
def State.trap (s : State) (P cause tval : Nat) : State :=
  let c := s.cl P
  if !c.hmode && c.tvec != 0 then
    s.setCl P { c with wait := .none, epc := c.pc, cause := cause, tval := tval, hmode := true, pc := c.tvec }.mark
  else
    let t := s.drainMat P
    if (t.cl P).act = .stopped then (t.unwatch (.cluster P)).faultRun P Cause.matPoison (t.cl P).stopTval
    else t.stopCluster P (if c.hmode then cause % 2 ^ 16 * 2 ^ 16 + Cause.doubleFault else cause) tval c.pc
      (if c.hmode then Cause.doubleFault else cause)

/-- Delivers a pending deferred fault at the instruction at pc (R98). -/
def State.deliverDeferred (s : State) (P : Nat) : State :=
  let c := s.cl P
  (s.setCl P { c with deferred := false, defMore := 0 }).trap P
    (c.defCause % 2 ^ 15 + 2 ^ 15 + min c.defMore 0xFFFF * 2 ^ 16) c.defAddr

/-- Returns from the handler (R101). -/
def Cluster.eret (c : Cluster) : Cluster := { c with pc := c.epc, hmode := false, retired := c.retired + 1 }.mark

/-- Retires the instruction at pc and goes on to the next. -/
def Cluster.retire (c : Cluster) : Cluster :=
  { c with pc := (c.pc + 4) % 2 ^ 64, retired := c.retired + 1 }.mark

/-- Retires the instruction at pc and goes on at `pc'`. -/
def Cluster.jump (c : Cluster) (pc' : Nat) : Cluster :=
  { c with pc := pc' % 2 ^ 64, retired := c.retired + 1 }.mark

/-! ### Running one instruction of a cluster -/

/-- The state in which an instruction of cluster `P` acts: an idle drop of its die is over (R452), its hc have passed, and its
operand reads and its translations have found what they find in the register file and in the translation cache (R284). -/
def State.issueAt (s : State) (P : Nat) (env : CEnv) : State :=
  (((s.firstIssue (P / 144)).tick P env.hc).regEcc P env.reg).cacheEcc P env.ecc

/-- Does cluster `P` run a cargo of which another cluster has stopped by trap? -/
def State.runFaulted (s : State) (P : Nat) : Bool :=
  match (s.cl P).barge with
  | some (k, q) => ((s.barge? k q).bind Barge.fault?).isSome
  | none => false

/-- What becomes of cluster `P` after an instruction, `s` being the state before it: where another cluster of its run has
stopped by trap, this boundary is its last (R106). -/
def State.atBoundary (s t : State) (P : Nat) : State :=
  if !s.runFaulted P || (t.cl P).act ≠ .running then t
  else
    match (t.cl P).barge with
    | some (k, q) => (t.stopOne P).finishRun k q
    | none => t

/-- Executes the instruction at pc of physical cluster `P` where it belongs to group `g`: the fetch with its traps
(R76, R580), the illegal words (R78), then `body`, which gets the word and the state in which it acts. A cluster that issues
nothing, and a word of another group, leave the state as it is. (DESIGN CHOICE, log entry 8; DEDUCED, log entry 10.) -/
def State.instr (s : State) (P : Nat) (g : Group) (env : CEnv) (body : Nat → State → State) : Res State :=
  let c := s.cl P
  s.goDie (P / 144) <|
    if !c.issues then s
    else if c.pc % 4 ≠ 0 ∨ basinSize ≤ c.pc then s.atBoundary ((s.tick P env.hc).trap P Cause.fetchFault c.pc) P
    else if s.poisonedAt (basinPA P + c.pc) then
      (s.tick P env.hc).stopCluster P Cause.dataPoison c.pc c.pc Cause.dataPoison
    else
      let w := s.fetchWord P c.pc
      let t := s.issueAt P env
      let t := if c.staleAt c.pc then { t with freeCount := t.freeCount + 1 } else t
      match classify w with
      | none => s.atBoundary (t.trap P Cause.illegal w) P
      | some k => if k = g then s.atBoundary (body w t) P else s

/-! ### Registers that are read (R285) -/

/-- Stops cluster `P` at a vector instruction that reads poisoned register `n`. No element has failed, and VEC_FAULT keeps what it
holds. (DESIGN CHOICE, log entry 66.) -/
def State.regPoison (t : State) (P n : Nat) : State := t.stopCluster P Cause.vecPoison n (t.cl P).pc Cause.vecPoison

/-- An instruction touches registers: the tiles among them no longer stand as an mma left them (R168). -/
def Cluster.touchRegs (c : Cluster) (l : List (Nat × Nat)) : Cluster :=
  { c with lastMma := c.lastMma.filter fun x => !(l.any (rangesMeet (32 + 16 * x.1, 16))) }

/-! ### What an access finds on its way (R51, R137, R448) -/

/-- Does a checked access of cluster `P` arrive: a path leads to its target, and the last one did not fail in flight (R137,
R591)? -/
def State.reaches (t : State) (P : Nat) (env : CEnv) (pa : Nat) : Bool :=
  t.pathTo (P / 144) pa && !(env.cut && t.dieOf pa != P / 144)

/-- An access of cluster `P` to some physical addresses: a contested grant counts, the barge uses their C-dies, and one whose
path to another C-die failed after the check was made again by the other F-die (R137). -/
def State.access (t : State) (P : Nat) (env : CEnv) (ts : List Touch) : State :=
  let own := (t.cl P).barge
  let pas := ts.map (·.pa)
  let u := ((t.contested P ts env.contest).rouse pas).usePas own pas
  match own with
  | some (k, q) => if env.again && !env.cut && pas.any (fun pa => u.dieOf pa != P / 144) then u.addNote k q Note.retried else u
  | none => u

end Sys2Proof.Machine
end

