-- ==== Sys2Proof/Machine/Barges.lean ====
section
/-! DEFINITION. What every barge shares: its header (R355 to R358), its tokens (R363, R364), what it needs before it
starts (R361) with the weir's admission (R446, R447, R479), the STOP entries (R370) and its completion with the tally
or E4 reply (R371 to R375, R387). -/

namespace Sys2Proof.Machine

/-! ### Canals and the header -/

/-- The partition of a canal; none for a system canal. -/
def State.canalPart (s : State) (c : Nat) : Option Nat :=
  if s.flag (Reg.canalCtrl c) F.CANAL_CTRL_SYSTEM then none
  else some (s.fld (Reg.canalCtrl c) F.CANAL_CTRL_PARTITION)

/-- The address of the ring slot of a sequence number (R346). -/
def State.ringSlot (s : State) (c base size seq : Nat) : Nat := base / 4096 * 4096 + seq % s.canalSlots c * size

/-- A flag of the header (Table 12-5). -/
def Barge.flagB (b : Barge) (k : Nat) : Bool := bitOf b.flags k

/-- The payload bytes that must be zero are zero: the reserved byte ranges of a native barge, or the operand bytes that
Table 12-13 does not name of an E4 packet (R12, R382), those above a 40-bit address among them (R383). (DEDUCED, log entry
20.) -/
def Barge.reservedZero (b : Barge) (l : List (Nat × Nat)) : Bool :=
  if b.packet.isEmpty then l.all fun r => zeroB b.bytes r.1 r.2
  else
    let z := fun hi lo => zeroB b.packet hi lo
    match b.opcode with
    | 0xE01 => z 63 32 && z 15 13 && z 23 21
    | 0xE02 => z 63 32 && z 15 13
    | 0xE10 => true
    | 0xE18 => z 63 34 && z 15 13 && z 23 21
    | 0xE20 => z 63 24 && z 15 13
    | 0xE21 => z 63 25 && z 15 13
    | _ => z 63 8

/-! ### Tokens (R363, R364) -/

/-- The barge that a token names against `h`, the CANAL_HEAD of its canal, and whether it was accepted already. -/
def tokenOf (tok h : Nat) : Dep :=
  let d := (tok % 2 ^ 24 + 2 ^ 24 - h % 2 ^ 24) % 2 ^ 24
  let back := decide (2 ^ 23 ≤ d)
  ⟨tok, tok / 2 ^ 24 % 256, if back then (h + 2 ^ 32 + d - 2 ^ 24) % 2 ^ 32 else (h + d) % 2 ^ 32, back⟩

/-- The status with which a barge completed, where the package keeps it (R360). -/
def State.doneStatus (s : State) (c q : Nat) : Option Nat :=
  (s.done.find? fun d => d.canal == c && d.seq == q).map (·.status)

/-- Is a token satisfied? -/
def State.depMet (s : State) (d : Dep) : Bool :=
  (s.barge? d.canal d.seq).isNone && (d.past || (s.doneStatus d.canal d.seq).isSome)

/-- Did a barge end as it was asked to? -/
def okStatus (st : Nat) : Bool := st == St.done || st == St.doneWithNotes

/-- The token of a strict barge whose named barge failed, with that barge's status; DEP0 before DEP1 (R364). -/
def State.strictFail (s : State) (b : Barge) : Option (Nat × Nat) :=
  if b.flagB 4 then
    b.deps.findSome? fun d =>
      if s.depMet d then
        match s.doneStatus d.canal d.seq with
        | some st => if okStatus st then none else some (d.token, st)
        | none => none
      else none
  else none

/-! ### The end of a barge (R371 to R375) -/

/-- The PCIe port behind which a canal's rings lie, or that of the active P-die (R645). -/
def State.canalPort (s : State) (c : Nat) : Nat :=
  match s.fld (Reg.canalCtrl c) F.CANAL_CTRL_RING_LOC with
  | 0 => 0
  | 1 => 1
  | _ => s.activePdie

/-- Does VF `p` + 1 of a port exist (R642)? -/
def State.vfExists (s : State) (port p : Nat) : Bool :=
  decide (p < s.fld (Reg.hostPortStatus port) F.HOST_PORT_STATUS_NUM_VFS)

/-- The function that a canal's requests carry on a port (R644). -/
def State.canalFn (s : State) (c port : Nat) : Nat :=
  match s.canalPart c with
  | some p => if s.vfExists port p then p + 1 else 0
  | none => 0

/-- Can the package master requests for a canal on a port: the link is up, and the function has Bus Master Enable,
which a root port needs of no function (R644, R648)? (DEDUCED, log entry 19.) -/
def State.canMaster (s : State) (c port : Nat) : Bool :=
  s.fld (Reg.hostPortStatus port) F.HOST_PORT_STATUS_STATE == 2 &&
    (s.flag (Reg.hostPortStatus port) F.HOST_PORT_STATUS_ROOT || (s.host port).master.contains (s.canalFn c port))

/-- Sends a canal's interrupt (R645). -/
def State.canalIrq (s : State) (c : Nat) : State :=
  let port := s.canalPort c
  let fn := s.canalFn c port
  s.interrupt port (if (s.host port).msixOn.contains fn then fn else 0) c

/-- Does CANAL_CTRL.IRQ ask for an interrupt with a tally (Table 12-2)? -/
def State.wantsIrq (s : State) (c : Nat) (asked : Bool) (status : Nat) : Bool :=
  match s.fld (Reg.canalCtrl c) F.CANAL_CTRL_IRQ with
  | 1 => true
  | 2 => asked || !okStatus status
  | _ => false

/-- Writes one tally or reply into the next slot of a canal's tally ring, PHASE set in byte 7 (R372). `fail` says that
the write fails on PCIe (R644). -/
def State.writeTally (s : State) (c : Nat) (fail : Bool) (h : HeldTally) : State :=
  let t := s.reg (Reg.canalTallyTail c)
  let n := s.canalSlots c
  let a := s.ringSlot c (s.reg (Reg.canalTallyRing c)) h.bytes.length t
  let b7 := withBits ((h.bytes.getD 7 0).toNat) 7 7 (1 - t / n % 2)
  let bs := patchB h.bytes 7 [BitVec.ofNat 8 b7]
  let lost := fun (u : State) =>
    (u.canalFault c 0x03).logEnter 0x5 c h.seq 0 h.part [] [] (bytesLE 8 h.entry)
  let written := fun (u : State) =>
    let v := u.setReg (Reg.canalTallyTail c) ((t + 1) % 2 ^ 32)
    if h.irq then v.canalIrq c else v
  if s.fld (Reg.canalCtrl c) F.CANAL_CTRL_RING_LOC == 2 then
    match s.canalPart c with
    | none => lost s
    | some p =>
      match s.execTranslate p true 1 a with
      | .error _ => lost s
      | .ok pa => written (s.store pa bs)
  else
    let port := s.canalPort c
    if fail || !s.canMaster c port then lost s else written (s.emit (.hostWrite port a bs))

/-- E4STATUS of a native status (R387): the statuses of the payload checks of Table 12-13's operations read 0x01.
(DEDUCED, log entry 20.) -/
def e4Status (st : Nat) : Nat :=
  if okStatus st then 0
  else if [St.malformed, St.notPermitted, 0x0010, 0x0114, 0x0115, 0x0210, 0x0215, 0x0216, 0x0310, 0x0311, 0x0312,
      0x0313, 0x0314].contains st then 1
  else if st = St.cancelled then 3
  else if st = St.noResource then 4
  else 2

/-- How far a sequence number lies behind CANAL_HEAD: the larger, the earlier. -/
def State.age (s : State) (c q : Nat) : Nat := (s.reg (Reg.canalHead c) + 2 ^ 32 - q) % 2 ^ 32

/-- The held reply of a canal that no earlier packet of it holds back (R387). -/
def State.nextReply (s : State) (c : Nat) : Option HeldTally :=
  (s.canalHeld c).find? fun h =>
    (s.canalBarges c).all (fun b => decide (s.age c b.seq < s.age c h.seq)) &&
      (s.canalHeld c).all fun g => decide (s.age c g.seq ≤ s.age c h.seq)

/-- Writes the replies of a canal whose order has come. -/
def State.flushReplies (s : State) (c : Nat) (fail : Bool) : Nat → State
  | 0 => s
  | n + 1 =>
    match s.nextReply c with
    | none => s
    | some h =>
      let t := { s with tallies := s.tallies.filter fun g => !(g.canal == c && g.seq == h.seq) }
      (if h.write then t.writeTally c fail h else t).flushReplies c fail n

/-- The lowest sequence number of a canal whose barge has not completed (R350). -/
def State.lowestOpen (s : State) (c : Nat) : Nat :=
  match (s.canalBarges c).head? with
  | some b => b.seq
  | none => s.reg (Reg.canalHead c)

/-- Keeps the completion state of the 2^23 sequence numbers below CANAL_HEAD (R360). -/
def State.pruneDone (s : State) (c : Nat) : State :=
  { s with done := s.done.filter fun d => d.canal != c || decide (1 ≤ s.age c d.seq ∧ s.age c d.seq ≤ 2 ^ 23) }

/-- Does a tally of a barge carry the digest (R372)? -/
def State.digestValid (s : State) (b : Barge) : Bool :=
  match b.actsFor with
  | some p => s.partSt p != 0 && s.fld (Reg.partCtrl p) F.PART_CTRL_CLASS != 0
  | none => false

/-- The tally of Table 12-8 with PHASE 0. -/
def State.tallyBytes (s : State) (b : Barge) (status r0 r1 : Nat) : List Byte :=
  let dv := s.digestValid b
  bytesLE 4 b.seq ++ bytesLE 2 status ++ [BitVec.ofNat 8 b.canal] ++
    [BitVec.ofNat 8 (b2n dv * 64 + b.f 7 7 % 8)] ++ bytesLE 4 b.notes ++ bytesLE 4 r1 ++ bytesLE 8 r0 ++
    bytesLE 8 (if dv then s.reg (Reg.basisDigest b.part) else s.now)

/-- The reply of R387 with PHASE 0. (DEDUCED, log entry 20.) -/
def Barge.replyBytes (b : Barge) (status r0 : Nat) : List Byte :=
  bytesLE 4 b.seq ++ sliceB b.packet 2 2 ++ [BitVec.ofNat 8 (e4Status status)] ++ [0] ++ bytesLE 8 r0

/-- The status that a completion carries: notes turn DONE into DONE_WITH_NOTES (R373), and a barge that Table 16-4
names completes with GUARANTEE_YIELDED instead of either (R482). -/
def Barge.finalStatus (b : Barge) (status : Nat) : Nat :=
  if okStatus status then
    if b.yielded then 0x0702 else if b.notes = 0 then St.done else St.doneWithNotes
  else status

/-- Sets SPARE_USED in a barge that accesses the lines of a channel being copied to a spare (R593). -/
def State.copyNote (s : State) (b : Barge) : Barge :=
  if b.begun && s.copies.any fun x => Config.touchesCopy (x.1 * 32 + x.2) b.canal b.seq then
    { b with notes := b.notes ||| Note.spareUsed }
  else b

/-- Has the gate of an armed barge met its condition while a solver barge holds a reach (R210)? -/
def Barge.tripped (b : Barge) : Bool := b.run?.any fun w => w.gate.any fun g => g.tripped && !g.released

/-- Does a solver barge hold a reach (R208)? -/
def State.reachHeld (s : State) (r : Nat) : Bool :=
  s.barges.any fun b => b.begun && b.native / 256 == 3 && bitOf (b.f 39 32) r

/-- Did another barge of some opcodes, which `sel` names, start before `b`, with its work still to begin? -/
def State.startedBefore (s : State) (b : Barge) (ops : List Nat) (sel : Barge → Bool) : Bool :=
  s.barges.any fun x => x.begun && x.phase == .started && ops.contains x.native && decide (x.startNo < b.startNo) && sel x

/-- Enters a STOP: what took effect on a running or waiting barge, and the acting barge (Table 14-2, R370).
(DEDUCED, log entry 21.) -/
def State.logStop (s : State) (b : Barge) (what : Nat) (acting : Option (Nat × Nat)) : State :=
  s.logEnter 0x4 b.canal b.seq 0 (s.logPart b.canal b.actsFor) [] []
    (BitVec.ofNat 8 what :: List.replicate 7 0 ++
      match acting with
      | some (k, q) => bytesLE 4 q ++ [BitVec.ofNat 8 k]
      | none => [])

/-- Does a solver barge hold a reach of some clusters (R210)? -/
def State.gateHeld (s : State) (w : RunWork) : Bool := w.clusters.any fun P => s.reachHeld (reachOfPhys P)

/-- An armed cluster starts: what its last stop left is gone (R110). -/
def Cluster.released (c : Cluster) : Cluster :=
  { c with
    act := .running, faulted := false, stopCause := 0, stopTval := 0, stopEpc := 0
    fpctrl := withBits c.fpctrl 8 8 0, flushed := false, clipped := false }

/-- Disarms the clusters of an armed, unreleased CARGO_ARM: they return to idle (R379, R381). -/
def State.disarm (s : State) (w : RunWork) : State :=
  w.clusters.foldl (fun t P => (t.modCl P fun c => { c with act := .idle, barge := none }).unwatch (.cluster P)) s

/-- The releases that waited for the end of a solver barge's hold take effect, unless a deadline has passed (R210, R381). -/
def State.freeGates (s : State) : State :=
  s.barges.foldl (fun t b =>
    match b.run? with
    | none => t
    | some w =>
      if !b.tripped || t.gateHeld w then t
      else if b.deadline ≠ 0 ∧ b.deadline ≤ t.now then
        (((t.logStop b 0x03 none).disarm w).unwatch (.barge b.canal b.seq)).endBarge b.canal b.seq St.deadlineMissed 0 0
      else
        w.clusters.foldl (fun u P => u.modCl P Cluster.released)
          ((t.unwatch (.barge b.canal b.seq)).setBarge
            { (t.barge? b.canal b.seq).getD b with work := .run { w with gate := w.gate.map fun g => { g with released := true } } })) s

/-- The barges that a completed PART_DESTROY held complete with NOT_PERMITTED (R478). -/
def State.doom (s : State) (b : Barge) (status : Nat) : State :=
  if b.native = 0x801 ∧ okStatus status then
    { s with barges := s.barges.map fun x =>
      if x.actsFor == some b.part && decide (b.acc < x.acc) then { x with doomed := true } else x }
  else s

/-- Enters the COMPLETE of a barge, forgets the barge, and writes its tally or reply; the end of a solver barge lets the
releases it held take effect (R210). (DESIGN CHOICE, log entry 18.) -/
def State.complete1 (s : State) (b : Barge) (fail : Bool) (status r0 r1 : Nat) : State :=
  let b := s.copyNote b
  let c := b.canal
  let st := b.finalStatus status
  let r0 := r0 % 2 ^ 64
  let r1 := min r1 (2 ^ 32 - 1)
  let part := s.logPart c b.actsFor
  let tally := s.tallyBytes b st r0 r1
  let t := s.logEnter 0x2 c b.seq st part [] tally [0x00]
  let entry := t.log.next - 1
  let u := t.unwatch (.barge c b.seq)
  let t : State := { u with
    barges := t.barges.filter fun x => !(x.canal == c && x.seq == b.seq)
    done := (t.done.filter fun (d : Done) => !(d.canal == c && d.seq == b.seq)) ++ [⟨c, b.seq, st⟩] }
  let t := (t.pruneDone c).setReg (Reg.canalDoneSeq c) (t.lowestOpen c)
  let t := match b.actsFor with
    | some p => if bitOf b.notes 3 then t.count (Reg.throttleCount p) 1 else t
    | none => t
  let t :=
    if b.packet.isEmpty then
      if b.flagB 2 && st == St.done then t
      else t.writeTally c fail ⟨c, b.seq, tally, true, s.wantsIrq c (b.flagB 3) st, entry, part⟩
    else
      let e4 := (b.packet.getD 1 0).toNat
      let t : State := { t with tallies := t.tallies ++ [⟨c, b.seq, b.replyBytes st r0,
        bitOf e4 1 || e4Status st != 0, s.wantsIrq c (bitOf e4 2) st, entry, part⟩] }
      t.flushReplies c fail (t.tallies.length + 1)
  let t := if !t.flag (Reg.canalCtrl c) F.CANAL_CTRL_ENABLE && t.canalIdle c then t.logCanal c else t
  if b.native / 256 = 3 then t.freeGates else t.doom b st

/-- Is a cluster that a cargo barge runs on paused for a substitution? A stop of the barge then waits (R599).
(DEDUCED, log entry 21.) -/
def State.runPaused (s : State) (b : Barge) : Bool :=
  match b.work with
  | .run w => w.live.any fun P => (s.cl P).act == .paused
  | _ => false

/-- What a completion decides at once: a waiting barge that a PART_DESTROY held (R478) or a strict one whose named barge failed
(R364), a CANAL_DRAIN whose set
has completed (R369), a CARGO_ABORT whose target has completed (R415). -/
def State.decided (s : State) (b : Barge) : Option (Nat × Nat × Nat) :=
  match b.phase, b.work with
  | .waiting, _ =>
    if b.doomed then some (St.notPermitted, 0, 0) else (s.strictFail b).map fun ts => (St.cancelled, ts.1 + ts.2 * 2 ^ 32, 0)
  | .working, .drain set n asked =>
    if set.all fun x => (s.barge? x.1 x.2).isNone then
      some (St.done, n + (asked.filter fun x => s.doneStatus x.1 x.2 == some St.cancelled).length, 0)
    else none
  | .working, .abort k q => if (s.barge? k q).isNone then some (St.done, 1, 0) else none
  | _, _ => none

/-- Completes what earlier completions have decided, one barge after the other. (DESIGN CHOICE, log entry 18.) -/
def State.settle (s : State) : Nat → State
  | 0 => s
  | n + 1 =>
    match s.barges.findSome? fun b => (s.decided b).map fun r => (b, r) with
    | none => s
    | some (b, st, r0, r1) => (s.complete1 b false st r0 r1).settle n

/-- Completes a barge with a status and result words. (DESIGN CHOICE, log entry 18.) -/
def State.finish (s : State) (c q status r0 r1 : Nat) : State :=
  match s.barge? c q with
  | none => s
  | some b => (s.complete1 b false status r0 r1).settle s.barges.length

/-! ### What a barge needs before it starts (R361) -/

/-- The backed logical clusters that a CARGO_RUN with SEL 1 names, `n` from index `first` (R411). -/
def State.pickClusters (s : State) (p first n : Nat) : List Nat := ((s.partBacked p).drop first).take n

/-- The logical clusters that a CARGO_RUN or CARGO_ARM selects. -/
def State.selClusters (s : State) (b : Barge) : List Nat :=
  if b.native = 0x201 ∧ bitOf (b.f 39 36) 0 then s.pickClusters b.part (b.f 41 40) (b.f 43 42)
  else (setBits 64 (b.f 47 40)).flatMap s.backed

/-- The reaches that a barge selects or holds. -/
def State.reachesOf (s : State) (b : Barge) : List Nat :=
  if b.native = 0x201 ∧ bitOf (b.f 39 36) 0 then ((s.selClusters b).map reachOfLog).eraseDups
  else if b.native = 0x201 ∨ b.native = 0x202 then setBits 64 (b.f 47 40)
  else if b.native / 256 = 3 ∨ b.native = 0x900 then setBits 64 (b.f 39 32)
  else []

/-- Does a cargo run on a reach, and is a cargo armed on it (R209, R378)? -/
def Barge.runsOn (s : State) (b : Barge) (r : Nat) : Bool :=
  match b.work with
  | .run w =>
    (match w.gate with
      | some g => g.released
      | none => true) && w.live.any fun P => reachOfPhys P == r
  | _ => b.begun && b.phase == .started && b.native == 0x201 && (s.reachesOf b).contains r

def Barge.armedOn (s : State) (b : Barge) (r : Nat) : Bool :=
  match b.work with
  | .run w =>
    (match w.gate with
      | some g => !g.released
      | none => false) && w.clusters.any fun P => reachOfPhys P == r
  | _ => b.begun && b.phase == .started && b.native == 0x202 && (s.reachesOf b).contains r

def State.reachRuns (s : State) (r : Nat) : Bool := s.barges.any fun b => Barge.runsOn s b r

def State.reachArmed (s : State) (r : Nat) : Bool := s.barges.any fun b => Barge.armedOn s b r

/-- Has a cargo barge a reach until it completes, for another cargo (R381)? -/
def Barge.keepsReach (s : State) (b : Barge) (r : Nat) : Bool :=
  Barge.runsOn s b r || Barge.armedOn s b r ||
    match b.work, b.phase with
    | .run w, _ => w.clusters.any fun P => reachOfPhys P == r
    | _, .ended _ _ _ => b.begun && (b.native == 0x201 || b.native == 0x202) && (s.reachesOf b).contains r
    | _, _ => false

/-- Is a reach being cupped, or held for it (R58)? -/
def State.reachCupped (s : State) (r : Nat) : Bool :=
  s.barges.any fun b => b.begun && b.native == 0x900 && bitOf (b.f 39 32) r

/-- Has a cluster of a reach a request outstanding: a remote one, or a near-memory operation that it posted (R48)? -/
def State.reachAwaits (s : State) (r : Nat) : Bool :=
  (s.fabric.sent.any fun q => match q.owner with
    | .cluster P _ => reachOfPhys P == r
    | _ => false) ||
    s.nmOps.any fun o => match o.source with
      | .cluster P _ => reachOfPhys P == r
      | .barge _ _ => false

/-- Does no cargo run or lie armed on a reach, no solver barge hold it, and no memory request of it stand out (R48)? -/
def State.reachStill (s : State) (r : Nat) : Bool :=
  !s.reachRuns r && !s.reachArmed r && !s.reachHeld r && !s.reachAwaits r

/-- Is a reach's domain, or its C-die core's, neither on nor off: a change of it runs (R463, R464)? -/
def State.domainMoving (s : State) (r : Nat) : Bool :=
  let m := fun v => v == 1 || v == 3
  m (s.fld (Reg.reachDepth r) F.REACH_DEPTH_DOMAIN) || m (s.fld (Reg.vcoreStatus (r / 16)) F.VCORE_STATUS_DOMAIN)

/-- Is a reach off by a domain barge? -/
def State.domainOff (s : State) (r : Nat) : Bool :=
  s.flag (Reg.reachDepth r) F.REACH_DEPTH_HOST_OFF || s.flag (Reg.vcoreStatus (r / 16)) F.VCORE_STATUS_HOST_OFF

/-- Do checks treat a reach as disabled (R463, R587)? -/
def State.reachGone (s : State) (r : Nat) : Bool := s.reachOut r || s.domainOff r

/-- Does a change of the timing or arbitration mode of a reach wait (R48, R53)? A reach that cannot be paced now waits
for nothing (R49). (DEDUCED, log entry 53.) -/
def State.modePending (s : State) (r : Nat) : Bool :=
  let a := Reg.timingCtrl r
  let pr := s.flag a F.TIMING_CTRL_PACE_REQ
  s.flag a F.TIMING_CTRL_ORDER_REQ != s.flag a F.TIMING_CTRL_ORDER_STATE ||
    (pr != s.flag a F.TIMING_CTRL_PACE_STATE && !(pr && (s.health.lockLost || s.paceBarred (r / 16))))

/-- Can a barge's work start on a reach now, leaving aside what holds or runs on it? -/
def State.reachOpen (s : State) (r : Nat) : Bool :=
  s.reachGone r ||
    (!s.domainMoving r && !s.modePending r && !s.reachCupped r &&
      s.fld (Reg.reachDepth r) F.REACH_DEPTH_DEPTH != 2 &&
      !(List.range 9).any fun k => (s.cl (physOf r k)).act == .paused)

/-- The basin reach that a range of the partition basin window lies in. -/
def windowReach (la : Nat) : Option Nat :=
  if 0x40000000 ≤ la ∧ la < 0xC0000000 then some (reachOfLog ((la - 0x40000000) / basinSize)) else none

/-- The ranges of local addresses that a memory barge of Table 13-3 names. -/
def Barge.memRanges (b : Barge) : List (Nat × Nat) :=
  if b.native = 0x100 then [(b.f 39 32, b.f 55 48), (b.f 47 40, b.f 55 48)]
  else [(b.f 39 32, b.f 47 40)]

/-- The clusters that earlier launches of the same E4 batch hold (R386), as indices among the partition's backed
clusters. -/
def State.e4Held (s : State) (b : Barge) : List Nat :=
  ((s.canalBarges b.canal).filter fun x => x.batch == b.batch && x.begun && x.native == 0x201 &&
    decide (x.acc < b.acc)).flatMap fun x => (List.range (x.f 43 42)).map (x.f 41 40 + ·)

/-- The lowest free range of an E4_LAUNCH's size. -/
def State.e4First (s : State) (b : Barge) : Option Nat :=
  let n := b.f 43 42
  let held := s.e4Held b
  (List.range ((s.partBacked b.part).length + 1 - n)).find? fun i =>
    (List.range n).all fun j => !held.contains (i + j)

/-- An E4_LAUNCH that has not started, with the clusters it would take (R386); any other barge as it is. -/
def State.e4Placed (s : State) (b : Barge) : Barge :=
  if !b.packet.isEmpty && b.native == 0x201 && !b.begun then
    { b with bytes := patchB b.bytes 40 (bytesLE 2 ((s.e4First b).getD 0)) }
  else b

/-- The earlier launches of the batch of an E4_LAUNCH that have not completed. -/
def State.e4Earlier (s : State) (b : Barge) : List Barge :=
  (s.canalBarges b.canal).filter fun x => x.batch == b.batch && x.native == 0x201 && decide (x.acc < b.acc)

/-- Is an E4_LAUNCH, whose earlier launches have taken their clusters, without a range that fits? -/
def State.e4Crowded (s : State) (b : Barge) : Bool :=
  !b.packet.isEmpty && b.native == 0x201 && (s.e4Earlier b).all (·.begun) && (s.e4First b).isNone

/-- May an E4_LAUNCH take its clusters: every earlier launch of its batch has taken its own, and its range fits, or no
earlier launch is left (R386)? With load balancing off a launch that has found no range waits for all of them (R484). -/
def State.e4Fits (s : State) (b : Barge) : Bool :=
  let earlier := s.e4Earlier b
  earlier.all (·.begun) &&
    (earlier.isEmpty || ((s.e4First b).isSome && !(s.dlbOff b.part && b.waitFrom.isSome)))

/-- Is an earlier barge waiting for one of these reaches (R209)? -/
def State.earlierNeeds (s : State) (b : Barge) (rs : List Nat) : Bool :=
  s.barges.any fun x => decide (x.acc < b.acc) && x.phase == .waiting && (s.reachesOf x).any rs.contains

/-- Is a barge one of the collectives of R533? -/
def Barge.isColl (b : Barge) : Bool := decide (0x510 ≤ b.native ∧ b.native ≤ 0x513)

/-- Do two barges name one communicator of one partition? -/
def Barge.sameComm (b x : Barge) : Bool := x.part == b.part && x.f 35 32 == b.f 35 32

/-- Does a collective run on the communicator that a barge names (R531, R535)? -/
def State.collRuns (s : State) (b : Barge) : Bool :=
  s.barges.any fun x => x.isColl && x.begun && x.executing && b.sameComm x && !(x.canal == b.canal && x.seq == b.seq)

/-- Is a reach quiescent as a collective with EXCHANGE needs it (R48, R535)? -/
def State.reachQuiet (s : State) (r : Nat) : Bool :=
  !s.reachRuns r && !s.reachHeld r && !s.reachCupped r && !s.reachAwaits r

/-- Is `x` another launch of the batch of an E4_LAUNCH? They take disjoint clusters, which may share a reach (R386). -/
def Barge.sameBatch (b x : Barge) : Bool :=
  !b.packet.isEmpty && !x.packet.isEmpty && x.canal == b.canal && x.batch == b.batch && x.native == 0x201

/-- Does a running collective with EXCHANGE hold the reaches of a partition? -/
def State.exchangeOn (s : State) (p : Nat) : Bool :=
  s.barges.any fun x => x.isColl && x.begun && x.executing && x.part == p && bitOf (x.f 36 36) 0

/-- Does a running collective hold one of these reaches? -/
def State.exchangeHolds (s : State) (rs : List Nat) : Bool :=
  rs.any fun r =>
    match s.reachPart r with
    | some p => s.exchangeOn p
    | none => false

/-- Is `x` another checkpoint barge of the same stream (R557)? -/
def Barge.sameStream (b x : Barge) : Bool :=
  x.native / 256 == 6 && x.native != 0x603 && x.part == b.part && x.f 35 32 == b.f 35 32 &&
    !(x.canal == b.canal && x.seq == b.seq)

/-- Do two KEY_LOAD barges name one key (R619)? -/
def Barge.sameKey (b x : Barge) : Bool :=
  let mk := fun (y : Barge) => y.f 32 32 == 1 || y.f 32 32 == 4
  x.native == 0x802 && mk x == mk b && (mk b || x.part == b.part)

/-- Condition 4 of R361 for the opcodes that need a resource. -/
def State.resourcesFree (s : State) (b : Barge) : Bool :=
  let rs := s.reachesOf (s.e4Placed b)
  let others := s.barges.filter fun x => decide (x.acc < b.acc)
  if b.native = 0x201 ∨ b.native = 0x202 then
    rs.all (fun r => s.reachOpen r && !s.reachHeld r && !s.barges.any fun x => !b.sameBatch x && Barge.keepsReach s x r) &&
      (b.packet.isEmpty || s.e4Fits b) && !s.exchangeHolds rs
  else if b.native / 256 = 3 then
    rs.all (fun r => s.reachOpen r && !s.reachRuns r && !s.reachHeld r) && !s.earlierNeeds b rs && !s.exchangeHolds rs &&
      !(s.barges.any fun x => x.tripped && rs.any (Barge.armedOn s x))
  else if b.isColl then
    !s.collRuns b && !(others.any fun x => x.isColl && x.phase == .waiting && b.sameComm x) &&
      (!bitOf (b.f 36 36) 0 || (s.partReachList b.part).all s.reachQuiet)
  else if b.native = 0x519 then !s.collRuns b
  else if b.native = 0x520 then
    !s.barges.any fun x => x.begun && x.executing && x.native == 0x521 && x.part == b.part
  else if b.native / 256 = 4 then
    match s.nmBargeLead b with
    | some e => decide (s.nmQueued e (some b) < 16)
    | none => true
  else if b.native = 0x900 then rs.all (fun r => !s.reachHeld r && !s.domainMoving r) && !s.exchangeHolds rs
  else if b.native = 0x100 ∨ b.native = 0x101 ∨ b.native = 0x102 then
    b.memRanges.all fun r =>
      match windowReach r.1 with
      | some k => !s.reachHeld k && s.fld (Reg.reachDepth k) F.REACH_DEPTH_DEPTH != 2
      | none => true
  else if b.native = 0x701 then others.isEmpty
  else if b.native = 0x702 ∨ b.native = 0x703 then
    (b.f 32 32 != 1 || s.fld (Reg.reachDepth (b.f 39 36 % 64)) F.REACH_DEPTH_DEPTH != 2) && !s.barges.any fun x => x.begun && (x.native == 0x702 || x.native == 0x703) && x.f 32 32 == b.f 32 32 &&
      x.f 39 36 == b.f 39 36
  else if b.native / 256 = 6 ∧ b.native ≠ 0x603 then
    !(s.barges.any fun x => b.sameStream x && x.begun) && !(others.any fun x => b.sameStream x && x.phase == .waiting)
  else if b.native = 0x804 ∨ b.native = 0x805 then
    !s.barges.any fun x => x.begun && (x.native == 0x804 || x.native == 0x805)
  else if b.native = 0x802 then !s.barges.any fun x => x.begun && b.sameKey x
  else if b.native = 0x800 then
    !(s.barges.any fun x => x.begun && x.native == 0x801 && x.part == b.part) &&
      ((setBits 64 (b.f 55 48)).all fun r => !s.reachCupped r &&
        match s.reachPart r with
        | some q => s.partSt q != 3
        | none => true) &&
      ((List.range 256).all fun c => !bitOf (b.f 87 56) c ||
        match s.canalPart c with
        | some q => s.partSt q != 3
        | none => true)
  else if b.native = 0x801 then
    b.f 32 32 % 2 == 1 || !(others.any fun x => x.actsFor == some b.part)
  else true

/-- Is a barge of a partition held by an earlier PART_DESTROY, or by a change of the partition (R478, R486)? -/
def State.partHolds (s : State) (b : Barge) : Bool :=
  match b.actsFor with
  | none => false
  | some p =>
    if b.native = 0x800 ∨ b.native = 0x801 then false
    else
      (s.barges.any fun x => x.native == 0x801 && x.part == p && decide (x.acc < b.acc)) ||
        (s.live p && s.flag (Reg.partCtrl p) F.PART_CTRL_CHANGE_PENDING)

/-- Conditions 1 to 3 of R361, while no takeover holds admission (R595). Packets of one E4 batch start in any order (R385). -/
def State.ordered (s : State) (b : Barge) : Bool :=
  let earlier := (s.canalBarges b.canal).filter fun x => decide (x.acc < b.acc)
  let one := b.native = 0x005 ∨ (earlier.all fun x => x.begun || (!b.packet.isEmpty && x.batch == b.batch))
  let two := ((!b.flagB 0 && b.native != 0x001) || earlier.isEmpty) &&
    (earlier.all fun x => !x.flagB 1 && x.native != 0x001) &&
    (b.packet.isEmpty || earlier.all fun x => x.batch == b.batch)
  !s.takingOver && decide one && two && b.deps.all s.depMet

/-- Conditions 1 to 4 of R361. -/
def State.ready (s : State) (b : Barge) : Bool :=
  b.phase == .waiting && s.ordered b && !s.partHolds b && s.resourcesFree b

/-! ### The weir's admission (R446, R447, R479) -/

/-- The default energy class of an opcode (Table 15-3). -/
def defaultEnergy (op : Nat) : Nat :=
  match op / 256 with
  | 1 => 4
  | 2 => 8
  | 3 => 0xA
  | 4 => 6
  | 5 => 6
  | 6 => 4
  | 9 => if op = 0x900 then 8 else 0
  | _ => 0

/-- The estimate e(b) of a barge, in W. -/
def State.estimate (s : State) (b : Barge) : Nat :=
  let e := if b.f 7 7 / 16 = 0 then defaultEnergy b.native else b.f 7 7 / 16
  if b.native = 0x201 ∨ b.native = 0x202 ∨ b.native / 256 = 3 ∨ b.native = 0x900 then
    e * 4 * (s.reachesOf (s.e4Placed b)).length
  else e * 16

/-- COMMIT: the committed estimates, and those of one partition. -/
def State.commit (s : State) : Nat := ((s.barges.filter (·.begun)).map s.estimate).sum

def State.commitOf (s : State) (p : Nat) : Nat :=
  ((s.barges.filter fun b => b.begun && b.actsFor == some p).map s.estimate).sum

/-- Do the budget and the responses of Table 15-4 let a barge start now? -/
def State.fits (s : State) (b : Barge) : Bool :=
  let e := s.estimate b
  let a := s.fld Reg.weirStatus F.WEIR_STATUS_ALLOWED
  let hot := ((s.reachesOf (s.e4Placed b)).any fun r => s.heat.cdie.contains (r / 16)) ||
    (b.native / 256 == 5 && !s.heat.fpdie.isEmpty)
  s.fld Reg.weirStatus F.WEIR_STATUS_STATE == 0 && !s.flag Reg.weirStatus F.WEIR_STATUS_ENTERING && !hot && !s.heat.trip &&
    (e == 0 || b.admitted || (!s.flag Reg.weirStatus F.WEIR_STATUS_ADMIT_HELD &&
      (s.commit == 0 || (decide (s.commit + e + s.fld Reg.weirStatus F.WEIR_STATUS_BASE ≤ a) &&
        decide (s.fld Reg.weirPower F.WEIR_POWER_P100 ≤ a)))))

/-- Is a barge's partition below its POWER_SHARE (the throughput guarantee of R479)? -/
def State.underShare (s : State) (b : Barge) : Bool :=
  match b.actsFor with
  | some p => decide (s.commitOf p < s.fld (Reg.partGuarantee p) F.PART_GUARANTEE_POWER_SHARE)
  | none => false

/-- Does the weir take candidate `x` before `b`? -/
def State.before (s : State) (x b : Barge) : Bool :=
  (s.underShare x && !s.underShare b) || (s.underShare x == s.underShare b && decide (x.acc < b.acc))

/-- Has the weir passed a candidate over for 100 µs? -/
def State.passedLong (s : State) (b : Barge) : Bool :=
  match b.passedAt with
  | some t => decide (t + 100000 ≤ s.now)
  | none => false

/-- Does the weir let in a candidate now: it fits, and of the candidates with an estimate that are taken before it none fits and
none has been passed over for 100 µs? -/
def State.admits (s : State) (b : Barge) : Bool :=
  let cands := s.barges.filter fun x => s.ready x && s.estimate x != 0 && s.before x b
  s.fits b && (s.estimate b == 0 || b.admitted || cands.all fun x => !s.fits x && !s.passedLong x)

/-! ### Yields (R480 to R482) -/

/-- The POWER_SHARE that PART_CREATE gave a partition. -/
def State.shareOf (s : State) (p : Nat) : Nat := ((s.weir.shares.find? fun x => x.1 == p).map (·.2)).getD 0

/-- A yield whose situation lasts takes in one barge more. -/
def State.alsoYields (s : State) (b : Barge) : State :=
  match s.barge? b.canal b.seq with
  | some x => s.setBarge { x with yielded := true }
  | none => s

/-- A candidate is passed over: the throughput of its partition yields while its share is scaled, and while a barge of another
partition that its latency ceiling let in takes the package beyond A (Table 16-4). (DEDUCED, log entry 49.) -/
def State.passYields (s : State) (b : Barge) : State :=
  match b.actsFor with
  | none => s
  | some p =>
    let beyond := decide (s.fld Reg.weirStatus F.WEIR_STATUS_ALLOWED < s.commit + s.fld Reg.weirStatus F.WEIR_STATUS_BASE)
    let rival := s.barges.find? fun x => x.begun && x.executing && x.admitted && x.actsFor != some p
    if s.fld (Reg.partGuarantee p) F.PART_GUARANTEE_POWER_SHARE < s.shareOf p then s.alsoYields b
    else
      match if beyond then rival else none with
      | none => s
      | some r => s.yieldG p Gu.throughput Ca.latencyOther 0 (r.actsFor.getD 0) fun x => x.canal == b.canal && x.seq == b.seq

/-- Has the timing of a class 2 partition yielded on a reach that a barge of it starts on (Table 16-4)? (DEDUCED, log entry
49.) -/
def State.timingLost (s : State) (b : Barge) : Bool :=
  match b.actsFor with
  | none => false
  | some p => (s.reachesOf b).any fun r => !s.paced r && s.yielding fun y => y.part == p && y.guar == Gu.timing &&
      (if y.cause = Ca.thermal ∨ y.cause = Ca.power then y.site == r / 16 else y.site == r)

end Sys2Proof.Machine
end

