-- ==== Sys2Proof/Machine/Power.lean ====
section
/-! DEFINITION. Scrubbing basins and clusters, the reset of clusters, reaches and C-dies (Table 22-1), and the entry to
and exit from the sleep states (R455 to R461). -/

namespace Sys2Proof.Machine

/-! ### Scrubbing -/

/-- Writes zero to the basin of a physical cluster. -/
def State.zeroBasin (s : State) (P : Nat) : State := s.zeroRange (basinPA P) basinSize

/-- The physical clusters of a reach. -/
def physOfReach (r : Nat) : List Nat := (List.range 9).map (physOf r)

/-- Returns a cluster to its reset state (R109, R144, R177). -/
def State.resetCluster (s : State) (P : Nat) : State := (s.setCl P Cluster.reset).unwatch (.cluster P)

/-- Writes zero to the register files and control words of a reach's clusters. -/
def State.clearReach (s : State) (r : Nat) : State := (physOfReach r).foldl State.resetCluster s

/-- Writes zero to every basin of a reach. -/
def State.zeroReach (s : State) (r : Nat) : State := (physOfReach r).foldl State.zeroBasin s

/-- Resets the registers of solver sequencer `r` (R242, R271). -/
def State.resetSolver (s : State) (r : Nat) : State :=
  { s with regs := spClear (fun a => decide (Reg.solverState r ≤ a ∧ a < Reg.solverState r + 0x400)) s.regs }

/-- A level-5 reset of a reach: its clusters and its solver sequencer; the basins keep their contents. -/
def State.resetReach (s : State) (r : Nat) : State := (s.clearReach r).resetSolver r

/-! ### VCORE (R448 to R450) -/

/-- Does a barge use a C-die: by its reaches, by memory that it has used, or by the stacks of the ranges of a memory
barge? -/
def State.usesDie (s : State) (b : Barge) (d : Nat) : Bool :=
  ((s.reachesOf b).any fun r => r / 16 == d) || b.dies.contains d ||
    (b.native / 256 == 1 && b.memRanges.any fun r => (lineSteps r.2).any fun k =>
      s.dieOf (s.paOf s.maps b.part (r.1 + k)) == d)

/-- The running barges that use a die take the THROTTLED note (R448). (DEDUCED, log entry 49.) -/
def State.throttleDie (s : State) (d : Nat) : State :=
  { s with barges := s.barges.map fun b =>
      if b.begun && b.executing && s.usesDie b d then { b with notes := b.notes ||| Note.throttled } else b }

/-- The core of a C-die is powered: VCORE ramps to its target, or to 0.60 V while Table 15-4 holds the die there.
(DEDUCED, log entry 49.) -/
def State.ramp (s : State) (d : Nat) : State :=
  let t := ({ s with weir := { s.weir with resort := setDel d s.weir.resort } } : State).setFlds (Reg.vcoreStatus d)
    [(F.VCORE_STATUS_DOMAIN, 0), (F.VCORE_STATUS_HOST_OFF, 0), (F.VCORE_STATUS_LENT, 0), (F.VCORE_STATUS_BUDGET, 0)]
  if !t.coreOn d then t else (t.setVcore d (if t.heat.cdie.contains d then 600 else t.vTarget d)).follow d

/-! ### Sleep (Tables 15-6 and 15-7) -/

/-- Does a wake from a state power a reach: not one that DOMAIN_DISABLE put off? -/
def State.hostOff (s : State) (r : Nat) : Bool :=
  s.flag (Reg.reachDepth r) F.REACH_DEPTH_HOST_OFF || s.flag (Reg.vcoreStatus (r / 16)) F.VCORE_STATUS_HOST_OFF

/-- Sets the depth of every reach that DOMAIN_DISABLE has not put off. -/
def State.depthAll (s : State) (v : Nat) : State :=
  (List.range 64).foldl (fun t r => if t.hostOff r then t else t.setFld (Reg.reachDepth r) F.REACH_DEPTH_DEPTH v) s

/-- Is DRAM of a stack cool enough for self-refresh: its band is that of up to 85 °C (R337)? -/
def State.refreshes (s : State) (st : Nat) : Bool := s.fld (Reg.stackStatus st) F.STACK_STATUS_REFRESH_BAND != 0

/-- Does a wake of the package power a reach: not one under a C-die core that is off? -/
def State.coreHostOff (s : State) (d : Nat) : Bool := s.flag (Reg.vcoreStatus d) F.VCORE_STATUS_HOST_OFF

/-- Gives a value to the DOMAIN field of every reach that DOMAIN_DISABLE has not put off. -/
def State.domainAll (s : State) (v : Nat) : State :=
  (List.range 64).foldl (fun t r => if t.hostOff r then t else t.setFld (Reg.reachDepth r) F.REACH_DEPTH_DOMAIN v) s

/-- Entry to a sleep state: the steps of Table 15-6 up to the one that reaches it, with the domains that Table 15-1 has it
switch off. (DESIGN CHOICE, log entry 50.) -/
def State.enterSleep (s : State) (target : Nat) : State :=
  let t := s.setFlds Reg.weirStatus [(F.WEIR_STATUS_STATE, target), (F.WEIR_STATUS_ENTERING, 0), (F.WEIR_STATUS_TARGET, 0)]
  let t := if 2 ≤ target then (((List.range 64).foldl State.clearReach t).depthAll 2).domainAll 2 else t
  let t := if 3 ≤ target then
      (List.range 4).foldl (fun u d => u.setFlds (Reg.vcoreStatus d) [(F.VCORE_STATUS_VCORE, 0), (F.VCORE_STATUS_DOMAIN, 2)])
        (((List.range 64).foldl (fun u r => (u.zeroReach r).setFld (Reg.reachDepth r) F.REACH_DEPTH_RETAINED_DATA 0) t).depthAll 3)
    else t
  if 4 ≤ target then
    let t := (List.range 32).foldl (fun u k =>
      u.setFld (Reg.stackStatus k) F.STACK_STATUS_SELF_REFRESH (b2n (!u.refreshes k))) t
    let t := [0, 1].foldl (fun u f => u.setFld (Reg.portPower f) F.PORT_POWER_OFF 0x1FF) t
    (List.range 18).foldl (fun u k => u.setFld (Reg.portStatus k) F.PORT_STATUS_STATE 5) t
  else t

/-- In S4 the ports that neither DOMAIN_DISABLE nor the loss of their F-die keeps off are powered again. -/
def State.portsOn (s : State) : State :=
  (List.range 18).foldl (fun t k =>
    let a := Reg.portPower (k / 9)
    if t.weir.portsOff.contains k then t
    else
      let t := t.setFld a F.PORT_POWER_OFF (t.fld a F.PORT_POWER_OFF - t.fld a F.PORT_POWER_OFF / 2 ^ (k % 9) % 2 * 2 ^ (k % 9))
      if t.fdieOut (k / 9) then t else t.setFld (Reg.portStatus k) F.PORT_STATUS_STATE 0) s

/-- The Ragar ports that are down and neither disabled nor off begin to train (step 1 of Table 15-7). -/
def State.portsTrain (s : State) : State :=
  (List.range 18).foldl (fun t k =>
    if t.fld (Reg.portStatus k) F.PORT_STATUS_STATE = 0 ∧ !bitOf (t.fld (Reg.portMap (k / 9)) F.PORT_MAP_DISABLED) (k % 9) then
      t.setFld (Reg.portStatus k) F.PORT_STATUS_STATE 1
    else t) s

/-- The C-die cores that an exit powers: those that DOMAIN_DISABLE has not put off. -/
def State.coresToWake (s : State) : List Nat := (List.range 4).filter fun d => !s.coreHostOff d

/-- An exit from a sleep state begins (Table 15-7): it shows the state left as TARGET, and the domains that it powers as
enabling. (DESIGN CHOICE, log entry 50.) -/
def State.exitBegin (s : State) : State :=
  let st := s.fld Reg.weirStatus F.WEIR_STATUS_STATE
  if st = 0 ∨ s.flag Reg.weirStatus F.WEIR_STATUS_EXITING then s
  else
    let t := s.setFlds Reg.weirStatus [(F.WEIR_STATUS_TARGET, st), (F.WEIR_STATUS_EXITING, 1)]
    let t := if 3 ≤ st then t.coresToWake.foldl (fun u d => u.setFld (Reg.vcoreStatus d) F.VCORE_STATUS_DOMAIN 3) t else t
    if 2 ≤ st then t.domainAll 3 else t

/-- The exit that runs is over: the steps of Table 15-7 from the one that applies to the state left. After a forced entry each
barge whose start waited on the exit takes THROTTLED (R457). (DESIGN CHOICE, log entry 50.) -/
def State.exitEnd (s : State) : State :=
  if !s.flag Reg.weirStatus F.WEIR_STATUS_EXITING then s
  else
    let st := s.fld Reg.weirStatus F.WEIR_STATUS_STATE
    let t := s.setFlds Reg.weirStatus [(F.WEIR_STATUS_STATE, 0), (F.WEIR_STATUS_TARGET, 0), (F.WEIR_STATUS_EXITING, 0)]
    let t := if 4 ≤ st then
        ((List.range 32).foldl (fun u k => u.setFld (Reg.stackStatus k) F.STACK_STATUS_SELF_REFRESH 0) t).portsOn.portsTrain
      else t
    let t := if 3 ≤ st then t.coresToWake.foldl (fun u d => (reachesOfDie d).foldl State.resetReach (u.ramp d)) t else t
    let t := if 2 ≤ st then (t.domainAll 0).depthAll 1 else t
    if t.weir.forced then { t with
        barges := t.barges.map fun b => if t.ready b then { b with notes := b.notes ||| Note.throttled } else b
        weir := { t.weir with forced := false } }
      else t

/-- A wake event (R459): exit begins, or, during an entry, is due at its end (R461). -/
def State.wakeUp (s : State) : State :=
  if s.flag Reg.weirStatus F.WEIR_STATUS_ENTERING then { s with weir := { s.weir with woken := true } } else s.exitBegin

/-- A wake event of an access, which completes once the exit is over (R459). -/
def State.wakeFirst (s : State) : State := s.wakeUp.exitEnd

/-- Is a reach in the retained depth of S0? -/
def State.retained (s : State) (r : Nat) : Bool :=
  s.fld Reg.weirStatus F.WEIR_STATUS_STATE == 0 && s.fld (Reg.reachDepth r) F.REACH_DEPTH_DEPTH == 2

/-- A wake of a retained reach ends: it is quiet. -/
def State.reachUp (s : State) (r : Nat) : State :=
  if s.retained r then s.setFlds (Reg.reachDepth r)
    [(F.REACH_DEPTH_DEPTH, 1), (F.REACH_DEPTH_DOMAIN, 0), (F.REACH_DEPTH_WAKING, 0)]
  else s

/-- An access to a physical address: one to a basin wakes the package from S2 and S3, and during the entry to them (R459). -/
def State.wakeBasin (s : State) (pa : Nat) : State :=
  let at_ := fun (f : Fld) => decide (2 ≤ s.fld Reg.weirStatus f)
  if inBasin pa && (at_ F.WEIR_STATUS_STATE || (s.flag Reg.weirStatus F.WEIR_STATUS_ENTERING && at_ F.WEIR_STATUS_TARGET)) then
    s.wakeFirst
  else s.rouse [pa]

end Sys2Proof.Machine
end

