-- ==== Sys2Proof/Machine/Scalar.lean ====
section
/-! DEFINITION. The scalar instructions that act on registers alone: integer and immediate operations, branches and
jumps, FP arithmetic and conversions, control words, brk and eret (R80 to R89, R99 to R101). -/

namespace Sys2Proof.Machine

/-! ### Integer operations (Table 3-7, Table 3-8) -/

/-- A quotient truncated toward zero, with the corners of R81. -/
def divS (a b : Word) : Word := if b = 0 then BitVec.ofInt 64 (-1) else BitVec.ofInt 64 (a.toInt.tdiv b.toInt)

def divU (a b : Word) : Word := if b = 0 then BitVec.ofInt 64 (-1) else BitVec.ofNat 64 (a.toNat / b.toNat)

/-- A remainder with the sign of the dividend, with the corners of R81. -/
def remS (a b : Word) : Word := if b = 0 then a else BitVec.ofInt 64 (a.toInt.tmod b.toInt)

def remU (a b : Word) : Word := if b = 0 then a else BitVec.ofNat 64 (a.toNat % b.toNat)

/-- Trailing zeros of the low `w` bits. -/
def ctzN : Nat → Nat → Nat
  | 0, _ => 0
  | w + 1, n => if n % 2 = 1 then 0 else 1 + ctzN w (n / 2)

/-- The integer register function `f` of Table 3-7. -/
def intFn (f : Nat) (a b : Word) : Word :=
  match f with
  | 0x00 => a + b
  | 0x01 => a - b
  | 0x02 => a &&& b
  | 0x03 => a ||| b
  | 0x04 => a ^^^ b
  | 0x05 => a <<< (b.toNat % 64)
  | 0x06 => a >>> (b.toNat % 64)
  | 0x07 => a.sshiftRight (b.toNat % 64)
  | 0x08 => boolWord (decide (a.toInt < b.toInt))
  | 0x09 => boolWord (decide (a.toNat < b.toNat))
  | 0x0A => if a.toInt ≤ b.toInt then a else b
  | 0x0B => if a.toInt ≤ b.toInt then b else a
  | 0x0C => if a.toNat ≤ b.toNat then a else b
  | 0x0D => if a.toNat ≤ b.toNat then b else a
  | 0x10 => a * b
  | 0x11 => BitVec.ofInt 64 (a.toInt * b.toInt / 2 ^ 64)
  | 0x12 => BitVec.ofNat 64 (a.toNat * b.toNat / 2 ^ 64)
  | 0x14 => divS a b
  | 0x15 => divU a b
  | 0x16 => remS a b
  | 0x17 => remU a b
  | 0x18 => BitVec.ofNat 64 (64 - bitLen a.toNat)
  | 0x19 => BitVec.ofNat 64 (ctzN 64 a.toNat)
  | _ => BitVec.ofNat 64 (popCount 64 a.toNat)

/-- Integer register operations (R80). -/
def execIntegerRegOp (p : Fin 576) (env : CEnv) (s : State) : Res State :=
  s.instr p.val .integerRegOp env fun w t =>
    t.modCl p.val fun c => (c.setX (fA w) (intFn (bitsOf w 5 0) (c.x (fB w)) (c.x (fC w)))).retire

/-- The shifts of opcode 0x08: imm16[7:6] selects, imm16[5:0] is the amount. -/
def shiftImm (kind sh : Nat) (a : Word) : Word :=
  match kind with
  | 0 => a <<< sh
  | 1 => a >>> sh
  | 2 => a.sshiftRight sh
  | _ => a.rotateRight sh

/-- The result of an immediate instruction (Table 3-8); `d` is x[rd] before it. -/
def immFn (w : Nat) (a d : Word) : Word :=
  let sx : Word := BitVec.ofInt 64 (fImm16 w)
  let zx : Word := BitVec.ofNat 64 (bitsOf w 15 0)
  match opOf w with
  | 0x02 => a + sx
  | 0x03 => a &&& zx
  | 0x04 => a ||| zx
  | 0x05 => a ^^^ zx
  | 0x06 => boolWord (decide (a.toInt < sx.toInt))
  | 0x07 => boolWord (decide (a.toNat < sx.toNat))
  | 0x08 => shiftImm (bitsOf w 7 6) (bitsOf w 5 0) a
  | 0x09 => zx <<< 16
  | _ =>
    let hw := bitsOf w 20 19
    BitVec.ofNat 64 (withBits d.toNat (16 * hw + 15) (16 * hw) (bitsOf w 15 0))

/-- Immediate operations and constants (R82). -/
def execImmediateOp (p : Fin 576) (env : CEnv) (s : State) : Res State :=
  s.instr p.val .immediateOp env fun w t =>
    t.modCl p.val fun c => (c.setX (fA w) (immFn w (c.x (fB w)) (c.x (fA w)))).retire

/-! ### Branches and jumps (R85) -/

/-- Jumps to a computed target after writing the link register; a target that is not a multiple of 4 traps at the jump,
and the link is not written. -/
def State.jumpTo (s : State) (P rd target : Nat) : State :=
  if target % 4 ≠ 0 then s.trap P Cause.fetchFault target
  else s.modCl P fun c => (c.setX rd (BitVec.ofNat 64 (c.pc + 4))).jump target

/-- Conditional branches: word offsets from the branch itself. -/
def execBranch (p : Fin 576) (env : CEnv) (s : State) : Res State :=
  s.instr p.val .branch env fun w t =>
    let c := t.cl p.val
    if branchHolds (fW w) (c.x (fA w)) (c.x (fB w)) then
      t.jumpTo p.val 0 (addr64 (BitVec.ofNat 64 c.pc) (4 * fOff13 w))
    else t.modCl p.val Cluster.retire

/-- jal. -/
def execJal (p : Fin 576) (env : CEnv) (s : State) : Res State :=
  s.instr p.val .jal env fun w t =>
    t.jumpTo p.val (fA w) (addr64 (BitVec.ofNat 64 (t.cl p.val).pc) (4 * fOff21 w))

/-- jalr. -/
def execJalr (p : Fin 576) (env : CEnv) (s : State) : Res State :=
  s.instr p.val .jalr env fun w t =>
    t.jumpTo p.val (fA w) (addr64 ((t.cl p.val).x (fB w)) (fImm16 w))

/-! ### Scalar FP (R65, R86 to R89) -/

/-- f[n] in binary64 and in binary32 (R65). -/
def Cluster.f64 (c : Cluster) (n : Nat) : Nat := c.vnum (1024 * n) 8

def Cluster.f32 (c : Cluster) (n : Nat) : Nat := c.vnum (1024 * n) 4

/-- Writes f[n]; a binary32 result leaves zero in bytes 4 to 7 (R65). -/
def Cluster.setF (c : Cluster) (n v : Nat) : Cluster := c.setV (1024 * n) 8 v

/-- The rounding mode of cluster `P` for one rounding with index `idx` (R187). -/
def State.rnd (s : State) (P idx : Nat) : Rnd :=
  let c := s.cl P
  Rnd.ofRM (rmOf c.fpctrl) (drawR1 c.seed ((s.logOfPhys P).getD 0) c.retired idx)

/-- The format and an operand that an fmt bit names. -/
def scalarFmt (single : Bool) : Fmt := if single then .binary32 else .binary64

def Cluster.fOf (c : Cluster) (single : Bool) (n : Nat) : Nat := if single then c.f32 n else c.f64 n

/-- The FP function `f` of Table 3-11 that writes an f register. -/
def fpFn (f : Nat) (m : Fmt) (r : Rnd) (ftz : Bool) (a b : Nat) : Nat × Fx :=
  match f with
  | 0x00 => m.addC r ftz a b
  | 0x01 => m.subC r ftz a b
  | 0x02 => m.mulC r ftz a b
  | 0x03 => m.divC r ftz a b
  | 0x04 => m.sqrtC r ftz a
  | 0x05 => m.minMaxC false ftz a b
  | 0x06 => m.minMaxC true ftz a b
  | 0x07 => (m.sgnjC 0 a b, {})
  | 0x08 => (m.sgnjC 1 a b, {})
  | _ => (m.sgnjC 2 a b, {})

/-- The comparison `f` of Table 3-11, 0x0A to 0x0C. -/
def fpCmp (f : Nat) (m : Fmt) (ftz : Bool) (a b : Nat) : Bool × Fx :=
  match f with
  | 0x0A => m.cmpC FVal.eq ftz a b
  | 0x0B => m.cmpC FVal.lt ftz a b
  | _ => m.cmpC FVal.le ftz a b

/-- An instruction that reads and writes the listed f registers issues only when no unfinished matrix instruction
holds them (R108, R142); a poisoned one that it reads traps (R285). `u` is the state in which it acts, `t` what it leaves.
(DESIGN CHOICE, log entry 66.) -/
def State.withF (s u : State) (P : Nat) (rd wr : List Nat) (t : State) : State :=
  let c := u.cl P
  if rd.any (fun n => c.regBusyR (n, 1)) || wr.any (fun n => c.regBusyW (n, 1)) then s
  else
    match rd.find? fun n => (c.vpoisIn (1024 * n) 8).isSome with
    | some n => u.trap P Cause.dataPoison n
    | none => t

/-- FP arithmetic, sign injection, minimum and maximum, comparison and fclass (R87). -/
def execFpArithmetic (p : Fin 576) (env : CEnv) (s : State) : Res State :=
  s.instr p.val .fpArithmetic env fun w t =>
    let c := t.cl p.val
    let f := bitsOf w 5 0
    let single := bitOf w 10
    let m := scalarFmt single
    let ftz := ftzOf c.fpctrl
    let a := c.fOf single (fB w)
    let b := c.fOf single (fC w)
    if f = 0x0D then
      s.withF t p.val [fB w] [] <| t.modCl p.val fun c => (c.setX (fA w) (BitVec.ofNat 64 (m.classC a))).retire
    else if 0x0A ≤ f then
      let (r, fx) := fpCmp f m ftz a b
      s.withF t p.val [fB w, fC w] [] <| t.modCl p.val fun c => ((c.setX (fA w) (boolWord r)).note fx).retire
    else
      let (r, fx) := fpFn f m (t.rnd p.val 0) ftz a b
      s.withF t p.val [fB w, fC w] [fA w] <| t.modCl p.val fun c => ((c.setF (fA w) r).note fx).retire

/-- fmadd, fmsub, fnmadd and fnmsub, each with one rounding (R88). -/
def execFusedMultiplyAdd (p : Fin 576) (env : CEnv) (s : State) : Res State :=
  s.instr p.val .fusedMultiplyAdd env fun w t =>
    let c := t.cl p.val
    let single := bitOf w 3
    let kind := bitsOf w 5 4
    let fs3 := bitsOf w 10 6
    let (r, fx) := (scalarFmt single).fmaC (decide (2 ≤ kind)) (kind == 1 || kind == 2) (t.rnd p.val 0)
      (ftzOf c.fpctrl) (c.fOf single (fB w)) (c.fOf single (fC w)) (c.fOf single fs3)
    s.withF t p.val [fB w, fC w, fs3] [fA w] <| t.modCl p.val fun c => ((c.setF (fA w) r).note fx).retire

/-- The 64-bit integer formats. -/
def i64 : IFmt := ⟨64, true⟩

def u64 : IFmt := ⟨64, false⟩

/-- The conversion `f` of Table 3-12 into an f register from an x value `x` or an f operand. -/
def cvtToF (f : Nat) (r : Rnd) (ftz : Bool) (x f64 f32 : Nat) : Nat × Fx :=
  match f with
  | 0x00 => i64.toFpC .binary64 r ftz x
  | 0x01 => u64.toFpC .binary64 r ftz x
  | 0x04 => Fmt.convC .binary64 .binary32 false r ftz ftz f64
  | 0x05 => Fmt.convC .binary32 .binary64 false r ftz ftz f32
  | 0x07 => (x, {})
  | _ => i64.toFpC .binary32 r ftz x

/-- The conversion `f` of Table 3-12 into an x register. (DEDUCED, log entry 63.) -/
def cvtToX (f : Nat) (r : Rnd) (ftz : Bool) (f64 f32 : Nat) : Nat × Fx :=
  match f with
  | 0x02 => Fmt.toIntC .binary64 i64 r ftz f64
  | 0x03 => Fmt.toIntC .binary64 u64 r ftz f64
  | 0x06 => (f64, {})
  | _ => Fmt.toIntC .binary32 i64 r ftz f32

/-- Conversions and moves between g and f (R89). -/
def execConversionMove (p : Fin 576) (env : CEnv) (s : State) : Res State :=
  s.instr p.val .conversionMove env fun w t =>
    let c := t.cl p.val
    let f := bitsOf w 5 0
    let ftz := ftzOf c.fpctrl
    let r := t.rnd p.val 0
    if [0x02, 0x03, 0x06, 0x09].contains f then
      let (v, fx) := cvtToX f r ftz (c.f64 (fB w)) (c.f32 (fB w))
      s.withF t p.val [fB w] [] <|
        t.modCl p.val fun c => ((c.setX (fA w) (BitVec.ofNat 64 v)).note fx).retire
    else
      let (v, fx) := cvtToF f r ftz (c.x (fB w)).toNat (c.f64 (fB w)) (c.f32 (fB w))
      s.withF t p.val (if [0x04, 0x05].contains f then [fB w] else []) [fA w] <|
        t.modCl p.val fun c => ((c.setF (fA w) v).note fx).retire

/-! ### Control words (R67 to R69, R100) -/

/-- The value of a control word; none for an unlisted number (Table 3-1). -/
def State.cwRead (s : State) (P n : Nat) : Option Nat :=
  let c := s.cl P
  match n with
  | 0x000 => some (((s.clPart P).getD 0) * 2 ^ 26 + reachOfPhys P * 2 ^ 20 + P * 2 ^ 10 + (s.logOfPhys P).getD 0)
  | 0x001 => some c.fpctrl
  | 0x002 => some (b2n c.hmode + 2 * b2n c.deferred)
  | 0x003 => some c.tvec
  | 0x004 => some c.epc
  | 0x005 => some c.cause
  | 0x006 => some c.tval
  | 0x007 => some c.tscratch
  | 0x008 => some s.now
  | 0x009 => some (c.hc % 2 ^ 64)
  | 0x00A => some (c.retired % 2 ^ 64)
  | 0x00B => some c.seed
  | 0x00C => some c.deadline
  | 0x00D => some c.nmOut
  | 0x00E => some c.remoteOut
  | 0x020 => some c.vl
  | 0x021 => some c.vtype
  | _ => none

/-- The three ways to write a control word (R100). -/
inductive CwWrite where
  | wr
  | set
  | clr
  deriving DecidableEq, Repr

/-- The value that a write form gives a word's RW fields. (DEDUCED, log entry 12.) -/
def CwWrite.value (k : CwWrite) (old x : Nat) : Nat :=
  match k with
  | .wr => x
  | .set => old ||| x
  | .clr => Nat.xor old (old &&& x)

/-- CW_FPCTRL after a write: FTZ and RM take the value, FLUSH_SEEN clears where cw.wr or cw.set writes 1, and the other
bits ignore the write (Table 3-2, R100). -/
def fpctrlWrite (k : CwWrite) (old x : Nat) : Nat :=
  let v := k.value old x
  let t := withBits (withBits old 0 0 (bitsOf v 0 0)) 3 2 (bitsOf v 3 2)
  if k != .clr && bitOf x 8 then withBits t 8 8 0 else t

/-- The cluster after a write to control word `n`; none where the write traps (R67 to R69). (DEDUCED, log entry 12.) -/
def Cluster.cwWrite (c : Cluster) (k : CwWrite) (n x : Nat) : Option Cluster :=
  match n with
  | 0x001 =>
    let v := fpctrlWrite k c.fpctrl x
    if bitsOf v 3 2 = 3 then none else some { c with fpctrl := v }
  | 0x003 =>
    let v := k.value c.tvec x
    if v % 4 ≠ 0 then none else some { c with tvec := v }
  | 0x004 =>
    let v := k.value c.epc x
    if v % 4 ≠ 0 then none else some { c with epc := v }
  | 0x007 => some { c with tscratch := k.value c.tscratch x }
  | _ => none

/-- A write form of the control-word instructions. -/
def State.cwStore (s : State) (P : Nat) (k : CwWrite) (w : Nat) : State :=
  let c := s.cl P
  match c.cwWrite k (fCw w) (c.x (fB w)).toNat with
  | some d => s.setCl P d.retire
  | none => s.trap P Cause.cwAccess w

/-- cw.rd. -/
def execCwRd (p : Fin 576) (env : CEnv) (s : State) : Res State :=
  s.instr p.val .cwRd env fun w t =>
    match t.cwRead p.val (fCw w) with
    | some v => t.modCl p.val fun c => (c.setX (fA w) (BitVec.ofNat 64 v)).retire
    | none => t.trap p.val Cause.cwAccess w

/-- cw.wr. -/
def execCwWr (p : Fin 576) (env : CEnv) (s : State) : Res State :=
  s.instr p.val .cwWr env fun w t => t.cwStore p.val .wr w

/-- cw.set. -/
def execCwSet (p : Fin 576) (env : CEnv) (s : State) : Res State :=
  s.instr p.val .cwSet env fun w t => t.cwStore p.val .set w

/-- cw.clr. -/
def execCwClr (p : Fin 576) (env : CEnv) (s : State) : Res State :=
  s.instr p.val .cwClr env fun w t => t.cwStore p.val .clr w

/-! ### brk and eret (R101) -/

/-- brk takes a BREAK trap. -/
def execBrk (p : Fin 576) (env : CEnv) (s : State) : Res State :=
  s.instr p.val .brk env fun _ t => t.trap p.val Cause.brk 0

/-- eret returns from the handler; outside it, it is illegal. -/
def execEret (p : Fin 576) (env : CEnv) (s : State) : Res State :=
  s.instr p.val .eret env fun w t =>
    if (t.cl p.val).hmode then t.modCl p.val Cluster.eret
    else t.trap p.val Cause.illegal w

end Sys2Proof.Machine
end

