-- ==== Sys2Proof/Machine/ScalarMem.lean ====
section
/-! DEFINITION. The scalar instructions that access local memory: loads, stores, atomics, flag operations, fences and
halt (R83, R84, R90 to R94, R98 to R102). -/

namespace Sys2Proof.Machine

/-! ### One access of a cluster -/

/-- A checked load of `n` bytes: the physical address translated under R709, the wait for unfinished mout writes
(R169), what the read meets (R285), then `k` with the value. `s` is the state in which nothing has happened yet.
(DEDUCED, log entry 13; DESIGN CHOICE, log entry 16.) -/
def State.loadVia (s t : State) (P : Nat) (env : CEnv) (n la : Nat) (k : Nat → State → State) : State :=
  match t.clTranslate P false n la with
  | .error c => t.trap P c la
  | .ok pa =>
    if (t.cl P).memBusyR (ownRange P pa n) then s
    else if !t.reaches P env pa then t.trap P Cause.dataPoison la
    else
      let u := (t.access P env [⟨pa, n, false⟩]).meetEcc env.ecc pa
      if u.poisonedAt pa then u.trap P Cause.dataPoison la else k (u.numAt pa n) u

/-- A store that cluster `P` makes at a translated address: with no path left it is dropped and the cluster stops
(R591); a store into the own basin leaves what the fetch may still see (R76). (DESIGN CHOICE, log entry 16.) -/
def State.storeAt (t : State) (P : Nat) (env : CEnv) (la pa : Nat) (bs : List Byte) (k : State → State) : State :=
  if !t.reaches P env pa then t.stopCluster P Cause.dataPoison la (t.cl P).pc Cause.dataPoison
  else k ((t.markStale P pa bs.length).store pa bs)

/-- A checked store of the `n` low bytes of `v`. (DEDUCED, log entry 13.) -/
def State.storeVia (s t : State) (P : Nat) (env : CEnv) (n la v : Nat) (k : State → State) : State :=
  match t.clTranslate P true n la with
  | .error c => t.trap P c la
  | .ok pa =>
    if (t.cl P).memBusyW (ownRange P pa n) then s
    else ((t.access P env [⟨pa, n, true⟩]).mergeRead env.ecc pa n).storeAt P env la pa (bytesLE n v) k

/-- A checked read-modify-write of an 8-byte word (R90): `upd` gives the new value, none for no write; `k` gets the old
value. -/
def State.atomicVia (s t : State) (P : Nat) (env : CEnv) (la : Nat) (upd : Word → Option Word)
    (k : Word → State → State) : State :=
  match t.clTranslate P true 8 la with
  | .error c => t.trap P c la
  | .ok pa =>
    if (t.cl P).memBusyW (ownRange P pa 8) then s
    else if !t.reaches P env pa then t.trap P Cause.dataPoison la
    else
      let u := (t.access P env [⟨pa, 8, true⟩]).meetEcc env.ecc pa
      if u.poisonedAt pa then u.trap P Cause.dataPoison la
      else
        let old : Word := BitVec.ofNat 64 (u.numAt pa 8)
        match upd old with
        | none => k old u
        | some v => u.storeAt P env la pa (bytesLE 8 v.toNat) (k old)

/-! ### Loads and stores (Table 3-9) -/

/-- The width of an M-format access. -/
def mWidth (w : Nat) : Nat := 2 ^ (fW w % 4)

/-- The effective address of an M-format access. -/
def Cluster.mAddr (c : Cluster) (w : Nat) : Nat := addr64 (c.x (fB w)) (fOff13 w)

/-- What an integer load of code `k` writes. -/
def loadExt (k v : Nat) : Word := if k < 3 then sext64 (8 * 2 ^ k) v else BitVec.ofNat 64 v

/-- Integer loads (R83). -/
def execIntegerLoad (p : Fin 576) (env : CEnv) (s : State) : Res State :=
  s.instr p.val .integerLoad env fun w t =>
    s.loadVia t p.val env (mWidth w) ((t.cl p.val).mAddr w) fun v u =>
      u.modCl p.val fun c => (c.setX (fA w) (loadExt (fW w) v)).retire

/-- Integer stores (R83). -/
def execIntegerStore (p : Fin 576) (env : CEnv) (s : State) : Res State :=
  s.instr p.val .integerStore env fun w t =>
    let c := t.cl p.val
    s.storeVia t p.val env (mWidth w) (c.mAddr w) (c.x (fA w)).toNat fun u => u.modCl p.val Cluster.retire

/-- FP loads (R83, R65). -/
def execFpLoad (p : Fin 576) (env : CEnv) (s : State) : Res State :=
  s.instr p.val .fpLoad env fun w t =>
    s.withF t p.val [] [fA w] <|
      s.loadVia t p.val env (mWidth w) ((t.cl p.val).mAddr w) fun v u =>
        u.modCl p.val fun c => (c.setF (fA w) v).retire

/-- FP stores (R83). -/
def execFpStore (p : Fin 576) (env : CEnv) (s : State) : Res State :=
  s.instr p.val .fpStore env fun w t =>
    let c := t.cl p.val
    s.withF t p.val [fA w] [] <|
      s.storeVia t p.val env (mWidth w) (c.mAddr w) (c.f64 (fA w)) fun u => u.modCl p.val Cluster.retire

/-! ### Atomics (Table 3-13) and work claims (R484) -/

/-- The new value of atomic operation `f`; none where amocas does not write. -/
def atomicFn (f : Nat) (old x d : Word) : Option Word :=
  match f with
  | 0 => some (old + x)
  | 1 => some x
  | 2 => some (old &&& x)
  | 3 => some (old ||| x)
  | 4 => some (if old.toInt ≤ x.toInt then x else old)
  | 5 => some (if old.toInt ≤ x.toInt then old else x)
  | _ => if old = d then some x else none

/-- The claim word of partition `q` that a local address names, where claims are enabled (R484). -/
def State.claimWord (s : State) (q la : Nat) : Option Nat :=
  let r := Reg.partClaim q
  if s.flag r F.PART_CLAIM_ENABLE && la / 128 == s.fld r F.PART_CLAIM_LINE then some (la % 128 / 8) else none

/-- The claims that cluster `P` of a run has performed on a word. -/
def RunWork.claimsOf (r : RunWork) (word P : Nat) : Nat := (r.claims.filter fun c => c.1 == word && c.2 == P).length

/-- Is it `P`'s turn in deal order: has every claim before it been performed, or belongs to a cluster that has ended?
(DESIGN CHOICE, log entry 53.) -/
def State.claimTurn (s : State) (r : RunWork) (word P : Nat) : Bool :=
  let k := r.claimsOf word P
  let L := (s.logOfPhys P).getD 0
  r.live.all fun Q => Q == P ||
    (if (s.logOfPhys Q).getD 0 < L then decide (k + 1 ≤ r.claimsOf word Q) else decide (k ≤ r.claimsOf word Q))

/-- The claim that an amoadd makes under deal order: the run it belongs to and the claim word. -/
def State.dealClaim (s : State) (P la : Nat) : Option (RunWork × Nat) :=
  match s.clPart P, (s.cl P).barge with
  | some q, some (k, n) =>
    if s.dlbOff q then
      match s.claimWord q la, s.barge? k n with
      | some word, some b => b.run?.map fun r => (r, word)
      | _, _ => none
    else none
  | _, _ => none

/-- A claim that cluster `P` has performed is counted in its run. -/
def State.claimed (s : State) (P word : Nat) : State :=
  match (s.cl P).barge.bind fun x => s.barge? x.1 x.2 with
  | none => s
  | some b =>
    match b.run? with
    | none => s
    | some r => s.setBarge { b with work := .run { r with claims := r.claims ++ [(word, P)] } }

/-- Atomics (R90). Under deal order an amoadd to a claim word waits for its turn. -/
def execAtomic (p : Fin 576) (env : CEnv) (s : State) : Res State :=
  s.instr p.val .atomic env fun w t =>
    let c := t.cl p.val
    let f := bitsOf w 2 0
    let la := (c.x (fB w)).toNat
    let x := c.x (fC w)
    let run := fun (after : State → State) => s.atomicVia t p.val env la (fun old => atomicFn f old x (c.x (fA w))) fun old u =>
      (after u).modCl p.val fun d => (d.setX (fA w) old).retire
    match if f = 0 then t.dealClaim p.val la else none with
    | none => run id
    | some (r, word) => if !t.claimTurn r word p.val then s else run fun u => u.claimed p.val word

/-! ### Flag operations (R91 to R94) -/

/-- st.flag: performed once every earlier store of the cluster is visible (R293). -/
def execStFlag (p : Fin 576) (env : CEnv) (s : State) : Res State :=
  s.instr p.val .stFlag env fun w t =>
    let c := t.cl p.val
    if c.moutOpen then s
    else s.storeVia t p.val env 8 (c.x (fB w)).toNat (c.x (fC w)).toNat fun u => u.modCl p.val Cluster.retire

/-- st.flag.add: a flagged store and an acquire (R293, R294). A poisoned word traps as it does under another atomic (R84); R91
names that trap for wait.flag alone. (DESIGN CHOICE, log entry 12.) -/
def execStFlagAdd (p : Fin 576) (env : CEnv) (s : State) : Res State :=
  s.instr p.val .stFlagAdd env fun w t =>
    let c := t.cl p.val
    if c.moutOpen then s
    else s.atomicVia t p.val env (c.x (fB w)).toNat (fun old => some (old + c.x (fC w))) fun old u =>
      u.modCl p.val fun d => (d.setX (fA w) old).retire

/-- Does stack `st` have a free watch entry (R93)? -/
def State.watchFree (s : State) (st : Nat) : Bool := decide ((s.watches.filter (·.stack == st)).length < 128)

/-- Is a word watched by a basin bank, which has no limit of watchers? -/
def watchesFreely (pa : Nat) : Bool := inBasin pa

/-- Takes a watch entry for a word of device memory where one is free; says whether the word is watched. -/
def State.takeWatch (s : State) (pa : Nat) (who : Watcher) : Bool × State :=
  if watchesFreely pa then (true, s)
  else if s.watchFree (s.stackOf pa) then (true, { s with watches := s.watches ++ [⟨s.stackOf pa, who⟩] })
  else (false, s)

/-- Completes a waiting wait.flag with value `v`. -/
def State.endWait (s : State) (P : Nat) (f : FlagWait) (v : Word) : State :=
  (s.modCl P fun c => ({ c with wait := .none }.setX f.rd v).retire).unwatch (.cluster P)

/-- wait.flag: the first read (R93). -/
def execWaitFlag (p : Fin 576) (env : CEnv) (s : State) : Res State :=
  s.instr p.val .waitFlag env fun w t =>
    let c := t.cl p.val
    let la := (c.x (fB w)).toNat
    let ref := c.x (fC w)
    s.loadVia t p.val env 8 la fun v u =>
      let v : Word := BitVec.ofNat 64 v
      if condHolds (bitsOf w 7 5) v ref then u.modCl p.val fun d => (d.setX (fA w) v).retire
      else
        let pa := match u.clTranslate p.val false 8 la with
          | .ok pa => pa
          | .error _ => 0
        let (watched, u) := u.takeWatch pa (.cluster p.val)
        u.modCl p.val fun d =>
          { d with wait := .flag ⟨fA w, la, pa, ref, bitsOf w 7 5, bitsOf w 4 0, watched, v, d.hc⟩ }

/-- What a running cluster waits for: a paused one completes nothing (R94, R107). -/
def Cluster.waitsNow (c : Cluster) : CWait := if c.act = .running then c.wait else .none

/-- A waiting wait.flag reads its word again, which is poison where no path leads to it (R591); `again` says what it does where
the condition still fails. -/
def State.reread (s : State) (P : Nat) (env : CEnv) (f : FlagWait) (again : Word → State → State) : State :=
  let t := s.tick P env.hc
  if !t.reaches P env f.pa then (t.unwatch (.cluster P)).trap P Cause.dataPoison f.la
  else
    let u := (t.access P env [⟨f.pa, 8, false⟩]).meetEcc env.ecc f.pa
    if u.poisonedAt f.pa then (u.unwatch (.cluster P)).trap P Cause.dataPoison f.la
    else
      let v : Word := BitVec.ofNat 64 (u.numAt f.pa 8)
      if condHolds f.cond v f.ref then u.endWait P f v else again v u

/-- A write to a watched word makes the waiting wait.flag read it again (R93). -/
def execWaitFlagComplete (p : Fin 576) (env : CEnv) (s : State) : Res State :=
  s.goDie (p.val / 144) <|
    match (s.cl p.val).waitsNow with
    | .flag f =>
      if f.watched then
        s.atBoundary (s.reread p.val env f fun v t => t.modCl p.val fun c => { c with wait := .flag { f with last := v } }) p.val
      else s
    | _ => s

/-- Without a watch entry the word is read every 256 hc, until an entry frees (R93). -/
def execWaitFlagPoll (p : Fin 576) (env : CEnv) (s : State) : Res State :=
  s.goDie (p.val / 144) <|
    match (s.cl p.val).waitsNow with
    | .flag f =>
      if f.watched then s
      else s.atBoundary (s.reread p.val env f fun v t =>
        let (watched, t) := t.takeWatch f.pa (.cluster p.val)
        t.modCl p.val fun c => { c with wait := .flag { f with last := v, watched := watched } }) p.val
    | _ => s

/-- The timeout of R92: 2^(tmo+9) hc after the first read; none for a tmo of 0. -/
def FlagWait.due (f : FlagWait) (hc : Nat) : Bool := f.tmo != 0 && decide (f.since + 2 ^ (f.tmo + 9) ≤ hc)

/-- A wait.flag whose timeout has passed completes with the last value read. -/
def execWaitFlagTimeout (p : Fin 576) (env : CEnv) (s : State) : Res State :=
  s.goDie (p.val / 144) <|
    match (s.cl p.val).waitsNow with
    | .flag f =>
      if f.due ((s.cl p.val).hc + env.hc) then s.atBoundary ((s.tick p.val env.hc).endWait p.val f f.last) p.val else s
    | _ => s

/-! ### Fences and halt (R98, R99, R101, R102) -/

/-- Ends the cargo on cluster `P` with an exit value (R101, R102). -/
def State.endCargo (s : State) (P : Nat) (exit : Nat) : State :=
  let s := s.modCl P Cluster.retire
  let own := (s.cl P).barge
  let t := (s.leaveRun P (some exit)).modCl P (Cluster.halted · .idle)
  match own with
  | some (k, q) => t.finishRun k q
  | none => t

/-- Are every near-memory operation, remote store and matrix instruction of the cluster complete (R101, R169)? -/
def Cluster.drained (c : Cluster) : Bool := c.nmOut == 0 && c.remoteOut == 0 && c.mat.isEmpty

/-- Completes a halt whose wait has ended: the cargo ends, unless a deferred fault is delivered first. -/
def State.endHalt (s : State) (P : Nat) (exit : Nat) : State :=
  if (s.cl P).deferred then s.deliverDeferred P else s.endCargo P exit

/-- fence: completes once every earlier local access is visible; only unfinished matrix instructions remain open.
(DEDUCED, log entry 12; DESIGN CHOICE, log entry 16.) -/
def execFenceInstruction (p : Fin 576) (env : CEnv) (s : State) : Res State :=
  s.instr p.val .fence env fun _ t =>
    t.modCl p.val fun c => if c.mat.isEmpty then c.retire else { c with wait := .fence }

/-- fence.r. -/
def execFenceR (p : Fin 576) (env : CEnv) (s : State) : Res State :=
  s.instr p.val .fenceR env fun _ t =>
    if (t.cl p.val).deferred then t.deliverDeferred p.val
    else t.modCl p.val fun c => if c.remoteOut = 0 then c.retire else { c with wait := .fenceR }

/-- fence.nm. -/
def execFenceNm (p : Fin 576) (env : CEnv) (s : State) : Res State :=
  s.instr p.val .fenceNm env fun _ t =>
    t.modCl p.val fun c => if c.nmOut = 0 then c.retire else { c with wait := .fenceNm }

/-- fence.i: earlier own-basin stores, mout writes included, are visible to the fetch. (DESIGN CHOICE, log entry 11.) -/
def execFenceI (p : Fin 576) (env : CEnv) (s : State) : Res State :=
  s.instr p.val .fenceI env fun _ t =>
    if (t.cl p.val).moutOpen then s else t.modCl p.val fun c => { c with stale := [] }.retire

/-- The condition of a waiting fence has come to hold. -/
def execFenceWaitEnd (p : Fin 576) (env : CEnv) (s : State) : Res State :=
  s.goDie (p.val / 144) <|
    let c := s.cl p.val
    let t := s.tick p.val env.hc
    let pass := s.atBoundary (t.modCl p.val fun d => { d with wait := .none }.retire) p.val
    match c.waitsNow with
    | .fence => if c.mat.isEmpty then pass else s
    | .fenceR =>
      if c.remoteOut ≠ 0 then s
      else if c.deferred then s.atBoundary ((t.modCl p.val fun d => { d with wait := .none }).deliverDeferred p.val) p.val
      else pass
    | .fenceNm => if c.nmOut = 0 then pass else s
    | _ => s

/-- halt: a pending deferred fault first; then the wait, which may be over at once. (DEDUCED, log entry 12.) -/
def execHalt (p : Fin 576) (env : CEnv) (s : State) : Res State :=
  s.instr p.val .halt env fun w t =>
    let c := t.cl p.val
    let exit := (c.x (fA w)).toNat % 2 ^ 32
    if c.deferred then t.deliverDeferred p.val
    else if c.drained then t.endHalt p.val exit
    else t.modCl p.val fun d => { d with wait := .halt (BitVec.ofNat 32 exit) }

/-- The wait of a halt has ended. -/
def execHaltWaitEnd (p : Fin 576) (env : CEnv) (s : State) : Res State :=
  s.goDie (p.val / 144) <|
    let c := s.cl p.val
    match c.waitsNow with
    | .halt exit =>
      if c.drained then
        s.atBoundary (((s.tick p.val env.hc).modCl p.val fun d => { d with wait := .none }).endHalt p.val exit.toNat) p.val
      else s
    | _ => s

end Sys2Proof.Machine
end

