-- ==== Sys2Proof/Machine/CargoImage.lean ====
section
/-! DEFINITION. Cargo images (R408, R409), pass tables and the overlap check (R174 to R176), the cargo store and its
handles (R407), and the placement of a cargo (R413). -/

namespace Sys2Proof.Machine

/-! ### Images -/

/-- A section directory entry (Table 13-7). -/
structure Section where
  type     : Nat
  basinOff : Nat
  length   : Nat
  imageOff : Nat
  zeros    : Bool        -- its bytes 1–7 and 24–31 are zero
  deriving DecidableEq, Repr

/-- Section `i` of an image. -/
def sectionAt (img : List Byte) (i : Nat) : Section :=
  let d := sliceB img (64 + 32 * i) 32
  ⟨fieldB d 0 0, fieldB d 11 8, fieldB d 15 12, fieldB d 23 16, zeroB d 7 1 && zeroB d 31 24⟩

/-- The sections of an image. -/
def sectionsOf (img : List Byte) : List Section := (List.range (fieldB img 7 6)).map (sectionAt img)

/-- The basin offset of the first instruction (ENTRY). -/
def entryOf (img : List Byte) : Nat := fieldB img 11 8

/-- Does a section lie in a basin: types 0x01 to 0x03? -/
def Section.inBasin (x : Section) : Bool := decide (1 ≤ x.type ∧ x.type ≤ 3)

/-- Does the header of an image of `n` bytes break Table 13-6? -/
def headerBad (img : List Byte) (n : Nat) : Bool :=
  let k := fieldB img 7 6
  fieldB img 3 0 != 0x4B436172 || fieldB img 5 4 != 1 || !zeroB img 15 12 || !zeroB img 63 32 || fieldB img 23 16 != n ||
    k == 0 || decide (32 < k) || decide (n < 64 + 32 * k) ||
    fieldB img 31 24 != digest64 (patchB (sliceB img 0 n) 24 (List.replicate 8 0))

/-- Does a section break R409, `before` being the sections of lower index? -/
def sectionBad (n : Nat) (before : List Section) (x : Section) : Bool :=
  !x.zeros || x.type == 0 || decide (5 < x.type) ||
    (x.inBasin && (x.length % 4 != 0 || x.basinOff % 128 != 0 || decide (basinSize < x.basinOff + x.length) ||
      before.any fun y => y.inBasin && y.length != 0 && x.length != 0 &&
        decide (x.basinOff < y.basinOff + y.length ∧ y.basinOff < x.basinOff + x.length))) ||
    (!x.inBasin && x.basinOff != 0) || (x.type == 3 && x.imageOff != 0) ||
    (x.type != 3 && decide (n < x.imageOff + x.length)) ||
    (x.type == 5 && before.any fun y => y.type == 5)

/-- The first failing section of a list. -/
def firstBadSection (n : Nat) : List Section → List Section → Nat → Option Nat
  | _, [], _ => none
  | before, x :: rest, i => if sectionBad n before x then some i else firstBadSection n (before ++ [x]) rest (i + 1)

/-- The index that RESULT0 reports for an image that is not valid: the first failing section, or 0xFF for the header. -/
def imageFault (img : List Byte) (n : Nat) : Option Nat :=
  if headerBad img n then some 0xFF
  else
    let secs := sectionsOf img
    match firstBadSection n [] secs 0 with
    | some i => some i
    | none =>
      let e := entryOf img
      if e % 4 ≠ 0 ∨ !(secs.any fun x => x.type == 1 && decide (x.basinOff ≤ e ∧ e + 4 ≤ x.basinOff + x.length)) then
        some 0xFF
      else none

/-! ### Pass tables (R174 to R176) -/

/-- A region of a pass table. -/
structure Region where
  layer : Nat
  kind  : Nat
  base  : Nat
  len   : Nat
  deriving DecidableEq, Repr

/-- The bytes of the section of type 0x05, where the image has one. -/
def passBytes (img : List Byte) : Option (List Byte) :=
  ((sectionsOf img).find? fun x => x.type == 5).map fun x => sliceB img x.imageOff x.length

/-- The number of layers of a pass table, and region `k` of layer `l`. -/
def passLayers (t : List Byte) : Nat := fieldB t 1 0

def passRegion (t : List Byte) (l k : Nat) : Region :=
  let o := 16 + 64 * l + 16 * k
  ⟨l, k, fieldB t (o + 7) o, fieldB t (o + 15) (o + 8)⟩

/-- The regions of a pass table, absent ones included, in layer and kind order. -/
def passRegions (t : List Byte) : List Region :=
  (List.range (passLayers t)).flatMap fun l => (List.range 3).map (passRegion t l)

/-- Does a pass table break R174? A region whose end lies beyond the local address space breaks it as well: the rule limits
the base alone. (DESIGN CHOICE, log entry 59.) -/
def passBad (t : List Byte) : Bool :=
  let n := passLayers t
  decide (t.length < 16) || n == 0 || decide (4096 < n) || fieldB t 3 2 != 1 || !zeroB t 15 4 ||
    decide (t.length < 16 + 64 * n) ||
    ((List.range n).any fun l => !zeroB t (16 + 64 * l + 63) (16 + 64 * l + 48)) ||
    (passRegions t).any fun r => r.len % 128 != 0 || (r.len == 0 && r.base != 0) ||
      (r.len != 0 && (decide (r.base < 2 ^ 32) || decide (2 ^ 48 < r.base + r.len)))

/-- Does a code section hold an mma or mout with DEFER (R175)? -/
def usesDefer (img : List Byte) : Bool :=
  (sectionsOf img).any fun x => x.type == 1 && (List.range (x.length / 4)).any fun i =>
    let w := fieldB img (x.imageOff + 4 * i + 3) (x.imageOff + 4 * i)
    (w / 2 ^ 26 == 0x38 && maDefer w) || (w / 2 ^ 26 == 0x39 && moDefer w)

/-- The pages of a partition that a region touches. -/
def pagesOf (maps : List MapRec) (p : Nat) (r : Region) : List MapRec :=
  maps.filter fun m => m.part == p && decide (m.va < r.base + r.len ∧ r.base < m.va + pageBytes m.size)

/-- Do two regions overlap: locally, or in a physical page? (DESIGN CHOICE, log entry 59.) -/
def regionsMeet (maps : List MapRec) (p : Nat) (a b : Region) : Bool :=
  decide (a.base < b.base + b.len ∧ b.base < a.base + a.len) ||
    (pagesOf maps p a).any fun x => (pagesOf maps p b).any fun y =>
      decide (x.pa < y.pa + pageBytes y.size ∧ y.pa < x.pa + pageBytes x.size)

/-- The first overlap among the present regions, as the result word of R175. -/
def tiedWord (maps : List MapRec) (p : Nat) : List Region → Option Nat
  | [] => none
  | a :: rest =>
    match rest.find? (regionsMeet maps p a) with
    | some b => some (a.layer + b.layer * 2 ^ 16 + a.kind * 2 ^ 32 + b.kind * 2 ^ 34)
    | none => tiedWord maps p rest

/-- The overlap check of R175 over an image. -/
def State.tied (s : State) (p : Nat) (img : List Byte) : Option Nat :=
  (passBytes img).bind fun t => tiedWord s.maps p ((passRegions t).filter fun r => r.len != 0)

/-! ### The cargo store (R407) -/

/-- A slot of a partition's store. -/
def State.cargoSlot (s : State) (p k : Nat) : CargoSlot :=
  (s.cargo.find? fun x => x.part == p && x.slot == k).getD ⟨p, k, 0, false, [], 0⟩

/-- Sets a slot. -/
def State.setCargoSlot (s : State) (x : CargoSlot) : State :=
  { s with cargo := s.cargo.filter (fun y => !(y.part == x.part && y.slot == x.slot)) ++ [x] }

/-- The cargo that a handle names in a partition's store. -/
def State.cargoOf (s : State) (p h : Nat) : Option CargoSlot :=
  let x := s.cargoSlot p (h % 256)
  if h % 256 < 64 ∧ x.loaded ∧ x.gen = h / 256 then some x else none

/-- The version of a partition's map. -/
def State.mapVersion (s : State) (p : Nat) : Nat := spGet (fun _ => 0) s.mapVer p

/-! ### Placement (R413) -/

/-- Copies the sections of types 0x01 and 0x02 into a basin and writes zeros over those of type 0x03. -/
def State.placeIn (s : State) (img : List Byte) (P : Nat) : State :=
  (sectionsOf img).foldl (fun t x =>
    if x.type = 1 ∨ x.type = 2 then t.store (basinPA P + x.basinOff) (sliceB img x.imageOff x.length)
    else if x.type = 3 then t.zeroRange (basinPA P + x.basinOff) x.length
    else t) s

/-- Leaves the sections' basin bytes undefined. (DEDUCED, log entry 64.) -/
def State.undefineIn (s : State) (img : List Byte) (P : Nat) : State :=
  (sectionsOf img).foldl (fun t x => if x.inBasin then t.undefine (basinPA P + x.basinOff) x.length else t) s

/-- A stop that falls during placement (R413): the section bytes of every selected cluster are undefined. -/
def State.unplace (s : State) (b : Barge) : State :=
  if b.phase = .started then
    match s.cargoOf b.part (b.f 35 32) with
    | some x => ((s.selClusters b).filterMap s.physOfLog).foldl (fun t P => t.undefineIn x.image P) s
    | none => s
  else s

/-- The start state of a cluster (R66), with the counters of R144 and R177 at zero. -/
def startCluster (act : Act) (entry : Nat) (args : List Word) (seed deadline canal seq : Nat) : Cluster :=
  { Cluster.reset with
    act := act
    fresh := false
    pc := entry
    g := args.zipIdx.foldl (fun l a => spSet (fun _ => (0 : Word)) (a.2 + 1) a.1 l) []
    seed := seed
    deadline := deadline
    barge := some (canal, seq) }

end Sys2Proof.Machine
end

