-- ==== Sys2Proof/Machine/LogView.lean ====
section
/-! DEFINITION. Logbook entries and error records as bytes (Tables 14-1 and 20-3), and what the logbook registers show
(R433 to R435). -/

namespace Sys2Proof.Machine

/-- The bytes of an entry before its CHECK is set. -/
def LogEntry.raw (e : LogEntry) : List Byte :=
  let attr := (match e.part with
    | some p => p + 8
    | none => 0) + 16 * e.writer + 32 * b2n e.single
  bytesLE 8 e.number ++ bytesLE 8 e.time ++ bytesLE 1 e.kind ++ bytesLE 1 attr ++ bytesLE 1 e.canal ++ [0] ++
    bytesLE 4 e.seq ++ bytesLE 2 e.status ++ [0, 0] ++ bytesLE 4 0 ++ sliceB e.barge 0 128 ++ sliceB e.tally 0 32 ++
    sliceB e.event 0 64

/-- The 256 bytes of a logbook entry (Table 14-1). (DEDUCED, log entry 57.) -/
def LogEntry.bytes (e : LogEntry) : List Byte := patchB e.raw 28 (bytesLE 4 (crc32c e.raw))

/-- The 64 bytes of an error record (Table 20-3). -/
def ErrRec.bytes (r : ErrRec) : List Byte :=
  let attr := match r.part with
    | some p => p + 8
    | none => 0
  bytesLE 8 r.number ++ bytesLE 8 r.time ++ bytesLE 8 r.logEntry ++ bytesLE 4 0 ++ bytesLE 4 r.unit ++
    bytesLE 1 r.kind ++ bytesLE 1 r.level ++ bytesLE 1 attr ++ bytesLE 1 r.action ++ bytesLE 4 r.count ++
    bytesLE 8 r.addr ++ bytesLE 16 r.detail

/-- LOG_OLDEST: the lowest entry number still in the ring, LOG_HEAD for an empty logbook (R427). -/
def State.logOldest (s : State) : Nat :=
  match s.log.entries.head? with
  | some e => e.number
  | none => s.log.next

/-- May a partition see an entry whole: its own entries and the package's (R432)? -/
def LogEntry.seenBy (e : LogEntry) (p : Nat) : Bool :=
  e.part == some p || [0x7, 0x8, 0x9, 0xA, 0xB].contains e.kind

/-- LOG_CANAL_MARK (R433); the barges that a reset of level 7 cut off count until the boot closes them (R429). Both lists are
in the order of acceptance. -/
def State.canalMark (s : State) (c : Nat) : Nat :=
  match (s.log.orphans ++ s.barges).find? fun b => b.canal == c with
  | some b => b.entry
  | none => s.log.next

/-- The logbook index of a view: window 0's own, or that of a partition (R689). -/
def State.logIndex (s : State) (view : Option Nat) : Nat :=
  match view with
  | none => s.reg Reg.logReadIndex
  | some p => spGet (fun _ => 0) s.logRead p

/-- LOG_READ_DATA[k] through a view (R435). -/
def State.logData (s : State) (view : Option Nat) (k : Nat) : Nat :=
  match s.log.entries.find? fun e => e.number == s.logIndex view with
  | none => 0
  | some e =>
    let bs := match view with
      | some p => if e.seenBy p then e.bytes
          else patchB (List.replicate 256 0) 0 (bytesLE 8 e.number ++ List.replicate 8 0 ++ bytesLE 1 e.kind)
      | none => e.bytes
    fieldB bs (8 * k + 7) (8 * k)

/-- LOG_STATUS as it reads. -/
def State.logStatusView (s : State) (view : Option Nat) : Nat :=
  let i := s.logIndex view
  [(F.LOG_STATUS_ACCEPT_HELD, b2n (decide (1048576 ≤ s.barges.length))), (F.LOG_STATUS_SINGLE, b2n s.logSingle),
    (F.LOG_STATUS_READ_VALID, b2n (decide (s.logOldest ≤ i ∧ i < s.log.next))),
    (F.LOG_STATUS_OUTSTANDING, s.barges.length)].foldl (fun n fv => withBits n fv.1.hi fv.1.lo fv.2) 0

end Sys2Proof.Machine
end

