-- ==== Sys2Proof/Machine/Control.lean ====
section
/-! DEFINITION. The control barges: NOP, FENCE, SIGNAL, WAIT, LOG_QUERY and CANAL_DRAIN (R362, R369, R392 to R396, R430
to R432). -/

namespace Sys2Proof.Machine

/-! ### Running the work of a barge -/

/-- Runs the work of a started barge of one of these native opcodes; anything else leaves the state.
(DESIGN CHOICE, log entry 8.) -/
def State.work (s : State) (c q : Nat) (ops : List Nat) (body : Barge → State → State) : Res State :=
  s.go <| match s.barge? c q with
    | some b => if b.phase = .started ∧ ops.contains b.native then body b s else s
    | none => s

/-- Goes on with a barge that works towards a later event. -/
def State.working (s : State) (c q : Nat) (f : Barge → Barge) : State :=
  match s.barge? c q with
  | some b => s.setBarge (f { b with phase := .working })
  | none => s

/-- The first failing check of a list: its status and RESULT0. -/
def firstFail (l : List (Bool × Nat × Nat)) : Option (Nat × Nat) := (l.find? (·.1)).map (·.2)

/-- Completes a barge with the first failing check, or goes on. -/
def State.checked (s : State) (b : Barge) (l : List (Bool × Nat × Nat)) (k : State → State) : State :=
  match firstFail l with
  | some (st, r0) => s.finish b.canal b.seq st r0 0
  | none => k s

/-- What the contested grants of a barge executor's accesses count (R51, R55). (DESIGN CHOICE, log entry 17.) -/
def State.execContest (s : State) (b : Barge) (ts : List Touch) (x : Contest) : State := s.contest b.asExec ts x

/-- The accesses of a barge's executor to a local range of its partition. -/
def State.touches (s : State) (p la n : Nat) (write : Bool) : List Touch :=
  (s.physRanges p la n).map fun r => ⟨r.1, r.2, write⟩

/-- Runs what a started barge does under the page maps as it translated them: pages that a MAP_CLEAR has removed since stand
until it completes (R283). -/
def State.asHeld (s : State) (b : Barge) (f : State → State) : State :=
  let held := (s.unmapped.filter fun u => decide (b.startNo < u.1)).map (·.2)
  if held.isEmpty then f s else { f { s with maps := held ++ s.maps } with maps := s.maps }

/-! ### NOP and FENCE -/

/-- NOP completes with DONE (R392). -/
def execNop (c : Fin 256) (q : Nat) (s : State) : Res State :=
  s.work c.val q [0x000] fun b t => t.checked b [(!b.reservedZero [(127, 32)], St.malformed, 0)] fun u =>
    u.finish b.canal b.seq St.done 0 0

/-- FENCE completes with DONE when it starts (R362). -/
def execFence (c : Fin 256) (q : Nat) (s : State) : Res State :=
  s.work c.val q [0x001] fun b t => t.checked b [(!b.reservedZero [(127, 32)], St.malformed, 0)] fun u =>
    u.finish b.canal b.seq St.done 0 0

/-! ### SIGNAL and WAIT (R393 to R395) -/

/-- ADDR of a SIGNAL or WAIT, translated; none where R395 fails it. -/
def State.signalPA (s : State) (b : Barge) (write : Bool) : Option Nat :=
  match s.execTranslate b.part write 8 (b.f 39 32) with
  | .ok pa => some pa
  | .error _ => none

/-- The checks of SIGNAL and WAIT, then `k` with the physical address. `top` is the lowest OP value out of range. -/
def State.signalWork (s : State) (b : Barge) (write : Bool) (top : Nat) (k : Nat → State → State) : State :=
  s.checked b [(!b.reservedZero [(127, 49)], St.malformed, 0), (decide (top ≤ b.f 48 48), St.malformed, 0)] fun t =>
    match t.signalPA b write with
    | none => t.finish b.canal b.seq 0x0010 (b.f 39 32) 0
    | some pa => k pa ((t.rouse [pa]).usePas (some (b.canal, b.seq)) [pa])

/-- SIGNAL with OP 0x00: a flagged store of VALUE. -/
def execSignalStore (c : Fin 256) (q : Nat) (x : Contest) (s : State) : Res State :=
  s.work c.val q [0x002] fun b t =>
    if b.f 48 48 = 1 then t
    else t.signalWork b true 2 fun pa u =>
      (((u.execContest b [⟨pa, 8, true⟩] x).meetAll x.errs).store8 pa (b.f 47 40)).finish b.canal b.seq St.done 0 0

/-- SIGNAL with OP 0x01: an indivisible add, not made to a poisoned word (R710). -/
def execSignalAdd (c : Fin 256) (q : Nat) (ecc : Ecc) (x : Contest) (s : State) : Res State :=
  s.work c.val q [0x002] fun b t =>
    if b.f 48 48 ≠ 1 then t
    else t.signalWork b true 2 fun pa u =>
      let u := (u.execContest b [⟨pa, 8, true⟩] x).meetEcc ecc pa
      if u.poisonedAt pa then u.finish b.canal b.seq 0x0011 (b.f 39 32) 0
      else
        let old := u.numAt pa 8
        (u.store8 pa ((old + b.f 47 40) % 2 ^ 64)).finish b.canal b.seq St.done old 0

/-- Reads the word of a WAIT: poison ends it, a condition that holds completes it, else `again`. -/
def State.waitRead (s : State) (b : Barge) (ecc : Ecc) (x : Contest) (pa : Nat) (again : State → State) : State :=
  let t := (s.execContest b [⟨pa, 8, false⟩] x).meetEcc ecc pa
  if t.poisonedAt pa then t.finish b.canal b.seq 0x0011 (b.f 39 32) 0
  else
    let v := t.numAt pa 8
    if condHolds (b.f 48 48 % 8) (BitVec.ofNat 64 v) (BitVec.ofNat 64 (b.f 47 40)) then
      t.finish b.canal b.seq St.done v 0
    else again t

/-- WAIT reads ADDR and watches it. -/
def execWait (c : Fin 256) (q : Nat) (ecc : Ecc) (x : Contest) (s : State) : Res State :=
  s.work c.val q [0x003] fun b t => t.signalWork b false 8 fun pa u =>
    u.waitRead b ecc x pa fun v =>
      let (watched, v) := v.takeWatch pa (.barge b.canal b.seq)
      v.working b.canal b.seq fun d => { d with
        work := .wait ⟨b.f 39 32, pa, b.f 48 48 % 8, BitVec.ofNat 64 (b.f 47 40), watched⟩ }

/-- The barge that waits under WAIT, with its watch. (DESIGN CHOICE, log entry 8.) -/
def State.waiter (s : State) (c q : Nat) : Option (Barge × WaitWork) :=
  match s.barge? c q with
  | some b =>
    match b.work with
    | .wait w => some (b, w)
    | _ => none
  | none => none

/-- A write to a watched word: the WAIT reads it, and completes where the condition holds. -/
def execWaitConditionMet (c : Fin 256) (q : Nat) (ecc : Ecc) (x : Contest) (s : State) : Res State :=
  s.go <| match s.waiter c.val q with
    | some (b, w) => if w.watched then s.waitRead b ecc x w.pa fun t => t else s
    | none => s

/-- A WAIT without a watch entry reads its word every 128 ns, until an entry frees (R93, R394). -/
def execWaitPoll (c : Fin 256) (q : Nat) (ecc : Ecc) (x : Contest) (s : State) : Res State :=
  s.go <| match s.waiter c.val q with
    | some (b, w) =>
      if w.watched then s
      else s.waitRead b ecc x w.pa fun t =>
        let (watched, t) := t.takeWatch w.pa (.barge b.canal b.seq)
        t.working b.canal b.seq fun d => { d with work := .wait { w with watched := watched } }
    | none => s

/-! ### LOG_QUERY (R430 to R432) -/

/-- The entries that a query examines, in order, until `room` have been written: those written, and the number after
the last examined. -/
def queryLog (sel : LogEntry → Bool) : List LogEntry → Nat → Nat → List LogEntry → List LogEntry × Nat
  | [], _, last, acc => (acc.reverse, last)
  | e :: rest, room, last, acc =>
    if room = 0 then (acc.reverse, last)
    else if sel e then queryLog sel rest (room - 1) (e.number + 1) (e :: acc)
    else queryLog sel rest room (e.number + 1) acc

/-- The first address of a buffer that fails the checks of a barge executor's write, with its alignment. -/
def State.bufferFault (s : State) (part la len align : Nat) : Option Nat :=
  if la % align ≠ 0 ∨ la < 2 ^ 32 then some la else s.rangeFault s.maps part true la len

/-- LOG_QUERY: it examines the entries up to its own START, the last one before the LOG_HEAD that it reads when it starts
(R432). -/
def execLogQuery (c : Fin 256) (q : Nat) (x : Contest) (s : State) : Res State :=
  s.work c.val q [0x004] fun b t =>
    let mask := b.f 57 56
    let n := b.f 51 48
    let bp := b.f 54 54
    let filt := bitOf (b.f 53 53) 0
    let fc := b.f 52 52
    let cp := t.canalPart b.canal
    let base := b.f 47 40
    let fault := t.bufferFault bp base (n * 256) 256
    t.checked b [
      (!b.reservedZero [(127, 58), (55, 55)] || decide (2 ≤ b.f 53 53) || mask == 0 || decide (2 ^ 12 ≤ mask) ||
        n == 0 || decide (65536 < n) || decide (8 ≤ bp) || (!filt && fc != 0), St.malformed, 0),
      (cp.any fun p => bp != p || (filt && (t.canalPart fc).any (· != p)), St.notPermitted, 0),
      (t.partSt bp == 0, 0x0010, base),
      (fault.isSome, 0x0010, fault.getD 0)] fun t =>
      let from_ := max (b.f 39 32) t.logOldest
      let es := t.log.entries.filter fun e => decide (from_ ≤ e.number ∧ e.number ≤ b.startNo)
      let sel := fun (e : LogEntry) => bitOf mask e.kind && (!filt || e.canal == fc) &&
        match cp with
        | some p => e.seenBy p
        | none => true
      let (out, last) := queryLog sel es n from_ []
      let t := (t.contest { b.asExec with part := some bp } (t.touches bp base (256 * n) true) x).useRange (some (b.canal, b.seq)) t.maps bp base (256 * n)
      let t := t.storeLocal t.maps bp base (out.flatMap LogEntry.bytes)
      t.finish b.canal b.seq St.done last out.length

/-! ### CANAL_DRAIN (R369) -/

/-- Stops a running or armed cargo barge under R107 and completes it with `status`: the clusters stop at instruction
boundaries, an armed cargo is disarmed, and the result words follow R414. A run that a trap has stopped already keeps that
outcome (R107). -/
def State.stopCargo (s : State) (b : Barge) (status : Nat) : State :=
  match b.run? with
  | none => (s.unplace b).finish b.canal b.seq status 0 0
  | some w =>
    if w.gate.any fun g => !g.released then (s.disarm w).finish b.canal b.seq status 0 0
    else if w.fault.isSome then s.endFault b.canal b.seq
    else
      let t := s.stopRun b.canal b.seq
      let w' := (((t.barge? b.canal b.seq).bind Barge.run?).getD w)
      t.finish b.canal b.seq status (w'.exitOr % 2 ^ 32 + w'.halted * 2 ^ 32) 0

/-- A stop takes effect on a running or armed cargo barge, and is entered; one that a trap has stopped keeps that outcome, and
nothing takes effect on it (R107, R367). The Bool says that the stop took effect. -/
def State.stopNow (s : State) (b : Barge) (what : Nat) (acting : Option (Nat × Nat)) (status : Nat) : Bool × State :=
  if b.fault?.isSome then (false, s.endFault b.canal b.seq) else (true, (s.logStop b what acting).stopCargo b status)

/-- Applies a drain to one barge of the set, `acting` being the barge that drains: a barge that has not started is
cancelled, a running cargo stops, a running solver barge is left to stop under R264, and every other one runs on. The
Bool says that the barge was cancelled at once. -/
def State.drainOne (s : State) (b : Barge) (acting : Nat × Nat) : Bool × State :=
  match b.phase with
  | .waiting => (true, (s.logStop b 0x01 (some acting)).finish b.canal b.seq St.cancelled 0 0)
  | .ended _ _ _ => (false, s)
  | _ =>
    if b.native = 0x201 ∨ b.native = 0x202 then s.stopNow b 0x01 (some acting) St.cancelled
    else if b.native / 256 = 3 ∧ b.stopBy = 0 then
      let t := s.logStop b 0x01 (some acting)
      (false, match t.barge? b.canal b.seq with
        | some x => t.setBarge { x with stopBy := 2 }
        | none => t)
    else (false, s)

/-- Applies a drain to each barge of a set that is still there; counts the cancelled ones. -/
def State.drainAll (s : State) (acting : Nat × Nat) (set : List (Nat × Nat)) : Nat × State :=
  set.foldl (fun nt x =>
    match nt.2.barge? x.1 x.2 with
    | some b =>
      let (hit, t) := nt.2.drainOne b acting
      (nt.1 + b2n hit, t)
    | none => nt) (0, s)

/-- CANAL_DRAIN: acts on its drain set and completes once the set has completed. -/
def execCanalDrain (c : Fin 256) (q : Nat) (s : State) : Res State :=
  s.work c.val q [0x005] fun b t =>
    let target := b.f 32 32
    let cp := t.canalPart b.canal
    t.checked b [(!b.reservedZero [(127, 33)], St.malformed, 0),
      (cp.isSome && t.canalPart target != cp, St.notPermitted, 0)] fun t =>
      let old := (t.canalBarges target).filter fun x => decide (x.acc < b.acc)
      if old.any t.runPaused then t
      else
      let set := old.map fun x => (x.canal, x.seq)
      let asked := (old.filter fun x => x.executing && x.native / 256 == 3 && x.stopBy == 0).map fun x => (x.canal, x.seq)
      let (n, u) := t.drainAll (b.canal, b.seq) set
      let u := u.working b.canal b.seq fun d => { d with work := .drain set n asked }
      u.settle u.barges.length

end Sys2Proof.Machine
end

