-- ==== Sys2Proof/Machine/MemBarges.lean ====
section
/-! DEFINITION. The memory and mapping barges: MEM_COPY, MEM_FILL, MEM_SCRUB, MAP_SET, MAP_CLEAR (R281 to R283, R397 to
R406). -/

namespace Sys2Proof.Machine

/-! ### MEM_COPY, MEM_FILL, MEM_SCRUB -/

/-- The end of the region in which a local address lies: its basin of the window, or device memory (R397). -/
def regionEnd (la : Nat) : Nat :=
  if 0x40000000 ≤ la ∧ la < 0xC0000000 then alignDown la basinSize + basinSize else 2 ^ 48

/-- The first address at which a range fails check 3 of Table 13-4. -/
def State.memRangeFault (s : State) (p : Nat) (write : Bool) (la len : Nat) : Option Nat :=
  match s.rangeFault s.maps p write la (min len (regionEnd la - la)) with
  | some a => some a
  | none =>
    if 2 ^ 48 ≤ la then some la
    else if regionEnd la < la + len then some (regionEnd la) else none

/-- Do two ranges meet? -/
def spansMeet (a n b m : Nat) : Bool := decide (a < b + m ∧ b < a + n)

/-- Do two local ranges meet, as local ranges or in their physical bytes (check 4 of Table 13-4)? -/
def State.copyMeets (s : State) (p a b n : Nat) : Bool :=
  spansMeet a n b n ||
    (s.physRanges p a n).any fun x => (s.physRanges p b n).any fun y => spansMeet x.1 x.2 y.1 y.2

/-- The checks of Table 13-4 of a memory barge, in order. -/
def State.memChecks (s : State) (b : Barge) : List (Bool × Nat × Nat) :=
  let p := b.part
  let op := b.native
  let dst := b.f 39 32
  let two := b.f 47 40
  let three := b.f 55 48
  let len := if op = 0x100 then three else two
  let unit := if op = 0x102 then 65536 else 8
  let lenBad := len % unit != 0 || decide (len < unit) || decide (2 ^ 40 < len)
  let fd := s.memRangeFault p true dst len
  let fs := s.memRangeFault p false two len
  [(!b.reservedZero [(127, if op = 0x102 then 48 else 56)], St.malformed, 0),
    (dst % unit != 0, 0x0114, dst),
    (op == 0x100 && two % 8 != 0, 0x0114, two),
    (lenBad, 0x0114, len),
    (fd.isSome, 0x0114, fd.getD 0),
    (op == 0x100 && fs.isSome, 0x0114, fs.getD 0),
    (op == 0x100 && s.copyMeets p dst two len, 0x0115, 0)]

/-- How many bytes `k` whole chunks from DST upward hold (R400). -/
def chunkBytes (dst len k : Nat) : Nat := if k = 0 then 0 else min len (alignDown dst 65536 + 65536 * k - dst)

/-- Leaves a local range undefined: the destination that a stopped barge does not finish. -/
def State.storeFree (s : State) (p la n : Nat) : State :=
  (s.physRanges p la n).foldl (fun t r => t.undefine r.1 r.2) s

/-- Leaves a local range free, but for what some data decides: the same data leave the same bytes.
(DESIGN CHOICE, log entry 26.) -/
def State.storeTagged (s : State) (p la n : Nat) (what : List (List Nat)) : State :=
  (s.physRanges p la n).foldl (fun t r => t.fillRange r.1 r.2 (Config.workTag what + 1)) s

/-- Copies `n` bytes; a poisoned source word, or one that no path leads to from the destination's C-die (R591), poisons the
unit that receives it (R401). Counts those units. (DEDUCED, log entry 65.) -/
def State.copyRange (s : State) (p dst src n : Nat) : Nat × State :=
  let bad := ((List.range (n / 8)).filter fun i =>
    s.poisonedFrom (s.dieOf (s.paOf s.maps p (dst + 8 * i))) (s.paOf s.maps p (src + 8 * i))).map fun i =>
      poisonBase (s.paOf s.maps p (dst + 8 * i))
  let t := s.storeLocal s.maps p dst (s.localBytes s.maps p src n)
  (bad.eraseDups.length, bad.foldl State.setPoison t)

/-- The part of a memory barge's destination that it writes before it stops: all of it, or `k` chunks where its deadline
stopped it. -/
def Barge.memDone (b : Barge) (dst len k : Nat) : Nat := if b.stopBy = 1 then chunkBytes dst len k else len

/-- Ends a memory barge that wrote `n` of `len` bytes: the rest of the destination is undefined where its deadline
stopped it. -/
def State.memEnd (s : State) (b : Barge) (dst len n status r1 : Nat) : State :=
  if n < len then (s.storeFree b.part (dst + n) (len - n)).endBarge b.canal b.seq St.deadlineMissed n r1
  else s.endBarge b.canal b.seq status n r1

/-- MEM_COPY. `k` is how many chunks were complete where its deadline stopped it. -/
def execMemCopy (c : Fin 256) (q k : Nat) (errs : List (Nat × Ecc)) (x : Contest) (s : State) : Res State :=
  s.work c.val q [0x100] fun b t => t.checked b (t.memChecks b) fun t =>
    let (dst, src, len) := (b.f 39 32, b.f 47 40, b.f 55 48)
    let n := b.memDone dst len k
    let (bad, u) := ((t.execContest b (t.touches b.part src n false ++ t.touches b.part dst n true) x).meetAll errs).copyRange b.part dst src n
    u.memEnd b dst len n (if bad = 0 then St.done else 0x0116) bad

/-- MEM_FILL. -/
def execMemFill (c : Fin 256) (q k : Nat) (x : Contest) (s : State) : Res State :=
  s.work c.val q [0x101] fun b t => t.checked b (t.memChecks b) fun t =>
    let (dst, len) := (b.f 39 32, b.f 47 40)
    let n := b.memDone dst len k
    let pat := bytesLE 8 (b.f 55 48)
    let u := ((t.execContest b (t.touches b.part dst n true) x).meetAll x.errs).storeLocal t.maps b.part dst ((List.range n).map fun i => pat.getD (i % 8) 0)
    u.memEnd b dst len n St.done 0

/-- MEM_SCRUB: zeros, then every line read back. `errs` is what the read-back meets. -/
def execMemScrub (c : Fin 256) (q k : Nat) (errs : List (Nat × Ecc)) (x : Contest) (s : State) : Res State :=
  s.work c.val q [0x102] fun b t => t.checked b (t.memChecks b) fun t =>
    let (dst, len) := (b.f 39 32, b.f 47 40)
    let n := b.memDone dst len k
    let u := (((t.execContest b (t.touches b.part dst n true) x).meetAll x.errs).storeLocal t.maps b.part dst (List.replicate n 0)).meetAll errs
    let bad := (List.range (n / 128)).filter fun i =>
      let pa := u.paOf u.maps b.part (dst + 128 * i)
      (u.poisonIn pa 128).isSome || (u.bytesAt pa 128).any (· != 0)
    u.memEnd b dst len n (if bad.isEmpty then St.done else 0x0117) bad.length

/-! ### MAP_SET -/

/-- The mapping records that a MAP_SET installs, as the 16 bytes of each (Table 13-5). -/
def State.mapRecs (s : State) (b : Barge) : List (List Byte) :=
  let n := b.f 35 32
  if b.f 36 36 = 0 then (List.range n).map fun i => sliceB b.bytes (48 + 16 * i) 16
  else (List.range n).map fun i => s.localBytes s.maps b.part (b.f 47 40 + 16 * i) 16

/-- Are the reserved bits of a record zero (Table 9-3)? -/
def recReserved (r : List Byte) : Bool :=
  let lo := fieldB r 7 0
  bitsOf lo 63 48 == 0 && bitsOf lo 15 4 == 0 && !bitOf lo 2 && bitsOf (fieldB r 15 8) 63 42 == 0

/-- The record that 16 bytes spell. -/
def recOf (p : Nat) (r : List Byte) : MapRec :=
  let lo := fieldB r 7 0
  ⟨p, bitsOf lo 47 16 * 65536, bitsOf (fieldB r 15 8) 41 0, lo % 4, bitOf lo 3⟩

/-- Is a record within check 2 of R282? -/
def recValid (r : MapRec) : Bool :=
  let n := pageBytes r.size
  r.size != 3 && r.va % n == 0 && r.pa % n == 0 && decide (2 ^ 32 ≤ r.va) && decide (r.pa + n ≤ 1023 * 2 ^ 32)

/-- Do the local ranges, or the physical ranges, of two records meet? -/
def recsMeetVA (a b : MapRec) : Bool := spansMeet a.va (pageBytes a.size) b.va (pageBytes b.size)

def recsMeetPA (a b : MapRec) : Bool := spansMeet a.pa (pageBytes a.size) b.pa (pageBytes b.size)

/-- The index of the first record that a test selects. -/
def firstIdx {α : Type} (p : Nat → α → Bool) (l : List α) : Option Nat :=
  (l.zipIdx.find? fun x => p x.2 x.1).map (·.2)

/-- The first address at which the list of a MAP_SET cannot be read (R404). -/
def State.listFault (s : State) (b : Barge) : Option Nat :=
  let a := b.f 47 40
  let len := 16 * b.f 35 32
  if b.f 36 36 ≠ 1 then none
  else if a % 128 ≠ 0 ∨ a < 2 ^ 32 then some a
  else
    match s.rangeFault s.maps b.part false a len with
    | some x => some x
    | none => s.localPoison s.maps b.part a len

/-- Changes the map of a partition and its version. -/
def State.setMaps (s : State) (p : Nat) (maps : List MapRec) : State :=
  { s with maps := maps, mapVer := spSet (fun _ => 0) p (spGet (fun _ => 0) s.mapVer p + 1) s.mapVer }

/-- MAP_SET installs all its records or none (R282, R404); a list line whose read meets an uncorrectable error fails as a
poisoned one does (R285, R404). Map changes are made in the order in which the barges start
(R406). -/
def execMapSet (c : Fin 256) (q : Nat) (x : Contest) (s : State) : Res State :=
  s.work c.val q [0x103] fun b t =>
    if t.startedBefore b [0x103, 0x104] fun _ => true then t else
    let p := b.part
    let n := b.f 35 32
    let src := b.f 36 36
    let shape := !b.reservedZero [(39, 37)] || decide (2 ≤ src) || n == 0 ||
      (src == 0 && (decide (5 < n) || !zeroB b.bytes 47 40 || !zeroB b.bytes 127 (48 + 16 * n))) ||
      (src == 1 && (decide (65536 < n) || !zeroB b.bytes 127 48))
    let lf := t.listFault b
    t.checked b [(shape, St.malformed, 0), (lf.isSome, 0x0114, lf.getD 0)] fun t =>
      let t := if src = 1 then (t.execContest b (t.touches p (b.f 47 40) (16 * n) false) x).meetAll x.errs else t
      let lf := t.listFault b
      t.checked b [(lf.isSome, 0x0114, lf.getD 0)] fun t =>
      let raw := t.mapRecs b
      let recs := raw.map (recOf p)
      let bad1 := firstIdx (fun _ r => !recReserved r) raw
      let bad2 := firstIdx (fun _ r => !recValid r) recs
      let bad3 := firstIdx (fun i r =>
        (t.maps.any fun m => m.part == p && recsMeetVA m r) || (recs.take i).any fun m => recsMeetVA m r) recs
      let bad4 := firstIdx (fun _ r => t.maps.any fun m => m.part != p && recsMeetPA m r) recs
      let held := (t.maps.filter fun m => m.part == p).length
      let bad5 := firstIdx (fun i _ => decide (1048576 < held + i + 1)) recs
      t.checked b [(bad1.isSome, St.malformed, bad1.getD 0), (bad2.isSome, 0x0110, bad2.getD 0),
        (bad3.isSome, 0x0111, bad3.getD 0), (bad4.isSome, 0x0112, bad4.getD 0), (bad5.isSome, 0x0113, bad5.getD 0)]
        fun t => (t.setMaps p (t.maps ++ recs)).finish b.canal b.seq St.done n 0

/-! ### MAP_CLEAR (R283, R405) -/

/-- Does a page lie inside a local range? -/
def recInside (r : MapRec) (base len : Nat) : Bool := decide (base ≤ r.va ∧ r.va + pageBytes r.size ≤ base + len)

/-- MAP_CLEAR removes the records inside its range, in the order of R406, and then waits. -/
def execMapClear (c : Fin 256) (q : Nat) (s : State) : Res State :=
  s.work c.val q [0x104] fun b t =>
    if t.startedBefore b [0x103, 0x104] fun _ => true then t else
    let p := b.part
    let (base, len) := (b.f 39 32, b.f 47 40)
    let mine := t.maps.filter fun m => m.part == p
    let cut := mine.any fun m => spansMeet m.va (pageBytes m.size) base len && !recInside m base len
    t.checked b [(!b.reservedZero [(127, 48)], St.malformed, 0),
      (base % 65536 != 0 || len % 65536 != 0 || len == 0 || decide (base < 2 ^ 32) || decide (2 ^ 48 < base + len) || cut,
        0x0110, 0)] fun t =>
      let gone := mine.filter fun m => recInside m base len
      let t := if gone.isEmpty then t
        else { (t.setMaps p (t.maps.filter fun m => !(m.part == p && recInside m base len))) with
          unmapped := t.unmapped ++ gone.map fun m => (b.startNo, m) }
      let wait := t.unmapped.filter fun m => m.2.part == p && recInside m.2 base len
      t.working b.canal b.seq fun d => { d with work := .unmap wait gone.length }

/-- Does a physical address lie in a removed page? -/
def inPage (r : MapRec) (pa : Nat) : Bool := decide (r.pa ≤ pa ∧ pa < r.pa + pageBytes r.size)

/-- Does a barge use a page until it completes, which it translated before a MAP_CLEAR that started with entry `n` removed it: a
solver barge whose work has run, a collective or checkpoint barge, a CARGO_ARM whose gate lies there (R283, R381, R574)? -/
def Barge.keepsPage (b : Barge) (n : Nat) (r : MapRec) : Bool :=
  b.begun && decide (b.startNo < n) &&
    ((b.native / 256 == 3 && b.phase != .started) || (b.isColl && b.phase != .started) || b.native / 256 == 6 ||
      (b.native == 0x202 && b.phase != .started && decide (r.va ≤ b.f 55 48 ∧ b.f 55 48 < r.va + pageBytes r.size)))

/-- Does something that translated an address of a removed page before its removal still run: a wait.flag or WAIT that
watches a word of it, a near-memory operation accepted under the map that held it, a barge that keeps it (R283)?
(DESIGN CHOICE, log entry 59.) -/
def State.pageInUse (s : State) (x : Nat × MapRec) : Bool :=
  let r := x.2
  (s.clusters.any fun x =>
    s.clPart x.1 == some r.part && (match x.2.wait with
      | .flag f => inPage r f.pa
      | _ => false)) ||
  (s.barges.any fun b => b.part == r.part && (b.keepsPage x.1 r || (match b.work with
    | .wait w => inPage r w.pa
    | _ => false))) ||
  (s.nmOps.any fun o => o.part == r.part && o.view.contains r)

/-- Every user of the removed pages has completed: MAP_CLEAR completes. -/
def execMapClearComplete (c : Fin 256) (q : Nat) (s : State) : Res State :=
  s.go <| match s.barge? c.val q with
    | some b =>
      match b.work with
      | .unmap recs n =>
        if recs.any s.pageInUse then s
        else ({ s with unmapped := s.unmapped.filter fun m => !recs.contains m }).finish b.canal b.seq St.done n 0
      | _ => s
    | none => s

end Sys2Proof.Machine
end

