-- ==== Sys2Proof/Machine/NearArith.lean ====
section
/-! DEFINITION. What near-memory operations compute (R320 to R334, R338): from the memory as it stands to the bytes they
write, the elements whose value depends on poison, and what STATUS reports. -/

namespace Sys2Proof.Machine

/-- What an operation works with: memory, the partition and the map it was accepted under, its fields, its parameter
block and the inputs of its draws. -/
structure NmEnv where
  s    : State
  part : Nat
  view : List MapRec
  d    : NmDesc
  prm  : NmParams
  x    : PipeCtx

/-- What an operation writes. -/
structure NmOut where
  writes : List (Nat × List Byte) := []   -- local address and bytes
  bad    : List Nat := []                 -- local addresses of the elements written poisoned
  met    : Bool := false                  -- poison decided whether an element was written, or a write was dropped
  detail : Nat := 0
  fx     : Fx := {}
  deriving DecidableEq, Repr

/-- The physical address of a local address. -/
def NmEnv.pa (v : NmEnv) (la : Nat) : Nat := v.s.paOf v.view v.part la

/-- The `n`-byte element at a local address. -/
def NmEnv.num (v : NmEnv) (la n : Nat) : Nat := v.s.numAt (v.pa la) n

/-- The `n` bytes at a local address as a number, where they may cross a page. -/
def NmEnv.numL (v : NmEnv) (la n : Nat) : Nat := numLE ((List.range n).map fun i => v.s.byteAt (v.pa (la + i)))

/-- Is the line at a local address poisoned (R338)? -/
def NmEnv.bad (v : NmEnv) (la : Nat) : Bool :=
  let l := alignDown (v.pa la) 128
  v.s.poisonedAt l || v.s.poisonedAt (l + 64)

/-- Does a unit that runs where the address `u` lies reach the line at another (R307, R591)? -/
def NmEnv.reaches (v : NmEnv) (u la : Nat) : Bool := v.s.pathTo (v.s.dieOf (v.pa u)) (v.pa la)

/-- Does the unit whose primary line holds `u` read poison at a local address: the line is poisoned, or no path leads to it
(R338, R591)? (DESIGN CHOICE, log entry 65.) -/
def NmEnv.badFrom (v : NmEnv) (u la : Nat) : Bool := v.bad la || !v.reaches u la

/-- Is no engine left to run the unit whose primary line holds this address (R588)? -/
def NmEnv.lost (v : NmEnv) (la : Nat) : Bool := (v.s.nmEngines (v.s.stackOf (v.pa la))).isEmpty

/-- The floating-point format of a code. -/
def nmFmt (f : Nat) : Fmt :=
  match outFmt? f with
  | some (.fp m) => m
  | _ => .binary64

/-- The addresses of the first and the last byte of element `i` of a strip of `w`-bit elements (R183). -/
def elAddrs (strip i w : Nat) : List Nat := [strip + i * w / 8, strip + (i * w + w - 1) / 8]

/-- Folds a computation with flags over a list. -/
def withFx {α β : Type} (f : α → β × Fx) (l : List α) : List β × Fx :=
  let r := l.map f
  (r.map (·.1), r.foldl (fun g x => g.or x.2) {})

/-- The elements of an array whose values depend on poison, by local address. -/
def badElems (base es n : Nat) (bad : Nat → Bool) : List Nat :=
  ((List.range n).filter bad).map fun i => base + i * es

/-! ### AXPBY and MUL (R321) -/

/-- One element of AXPBY or MUL. -/
def NmEnv.ewElem (v : NmEnv) (i : Nat) : Nat × Fx :=
  let d := v.d
  let m := nmFmt d.fi
  let es := nmBytes d.fi
  let r := v.x.r1 i
  let (x, fx) := m.operand d.ftz (v.num (d.a0 + i * es) es)
  let (y, fy) := if d.a1 = 0 then (FVal.fin false 0 0, {}) else m.operand d.ftz (v.num (d.a1 + i * es) es)
  if d.op = Nm.mul then m.fin1 r d.ftz (x.mul y) (fx.or fy)
  else
    let (al, fa) := Fmt.binary64.operand d.ftz d.a3
    if d.a1 = 0 then m.fin1 r d.ftz (al.mul x) (fx.or fa)
    else
      let (be, fb) := Fmt.binary64.operand d.ftz d.a4
      let (t, ft) := m.fin1 r d.ftz (be.mul y) (fb.or fy)
      m.fin1 r d.ftz ((al.mul x).add (m.decode t)) (((fx.or fa).or ft))

/-- AXPBY and MUL. -/
def NmEnv.elementwise (v : NmEnv) : NmOut :=
  let d := v.d
  let es := nmBytes d.fi
  let (cs, fx) := withFx v.ewElem (List.range d.n)
  { writes := [(d.a2, cs.flatMap (bytesLE es))]
    bad := badElems d.a2 es d.n fun i => v.bad (d.a0 + i * es) || (d.a1 != 0 && v.badFrom (d.a0 + i * es) (d.a1 + i * es)) ||
      v.lost (d.a0 + i * es)
    fx := fx }

/-! ### REDUCE (R322) -/

/-- Cuts a list into blocks of 4,096. -/
def blocks4096 {α : Type} : Nat → List α → List (List α)
  | 0, _ => []
  | k + 1, l => if l.isEmpty then [] else l.take 4096 :: blocks4096 k (l.drop 4096)

/-- One level of the tree of R126. -/
def sumLevel (ftz : Bool) : List Nat → List Nat × Fx
  | a :: b :: rest =>
    let (c, f) := Fmt.binary64.addC .rne ftz a b
    let (l, g) := sumLevel ftz rest
    (c :: l, f.or g)
  | l => (l, {})

/-- The sum of the block partials. -/
def sumTree (ftz : Bool) : Nat → List Nat → Nat × Fx
  | 0, l => (l.headD 0, {})
  | k + 1, l =>
    if l.length ≤ 1 then (l.headD 0, {})
    else
      let (t, f) := sumLevel ftz l
      let (c, g) := sumTree ftz k t
      (c, f.or g)

/-- A sum, or a sum of squares, of one block from +0. -/
def sumBlock (ftz sq : Bool) (l : List Nat) : Nat × Fx :=
  l.foldl (fun a x =>
    let (c, f) := if sq then Fmt.binary64.fmaC false false .rne ftz x x a.1 else Fmt.binary64.addC .rne ftz a.1 x
    (c, a.2.or f)) (0, {})

/-- The result of REDUCE. -/
def NmEnv.reduceVal (v : NmEnv) : Nat × Fx :=
  let d := v.d
  let es := nmBytes d.fi
  let raw := (List.range d.n).map fun i => v.num (d.a0 + i * es) es
  if d.fi = 0x10 then
    match d.sub with
    | 0 => (raw.foldl (fun a b => (a + b) % 2 ^ 64) 0, {})
    | 1 => (raw.foldl (fun a b => if signedOf 64 a < signedOf 64 b then b else a) (raw.headD 0), {})
    | _ => (raw.foldl (fun a b => if signedOf 64 b < signedOf 64 a then b else a) (raw.headD 0), {})
  else
    let (xs, f0) := if d.fi = 1 then withFx (Fmt.convC .binary32 .binary64 false .rne d.ftz d.ftz) raw else (raw, {})
    if d.sub = 1 ∨ d.sub = 2 then
      xs.foldl (fun a x =>
        let (c, f) := Fmt.binary64.minMaxC (d.sub == 1) d.ftz a.1 x
        (c, a.2.or f)) (Fmt.binary64.nan, f0)
    else
      let (ps, f1) := withFx (sumBlock d.ftz (d.sub == 3)) (blocks4096 (xs.length / 4096 + 1) xs)
      let (c, f2) := sumTree d.ftz ps.length ps
      (c, (f0.or f1).or f2)

/-- REDUCE. -/
def NmEnv.reduce (v : NmEnv) : NmOut :=
  let d := v.d
  let es := nmBytes d.fi
  let (c, fx) := v.reduceVal
  let bad := (List.range d.n).any fun i => v.bad (d.a0 + i * es) || v.lost (d.a0 + i * es)
  { writes := [(d.a2, bytesLE 8 c)], bad := if bad then [d.a2] else [], fx := fx }

/-! ### SCAN (R323) -/

/-- The addition of a scan. -/
def NmEnv.plus (v : NmEnv) (a b : Nat) : Nat × Fx :=
  if v.d.fi = 0 then Fmt.binary64.addC .rne v.d.ftz a b else ((a + b) % 2 ^ 64, {})

/-- An element as a scan reads it. -/
def NmEnv.scanIn (v : NmEnv) (i : Nat) : Nat × Fx :=
  let c := v.num (v.d.a0 + 8 * i) 8
  if v.d.fi = 0 then
    let (x, f) := Fmt.binary64.operand v.d.ftz c
    Fmt.binary64.fin1 .rne v.d.ftz x f
  else (c, {})

/-- Is element `i` a head? -/
def NmEnv.head (v : NmEnv) (i : Nat) : Bool := i == 0 || (bitOf v.d.sub 1 && v.num (v.d.a1 + i) 1 != 0)

/-- The running state of a scan: the local value q, whether no head stood in the block so far, the carry c, the last
s, what has been formed in reverse, and the flags. -/
structure ScanSt where
  q    : Nat := 0
  tied : Bool := true
  c    : Nat := 0
  last : Nat := 0
  out  : List Nat := []
  fx   : Fx := {}

/-- One element of a scan. -/
def NmEnv.scanStep (v : NmEnv) (t : ScanSt) (i : Nat) : ScanSt :=
  let first := i % 4096 == 0
  let c := if first then t.last else t.c
  let h := v.head i
  let tied := (first || t.tied) && !h
  let (x, f0) := v.scanIn i
  let (q, f1) := if h || first then (x, {}) else v.plus t.q x
  let (s, f2) := if tied && decide (4096 ≤ i) then v.plus c q else (q, {})
  ⟨q, tied, c, s, s :: t.out, ((t.fx.or f0).or f1).or f2⟩

/-- Which elements depend on poison: each from a poisoned one to the end of its segment. -/
def NmEnv.scanBad (v : NmEnv) : List Bool :=
  ((List.range v.d.n).foldl (fun (t : Bool × List Bool) i =>
    let own := v.bad (v.d.a0 + 8 * i) || (bitOf v.d.sub 1 && v.badFrom (v.d.a0 + 8 * i) (v.d.a1 + i)) || v.lost (v.d.a0 + 8 * i)
    let b := (t.1 && !v.head i) || own
    (b, b :: t.2)) (false, [])).2.reverse

/-- SCAN. -/
def NmEnv.scan (v : NmEnv) : NmOut :=
  let d := v.d
  let t := (List.range d.n).foldl v.scanStep {}
  let s := t.out.reverse
  let out := if bitOf d.sub 0 then (0 :: s).zipIdx.filterMap fun x =>
      if x.2 < d.n then some (if v.head x.2 then 0 else x.1) else none
    else s
  let bad := v.scanBad
  { writes := [(d.a2, out.flatMap (bytesLE 8))]
    bad := badElems d.a2 8 d.n fun i => bad.getD i false
    fx := t.fx }

/-! ### GATHER, SCATTER, SCATTER_ADD (R324) -/

/-- Index `i`. -/
def NmEnv.idx (v : NmEnv) (i : Nat) : Nat := v.num (v.d.a1 + i * v.d.idxBytes) v.d.idxBytes

/-- Does the access of index `i` depend on a poisoned index line, or run nowhere? -/
def NmEnv.idxBad (v : NmEnv) (i : Nat) : Bool :=
  let a := v.d.a1 + i * v.d.idxBytes
  v.bad a || v.lost a

/-- How many indices are out of range. -/
def NmEnv.misses (v : NmEnv) : Nat := ((List.range v.d.n).filter fun i => decide (v.d.a3 ≤ v.idx i)).length

/-- GATHER. -/
def NmEnv.gather (v : NmEnv) : NmOut :=
  let d := v.d
  let es := nmBytes d.fi
  { writes := [(d.a2, (List.range d.n).flatMap fun i =>
      let j := v.idx i
      bytesLE es (if j < d.a3 then v.num (d.a0 + j * es) es else 0))]
    bad := badElems d.a2 es d.n fun i => v.idxBad i ||
      (decide (v.idx i < d.a3) && v.badFrom (d.a1 + i * d.idxBytes) (d.a0 + v.idx i * es))
    detail := v.misses }

/-- Does the unit of index `i` not reach the table element that it would write (R591)? -/
def NmEnv.idxDrops (v : NmEnv) (i : Nat) : Bool :=
  decide (v.idx i < v.d.a3) && !v.reaches (v.d.a1 + i * v.d.idxBytes) (v.d.a2 + v.idx i * nmBytes v.d.fi)

/-- The table elements that SCATTER or SCATTER_ADD changes, by index: the new code and whether it depends on poison. A write that
its unit has no path for is dropped. -/
def NmEnv.updates (v : NmEnv) : List (Nat × (Nat × Bool)) × Fx :=
  let d := v.d
  let es := nmBytes d.fi
  (List.range d.n).foldl (fun t i =>
    let j := v.idx i
    if d.a3 ≤ j || v.idxDrops i then t
    else
      let a := v.num (d.a0 + i * es) es
      let bad := v.idxBad i || v.badFrom (d.a1 + i * d.idxBytes) (d.a0 + i * es)
      if d.op = Nm.scatter then (spPut j (a, bad) t.1, t.2)
      else
        let (cur, cb) := spGet (fun k => (v.num (d.a2 + k * es) es, v.bad (d.a2 + k * es))) t.1 j
        let (c, f) := v.plus cur a
        (spPut j (c, bad || cb) t.1, t.2.or f)) ([], {})

/-- SCATTER and SCATTER_ADD. -/
def NmEnv.scatter (v : NmEnv) : NmOut :=
  let d := v.d
  let es := nmBytes d.fi
  let (u, fx) := v.updates
  { writes := u.map fun x => (d.a2 + x.1 * es, bytesLE es x.2.1)
    bad := (u.filter fun x => x.2.2).map fun x => d.a2 + x.1 * es
    met := (List.range d.n).any fun i => v.idxDrops i || v.idxBad i
    detail := v.misses
    fx := fx }

/-! ### The field bridge (R325 to R328) -/

/-- The pipeline descriptor of an operation, W being binary64 or binary32. -/
def NmDesc.pipe (d : NmDesc) (o : OutFmt) (wide : Bool) (sb : Option (Nat × Nat)) (clip : Option (Nat × Nat)) : OutDesc :=
  ⟨o, if wide then 1 else 0, d.bs, d.sel, d.e5, sb.map (·.1), sb.map fun _ => 0, false, clip⟩

/-- The scale and bias of a feature where the affine stage is enabled. -/
def NmEnv.sb (v : NmEnv) (f : Nat) : Option (Nat × Nat) := if v.prm.affine then some (v.prm.entry f) else none

/-- Does feature `f` depend on a poisoned parameter line, in the unit whose primary line holds `u`? Every feature depends on the
header, which says what is enabled. -/
def NmEnv.prmBad (v : NmEnv) (u f : Nat) : Bool :=
  v.d.a4 != 0 && (v.badFrom u v.d.a4 ||
    (v.prm.affine && v.badFrom u (v.d.a4 + 32 + 16 * f)))

/-- The format of the panel. -/
def NmDesc.ofmt (d : NmDesc) : OutFmt := (outFmt? d.pf).getD .int8

/-- NARROW, steps 1 to 4, of feature `k` of cell `c` with element index `e`. (DEDUCED, log entry 29.) -/
def NmEnv.narrowElem (v : NmEnv) (c k e : Nat) : Rounded × Fx :=
  let d := v.d
  if d.n ≤ c ∨ d.nf ≤ k then roundStage (d.pipe d.ofmt true none none) d.ftz (v.x.r1 e) (.fin false 0 0)
  else
    let es := nmBytes d.fi
    let o := d.pipe d.ofmt true (v.sb k) v.prm.clip
    let (x, f1) := (nmFmt d.fi).operand d.ftz (v.num (d.a0 + k * d.a1 + c * es) es)
    let (y, f2) := scaleBias o d.ftz (v.prm.entry k).2 x
    let (z, f3) := clipStage o d.ftz y
    let (r, f4) := roundStage o d.ftz (v.x.r1 e) z
    (r, ((f1.or f2).or f3).or f4)

/-- Does feature `k` of cell `c` depend on poison? -/
def NmEnv.narrowBad (v : NmEnv) (c k : Nat) : Bool :=
  let es := nmBytes v.d.fi
  let u := v.d.a0 + min c (v.d.n - 1) * es
  (decide (c < v.d.n ∧ k < v.d.nf) && (v.badFrom u (v.d.a0 + k * v.d.a1 + c * es) || v.prmBad u k)) || v.lost u

/-- One cell of NARROW packed: its element codes by feature, its block scales, and the flags. -/
def NmEnv.narrowCell (v : NmEnv) (T i : Nat) : (List Nat × List Nat) × Fx :=
  let d := v.d
  let e := fun k => T * 64 * d.kp + k * 64 + i
  let (rs, f0) := withFx (fun k => v.narrowElem (64 * T + i) k (e k)) (List.range d.kp)
  match d.ofmt with
  | .mx el emax =>
    let bl := (List.range (d.kp / d.bs)).map fun b =>
      packBlock el emax d.sel v.x ((List.range d.bs).map fun j =>
        let k := b * d.bs + j
        ((rs.getD k (.code 0)).value, e k))
    ((bl.flatMap (·.2.1), bl.map (·.1)), bl.foldl (fun f b => f.or b.2.2) f0)
  | _ => ((rs.map fun r => match r with
      | .code c => c
      | .val _ => 0, []), f0)

/-- NARROW. -/
def NmEnv.narrow (v : NmEnv) : NmOut :=
  let d := v.d
  let nb := if d.mx then d.kp / d.bs else 0
  let tiles := (List.range d.tiles).map fun T =>
    let (cells, fx) := withFx (v.narrowCell T) (List.range 64)
    let strips := (List.range d.kp).flatMap fun k =>
      packCodes (nmBits d.fo) (cells.map fun (c : List Nat × List Nat) => c.1.getD k 0)
    let scales := (List.range nb).flatMap fun b =>
      cells.map fun (c : List Nat × List Nat) => (BitVec.ofNat 8 (c.2.getD b 0) : Byte)
    let base := d.a2 + T * d.kp * d.strip
    let sbase := d.a3 + T * nb * 64
    let bad := (List.range 64).flatMap fun i =>
      let one := v.narrowBad (64 * T + i)
      let blk := fun b => (List.range d.bs).any fun j => one (b * d.bs + j)
      ((List.range d.kp).filter fun k => if d.mx then blk (k / d.bs) else one k).flatMap
          (fun k => elAddrs (base + k * d.strip) i (nmBits d.fo)) ++
        ((List.range nb).filter blk).map fun b => sbase + b * 64 + i
    (((base, strips) :: if nb = 0 then [] else [(sbase, scales)], bad), fx)
  { writes := tiles.flatMap (·.1.1), bad := tiles.flatMap (·.1.2), fx := tiles.foldl (fun f t => f.or t.2) {} }

/-- The value of feature `f` of cell `c` of a panel, and its flags (R328 step 1). -/
def NmEnv.panelValue (v : NmEnv) (c f : Nat) : FVal × Fx :=
  let d := v.d
  let (T, i) := (c / 64, c % 64)
  let w := nmBits d.fi
  let la := d.a0 + (T * d.kp + f) * d.strip
  let code := v.numL (la + i * w / 8) (if w < 8 then ceilDiv (i * w % 8 + w) 8 else w / 8)
  let code := if w < 8 then code / 2 ^ (i * w % 8) % 2 ^ w else code
  match d.ofmt with
  | .mx el _ => (el.value (v.num (d.a3 + (T * (d.kp / d.bs) + f / d.bs) * 64 + i) 1) code, {})
  | .fp m => m.operand d.ftz code
  | _ => (.nan, {})

/-- The address of an element of WIDEN's destination. -/
def NmDesc.dest (d : NmDesc) (c f : Nat) : Nat := d.a2 + f * d.a1 + c * nmBytes d.fo

/-- One element of WIDEN. -/
def NmEnv.widenElem (v : NmEnv) (f c : Nat) : Nat × Fx :=
  let d := v.d
  let m := nmFmt d.fo
  let r := v.x.r1 (f * d.n + c)
  let (x, f1) := v.panelValue c f
  let bias := (v.prm.entry f).2
  if bitOf d.sub 0 then
    let o := d.pipe (.fp .binary64) true (v.sb f) v.prm.clip
    let (y, f2) := scaleBias o d.ftz bias x
    let (z, f3) := clipStage o d.ftz y
    let (old, f4) := m.operand d.ftz (v.num (d.dest c f) (nmBytes d.fo))
    m.fin1 r d.ftz (old.add z) (((f1.or f2).or f3).or f4)
  else
    let (sv, fs) := Fmt.binary64.operand d.ftz (v.prm.entry f).1
    let (bv, fb) := Fmt.binary64.operand d.ftz bias
    let (y, f2) := if v.prm.affine then m.fin1 r d.ftz ((x.mul sv).add bv) (fs.or fb) else m.fin1 r d.ftz x {}
    let (z, f3) := clipStage (d.pipe (.fp m) (d.fo == 0) none v.prm.clip) d.ftz (m.decode y)
    if v.prm.clip.isSome then m.fin1 .rne d.ftz z ((f1.or f2).or f3) else (y, f1.or f2)

/-- Does an element of WIDEN depend on poison? -/
def NmEnv.widenBad (v : NmEnv) (f c : Nat) : Bool :=
  let d := v.d
  let (T, i) := (c / 64, c % 64)
  let u := d.dest c 0
  (elAddrs (d.a0 + (T * d.kp + f) * d.strip) i (nmBits d.fi)).any (v.badFrom u) ||
    (d.mx && v.badFrom u (d.a3 + (T * (d.kp / d.bs) + f / d.bs) * 64 + i)) || v.prmBad u f ||
    (bitOf d.sub 0 && v.badFrom u (d.dest c f)) || v.lost u

/-- WIDEN. -/
def NmEnv.widen (v : NmEnv) : NmOut :=
  let d := v.d
  let rows := (List.range d.nf).map fun f =>
    let (cs, fx) := withFx (v.widenElem f) (List.range d.n)
    (((d.dest 0 f, cs.flatMap (bytesLE (nmBytes d.fo))), badElems (d.dest 0 f) (nmBytes d.fo) d.n (v.widenBad f)), fx)
  { writes := rows.map (·.1.1), bad := rows.flatMap (·.1.2), fx := rows.foldl (fun f t => f.or t.2) {} }

/-! ### DUAL_ORDER (R329, R330) -/

/-- The address of an element of W. -/
def NmDesc.wAddr (d : NmDesc) (k j : Nat) : Nat := d.a0 + (k * d.outs + j) * nmBytes d.fi

/-- The address of the first line of the sub-block of an element. -/
def NmDesc.subBlock (d : NmDesc) (k j : Nat) : Nat := d.wAddr (k / 64 * 64) (j / 64 * 64)

/-- One copy of DUAL_ORDER: panels of `len` strips along a line of the master, `at_ s i` giving the element of strip s
and place i of panel p, `shift` added to the indices of the packing draws. -/
def NmEnv.dualCopy (v : NmEnv) (el : Nat → Nat → Rounded) (bad : Nat → Nat → Bool) (panels len base sbase shift : Nat)
    (at_ : Nat → Nat → Nat → Nat × Nat) : NmOut :=
  let d := v.d
  let w := nmBits d.fo
  let nb := if d.mx then len / d.bs else 0
  let one := fun p =>
    let cell := fun s i => at_ p s i
    let lines : List (List Nat × List Nat × Fx) := (List.range 64).map fun i =>
      match d.ofmt with
      | .mx m emax =>
        let bl := (List.range nb).map fun b => packBlock m emax d.sel v.x ((List.range d.bs).map fun j =>
          let (k, c) := cell (b * d.bs + j) i
          ((el k c).value, k * d.outs + c + shift))
        (bl.flatMap (·.2.1), bl.map (·.1), bl.foldl (fun (f : Fx) b => f.or b.2.2) {})
      | _ => ((List.range len).map fun s =>
          let (k, c) := cell s i
          match el k c with
          | .code z => z
          | .val _ => 0, [], {})
    let pb := base + p * len * d.strip
    let sp := sbase + p * nb * 64
    let strips := (List.range len).flatMap fun s => packCodes w (lines.map fun l => l.1.getD s 0)
    let scales := (List.range nb).flatMap fun b => lines.map fun l => (BitVec.ofNat 8 (l.2.1.getD b 0) : Byte)
    let blk := fun i b => (List.range d.bs).any fun j =>
      let (k, c) := cell (b * d.bs + j) i
      bad k c
    let bads := (List.range 64).flatMap fun i =>
      ((List.range len).filter fun s =>
          if d.mx then blk i (s / d.bs) else
            let (k, c) := cell s i
            bad k c).flatMap (fun s => elAddrs (pb + s * d.strip) i w) ++
        ((List.range nb).filter (blk i)).map fun b => sp + b * 64 + i
    ({ writes := (pb, strips) :: (if nb = 0 then [] else [(sp, scales)]), bad := bads
       fx := lines.foldl (fun (f : Fx) l => f.or l.2.2) {} } : NmOut)
  (List.range panels).foldl (fun (o : NmOut) p =>
    let n := one p
    { writes := o.writes ++ n.writes, bad := o.bad ++ n.bad, detail := 0, fx := o.fx.or n.fx }) {}

/-- DUAL_ORDER. -/
def NmEnv.dual (v : NmEnv) : NmOut :=
  let d := v.d
  let es := nmBytes d.fi
  let rows := (List.range d.ins).map fun k => (List.range d.outs).map fun j =>
    let (x, f) := (nmFmt d.fi).operand d.ftz (v.num (d.wAddr k j) es)
    let (r, g) := roundStage (d.pipe d.ofmt true none none) d.ftz (v.x.r1 (k * d.outs + j)) x
    ((r, f.or g) : Rounded × Fx)
  let fx := rows.foldl (fun (f : Fx) l => l.foldl (fun (g : Fx) x => g.or x.2) f) {}
  let el := fun k j => ((rows.getD k []).getD j (.code 0, {})).1
  let bad := fun k j => v.badFrom (d.subBlock k j) (d.wAddr k j) || v.lost (d.subBlock k j)
  let a := v.dualCopy el bad (d.outs / 64) d.ins d.a2 d.a3 0 fun p s i => (s, 64 * p + i)
  let b := v.dualCopy el bad (d.ins / 64) d.outs d.a1 d.a4 (d.ins * d.outs) fun p s i => (64 * p + i, s)
  { writes := a.writes ++ b.writes, bad := a.bad ++ b.bad, detail := 0, fx := (fx.or a.fx).or b.fx }

/-! ### Granules (R331 to R334) -/

/-- The physical granule of granule `g` of the range. -/
def NmEnv.granule (v : NmEnv) (g : Nat) : Nat := v.pa (v.d.a0 + g * 65536) / 65536

/-- The granules of the range, physical. -/
def NmEnv.granules (v : NmEnv) : List Nat := (List.range v.d.n).map v.granule

/-- Is a granule reported: dirty in any stack, or not armed? -/
def State.granuleDirty (s : State) (g : Nat) : Bool := !s.armed.contains g || s.dirty.any fun x => x / 32 == g

/-- The bitmap of DIRTY_COLLECT and how many bits it sets. -/
def NmEnv.collect (v : NmEnv) : NmOut :=
  let bits := v.granules.map v.s.granuleDirty
  let byte := fun k => (BitVec.ofNat 8 (((bits.drop (8 * k)).take 8).foldr (fun b n => 2 * n + b2n b) 0) : Byte)
  { writes := [(v.d.a2, (List.range v.d.bitmapLen).map byte)], detail := (bits.filter id).length }

/-- Is granule `g` selected for hashing? -/
def NmEnv.selected (v : NmEnv) (g : Nat) : Bool := v.d.a1 == 0 || bitOf (v.num (v.d.a1 + g / 8) 1) (g % 8)

/-- HASH. A slot of which poison decides whether it is written lies in a poisoned line too (R338). -/
def NmEnv.hash (v : NmEnv) : NmOut :=
  let d := v.d
  let gs := (List.range d.n).filter v.selected
  { writes := gs.map fun g => (d.a2 + g * 32, sha256 (v.s.bytesAt (v.pa (d.a0 + g * 65536)) 65536))
    bad := ((List.range d.n).filter fun g =>
      let u := d.a0 + g * 65536
      (d.a1 != 0 && v.badFrom u (d.a1 + g / 8)) ||
        (v.selected g && (v.lost u || (List.range 512).any fun l => v.badFrom u (u + 128 * l)))).map fun g => d.a2 + g * 32
    detail := gs.length }

/-- What an operation writes. -/
def NmEnv.compute (v : NmEnv) : NmOut :=
  match v.d.op with
  | 0x10 => v.elementwise
  | 0x11 => v.elementwise
  | 0x18 => v.reduce
  | 0x19 => v.scan
  | 0x20 => v.narrow
  | 0x21 => v.widen
  | 0x22 => v.dual
  | 0x30 => v.gather
  | 0x31 => v.scatter
  | 0x32 => v.scatter
  | 0x41 => v.collect
  | 0x48 => v.hash
  | _ => {}

/-! ### Units (R307, R341) -/

/-- A unit: the local address of its primary line, and the lines that it reads. -/
structure NmUnit where
  at_   : Nat
  lines : List Nat
  deriving DecidableEq, Repr

/-- The lines that a list of addresses touches, each once where equal ones follow one another. -/
def linesOn (l : List Nat) : List Nat :=
  l.foldl (fun acc a => if acc.head? == some (alignDown a 128) then acc else alignDown a 128 :: acc) []

/-- The lines of the parameter block that a unit reads. -/
def NmDesc.prmLines (d : NmDesc) : List Nat :=
  if d.a4 = 0 then [] else (List.range (ceilDiv (32 + 16 * d.nf) 128)).map fun i => d.a4 + 128 * i

/-- The units of a dense array of `es`-byte elements from `base`, one for each line; `reads` gives what a unit reads, by the
address of its line, its first element and the number of its elements. -/
def lineUnits (base es n : Nat) (reads : Nat → Nat → Nat → List Nat) : List NmUnit :=
  let k := 128 / es
  (List.range (ceilDiv n k)).map fun u => ⟨base + u * 128, linesOn (reads (base + u * 128) (u * k) (min k (n - u * k)))⟩

/-- The lines of a panel and of its scales that hold feature `f` of `k` cells from cell `c` on. -/
def NmDesc.panelReads (d : NmDesc) (f c k : Nat) : List Nat :=
  (List.range k).flatMap fun i =>
    let (T, j) := ((c + i) / 64, (c + i) % 64)
    elAddrs (d.a0 + (T * d.kp + f) * d.strip) j (nmBits d.fi)

def NmDesc.scaleReads (d : NmDesc) (b c k : Nat) : List Nat :=
  (List.range k).map fun i => d.a3 + ((c + i) / 64 * (d.kp / d.bs) + b) * 64 + (c + i) % 64

/-- The units of an operation with the lines that each reads. (DEDUCED, log entry 28.) -/
def NmEnv.units (v : NmEnv) : List NmUnit :=
  let d := v.d
  let es := nmBytes d.fi
  let second := fun (a : Nat) => if d.a1 = 0 then [a] else [a, d.a1 + (a - d.a0)]
  let table := fun (base i0 k : Nat) => (List.range k).filterMap fun i =>
    let j := v.idx (i0 + i)
    if j < d.a3 then some (base + j * es) else none
  match d.op with
  | 0x10 => lineUnits d.a0 es d.n fun a _ _ => second a
  | 0x11 => lineUnits d.a0 es d.n fun a _ _ => second a
  | 0x18 => lineUnits d.a0 es d.n fun a _ _ => [a]
  | 0x19 => lineUnits d.a0 8 d.n fun a i _ => if bitOf d.sub 1 then [a, d.a1 + i] else [a]
  | 0x20 => lineUnits d.a0 es d.n fun a _ _ => (List.range d.nf).map (fun f => a + f * d.a1) ++ d.prmLines
  | 0x21 => lineUnits d.a2 (nmBytes d.fo) d.n fun a c k =>
      (List.range d.nf).flatMap (fun f => d.panelReads f c k) ++
        (if d.mx then (List.range (ceilDiv d.nf d.bs)).flatMap fun b => d.scaleReads b c k else []) ++
        (if bitOf d.sub 0 then (List.range d.nf).map fun f => a + f * d.a1 else []) ++ d.prmLines
  | 0x22 => (List.range (d.ins / 64)).flatMap fun k => (List.range (d.outs / 64)).map fun j =>
      ⟨d.subBlock (64 * k) (64 * j), linesOn ((List.range 64).flatMap fun r =>
        (List.range (es / 2)).map fun h => d.wAddr (64 * k + r) (64 * j) + 128 * h)⟩
  | 0x30 => lineUnits d.a1 d.idxBytes d.n fun a i k => a :: table d.a0 i k
  | 0x31 => lineUnits d.a1 d.idxBytes d.n fun a i k => a :: (List.range k).map fun j => d.a0 + (i + j) * es
  | 0x32 => lineUnits d.a1 d.idxBytes d.n fun a i k =>
      a :: (List.range k).map (fun j => d.a0 + (i + j) * es) ++ table d.a2 i k
  | 0x48 => (List.range d.n).map fun g => ⟨d.a0 + g * 65536,
      (if d.a1 = 0 then [] else [d.a1 + g / 8]) ++
        if v.selected g then (List.range 512).map fun l => d.a0 + g * 65536 + 128 * l else []⟩
  | _ => []

/-- Inserts by key, behind equal keys. -/
def putAfter {α : Type} (k : Nat) (x : α) : List (Nat × α) → List (Nat × α)
  | [] => [(k, x)]
  | y :: l => if k < y.1 then (k, x) :: y :: l else y :: putAfter k x l

/-- The units of one stack in ascending physical address of the primary line, as (physical address, bytes read). Units whose
primary lines are one physical line stay apart. -/
def NmEnv.unitsOf (v : NmEnv) (st : Nat) : List (Nat × Nat) :=
  ((v.units.map fun u => (v.pa u.at_, 128 * u.lines.length)).filter fun u => v.s.stackOf u.1 == st).foldl
    (fun l u => putAfter u.1 u.2 l) []

/-- What each engine runs: its number, its units and the bytes they read. -/
def NmEnv.dealt (v : NmEnv) : List (Nat × Nat × Nat) :=
  (List.range 32).flatMap fun st =>
    let us := v.unitsOf st
    let es := v.s.nmEngines st
    if us.isEmpty || es.isEmpty then []
    else es.zipIdx.filterMap fun e =>
      let mine := (us.zipIdx.filter fun u => u.2 % es.length == e.2).map (·.1.2)
      if mine.isEmpty then none else some (e.1, mine.length, mine.sum)

/-- The primary address of the unit that writes the output at a local address; `updates` has dropped what the units of SCATTER
and SCATTER_ADD have no path for. (DEDUCED, log entry 65.) -/
def NmEnv.writer (v : NmEnv) (la : Nat) : Nat :=
  let d := v.d
  let es := nmBytes d.fi
  let nb := d.kp / d.bs
  match d.op with
  | 0x10 => d.a0 + (la - d.a2)
  | 0x11 => d.a0 + (la - d.a2)
  | 0x19 => d.a0 + (la - d.a2)
  | 0x20 =>
    let T := if d.a2 ≤ la ∧ la < d.a2 + d.tiles * d.kp * d.strip then (la - d.a2) / (d.kp * d.strip) else (la - d.a3) / (nb * 64)
    d.a0 + min (64 * T) (d.n - 1) * es
  | 0x21 => d.a2 + (la - d.a2) % d.a1
  | 0x22 =>
    let copy := d.ins * d.outs * nmBits d.fo / 8
    let sb := 64 * nmBits d.fo / 8
    if d.a2 ≤ la ∧ la < d.a2 + copy then d.subBlock ((la - d.a2) % (d.ins * sb) / sb) (64 * ((la - d.a2) / (d.ins * sb)))
    else if d.a1 ≤ la ∧ la < d.a1 + copy then
      d.subBlock (64 * ((la - d.a1) / (d.outs * sb))) ((la - d.a1) % (d.outs * sb) / sb)
    else if d.a3 ≤ la ∧ la < d.a3 + d.outs / 64 * (d.ins / d.bs) * 64 then
      d.subBlock ((la - d.a3) % (d.ins / d.bs * 64) / 64 * d.bs) (64 * ((la - d.a3) / (d.ins / d.bs * 64)))
    else d.subBlock (64 * ((la - d.a4) / (d.outs / d.bs * 64))) ((la - d.a4) % (d.outs / d.bs * 64) / 64 * d.bs)
  | 0x30 => d.a1 + (la - d.a2) / es * d.idxBytes
  | 0x48 => d.a0 + (la - d.a2) / 32 * 65536
  | 0x31 => la
  | 0x32 => la
  | _ => d.primary

end Sys2Proof.Machine
end

