-- ==== Sys2Proof/Machine/NearMem.lean ====
section
/-! DEFINITION. Near-memory operations from acceptance to completion: nm.post (R95), the four barges (R316 to R318), one
row for each operation of Table 10-4, and the completion with STATUS and the completion add (R314, R315, R340). -/

namespace Sys2Proof.Machine

/-- Accepts an operation: its number, and the state that holds it. -/
def State.nmAccept (s : State) (o : NmOp) : State :=
  { s with nmOps := s.nmOps ++ [{ o with num := s.nmNum }], nmNum := s.nmNum + 1 }

/-! ### nm.post (R95) -/

/-- The cause of the trap for a failing address of a descriptor. -/
def State.nmCause (s : State) (part a : Nat) (write : Bool) : Nat :=
  match s.translate s.maps (some part) none write 1 a with
  | .ok _ => Cause.pageUnmapped
  | .error c => c

/-- The completion word of an nm.post: none for x[rC] zero, or the cause of its trap. -/
def State.nmWord (s : State) (P la : Nat) : Except Nat (Option Nat) :=
  if la = 0 then .ok none
  else
    match s.clTranslate P true 8 la with
    | .error c => .error c
    | .ok pa => .ok (some pa)

/-- nm.post rB, rC. Where no path leads to the C-die of the lead engine (R17, R18), the post is lost as a store is (R591).
(DESIGN CHOICE, log entry 65.) -/
def execNmPost (p : Fin 576) (env : CEnv) (s : State) : Res State :=
  s.instr p.val .nmPost env fun w t =>
    let P := p.val
    let c := t.cl P
    let la := (c.x (fB w)).toNat
    let word := (c.x (fC w)).toNat
    let base := basinPA P + la
    let part := (t.clPart P).getD 8
    if c.moutOpen then s
    else if la % 64 ≠ 0 then t.trap P Cause.misaligned la
    else if basinSize < la + 64 then t.trap P Cause.addrReserved la
    else
      let t := (t.access P env [⟨base, 64, false⟩]).meetEcc env.ecc base
      if (t.poisonIn base 64).isSome then t.trap P Cause.dataPoison la
      else
        let desc := t.bytesAt base 64
        match t.nmWell part desc with
        | none => t.trap P Cause.nmDescriptor la
        | some d =>
          match t.nmFault part d with
          | some (a, wr) => t.trap P (t.nmCause part a wr) a
          | none =>
            match t.nmWord P word with
            | .error k => t.trap P k word
            | .ok flag =>
              let L := (t.logOfPhys P).getD 0
              let lead := t.nmLead part d (L % 8)
              if 16 ≤ t.nmQueued lead none then s
              else if !t.linksTo (P / 144) (lead / 64) then t.stopCluster P Cause.dataPoison la c.pc Cause.dataPoison
              else
                let t := t.nmAccept { num := 0, lead := lead, desc := desc, part := part
                                      view := t.maps.filter fun m => m.part == part
                                      source := .cluster P c.barge, status := some (base + 56), flag := flag
                                      seed := c.seed, src := 512 + L, ord := c.retired % 2 ^ 13 * 2 ^ 28
                                      done := false, code := 1, detail := 0, notes := 0 }
                (t.store8 (base + 56) 1).modCl P fun c => { c with nmOut := c.nmOut + 1 }.retire

/-! ### Running an operation -/

/-- The physical ranges that a local range covers under a view. -/
def NmEnv.phys (v : NmEnv) (r : NmRange) : List (Nat × Nat) :=
  (List.range (r.len / 65536 + 2)).filterMap fun i =>
    let a := max r.la (alignDown r.la 65536 + 65536 * i)
    let b := min (r.la + r.len) (alignDown r.la 65536 + 65536 * (i + 1))
    if a < b then some (v.pa a, b - a) else none

/-- Do two ranges share bytes? -/
def NmEnv.meets (v : NmEnv) (a b : NmRange) : Bool :=
  spansMeet a.la a.len b.la b.len || (v.phys a).any fun x => (v.phys b).any fun y => spansMeet x.1 x.2 y.1 y.2

/-- Are two ranges the same bytes? -/
def NmEnv.same (v : NmEnv) (a b : NmRange) : Bool := (a.la == b.la && a.len == b.len) || v.phys a == v.phys b

/-- The written ranges that R320 leaves undefined. (DEDUCED, log entry 27.) -/
def NmEnv.clashes (v : NmEnv) : List NmRange :=
  let rs := v.d.ranges.zipIdx
  ((rs.filter fun w => w.1.write && rs.any fun r => r.2 != w.2 && r.1.data && v.meets w.1 r.1 &&
    (r.1.write || !v.same w.1 r.1)).map (·.1))

/-- Does a path lead from the unit that writes an output to it (R591)? -/
def NmEnv.lands (v : NmEnv) (la : Nat) : Bool := v.reaches (v.writer la) la

/-- Is an output of an operation dropped because no path leads to its line? -/
def NmEnv.drops (v : NmEnv) (o : NmOut) : Bool :=
  o.writes.any fun w => (List.range (w.2.length / 128 + 2)).any fun i =>
    let a := max w.1 (alignDown w.1 128 + 128 * i)
    decide (a < w.1 + w.2.length) && !v.lands a

/-- Writes what an operation computed; an element that depends on poison poisons its line. (DEDUCED, log entry 64.) -/
def State.nmWrite (s : State) (v : NmEnv) (o : NmOut) : State :=
  let t := o.writes.foldl (fun t w => t.storeLocalIf v.view v.part w.1 w.2 v.lands) s
  (o.bad.filter v.lands).foldl (fun t a =>
    let l := alignDown (v.pa a) 128
    (t.setPoison l).setPoison (l + 64)) t

/-- Arms, disarms or collects granules (R332). -/
def State.nmTrack (s : State) (v : NmEnv) : State :=
  let gs := if v.d.op = Nm.dirtyArm ∨ v.d.op = Nm.dirtyCollect ∨ v.d.op = Nm.dirtyDisarm then v.granules else []
  if v.d.op = Nm.dirtyArm then
    { s with armed := gs.foldl (fun l g => setIns g l) s.armed, dirty := s.dirty.filter fun x => !gs.contains (x / 32) }
  else if v.d.op = Nm.dirtyDisarm then { s with armed := s.armed.filter fun g => !gs.contains g }
  else if v.d.op = Nm.dirtyCollect then { s with dirty := s.dirty.filter fun x => !gs.contains (x / 32) }
  else s

/-- The stacks that hold a share of the granules of dirty tracking, each with the engine that runs its unit. -/
def NmEnv.shares (v : NmEnv) : List (Nat × Nat × Nat) :=
  if v.d.op = Nm.dirtyArm ∨ v.d.op = Nm.dirtyCollect ∨ v.d.op = Nm.dirtyDisarm then
    ((List.range 32).filter fun st => v.granules.any fun g =>
      v.s.packageWide (g / 65536) || v.s.stackOf (g * 65536) / 8 == st / 8).filterMap fun st =>
        (v.s.nmEngines st).head?.map fun e => (e, 1, 0)
  else []

/-- Counts the units that each engine completed and the bytes that it read (R341). -/
def State.nmCount (s : State) (l : List (Nat × Nat × Nat)) : State :=
  l.foldl (fun t e => (t.count (Reg.nmeOps e.1) e.2.1).count (Reg.nmeReadBytes e.1) e.2.2) s

/-- The environment of an accepted operation. -/
def State.nmEnv (s : State) (o : NmOp) : NmEnv :=
  let d := nmFields o.desc
  let rm := if d.op = Nm.reduce ∨ d.op = Nm.scan ∨ d.op = Nm.scatterAdd then 0 else d.rm
  ⟨s, o.part, o.view, d, (s.nmBlock o.view o.part d).getD {}, ⟨d.ftz, rm, o.seed, o.src, o.ord⟩⟩

/-- Replaces an operation's record. -/
def State.setNmOp (s : State) (o : NmOp) : State :=
  { s with nmOps := s.nmOps.map fun x => if x.num == o.num then o else x }

/-- What an operation's barge uses: the C-dies of its ranges (R448). -/
def State.nmUses (s : State) (o : NmOp) : State :=
  (nmFields o.desc).ranges.foldl (fun t r => t.useRange o.barges.head? o.view o.part r.la r.len) s

/-- The engines that run units of an operation. -/
def NmEnv.onEngines (v : NmEnv) : List (Nat × Nat × Nat) := v.dealt ++ v.shares

/-- Does an engine that runs units of an operation still have to run those of an earlier one (R308)? -/
def State.nmBlocked (s : State) (o : NmOp) : Bool :=
  let mine := ((s.nmEnv o).onEngines).map (·.1)
  s.nmOps.any fun x => !x.done && decide (x.num < o.num) && ((s.nmEnv x).onEngines).any fun e => mine.contains e.1

/-- Runs an accepted operation: every unit of it. (DEDUCED, log entry 28.) -/
def State.nmRun (s : State) (o : NmOp) : State :=
  let s := s.nmUses o
  let v := s.nmEnv o
  let bad := v.clashes
  let (t, out) :=
    if bad.isEmpty then
      let out := v.compute
      ((s.nmTrack v).nmWrite v out, out)
    else (bad.foldl (fun t r => (v.phys r).foldl (fun u x => u.undefine x.1 x.2) t) s, {})
  let miss := (v.d.op == Nm.gather || v.d.op == Nm.scatter || v.d.op == Nm.scatterAdd) && out.detail != 0
  let code := if !out.bad.isEmpty || out.met || v.drops out then 2 else if miss then 3 else 0
  (t.nmCount v.onEngines).setNmOp { o with
    done := true
    code := code
    detail := min out.detail (2 ^ 32 - 1)
    notes := o.notes ||| (b2n out.fx.flush + 2 * b2n out.fx.clip) }

/-! ### Near-memory barges (R316, R317) -/

/-- Does an operation suit the opcode of a barge? -/
def nmSuits (native op : Nat) : Bool :=
  if op = Nm.narrow then native == 0x401
  else if op = Nm.widen then native == 0x402
  else if op = Nm.dual then native == 0x403
  else native == 0x400

/-- FLAG_ADDR. -/
def Barge.nmFlag (b : Barge) : Nat := b.f 103 96

/-- The checks of Table 10-7. -/
def State.nmChecks (s : State) (b : Barge) : List (Bool × Nat × Nat) :=
  let d := s.nmWell b.part b.nmDesc
  let fault := d.bind (s.nmFault b.part)
  let fl := b.nmFlag
  let flBad := match s.execTranslate b.part true 8 fl with
    | .ok _ => false
    | .error _ => true
  [(!b.reservedZero [(127, 104), (95, 88)] || decide (2 ^ 6 ≤ fieldB b.nmDesc 2 2), St.malformed, 0),
    (!(d.any fun x => nmSuits b.native x.op) || fl % 8 != 0, 0x0410, 0),
    (fault.isSome, 0x0411, (fault.getD (0, false)).1),
    (fl != 0 && flBad, 0x0411, fl)]

/-- Forms the operation of a checked barge. -/
def State.nmBegin (s : State) (b : Barge) (d : NmDesc) : State :=
  let fl := b.nmFlag
  let flag := match s.execTranslate b.part true 8 fl with
    | .ok pa => if fl = 0 then none else some pa
    | .error _ => none
  let n := s.nmNum
  (s.nmAccept { num := n, lead := s.nmLead b.part d (b.seq % 8), desc := b.nmDesc, part := b.part
                view := s.maps.filter fun m => m.part == b.part, source := .barge b.canal b.seq, status := none
                flag := flag, seed := b.seed, src := 1023, ord := b.seq % 2 ^ 13 * 2 ^ 28
                done := false, code := 1, detail := 0, notes := 0 }).working b.canal b.seq
    fun x => { x with work := .near n }

/-- The physical accesses of an operation. -/
def NmEnv.touches (v : NmEnv) : List Touch :=
  v.d.ranges.flatMap fun r => (v.phys r).map fun x => ⟨x.1, x.2, r.write⟩

/-- The contested grants of an operation's accesses (R51, R55). (DESIGN CHOICE, log entry 17.) -/
def State.nmContest (s : State) (o : NmOp) (ts : List Touch) (x : Contest) : State := s.contest (s.asNear o) ts x

/-- The accepted operation with a number, where it has not run. -/
def State.nmOp? (s : State) (n : Nat) : Option NmOp := s.nmOps.find? fun o => o.num == n && !o.done

/-- The operation that a near-memory barge has formed. -/
def Barge.nearOp (b : Barge) : Option Nat :=
  match b.work with
  | .near n => some n
  | _ => none

/-- Runs the operation of a row of Table 10-4 once no engine of it has an earlier one to run (R308): a posted one, or that of a
barge. The first offer of the row to a started barge makes its checks and hands the operation to its engines. An operation of
another row leaves the state. (DESIGN CHOICE, log entry 8; DEDUCED, log entry 28.) -/
def State.nmRow (s : State) (op : Nat) (who : NmWho) (errs : List (Nat × Ecc)) (x : Contest) : Res State :=
  let run := fun (n : Nat) => match s.nmOp? n with
    | some o => if fieldB o.desc 1 0 = op ∧ !s.nmBlocked o then ((s.nmContest o (s.nmEnv o).touches x).meetAll errs).nmRun o else s
    | none => s
  match who with
  | .op n => s.go (run n)
  | .barge c q =>
    match (s.barge? c.val q).bind Barge.nearOp with
    | some n => s.go (run n)
    | none =>
      s.work c.val q [if op = Nm.narrow then 0x401 else if op = Nm.widen then 0x402 else if op = Nm.dual then 0x403 else 0x400]
        fun b t => t.checked b (t.nmChecks b) fun t =>
          match t.nmWell b.part b.nmDesc with
          | some d => if d.op = op then t.nmBegin b d else s
          | none => s

/-! ### One row for each operation -/

/-- AXPBY (R321). -/
def execAxpby (w : NmWho) (errs : List (Nat × Ecc)) (x : Contest) (s : State) : Res State := s.nmRow Nm.axpby w errs x

/-- MUL (R321). -/
def execMul (w : NmWho) (errs : List (Nat × Ecc)) (x : Contest) (s : State) : Res State := s.nmRow Nm.mul w errs x

/-- REDUCE (R322). -/
def execReduce (w : NmWho) (errs : List (Nat × Ecc)) (x : Contest) (s : State) : Res State := s.nmRow Nm.reduce w errs x

/-- SCAN (R323). -/
def execScan (w : NmWho) (errs : List (Nat × Ecc)) (x : Contest) (s : State) : Res State := s.nmRow Nm.scan w errs x

/-- GATHER (R324). -/
def execGather (w : NmWho) (errs : List (Nat × Ecc)) (x : Contest) (s : State) : Res State := s.nmRow Nm.gather w errs x

/-- SCATTER (R324). -/
def execScatter (w : NmWho) (errs : List (Nat × Ecc)) (x : Contest) (s : State) : Res State := s.nmRow Nm.scatter w errs x

/-- SCATTER_ADD (R324). -/
def execScatterAdd (w : NmWho) (errs : List (Nat × Ecc)) (x : Contest) (s : State) : Res State :=
  s.nmRow Nm.scatterAdd w errs x

/-- NARROW (R325 to R327), the operation of BRIDGE_NARROW. -/
def execBridgeNarrow (w : NmWho) (errs : List (Nat × Ecc)) (x : Contest) (s : State) : Res State :=
  s.nmRow Nm.narrow w errs x

/-- WIDEN (R328), the operation of BRIDGE_WIDEN. -/
def execBridgeWiden (w : NmWho) (errs : List (Nat × Ecc)) (x : Contest) (s : State) : Res State :=
  s.nmRow Nm.widen w errs x

/-- DUAL_ORDER (R329, R330), the operation of DUAL_ORDER_WRITE. -/
def execDualOrderWrite (w : NmWho) (errs : List (Nat × Ecc)) (x : Contest) (s : State) : Res State :=
  s.nmRow Nm.dual w errs x

/-- DIRTY_ARM (R332). -/
def execDirtyArm (w : NmWho) (errs : List (Nat × Ecc)) (x : Contest) (s : State) : Res State := s.nmRow Nm.dirtyArm w errs x

/-- DIRTY_COLLECT (R332). -/
def execDirtyCollect (w : NmWho) (errs : List (Nat × Ecc)) (x : Contest) (s : State) : Res State :=
  s.nmRow Nm.dirtyCollect w errs x

/-- DIRTY_DISARM (R332). -/
def execDirtyDisarm (w : NmWho) (errs : List (Nat × Ecc)) (x : Contest) (s : State) : Res State :=
  s.nmRow Nm.dirtyDisarm w errs x

/-- HASH (R334). -/
def execHash (w : NmWho) (errs : List (Nat × Ecc)) (x : Contest) (s : State) : Res State := s.nmRow Nm.hash w errs x

/-! ### Completion (R314, R315, R317, R710) -/

/-- The indivisible add of 1 to a completion word by an engine on C-die `d`; a poisoned word keeps its poison (R710), and one
that no path leads to is not reached (R591). -/
def State.flagAdd (s : State) (d pa : Nat) (ecc : Ecc) : State :=
  let t := s.meetEcc ecc pa
  if t.poisonedFrom d pa then t else t.store8 pa ((t.numAt pa 8 + 1) % 2 ^ 64)

/-- STATUS of a completed operation (Table 10-5). -/
def NmOp.statusWord (o : NmOp) : Nat := o.code + o.notes * 2 ^ 8 + o.detail * 2 ^ 32

/-- The notes that a completed operation leaves in a barge: FLUSH_SEEN, CLIPPED and RETRIED. -/
def NmOp.tallyNotes (o : NmOp) : Nat :=
  (if bitOf o.notes 0 then Note.flushSeen else 0) ||| (if bitOf o.notes 1 then Note.clipped else 0) |||
    (if bitOf o.notes 2 then Note.retried else 0)

/-- What a completion does for the source of the operation: the posting cluster's hidden flags (R315), and the notes of the
barge that posted it while that has not completed (R190, R340, R374). CW_NM_OUT counts the operations of the cargo that runs.
(DEDUCED, log entry 15.) -/
def State.nmReport (s : State) (o : NmOp) : State :=
  match o.source with
  | .cluster P run =>
    let t := s.modCl P fun c => { c with
      nmOut := if c.barge = run then c.nmOut - 1 else c.nmOut
      flushed := c.flushed || bitOf o.notes 0
      clipped := c.clipped || bitOf o.notes 1 }
    match run with
    | some (k, q) => t.addNote k q o.tallyNotes
    | none => t
  | .barge k q =>
    (s.addNote k q o.tallyNotes).endBarge k q (if o.code = 2 then 0x0412 else if o.code = 3 then 0x0413 else St.done) o.detail 0

/-- An operation that has run completes: STATUS, the completion add, then its source. (DEDUCED, log entry 28.) -/
def execNmOpComplete (n : Nat) (ecc : Ecc) (x : Contest) (s : State) : Res State :=
  s.go <| match s.nmOps.find? fun o => o.num == n && o.done with
    | none => s
    | some o =>
      let t := s.nmContest o ((o.status.toList ++ o.flag.toList).map fun pa => ⟨pa, 8, true⟩) x
      let t := match o.status with
        | some pa => t.storeFrom (o.lead / 64) pa (bytesLE 8 o.statusWord)
        | none => t
      let t := match o.flag with
        | some pa => t.flagAdd (o.lead / 64) pa ecc
        | none => t
      ({ t with nmOps := t.nmOps.filter fun y => y.num != n }).nmReport o

end Sys2Proof.Machine
end

