-- ==== Sys2Proof/Machine/Packets.lean ====
section
/-! DEFINITION. Ragar packets as bytes and fields (R504, R505): their types, the checks of the receiving F-die, and what
a request asks for. -/

namespace Sys2Proof

open Sys2Proof.Machine

/-! ### Packet types (Table 17-4) -/

def Pt.read8 : Nat := 0x01
def Pt.write8 : Nat := 0x02
def Pt.flag8 : Nat := 0x03
def Pt.readLines : Nat := 0x04
def Pt.writeLines : Nat := 0x05
def Pt.ack : Nat := 0x10
def Pt.nack : Nat := 0x11
def Pt.readResp : Nat := 0x12
def Pt.coll : Nat := 0x20
def Pt.mgmt : Nat := 0x30
def Pt.time : Nat := 0x31
def Pt.notice : Nat := 0x32

/-- The virtual channel of a packet type. -/
def vcOf (t : Nat) : Nat :=
  if t < 0x10 then 0 else if t < 0x20 then 1 else if t < 0x30 then 2 else 3

/-- The lines that follow a packet's header. -/
def Packet.lines (p : Packet) : Nat := p.body.length / 128

/-- The SRC_UNIT values of requests and their answers (R504, R537, R697). -/
def unitOk (u : Nat) : Bool :=
  decide (u < 0x200 ∨ (0x400 ≤ u ∧ u < 0x500) ∨ (0x800 ≤ u ∧ u ≤ 0x803) ∨ (0x900 ≤ u ∧ u ≤ 0x904))

/-- Do the fields keep to Table 17-3 and Table 17-4 (R504)? -/
def Packet.ok (p : Packet) : Bool :=
  let n := p.lines
  let low := p.ptype == Pt.read8 || p.ptype == Pt.write8 || p.ptype == Pt.flag8
  p.vc == vcOf p.ptype && p.body.length % 128 == 0 && decide (n ≤ 32) &&
  (p.code == 0 || p.ptype == Pt.nack) && unitOk p.unit &&
  (!p.poison || p.ptype == Pt.readResp || p.ptype == Pt.writeLines || p.ptype == Pt.coll) &&
  (if low then n == 0 && p.offset % 8 == 0 && (p.ptype != Pt.read8 || p.data == 0)
  else if p.ptype = Pt.readLines then n == 0 && p.offset % 128 == 0 && decide (1 ≤ p.data ∧ p.data ≤ 32)
  else if p.ptype = Pt.writeLines then decide (1 ≤ n) && p.offset % 128 == 0 && p.data == 0
  else if p.ptype = Pt.ack then n == 0 && p.data == 0
  else if p.ptype = Pt.nack then n == 0 && p.data == 0 && decide (1 ≤ p.code ∧ p.code ≤ 9)
  else if p.ptype = Pt.readResp then n == 0 || p.data == 0
  else if p.ptype = Pt.coll then decide (0x800 ≤ p.unit ∧ p.unit ≤ 0x803) && (if p.unit = 0x800 then decide (1 ≤ n) && p.offset % 128 == 0 else n == 0)
  else if p.ptype = Pt.mgmt then decide (0x900 ≤ p.unit ∧ p.unit ≤ 0x904) && (p.unit == 0x901 || n == 0 || (p.unit == 0x904 && n == 1))
  else if p.ptype = Pt.time then n == 0
  else if p.ptype = Pt.notice then n == 0 && decide (p.data < 2 ^ 32) && p.seq == 0 && p.job == 0 && p.offset == 0 && p.unit == 0
  else false)

/-- The 32-byte header of a packet (Table 17-3). -/
def Packet.header (p : Packet) : List Byte :=
  bytesLE 1 p.ptype ++ bytesLE 1 (p.vc + 4 * b2n p.poison) ++ bytesLE 1 p.code ++ bytesLE 1 p.lines ++ bytesLE 2 p.dst ++
    bytesLE 2 p.src ++ bytesLE 4 p.seq ++ bytesLE 4 p.job ++ bytesLE 6 p.offset ++ bytesLE 2 p.unit ++ bytesLE 8 p.data

/-- Reads a packet from its header and its lines; none where reserved bits of PFLAGS are set. -/
def packetOf (h body : List Byte) : Option Packet :=
  let fl := fieldB h 1 1
  if 8 ≤ fl then none
  else some ⟨fieldB h 0 0, fl % 4, bitOf fl 2, fieldB h 2 2, fieldB h 5 4, fieldB h 7 6, fieldB h 11 8, fieldB h 15 12,
    fieldB h 21 16, fieldB h 23 22, fieldB h 31 24, body⟩

/-- The SRC_UNIT of an ACK or NACK: 0x0800 answers COLL packets (R537), 0x0900 MGMT packets. -/
def Packet.ackUnit (p : Packet) : Nat := if p.vc = 2 then 0x800 else if p.vc = 3 then 0x900 else p.unit

/-! ### What a request does -/

/-- What a request does at its location. -/
def Packet.reads (p : Packet) : Bool := p.ptype == Pt.read8 || p.ptype == Pt.readLines

/-- bytes(k) of R510. -/
def Packet.bytes (p : Packet) : Nat :=
  if p.ptype = Pt.readLines then 128 * (p.data % 64)
  else if p.ptype = Pt.writeLines ∨ p.ptype = Pt.coll then p.body.length
  else 8

/-- The global fabric address of a request. -/
def Packet.global (p : Packet) : Nat := p.dst * 2 ^ 48 + p.offset

end Sys2Proof
end

