-- ==== Sys2Proof/Machine/LinkFlits.lean ====
section
/-! DEFINITION. Link flits as bytes (Table 17-1), and what the transmitter of a port puts into them: the packet stream, the
order of the virtual channels and their credits (R494 to R496). -/

namespace Sys2Proof.Machine

/-! ### Flits as bytes (Table 17-1) -/

/-- The flit types. -/
def Ft.idle : Nat := 0
def Ft.data : Nat := 1
def Ft.replay : Nat := 2
def Ft.notice : Nat := 3

/-- The CRC of a flit, over its first 26 bytes and its body. -/
def flitCrc (bs : List Byte) : Nat := crc32c (sliceB bs 0 26 ++ sliceB bs 30 512)

/-- Has a flit its length and a good CRC? -/
def flitGood (bs : List Byte) : Bool := bs.length == 542 && fieldB bs 29 26 == flitCrc bs

/-- The CREDIT fields, VC0 first. -/
def flitCredit (bs : List Byte) : List Nat := (List.range 4).map fun v => fieldB bs (5 + 2 * v) (4 + 2 * v)

/-- A flit from its fields; a body shorter than 512 bytes ends in zeros. -/
def flitBytes (fseq ack : Nat) (credit : List Nat) (ftype first notice : Nat) (body : List Byte) : List Byte :=
  let head := bytesLE 2 fseq ++ bytesLE 2 ack ++ (List.range 4).flatMap (fun v => bytesLE 2 (credit.getD v 0)) ++
    bytesLE 1 ftype ++ bytesLE 1 first ++ bytesLE 1 notice ++ List.replicate 11 0
  let full := sliceB body 0 512
  head ++ bytesLE 4 (crc32c (head ++ full)) ++ full

/-! ### Credits (R495) -/

/-- The 32-byte units of a receive buffer of 64 KiB. -/
def vcRoom : Nat := 2048

/-- The 32-byte units that a packet takes. -/
def pktUnits (p : Packet) : Nat := 1 + 4 * p.lines

/-- Adds to the entry of one virtual channel. -/
def addVc (l : List Nat) (vc n : Nat) : List Nat :=
  (List.range 4).map fun v => l.getD v 0 + if v = vc then n else 0

/-- The partner has freed units of its buffers. -/
def LinkSt.creditIn (l : LinkSt) (c : List Nat) : LinkSt :=
  { l with spent := (List.range 4).map fun v => l.spent.getD v 0 - c.getD v 0 }

/-! ### The transmitter (R494 to R496) -/

/-- The first waiting packet of a virtual channel, where the partner's buffer has room for it. -/
def LinkSt.ready (l : LinkSt) (vc : Nat) : Option Packet :=
  (l.queue.find? fun p => p.vc % 4 == vc).filter fun p => decide (l.spent.getD vc 0 + (pktUnits p) ≤ vcRoom)

/-- The packet that starts next: VC3 first, then VC1, then VC2 and VC0 in turn (R495). -/
def LinkSt.pick (l : LinkSt) : Option Packet :=
  ([3, 1] ++ if l.turn then [2, 0] else [0, 2]).findSome? l.ready

/-- A packet begins: its bytes join the stream and it takes its credits. -/
def LinkSt.begin (l : LinkSt) (p : Packet) : LinkSt :=
  { l with
    queue := l.queue.erase p
    rest := p.header ++ p.body
    spent := addVc l.spent (p.vc % 4) (pktUnits p)
    turn := if p.vc % 4 = 0 then true else if p.vc % 4 = 2 then false else l.turn }

/-- Fills the body of a data flit with the stream: the body, and the offset of the first header in it in 32-byte units. A packet
that has begun goes on before another begins. (DESIGN CHOICE, log entry 37.) -/
def LinkSt.fill (l : LinkSt) : Nat → List Byte → Option Nat → List Byte × Option Nat × LinkSt
  | 0, body, first => (body, first, l)
  | n + 1, body, first =>
    if 512 ≤ body.length then (body, first, l)
    else if l.rest.isEmpty then
      match l.pick with
      | none => (body, first, l)
      | some p => (l.begin p).fill n body (some (first.getD (body.length / 32)))
    else
      let k := 512 - body.length
      ({ l with rest := l.rest.drop k } : LinkSt).fill n (body ++ l.rest.take k) first

/-- A flit of a port that carries no packets: idle, a replay request or a notice. It returns the credits that are due. -/
def LinkSt.control (l : LinkSt) (ftype notice : Nat) : List Byte × LinkSt :=
  (flitBytes l.fseq l.recv l.owed ftype 0xFF notice [], { l with owed := [], ackDue := false })

/-- The next flit of a port: a data flit while packets wait and fewer than 256 data flits are held, an idle one while an ACK or
credits are due, else none. -/
def LinkSt.next (l : LinkSt) : Option (List Byte) × LinkSt :=
  let (body, first, m) := l.fill 33 [] none
  if !body.isEmpty && decide (l.held.length < 256) then
    let seq := (l.fseq + 1) % 65536
    let bs := flitBytes seq l.recv l.owed Ft.data (first.getD 0xFF) 0 body
    (some bs, { m with fseq := seq, held := l.held ++ [⟨seq, 0, bs⟩], owed := [], ackDue := false })
  else if l.ackDue || l.owed.any (· != 0) then
    let (bs, m) := l.control Ft.idle 0
    (some bs, m)
  else (none, l)

end Sys2Proof.Machine
end

