-- ==== Sys2Proof/Machine/Fabric.lean ====
section
/-! DEFINITION. The Ragar fabric at one package: routes (R501, R502), the numbering of requests (R506 to R508), the
landing lookup (R509 to R511), the performance of landed requests (R513 to R516) and the report of failures at the
source (R97, R98, R511). -/

namespace Sys2Proof.Machine

/-! ### Nodes, ports and routes -/

/-- Is the node id assigned? -/
def State.nodeValid (s : State) : Bool := s.flag Reg.fabricNode F.FABRIC_NODE_NODE_VALID

/-- The node id. -/
def State.nodeId (s : State) : Nat := s.fld Reg.fabricNode F.FABRIC_NODE_NODE_ID

/-- Is the link of port `k` up? -/
def State.portUp (s : State) (k : Nat) : Bool := s.fld (Reg.portStatus k) F.PORT_STATUS_STATE == 2

/-- The port that carries the traffic of port `k`: port 8 of its F-die once it is substituted (R499). -/
def State.carrier (s : State) (k : Nat) : Nat :=
  if s.flag (Reg.portStatus k) F.PORT_STATUS_SUBSTITUTED then k / 9 * 9 + 8 else k

/-- ROUTE_DATA of a node. -/
def State.routeWord (s : State) (node : Nat) : Nat := spGet (fun _ => 0x1F1F) s.fabric.routes node

/-- The port by which packets for a node leave: PRIMARY while that link is up, else ALTERNATE while it is up (R502).
(DEDUCED, log entry 35.) -/
def State.routePort (s : State) (node : Nat) : Option Nat :=
  let w := s.routeWord node
  if bitOf w 15 then
    ([bitsOf w 4 0, bitsOf w 12 8].map fun k => if k < 18 then s.carrier k else k).find? fun k =>
      decide (k < 18) && s.portUp k
  else none

/-- Is a node the moored partner of one of the links (R500)? -/
def State.mooredNode (s : State) (node : Nat) : Bool :=
  (List.range 18).any fun k => s.fld (Reg.portStatus k) F.PORT_STATUS_STATE == 4 &&
    s.fld (Reg.portStatus k) F.PORT_STATUS_PARTNER_NODE == node

/-- The code of Table 17-6 with which the router answers a packet that it cannot pass on. -/
def State.pathCode (s : State) (node : Nat) : Option Nat :=
  if s.mooredNode node then some 9 else if (s.routePort node).isNone then some 8 else none

/-- Changes the fabric state. -/
def State.modFab (s : State) (f : Fabric → Fabric) : State := { s with fabric := f s.fabric }

/-- What a port keeps of its link. -/
def State.link (s : State) (k : Nat) : LinkSt := spGet (fun _ => ({} : LinkSt)) s.fabric.links k

def State.setLink (s : State) (k : Nat) (l : LinkSt) : State :=
  s.modFab fun f => { f with links := spSet (fun _ => ({} : LinkSt)) k l f.links }

/-- Gives a packet to the transmitter of a port. -/
def State.putPkt (s : State) (k : Nat) (p : Packet) : State :=
  (s.setLink k { s.link k with queue := (s.link k).queue ++ [p] }).emit (.packet k p)

/-- Port `k` sends its next flit (R494 to R496). -/
def State.sendFlit (s : State) (k : Nat) : State :=
  if !s.portUp k then s
  else
    match (s.link k).next with
    | (some bs, l) => (s.setLink k l).emit (.flit k bs)
    | (none, _) => s

/-- Every port sends its next flit. -/
def State.sendFlits (s : State) : State := (s.fabric.links.map (·.1)).foldl State.sendFlit s

/-- Port `k` sends a replay request or a notice. -/
def State.sendControl (s : State) (k ftype notice : Nat) : State :=
  let (bs, l) := (s.link k).control ftype notice
  (s.setLink k l).emit (.flit k bs)

/-- Once per millisecond a TIME packet leaves on every trained link (R522). Its payload is not laid out: DATA is zero, as in every
packet but those of Table 17-3. (DEDUCED, log entry 38.) -/
def State.sendTimes (s : State) : State :=
  if s.now % 1000000 ≠ 0 then s
  else ((List.range 18).filter s.portUp).foldl (fun t k =>
    t.putPkt k ⟨Pt.time, 3, false, 0, t.fld (Reg.portStatus k) F.PORT_STATUS_PARTNER_NODE, t.nodeId, 0, 0, 0, 0, 0, []⟩) s

/-- Sends a packet by its route; one without a route is dropped. -/
def State.emitPkt (s : State) (p : Packet) : State :=
  match s.routePort p.dst with
  | some k => s.putPkt k p
  | none => s

/-! ### Answers -/

/-- The answer to a packet: it echoes JOB, the offset and, for a request, SRC_UNIT. -/
def State.answer (s : State) (p : Packet) (t unit seq code data : Nat) (poison : Bool) (body : List Byte) : Packet :=
  ⟨t, 1, poison, code, p.src, s.nodeId, seq, p.job, p.offset, unit, data, body⟩

/-- Sends an ACK that covers a packet of its channel up to a sequence number, and a NACK with a code. -/
def State.sendAck (s : State) (p : Packet) (seq : Nat) : State :=
  s.emitPkt (s.answer p Pt.ack p.ackUnit seq 0 0 false [])

def State.sendNack (s : State) (p : Packet) (code : Nat) : State :=
  s.emitPkt (s.answer p Pt.nack p.ackUnit p.seq code 0 false [])

/-! ### Sequence numbers (R506 to R508) -/

/-- Is a sequence number below another, modulo 2^32? -/
def seqBelow (a b : Nat) : Bool :=
  let d := (b + 2 ^ 32 - a % 2 ^ 32) % 2 ^ 32
  decide (0 < d ∧ d < 2 ^ 31)

/-- The next SEQ for a destination, and the next expected from a source, on a channel. -/
def State.seqNext (s : State) (node vc : Nat) : Nat := spGet (fun _ => 0) s.fabric.seqOut (node * 4 + vc)

def State.seqExp (s : State) (node vc : Nat) : Nat := spGet (fun _ => 0) s.fabric.seqIn (node * 4 + vc)

def State.setSeqOut (s : State) (node vc v : Nat) : State :=
  s.modFab fun f => { f with seqOut := spSet (fun _ => 0) (node * 4 + vc) (v % 2 ^ 32) f.seqOut }

def State.setSeqIn (s : State) (node vc v : Nat) : State :=
  s.modFab fun f => { f with seqIn := spSet (fun _ => 0) (node * 4 + vc) (v % 2 ^ 32) f.seqIn }

/-- The counts that a node pair keeps: requests, collectives and management. -/
def seqVcs : List Nat := [0, 2, 3]

/-- Sends the NOTICE that a destination needs before the next request, with its new SEQ base (R508). -/
def State.resyncTo (s : State) (node : Nat) : State :=
  if s.fabric.resync.contains node then
    let base := ((seqVcs.foldl (fun m v => max m (s.seqNext node v)) 0) + 65536) % 2 ^ 32
    let t := seqVcs.foldl (fun t v => t.setSeqOut node v base) s
    let t := t.modFab fun f => { f with resync := f.resync.filter (· != node) }
    t.emitPkt ⟨Pt.notice, 3, false, 0, node, s.nodeId, 0, 0, 0, 0, base, []⟩
  else s

/-- Numbers a request, keeps it until it is covered, and sends it. (DEDUCED, log entry 35.) -/
def State.sendReq (s : State) (owner : ReqOwner) (p : Packet) : State :=
  let t := s.resyncTo p.dst
  let n := t.seqNext p.dst p.vc
  let q := { p with src := s.nodeId, seq := n }
  ((t.setSeqOut p.dst p.vc (n + 1)).modFab fun f => { f with sent := f.sent ++ [⟨q, owner, s.now, s.now⟩] }).emitPkt q

/-! ### The landing lookup (R510) -/

/-- The job id of a tag. -/
def jobId (tag : Nat) : Nat := tag / 4096 % 2 ^ 20

/-- Does an entry permit the kind of a packet? -/
def Landing.permits (e : Landing) (p : Packet) : Bool :=
  if p.reads then e.read else if p.ptype = Pt.flag8 then e.flag else e.write

/-- Does an entry's window cover `n` bytes at an offset? -/
def Landing.covers (e : Landing) (o n : Nat) : Bool := decide (e.wbase ≤ o ∧ o + n ≤ e.wbase + e.wlen * 65536)

/-- The entries of a job id that cover a packet. -/
def State.landingFor (s : State) (p : Packet) : List Landing :=
  s.fabric.landing.filter fun e => jobId e.job == jobId p.job && e.covers p.offset p.bytes

/-- The lookup: the entry and the local address, or the code of Table 17-6 with the partition that counts it. -/
def State.landing (s : State) (p : Packet) : Except (Nat × Option Nat) (Landing × Nat) :=
  let m := s.landingFor p
  match m.head?, m.find? fun e => e.job == p.job with
  | none, _ => .error (1, none)
  | some e, none => .error (2, some e.part)
  | some _, some e =>
    if p.src < e.srcLo ∨ e.srcHi < p.src then .error (4, some e.part)
    else if !e.permits p then .error (3, some e.part)
    else if !s.live e.part then .error (6, some e.part)
    else
      let a := e.lbase + (p.offset - e.wbase)
      if (s.rangeFault s.maps e.part (!p.reads) a p.bytes).isSome then .error (5, some e.part) else .ok (e, a)

/-- Counts a rejection (R511). (DEDUCED, log entry 36.) -/
def State.countReject (s : State) (part : Option Nat) (code offset : Nat) : State :=
  let a := Reg.fabricReject (part.getD 7)
  (s.satAdd a F.FABRIC_REJECT_COUNT 1).setFlds a [(F.FABRIC_REJECT_CODE, code), (F.FABRIC_REJECT_OFFSET, offset)]

/-- The withholding of flags that stands against a unit of a source node (R515). (DEDUCED, log entry 36.) -/
def State.withheld (s : State) (src unit : Nat) : Option Withhold :=
  s.fabric.withhold.find? fun w => w.src == src && w.unit == unit

/-- Ends the withholding of a unit. -/
def State.unwithhold (s : State) (src unit : Nat) : State :=
  s.modFab fun f => { f with withhold := f.withhold.filter fun w => !(w.src == src && w.unit == unit) }

/-! ### Performing a VC0 request (R513 to R516) -/

/-- What a request does: the answer it needs, besides an ACK, and the state. The first component is the rejection code;
the second the data a read returns and whether a word of it was poisoned. -/
structure Landed where
  code   : Option Nat := none
  data   : List Byte := []
  poison : Bool := false
  deriving DecidableEq, Repr

/-- A rejected request: the register counts it, and a rejected store withholds the next flag of its unit. -/
def State.rejectReq (s : State) (p : Packet) (code : Nat) (part : Option Nat) : Landed × State :=
  let t := s.countReject part code p.offset
  let mark := (p.ptype == Pt.write8 || p.ptype == Pt.writeLines) && (s.withheld p.src p.unit).isNone
  ({ code := some code },
    if mark then t.modFab fun f => { f with withhold := f.withhold ++ [⟨p.src, p.unit, code⟩] } else t)

/-- Is any 8-byte word of a local range poisoned? -/
def State.anyPoison (s : State) (part la n : Nat) : Bool := (s.localPoison s.maps part la n).isSome

/-- Poisons the lines of a local range. -/
def State.poisonLines (s : State) (part la n : Nat) : State :=
  (List.range (n / 64)).foldl (fun t i => t.setPoison (s.paOf s.maps part (la + 64 * i))) s

/-- Performs a request at the location that its lookup gave. -/
def State.performAt (s : State) (p : Packet) (e : Landing) (la : Nat) : Landed × State :=
  let n := p.bytes
  if p.reads then ({ data := s.localBytes s.maps e.part la n, poison := s.anyPoison e.part la n }, s)
  else
    let bs := if p.ptype = Pt.writeLines then p.body else bytesLE 8 p.data
    let t := s.storeLocal s.maps e.part la bs
    let t := if p.ptype = Pt.flag8 then t.unwithhold p.src p.unit else t
    ({}, if p.poison then t.poisonLines e.part la n else t)

/-- The contested grants of a remote source's access of `n` bytes, counted for the owner of the landing entry (R516). -/
def State.remoteContest (s : State) (part la n : Nat) (write : Bool) (x : Contest) : State :=
  s.contest (asOutside part) ((s.physRanges part la n).map fun r => ⟨r.1, r.2, write⟩) x

/-- Judges and performs a VC0 request: a withheld flag first (R515), then the lookup. A basin that sleeps wakes
first (R459, R523). (DEDUCED, log entry 36.) -/
def State.landReq (s : State) (p : Packet) (errs : List (Nat × Ecc)) (x : Contest) : Landed × State :=
  match if p.ptype = Pt.flag8 then s.withheld p.src p.unit else none with
  | some _ =>
    let t := (s.countReject ((s.landingFor p).head?.map (·.part)) 7 p.offset).unwithhold p.src p.unit
    ({ code := some 7 }, t)
  | none =>
    match s.landing p with
    | .error (code, part) => s.rejectReq p code part
    | .ok (e, la) =>
      let t := s.wakeBasin (s.paOf s.maps e.part la)
      ((t.remoteContest e.part la p.bytes (!p.reads) x).meetAll errs).performAt p e la

/-- Sends the answer of a request: a NACK, a READ_RESP or an ACK. -/
def State.answerReq (s : State) (p : Packet) (r : Landed) : State :=
  match r.code with
  | some c => s.sendNack p c
  | none =>
    if p.ptype = Pt.read8 then s.emitPkt (s.answer p Pt.readResp p.unit p.seq 0 (numLE r.data) r.poison [])
    else if p.ptype = Pt.readLines then s.emitPkt (s.answer p Pt.readResp p.unit p.seq 0 0 r.poison r.data)
    else s.sendAck p p.seq

/-! ### Requests in order (R506, R507) -/

/-- Does the destination know a base below which it drops packets of a pair? -/
def State.belowBase (s : State) (p : Packet) : Bool :=
  match s.fabric.baseIn.find? fun b => b.1 == p.src with
  | some b => seqBelow p.seq b.2
  | none => false

/-- Performs a request that is due, and then the buffered ones that follow it. (DEDUCED, log entry 36.) -/
def State.drainSeq (s : State) (act : Packet → State → State) (p : Packet) : Nat → State
  | 0 => s
  | k + 1 =>
    let t := act p (s.setSeqIn p.src p.vc (p.seq + 1))
    let nx := (p.seq + 1) % 2 ^ 32
    match t.fabric.early.find? fun q => q.src == p.src && q.vc == p.vc && q.seq == nx with
    | none => t
    | some q => (t.modFab fun f => { f with early := f.early.filter (· != q) }).drainSeq act q k

/-- A numbered packet arrives: below the base it is dropped; below the expected SEQ it is answered again, a read by
performing it again; above it is buffered; and the expected one is performed, with what follows it.
(DEDUCED, log entry 36.) -/
def State.receiveSeq (s : State) (p : Packet) (act : Packet → State → State) : State :=
  let e := s.seqExp p.src p.vc
  if s.belowBase p then s
  else if p.seq = e then s.drainSeq act p (s.fabric.early.length + 1)
  else if seqBelow p.seq e then
    if p.reads then act p s else s.sendAck p ((e + 2 ^ 32 - 1) % 2 ^ 32)
  else if s.fabric.early.contains p then s
  else s.modFab fun f => { f with early := f.early ++ [p] }

/-! ### Reports at the source (R97, R98, R511) -/

/-- The trap cause that a rejection code gives a cluster (Table 17-6). -/
def codeCause (code : Nat) : Nat :=
  if code = 2 then Cause.fabricStaleGen
  else if code = 8 ∨ code = 9 then Cause.fabricUnreachable
  else Cause.fabricDenied

/-- Records a rejected remote store of cluster `P` (R98). (DEDUCED, log entry 15.) -/
def State.deferFault (s : State) (P cause addr : Nat) : State :=
  s.modCl P fun c =>
    if c.deferred then { c with defMore := min (c.defMore + 1) 0xFFFF }
    else { c with deferred := true, defCause := cause, defAddr := addr, defMore := 0 }

/-- The destination of a store or flag of an own unit has settled it: its first rejection of a store since the last flag that it
performed or withheld is what withholds the next flag (R515). -/
def State.noteRefusal (s : State) (p : Packet) (code : Option Nat) : State :=
  let mine := fun (w : Withhold) => w.src == p.dst && w.unit == p.unit
  if p.ptype = Pt.flag8 then
    if code.all (· == 7) then s.modFab fun f => { f with refused := f.refused.filter fun w => !mine w } else s
  else
    match code with
    | some c => if c < 7 ∧ !s.fabric.refused.any mine then s.modFab fun f => { f with refused := f.refused ++ [⟨p.dst, p.unit, c⟩] }
      else s
    | none => s

/-- The trap cause of a rejected store or flag: for a withheld flag, that of the rejection that withheld it (R511). -/
def State.refusalCause (s : State) (p : Packet) (code : Nat) : Nat :=
  codeCause (if code = 7 then
    ((s.fabric.refused.find? fun w => w.src == p.dst && w.unit == p.unit).map (·.code)).getD 1 else code)

/-- A remote store of a cluster is settled: acknowledged, or rejected with a code. -/
def State.storeSettled (s : State) (P : Nat) (run : Option (Nat × Nat)) (p : Packet) (code : Option Nat) : State :=
  let t := s.noteRefusal p code
  if (s.cl P).barge ≠ run then t
  else
    let t := t.modCl P fun c => { c with remoteOut := c.remoteOut - 1 }
    match code with
    | none => t
    | some k => t.deferFault P (s.refusalCause p k) p.global

/-- Is cluster `P` waiting for the answer of this READ8? -/
def State.awaitsAnswer (s : State) (P : Nat) (p : Packet) : Bool :=
  match (s.cl P).wait with
  | .remoteLoad _ a q => a.toNat == p.global && q == p.seq
  | _ => false

/-- A remote load fails: the trap of R97 at the ld.r; a paused cluster executes the load again when it resumes. -/
def State.loadFailed (s : State) (P : Nat) (p : Packet) (cause : Nat) : State :=
  if !s.awaitsAnswer P p then s
  else
    let t := s.modCl P fun c => { c with wait := .none }
    if (s.cl P).act = .running then s.atBoundary (t.trap P cause p.global) P else t

/-- Takes a request off the list of outstanding ones. -/
def State.unsend (s : State) (r : ReqOut) : State :=
  s.modFab fun f => { f with sent := f.sent.filter (· != r) }

/-! ### Remote instructions (R96, R97, R512 to R515) -/

/-- FABRIC_JOB of a partition as a tag; none while it is not valid. -/
def State.jobTag (s : State) (part : Nat) : Option Nat :=
  if s.flag (Reg.fabricJob part) F.FABRIC_JOB_VALID then some (s.reg (Reg.fabricJob part) % 2 ^ 32) else none

/-- The request packet of a remote instruction of cluster `P`. -/
def State.remotePkt (s : State) (P ptype addr data job : Nat) : Packet :=
  ⟨ptype, 0, false, 0, addr / 2 ^ 48, s.nodeId, 0, job, addr % 2 ^ 48, (s.logOfPhys P).getD 0, data, []⟩

/-- What keeps a remote instruction from being sent: no node id, no job, or no path. (DEDUCED, log entry 35.) -/
def State.remoteBar (s : State) (P node : Nat) : Option Nat :=
  if !s.nodeValid then some 8
  else
    match (s.clPart P).bind s.jobTag with
    | none => some 1
    | some _ => if node = s.nodeId then none else s.pathCode node

/-- Has the C-die of cluster `P` no link left to an F-die, though one is in service? It then reaches its own stacks and basins
alone, and a remote access follows the last-path rule (R591). -/
def State.offFabric (s : State) (P : Nat) : Bool :=
  !(s.fdieOut 0 && s.fdieOut 1) && !s.linkCF (P / 144) 0 && !s.linkCF (P / 144) 1

/-- ld.r rA, (rB). -/
def execLdR (p : Fin 576) (env : CEnv) (s : State) : Res State :=
  s.instr p.val .ldR env fun w t =>
    let P := p.val
    let a := ((t.cl P).x (fB w)).toNat
    let job := ((t.clPart P).bind t.jobTag).getD 0
    if a % 8 ≠ 0 then t.trap P Cause.misaligned a
    else if t.offFabric P then t.trap P Cause.dataPoison a
    else
      match t.remoteBar P (a / 2 ^ 48) with
      | some code => t.trap P (codeCause code) a
      | none =>
        let q := t.remotePkt P Pt.read8 a 0 job
        if a / 2 ^ 48 = t.nodeId then
          let (r, u) := t.landReq q [] env.contest
          match r.code with
          | some code => u.trap P (codeCause code) a
          | none =>
            if r.poison then u.trap P Cause.dataPoison a
            else u.modCl P fun c => (c.setX (fA w) (BitVec.ofNat 64 (numLE r.data))).retire
        else
          let t := t.resyncTo q.dst
          let n := t.seqNext q.dst 0
          (t.sendReq (.cluster P (t.cl P).barge) q).modCl P fun c =>
            { c with wait := .remoteLoad (fA w) (BitVec.ofNat 64 a) n }

/-- A remote store that cluster `P` issues: posted, rejected at the source, or dropped where no path leads off the C-die. -/
def State.postRemote (t : State) (P ptype a data : Nat) (x : Contest) : State :=
  let job := ((t.clPart P).bind t.jobTag).getD 0
  if t.offFabric P then t.stopCluster P Cause.dataPoison a (t.cl P).pc Cause.dataPoison
  else
  match t.remoteBar P (a / 2 ^ 48) with
  | some code => (t.deferFault P (codeCause code) a).modCl P Cluster.retire
  | none =>
    let q := t.remotePkt P ptype a data job
    if a / 2 ^ 48 = t.nodeId then
      let (r, u) := t.landReq q [] x
      let v := u.noteRefusal q r.code
      (match r.code with
        | some code => v.deferFault P (u.refusalCause q code) a
        | none => v).modCl P Cluster.retire
    else
      (t.sendReq (.cluster P (t.cl P).barge) q).modCl P fun c => { c with remoteOut := c.remoteOut + 1 }.retire

/-- st.r rC, (rB). -/
def execStR (p : Fin 576) (env : CEnv) (s : State) : Res State :=
  s.instr p.val .stR env fun w t =>
    let c := t.cl p.val
    let a := (c.x (fB w)).toNat
    if a % 8 ≠ 0 then t.trap p.val Cause.misaligned a
    else t.postRemote p.val Pt.write8 a (c.x (fC w)).toNat env.contest

/-- st.rflag rC, (rB): a pending deferred fault first, then a flagged store (R98, R515). -/
def execStRflag (p : Fin 576) (env : CEnv) (s : State) : Res State :=
  s.instr p.val .stRflag env fun w t =>
    let c := t.cl p.val
    let a := (c.x (fB w)).toNat
    if c.deferred then t.deliverDeferred p.val
    else if a % 8 ≠ 0 then t.trap p.val Cause.misaligned a
    else if c.moutOpen then s
    else t.postRemote p.val Pt.flag8 a (c.x (fC w)).toNat env.contest

/-! ### Landing barges (R518 to R521) -/

/-- An entry's window, by its barge or its fields, meets another's. -/
def windowsMeet (b1 n1 b2 n2 : Nat) : Bool := decide (b1 < b2 + n2 * 65536 ∧ b2 < b1 + n1 * 65536)

/-- The byte offset of the first field of LANDING_SET outside Table 17-8. -/
def Barge.landingField (b : Barge) : Option Nat :=
  let (wb, la, wl) := (b.f 39 32, b.f 47 40, b.f 51 48)
  if wb % 65536 ≠ 0 ∨ 2 ^ 48 ≤ wb ∨ (1 ≤ wl ∧ wl ≤ 2 ^ 24 ∧ 2 ^ 48 < wb + wl * 65536) then some 32
  else if la % 65536 ≠ 0 then some 40
  else if wl = 0 ∨ 2 ^ 24 < wl then some 48
  else if b.f 59 58 < b.f 57 56 then some 56
  else if b.f 60 60 % 8 = 0 then some 60
  else none

/-- The entry that LANDING_SET carries. -/
def Barge.landing (b : Barge) (index : Nat) : Landing :=
  let perm := b.f 60 60
  ⟨index, b.f 39 32, b.f 47 40, b.f 51 48, b.f 55 52, b.f 57 56, b.f 59 58, bitOf perm 0, bitOf perm 1, bitOf perm 2, b.part⟩

/-- The first failing address of the local range (check 3 of Table 17-9). -/
def State.landingFault (s : State) (b : Barge) : Option Nat :=
  let (la, n) := (b.f 47 40, b.f 51 48 * 65536)
  let wr := bitOf (b.f 60 60) 1 || bitOf (b.f 60 60) 2
  s.rangeFault s.maps b.part wr la n

/-- LANDING_SET (R519). -/
def execLandingSet (c : Fin 256) (q : Nat) (s : State) : Res State :=
  s.work c.val q [0x500] fun b t =>
    let field := b.landingField
    let fault := t.landingFault b
    let clash := t.fabric.landing.find? fun e => e.job == b.f 55 52 && windowsMeet e.wbase e.wlen (b.f 39 32) (b.f 51 48)
    let free := (List.range 4096).find? fun i => t.fabric.landing.all fun e => e.index != i
    t.checked b [(!b.reservedZero [(127, 61)] || decide (8 ≤ b.f 60 60), St.malformed, 0),
      (field.isSome, 0x0530, field.getD 0), (fault.isSome, 0x0530, fault.getD 0),
      (clash.isSome, 0x0531, (clash.map (·.index)).getD 0), (free.isNone, St.noResource, 0)] fun t =>
      let i := free.getD 0
      (t.modFab fun f => { f with landing := f.landing ++ [b.landing i] }).finish b.canal b.seq St.done i 0

/-- Removes landing entries: how many there were, and the state. -/
def State.revoke (s : State) (sel : Landing → Bool) : Nat × State :=
  ((s.fabric.landing.filter sel).length, s.modFab fun f => { f with landing := f.landing.filter fun e => !sel e })

/-- LANDING_REVOKE in mode `m` (R520). An undefined mode is malformed whichever row runs it. (DEDUCED, log entry 36.) -/
def State.revokeRow (s : State) (c q m : Nat) (sel : Barge → Landing → Bool) : Res State :=
  s.work c q [0x501] fun b t =>
    let mode := b.f 32 32
    let bad := !b.reservedZero [(127, 44), (39, 38), (35, 33)] || decide (3 ≤ mode)
    if mode ≠ m ∧ !bad then s
    else t.checked b [(bad, St.malformed, 0),
        (m == 0 && !t.fabric.landing.any (fun e => e.index == b.f 37 36 && e.part == b.part), 0x0532, 0)] fun t =>
      let (n, u) := t.revoke fun e => e.part == b.part && sel b e
      u.finish b.canal b.seq St.done n 0

/-- LANDING_REVOKE, MODE 0x00. -/
def execLandingRevokeIndex (c : Fin 256) (q : Nat) (s : State) : Res State :=
  s.revokeRow c.val q 0 fun b e => e.index == b.f 37 36

/-- LANDING_REVOKE, MODE 0x01. -/
def execLandingRevokeJob (c : Fin 256) (q : Nat) (s : State) : Res State :=
  s.revokeRow c.val q 1 fun b e => e.job == b.f 43 40

/-- LANDING_REVOKE, MODE 0x02. -/
def execLandingRevokeJobId (c : Fin 256) (q : Nat) (s : State) : Res State :=
  s.revokeRow c.val q 2 fun b e => jobId e.job == jobId (b.f 43 40)

end Sys2Proof.Machine
end

