-- ==== Sys2Proof/Machine/Coll.lean ====
section
/-! DEFINITION. Communicators and collectives (R528 to R549): forming and shrinking a slot, the four collective barges,
the COLL packets of a member and what its failures do. -/

namespace Sys2Proof.Machine

/-! ### Communicator slots (R528) -/

/-- The slot record `k`; none for a free slot. -/
def State.slot? (s : State) (k : Nat) : Option CommSlot := (s.fabric.slots.find? fun x => x.1 == k).map (·.2)

/-- Sets the record of slot `k`. -/
def State.setSlot (s : State) (k : Nat) (c : CommSlot) : State :=
  s.modFab fun f => { f with slots := spPut k c f.slots }

/-- The state of slot `k`: 0 free, 1 formed, 2 running, 3 broken. -/
def State.slotState (s : State) (k : Nat) : Nat := s.fld (Reg.commState k) F.COMM_STATE_STATE

def State.setSlotState (s : State) (k v : Nat) : State := s.setFld (Reg.commState k) F.COMM_STATE_STATE v

/-- The partition of slot `k`. -/
def State.slotPart (s : State) (k : Nat) : Nat := s.fld (Reg.commState k) F.COMM_STATE_PARTITION

/-- COMM_ID of slot `k`. -/
def State.slotId (s : State) (k : Nat) : Nat := s.fld (Reg.commId k) F.COMM_ID_ID

/-- The member's rank and the radix of slot `k`. -/
def State.slotRank (s : State) (k : Nat) : Nat := s.fld (Reg.commState k) F.COMM_STATE_RANK

def State.slotRadix (s : State) (k : Nat) : Nat := s.fld (Reg.commState k) F.COMM_STATE_RADIX

/-- The formed, running or broken slot of partition `p` that holds a COMM_ID. -/
def State.findSlot (s : State) (p id : Nat) : Option Nat :=
  (List.range 64).find? fun k => s.slotState k != 0 && s.slotPart k == p && s.slotId k == id

/-- The F-die that runs slot `k`: its own, or the other while that is out of service. -/
def State.slotFdie (s : State) (k : Nat) : Nat :=
  if s.fld (Reg.portMap (k / 32)) F.PORT_MAP_STATE = 2 then 1 - k / 32 else k / 32

/-- MEMBER_DIGEST of a member list. -/
def memberDigest (l : List Nat) : Nat := digest64 (l.flatMap (bytesLE 2))

/-- Is a window of a partition covered with WRITE by one landing entry of a job tag? -/
def State.windowEntry (s : State) (p tag o n : Nat) : Option Landing :=
  s.fabric.landing.find? fun e => e.part == p && e.job == tag && e.write && e.covers o n

/-- Writes what a formed slot shows. -/
def State.showSlot (s : State) (k p id rank size radix : Nat) : State :=
  (s.setReg (Reg.commId k) id).setFlds (Reg.commState k) [(F.COMM_STATE_STATE, 1), (F.COMM_STATE_PARTITION, p),
    (F.COMM_STATE_FDIE, s.slotFdie k), (F.COMM_STATE_SIZE, size), (F.COMM_STATE_RANK, rank), (F.COMM_STATE_RADIX, radix)]

/-! ### COMM_FORM (R529, R530) -/

/-- The byte offset of the first field of COMM_FORM outside Table 18-1. -/
def Barge.commField (b : Barge) : Option Nat :=
  let size := b.f 39 36
  let stall := b.f 47 44
  if b.f 35 32 = 0 then some 32
  else if size = 0 ∨ 65536 < size then some 36
  else if size ≤ b.f 41 40 then some 40
  else if b.f 42 42 < 2 ∨ 16 < b.f 42 42 then some 42
  else if stall = 0 ∨ 60000 < stall then some 44
  else if b.f 55 48 % 128 ≠ 0 ∨ b.f 55 48 < 2 ^ 32 then some 48
  else if b.f 63 56 % 65536 ≠ 0 ∨ 2 ^ 48 ≤ b.f 63 56 then some 56
  else none

/-- Entries of `w` bytes at a local address. -/
def State.localNums (s : State) (p la w n : Nat) : List Nat :=
  (List.range n).map fun i => numLE (s.localBytes s.maps p (la + w * i) w)

/-- The first address of a range that cannot be read: unmapped or poisoned. -/
def State.readFault (s : State) (p la n : Nat) : Option Nat :=
  match s.rangeFault s.maps p false la n with
  | some a => some a
  | none => s.localPoison s.maps p la (alignUp n 8)

/-- COMM_FORM takes the lowest free slot. -/
def execCommForm (c : Fin 256) (q : Nat) (errs : List (Nat × Ecc)) (s : State) : Res State :=
  s.work c.val q [0x518] fun b t =>
    let p := b.part
    let field := b.commField
    let (size, rank, scr) := (b.f 39 36, b.f 41 40, b.f 63 56)
    let tag := (t.jobTag p).getD 0
    t.checked b [(!b.reservedZero [(127, 64), (43, 43)], St.malformed, 0), ((t.jobTag p).isNone, St.notPermitted, 0),
      (field.isSome, 0x0542, field.getD 0)] fun t =>
      let t := t.meetAll errs
      let lf := t.readFault p (b.f 55 48) (2 * size)
      let members := t.localNums p (b.f 55 48) 2 size
      let free := (List.range 64).find? fun k => t.slotState k == 0
      t.checked b [(lf.isSome, 0x0543, lf.getD 0), ((t.windowEntry p tag scr 65536).isNone, 0x0543, scr),
        (members.getD rank 0 != t.nodeId || members.eraseDups.length != size, 0x0542, 0),
        ((t.findSlot p (b.f 35 32)).isSome, 0x0544, 0), (free.isNone, St.noResource, 0)] fun t =>
        let k := free.getD 0
        ((t.setSlot k { job := tag, members := members, stall := b.f 47 44, scr := scr
                        digest := memberDigest members }).showSlot k p (b.f 35 32) rank size (b.f 42 42)).finish
          b.canal b.seq St.done k 0

/-! ### COMM_SHRINK (R531) -/

/-- Frees slot `k`. -/
def State.freeSlot' (s : State) (k : Nat) : State :=
  (s.modFab fun f => { f with slots := spDel k f.slots }).setSlotState k 0

/-- COMM_SHRINK drops ranks from a slot or releases it. (DEDUCED, log entry 40.) -/
def execCommShrink (c : Fin 256) (q : Nat) (errs : List (Nat × Ecc)) (s : State) : Res State :=
  s.work c.val q [0x519] fun b t =>
    let p := b.part
    let release := bitOf (b.f 40 40) 0
    let (new, drop) := (b.f 39 36, b.f 55 48)
    let k? := t.findSlot p (b.f 35 32)
    let k := k?.getD 0
    t.checked b [(!b.reservedZero [(127, 56), (47, 41)] || decide (2 ≤ b.f 40 40), St.malformed, 0),
      (k?.isNone || (new == 0) != release || (release && drop != 0), 0x0542, 0)] fun t =>
      if release then (t.freeSlot' k).finish b.canal b.seq St.done 0 0
      else
        match t.slot? k with
        | none => t
        | some sl =>
          let n := sl.members.length
          let bytes := ceilDiv n 1024 * 128
          let t := t.meetAll errs
          let df := if drop % 128 ≠ 0 then some drop else t.readFault p drop bytes
          let gone := fun r => bitOf (numLE (t.localBytes t.maps p (drop + r / 8) 1)) (r % 8)
          let rank := t.slotRank k
          let kept := (List.range n).filter fun r => !gone r
          let clash := (t.findSlot p new).any fun j => j != k
          t.checked b [(df.isSome, 0x0543, df.getD 0), (gone rank, 0x0542, 0), (clash, 0x0544, 0)] fun t =>
            let members := kept.map fun r => sl.members.getD r 0
            let rank' := (kept.findIdx? (· == rank)).getD 0
            ((t.setSlot k { job := t.reg (Reg.fabricJob p) % 2 ^ 32, members := members, stall := sl.stall, scr := sl.scr
                            digest := memberDigest members }).showSlot k p new rank' kept.length (t.slotRadix k)).finish
              b.canal b.seq St.done (rank' + kept.length * 2 ^ 16) 0

/-! ### The payload of a collective (R533) -/

/-- The element size of DTYPE. -/
def dtypeBytes (d : Nat) : Nat := if d = 1 then 4 else 8

/-- The opcodes as functions of a barge. -/
def Barge.isA2a (b : Barge) : Bool := b.opcode == 0x510

def Barge.isA2av (b : Barge) : Bool := b.opcode == 0x511

def Barge.isReduce (b : Barge) : Bool := b.opcode == 0x512

def Barge.isBcast (b : Barge) : Bool := b.opcode == 0x513

/-- Does a collective run over the tree of R543? -/
def Barge.isTree (b : Barge) : Bool := b.isReduce || b.isBcast

/-- RECV_WOFF, SIZE, SEND, ROOT. -/
def Barge.recv (b : Barge) : Nat := b.f 55 48

def Barge.size (b : Barge) : Nat := b.f 63 56

def Barge.send (b : Barge) : Nat := b.f 47 40

def Barge.rootRank (b : Barge) : Nat := b.f 81 80

/-- The bytes of the partial of ALLREDUCE_SMALL in whole lines. -/
def Barge.partBytes (b : Barge) : Nat := alignUp (b.size * dtypeBytes (b.f 37 37)) 128

/-- Fields that an opcode does not use must be zero (check 1 of Table 18-6). -/
def Barge.collUnused (b : Barge) : Bool :=
  let z := fun hi lo => zeroB b.bytes hi lo
  let free := bitOf (b.f 36 36) 1
  if b.isA2a then z 81 64 && z 38 37 && !free
  else if b.isA2av then z 81 80 && z 63 56 && z 47 40 && z 38 37 && !free
  else if b.isReduce then z 81 64
  else z 79 64 && z 38 37 && !free

/-- Reads SEND_TAB and RECV_TAB. -/
def State.sendTab (s : State) (b : Barge) (n : Nat) : List (Nat × Nat × Nat) :=
  if b.isA2av then (List.range n).map fun i =>
    let e := s.localBytes s.maps b.part (b.f 71 64 + 32 * i) 32
    (fieldB e 7 0, fieldB e 15 8, fieldB e 23 16)
  else []

def State.recvTab (s : State) (b : Barge) (n : Nat) : List (Nat × Nat) :=
  if b.isA2av then (List.range n).map fun i =>
    let e := s.localBytes s.maps b.part (b.f 79 72 + 16 * i) 16
    (fieldB e 7 0, fieldB e 15 8)
  else []

/-- Is a LEN or DISP in its limits? -/
def lenOk (n : Nat) : Bool := n % 128 == 0 && decide (n ≤ 2 ^ 40)

/-- The address of the first table entry outside Table 18-5, where both tables can be read. -/
def State.tabFault (s : State) (b : Barge) (n : Nat) : Option Nat :=
  if !b.isA2av || (s.rangeFault s.maps b.part false (b.f 71 64) (32 * n)).isSome ||
      (s.rangeFault s.maps b.part false (b.f 79 72) (16 * n)).isSome then none
  else
    let st := s.sendTab b n
    let rt := s.recvTab b n
    let badS := (List.range n).find? fun i =>
      let e := st.getD i (0, 0, 0)
      !lenOk e.2.1 || !lenOk e.2.2 || !((s.localBytes s.maps b.part (b.f 71 64 + 32 * i + 24) 8).all (· == 0))
    let badR := (List.range n).find? fun i =>
      let e := rt.getD i (0, 0)
      !lenOk e.1 || !lenOk e.2 || (rt.take i).any fun o => spansMeet e.1 e.2 o.1 o.2 && e.2 != 0 && o.2 != 0
    match badS, badR with
    | some i, _ => some (b.f 71 64 + 32 * i)
    | none, some i => some (b.f 79 72 + 16 * i)
    | none, none => none

/-- The byte offset of the first field of a collective outside Table 18-5. -/
def Barge.collField (b : Barge) (n rank : Nat) : Option Nat :=
  let size := b.size
  let es := dtypeBytes (b.f 37 37)
  let sizeOk := if b.isA2a then size % 128 == 0 && decide (128 ≤ size ∧ size ≤ 2 ^ 24 ∧ n * size ≤ 2 ^ 40)
    else if b.isReduce then decide (1 ≤ size ∧ size * es ≤ 4096)
    else if b.isBcast then size % 128 == 0 && decide (128 ≤ size ∧ size ≤ 2 ^ 34)
    else true
  let sendBad := if b.isA2av then false
    else if b.isBcast && rank != b.rootRank then b.send != 0
    else b.send % 128 != 0 || decide (b.send < 2 ^ 32)
  if b.isReduce && !([0, 1, 0x10].contains (b.f 37 37)) then some 37
  else if b.isReduce && decide (2 < b.f 38 38) then some 38
  else if sendBad then some 40
  else if b.recv % 128 ≠ 0 ∨ 2 ^ 48 ≤ b.recv then some 48
  else if !sizeOk then some 56
  else if b.isBcast && decide (n ≤ b.rootRank) then some 80
  else if b.f 95 88 % 8 ≠ 0 then some 88
  else none

/-- The length of the receive range from RECV_WOFF. -/
def State.recvLen (s : State) (b : Barge) (n : Nat) : Nat :=
  if b.isA2a then n * b.size
  else if b.isA2av then (s.recvTab b n).foldl (fun m e => max m (e.1 + e.2)) 0
  else if b.isReduce then b.partBytes
  else b.size

/-- The ranges of device memory that a member reads: address and length. -/
def Barge.collReads (b : Barge) (n rank : Nat) : List (Nat × Nat) :=
  if b.isA2a then [(b.send, n * b.size)]
  else if b.isReduce then [(b.send, b.size * dtypeBytes (b.f 37 37))]
  else if b.isBcast then (if rank = b.rootRank then [(b.send, b.size)] else [])
  else [(b.f 71 64, 32 * n), (b.f 79 72, 16 * n)]

/-- The first failing address or offset of check 5 of Table 18-6. -/
def State.collFault (s : State) (b : Barge) (sl : CommSlot) (rank : Nat) : Option Nat :=
  let p := b.part
  let n := sl.members.length
  let rd := fun la k => if k = 0 then none else s.rangeFault s.maps p false la k
  match (b.collReads n rank).findSome? fun r => rd r.1 r.2 with
  | some a => some a
  | none =>
    let more := if b.isA2av then (s.sendTab b n).findSome? fun e => rd e.1 e.2.1 else none
    let fl := b.f 95 88
    let flag := if fl = 0 then none else
      match s.execTranslate p true 8 fl with
      | .ok _ => none
      | .error _ => some fl
    let win := fun o k => if k = 0 then none else
      match s.windowEntry p sl.job o k with
      | none => some o
      | some e => s.rangeFault s.maps p true (e.lbase + (o - e.wbase)) k
    [more, flag, win b.recv (s.recvLen b n), win sl.scr 65536].findSome? id

/-! ### The tree (R543) -/

/-- The tree rank of a rank, and the rank of a tree rank. -/
def Barge.treeRank (b : Barge) (n r : Nat) : Nat := if b.isBcast then (r + n - b.rootRank % n) % n else r

def Barge.ofTree (b : Barge) (n v : Nat) : Nat := if b.isBcast then (v + b.rootRank) % n else v

/-- The children of a rank, in ascending tree rank. -/
def Barge.kids (b : Barge) (n radix r : Nat) : List Nat :=
  let v := b.treeRank n r
  (((List.range radix).map fun i => v * radix + 1 + i).filter (· < n)).map (b.ofTree n)

/-- The parent of a rank; none for the root. -/
def Barge.parent (b : Barge) (n radix r : Nat) : Option Nat :=
  let v := b.treeRank n r
  if v = 0 then none else some (b.ofTree n ((v - 1) / radix))

/-- What a running member works with: its slot's number and record, its run and its barge. -/
structure CollEnv where
  k  : Nat
  sl : CommSlot
  r  : CollRun
  b  : Barge
  n  : Nat        -- the communicator's size
  me : Nat        -- this member's rank
  rx : Nat        -- radix

/-- The environment of a running slot. -/
def State.collEnv (s : State) (k : Nat) : Option CollEnv :=
  (s.slot? k).bind fun sl => sl.run.bind fun r => (s.barge? r.canal r.seq).map fun b =>
    ⟨k, sl, r, b, sl.members.length, s.slotRank k, s.slotRadix k⟩

/-- The children and the parent of the member. -/
def CollEnv.kids (v : CollEnv) : List Nat := if v.b.isTree then v.b.kids v.n v.rx v.me else []

def CollEnv.parent (v : CollEnv) : Option Nat := if v.b.isTree then v.b.parent v.n v.rx v.me else none

/-- The peers that a member exchanges with: in a tree its parent and children, else all others from the next rank on. -/
def CollEnv.peers (v : CollEnv) : List Nat :=
  if v.b.isTree then v.parent.toList ++ v.kids
  else (List.range (v.n - 1)).map fun i => (v.me + 1 + i) % v.n

/-- The peers whose END a member awaits. -/
def CollEnv.sources (v : CollEnv) : List Nat :=
  if v.b.isBcast then v.parent.toList else v.peers

/-- The window range in which a peer's stream lands: first offset and length. -/
def CollEnv.range (v : CollEnv) (j : Nat) : Option (Nat × Nat) :=
  if !v.sources.contains j then none
  else if v.b.isA2a then some (v.b.recv + j * v.b.size, v.b.size)
  else if v.b.isA2av then
    let e := v.r.recvT.getD j (0, 0)
    some (v.b.recv + e.1, e.2)
  else if v.b.isBcast then some (v.b.recv, v.b.size)
  else if v.parent == some j then some (v.b.recv, v.b.partBytes)
  else (v.kids.findIdx? (· == j)).map fun i => (v.sl.scr + 4096 * i, v.b.partBytes)

/-- The signature record of Table 18-8. (DEDUCED, log entry 40.) -/
def sigRecord (b : Barge) (num tag n radix digest : Nat) : List Byte :=
  bytesLE 4 (b.f 35 32) ++ bytesLE 4 num ++ bytesLE 2 b.opcode ++ bytesLE 1 (b.f 37 37) ++ bytesLE 1 (b.f 38 38) ++
    bytesLE 4 (b2n (bitOf (b.f 36 36) 1)) ++ bytesLE 8 b.size ++ bytesLE 8 b.recv ++ bytesLE 8 digest ++
    bytesLE 4 b.rootRank ++ bytesLE 4 n ++ bytesLE 4 tag ++ bytesLE 12 radix

/-- SIG (R538). -/
def sigOf (b : Barge) (num tag n radix digest : Nat) : Nat := digest64 (sigRecord b num tag n radix digest) % 2 ^ 32

/-! ### Failures and completion (R536, R547, R548) -/

/-- The local address of a window offset under the slot's landing entries. -/
def State.windowLocal (s : State) (p : Nat) (sl : CommSlot) (o n : Nat) : Option Nat :=
  (s.windowEntry p sl.job o n).map fun e => e.lbase + (o - e.wbase)

/-- Changes the run of a slot. -/
def State.setRun (s : State) (v : CollEnv) (r : CollRun) : State :=
  match s.slot? v.k with
  | some sl => s.setSlot v.k { sl with run := some r }
  | none => s

/-- Sends a COLL packet of a running member to a peer. -/
def State.sendColl (s : State) (k id job : Nat) (sl : CommSlot) (j unit offset low : Nat) (poison : Bool) (body : List Byte) :
    State :=
  s.sendReq (.slot k) ⟨Pt.coll, 2, poison, 0, sl.members.getD j 0, 0, 0, job, offset, unit, low + id * 2 ^ 32, body⟩

/-- The tag that COLL packets of a partition carry. -/
def State.jobOf (s : State) (p : Nat) : Nat := s.reg (Reg.fabricJob p) % 2 ^ 32

/-- Sends ABORT to the listed peers. -/
def State.sendAborts (s : State) (v : CollEnv) (js : List Nat) (reason rank : Nat) : State :=
  js.foldl (fun t j => t.sendColl v.k (t.slotId v.k) (t.jobOf v.b.part) v.sl j 0x803 v.sl.scr
    (rank + reason * 2 ^ 24) false []) s

/-- Records the last collective's status, and the last ABORT, of a slot. -/
def State.setLast (s : State) (k status reason rank : Nat) : State :=
  s.setFlds (Reg.commLast k) [(F.COMM_LAST_STATUS, status), (F.COMM_LAST_REASON, reason), (F.COMM_LAST_RANK, rank)]

/-- After a status of Table 18-9 a member's receive range, `rl` bytes long, and its scratch window are undefined (R548). -/
def State.collWipe (s : State) (b : Barge) (sl : CommSlot) (rl : Nat) : State :=
  let wipe := fun (u : State) (o n : Nat) => match u.windowLocal b.part sl o n with
    | some la => if n = 0 then u else u.storeFree b.part la n
    | none => u
  s.asHeld b fun t => wipe (wipe t b.recv rl) sl.scr 65536

/-- The running collective of a member ends with a failure that names a rank: ABORT to `js`, the slot broken, its
windows undefined. -/
def State.collFail (s : State) (v : CollEnv) (status reason rank : Nat) (js : List Nat) : State :=
  let t := s.sendAborts v js reason rank
  let rl := if v.b.isA2av then v.r.recvT.foldl (fun m e => max m (e.1 + e.2)) 0 else t.recvLen v.b v.n
  let t := t.collWipe v.b v.sl rl
  let t := match t.slot? v.k with
    | some sl => t.setSlot v.k { sl with run := none, ready := [], early := none }
    | none => t
  ((t.setSlotState v.k 3).setLast v.k status reason rank).endBarge v.b.canal v.b.seq status
    (rank + reason * 2 ^ 16 + v.r.num * 2 ^ 32) 0

/-- The status of a member that takes an ABORT with a reason (Table 18-9). -/
def abortStatus (reason : Nat) : Nat :=
  if reason = 1 then 0x0510 else if reason = 2 then 0x0511 else if reason = 3 then 0x0512 else 0x0540

/-- Has everything that R536 asks for happened? -/
def State.collOver (s : State) (v : CollEnv) : Bool :=
  v.peers.all (fun j => v.r.took.contains j) && v.sources.all (fun j => v.r.ended.contains j) &&
    (if v.b.isTree then v.kids.all (fun j => v.r.closed.contains j) && (!v.b.isReduce || v.r.up)
      else v.peers.all fun j => v.r.closed.contains j) &&
    !s.fabric.sent.any fun o => o.owner == .slot v.k

/-- Does a status leave the slot of its collective formed (R532)? -/
def keepsSlot (status : Nat) : Bool := okStatus status || status == 0x0545

/-- Completes a collective that is over. -/
def State.collDone (s : State) (v : CollEnv) : State :=
  if s.collOver v then
    let st := if v.r.poison then 0x0545 else St.done
    let shown := ((s.barge? v.b.canal v.b.seq).map fun b => b.finalStatus st).getD st
    let t := match s.slot? v.k with
      | some sl => s.setSlot v.k { sl with run := none }
      | none => s
    let t := (t.setSlotState v.k (if keepsSlot shown then 1 else 3)).setFld (Reg.commLast v.k) F.COMM_LAST_STATUS shown
    if v.r.poison then t.endBarge v.b.canal v.b.seq st 0 0
    else t.endBarge v.b.canal v.b.seq st (v.r.num + min v.r.lines (2 ^ 32 - 1) * 2 ^ 32) v.r.inl
  else s

/-! ### Sending (R539, R542, R544) -/

/-- Consumes the READY that a peer has sent: none where it is missing, an error where its SIG differs. -/
def CollEnv.takeReady (v : CollEnv) (s : State) (j : Nat) : Option (Except Unit State) :=
  if v.r.took.contains j then some (.ok s)
  else
    match s.slot? v.k with
    | none => none
    | some sl =>
      match sl.ready.find? fun x => x.1 == j with
      | none => none
      | some x =>
        if x.2 ≠ v.r.sig then some (.error ())
        else some (.ok (s.setSlot v.k { sl with
          ready := sl.ready.filter fun y => y.1 != j
          run := sl.run.map fun r => { r with took := r.took ++ [j] } }))

/-- Cuts `n` lines at a local address into packets of at most 32 lines, a poisoned line in packets of poisoned lines
only: first line, number of lines, poison. -/
def State.cutLines (s : State) (p la : Nat) : Nat → Nat → List (Nat × Nat × Bool) → List (Nat × Nat × Bool)
  | _, 0, acc => acc.reverse
  | i, k + 1, acc =>
    let bad := s.anyPoison p (la + 128 * i) 128
    match acc with
    | (f, n, b) :: rest =>
      if b = bad ∧ n < 32 then s.cutLines p la (i + 1) k ((f, n + 1, b) :: rest)
      else s.cutLines p la (i + 1) k ((i, 1, bad) :: acc)
    | [] => s.cutLines p la (i + 1) k [(i, 1, bad)]

/-- Sends `len` bytes at a local address to a peer, to land at a window offset. (DEDUCED, log entry 39.) -/
def State.sendStream (s : State) (v : CollEnv) (j la off len : Nat) : State :=
  (s.cutLines v.b.part la 0 (len / 128) []).foldl (fun t x =>
    let body := t.localBytes t.maps v.b.part (la + 128 * x.1) (128 * x.2.1)
    let t := t.sendColl v.k (t.slotId v.k) (t.jobOf v.b.part) v.sl j 0x800 (off + 128 * x.1) v.r.sig x.2.2 body
    match (t.slot? v.k).bind (·.run) with
    | some r => t.setRun v { r with lines := r.lines + x.2.1, poison := r.poison || x.2.2 }
    | none => t) s

/-- Sends the END of a stream to a peer. (DEDUCED, log entry 39.) -/
def State.sendEnd (s : State) (v : CollEnv) (j off : Nat) : State :=
  let t := s.sendColl v.k (s.slotId v.k) (s.jobOf v.b.part) v.sl j 0x802 off v.r.sig false []
  match (t.slot? v.k).bind (·.run) with
  | some r => t.setRun v { r with closed := r.closed ++ [j] }
  | none => t

/-- How many peers have a stream that is not acknowledged. -/
def State.inFlight (s : State) (v : CollEnv) : Nat :=
  (v.r.closed.filter fun j => s.fabric.sent.any fun o => o.owner == .slot v.k && o.pkt.dst == v.sl.members.getD j 0).length

/-- One step of ALLTOALL or ALLTOALLV: the next peer's whole stream, in order, with at most 16 in flight.
(DEDUCED, log entry 39.) -/
def State.stepAll (s : State) (v : CollEnv) : Option (Except Nat State) :=
  match v.peers.find? fun j => !v.r.closed.contains j with
  | none => none
  | some j =>
    if 16 ≤ s.inFlight v then none
    else
      match v.takeReady s j with
      | none => none
      | some (.error ()) => some (.error j)
      | some (.ok t) =>
        let (la, off, len) := if v.b.isA2a then (v.b.send + j * v.b.size, v.b.recv + v.me * v.b.size, v.b.size)
          else
            let e := v.r.sendT.getD j (0, 0, 0)
            (e.1, v.b.recv + e.2.2, e.2.1)
        some (.ok ((t.sendStream v j la off len).sendEnd v j (off + len)))

/-- The format of DTYPE; none for int64. -/
def dtypeFmt (d : Nat) : Option Fmt := if d = 0 then some .binary64 else if d = 1 then some .binary32 else none

/-- Combines two elements (R545). -/
def combine (d rop a b : Nat) : Nat :=
  match dtypeFmt d with
  | some m =>
    if rop = 0 then (m.addC .rne false a b).1 else (m.minMaxC (rop == 1) false a b).1
  | none =>
    if rop = 0 then (a + b) % 2 ^ 64
    else if (rop == 1) == decide (signedOf 64 a < signedOf 64 b) then b else a

/-- A NaN as the canonical NaN. -/
def canonOf (d a : Nat) : Nat :=
  match dtypeFmt d with
  | some m => if m.isNan a then m.nan else a
  | none => a

/-- Is the order of combination free: FREE 1 in a partition of class 0? (DESIGN CHOICE, log entry 17.) -/
def State.freeOrder (s : State) (b : Barge) : Bool :=
  bitOf (b.f 36 36) 1 && s.fld (Reg.partCtrl b.part) F.PART_CTRL_CLASS == 0

/-- The child whose partial is combined next. -/
def State.nextKid (s : State) (v : CollEnv) : Option Nat :=
  let left := v.kids.filter fun j => !v.r.summed.contains j
  if s.freeOrder v.b then v.r.ended.find? left.contains
  else left.head?.bind fun j => if v.r.ended.contains j then some j else none

/-- Combines a child's partial as it stands in the scratch window. (DEDUCED, log entry 39.) -/
def State.combineKid (s : State) (v : CollEnv) (j : Nat) : State :=
  match v.range j with
  | none => s
  | some (o, n) =>
    match s.windowLocal v.b.part v.sl o n with
    | none => s
    | some la =>
      let d := v.b.f 37 37
      let es := dtypeBytes d
      let xs := s.localNums v.b.part la es v.b.size
      let bad := (List.range (n / 128)).filter fun l => s.anyPoison v.b.part (la + 128 * l) 128
      let t := if s.freeOrder v.b && decide (v.r.summed.length + 1 < v.kids.length) then
          s.choice v.b.part (some [(v.b.canal, v.b.seq)])
        else s
      t.setRun v { v.r with
        acc := (v.r.acc.zip xs).map fun x => combine d (v.b.f 38 38) x.1 x.2
        accBad := (v.r.accBad ++ bad).eraseDups
        summed := v.r.summed ++ [j] }

/-- The lines of the partial as bytes, the tail of the last line left free. -/
def State.partialLines (s : State) (v : CollEnv) : List Byte × State :=
  let es := dtypeBytes (v.b.f 37 37)
  let bs := v.r.acc.flatMap (bytesLE es)
  let pad := (List.range (v.b.partBytes - bs.length)).map (Config.freeByte (s.freeCount + 1))
  (bs ++ pad, if pad.isEmpty then s else { s with freeCount := s.freeCount + 1 })

/-- The partial is complete: the root writes it, every other member sends it to its parent. -/
def State.partialUp (s : State) (v : CollEnv) : Option (Except Nat State) :=
  match v.parent with
  | none =>
    match s.windowLocal v.b.part v.sl v.b.recv v.b.partBytes with
    | none => none
    | some la =>
      let t := s.storeLocal s.maps v.b.part la (v.r.acc.flatMap (bytesLE (dtypeBytes (v.b.f 37 37))))
      let t := v.r.accBad.foldl (fun u l => u.poisonLines v.b.part (la + 128 * l) 128) t
      some (.ok (t.setRun v { v.r with up := true }))
  | some j =>
    match v.takeReady s j with
    | none => none
    | some (.error ()) => some (.error j)
    | some (.ok t) =>
      let i := ((v.b.kids v.n v.rx j).findIdx? (· == v.me)).getD 0
      let off := v.sl.scr + 4096 * i
      let (bs, t) := t.partialLines v
      let groups := (List.range (bs.length / 128)).foldl (fun (g : List (Nat × Nat × Bool)) l =>
        let bad := v.r.accBad.contains l
        match g with
        | (f, n, b) :: rest => if b = bad then (f, n + 1, b) :: rest else (l, 1, bad) :: g
        | [] => [(l, 1, bad)]) []
      let t := groups.reverse.foldl (fun u x =>
        let u := u.sendColl v.k (u.slotId v.k) (u.jobOf v.b.part) v.sl j 0x800 (off + 128 * x.1) v.r.sig x.2.2
          ((bs.drop (128 * x.1)).take (128 * x.2.1))
        match (u.slot? v.k).bind (·.run) with
        | some r => u.setRun v { r with lines := r.lines + x.2.1, poison := r.poison || x.2.2 }
        | none => u) t
      let t := t.sendEnd v j (off + 4096)
      match (t.slot? v.k).bind (·.run) with
      | some r => some (.ok (t.setRun v { r with up := true }))
      | none => some (.ok t)

/-- How many bytes of the result a member holds, and whether that is all. -/
def CollEnv.held (v : CollEnv) : Nat × Bool :=
  let total := if v.b.isBcast then v.b.size else v.b.partBytes
  match v.parent with
  | none => if v.b.isBcast || v.r.up then (total, true) else (0, false)
  | some j => (spGet (fun _ => 0) v.r.got j, v.r.ended.contains j)

/-- Forwards what a member holds to a child that is behind. -/
def State.forward (s : State) (v : CollEnv) (j : Nat) : Option (Except Nat State) :=
  let (have_, all) := v.held
  let done := spGet (fun _ => 0) v.r.sent j
  if v.r.closed.contains j ∨ (have_ ≤ done ∧ !all) then none
  else
    match v.takeReady s j with
    | none => none
    | some (.error ()) => some (.error j)
    | some (.ok t) =>
      match t.windowLocal v.b.part v.sl v.b.recv have_ with
      | none => none
      | some la =>
        let t := t.sendStream v j (la + done) (v.b.recv + done) (have_ - done)
        let t := match (t.slot? v.k).bind (·.run) with
          | some r => t.setRun v { r with sent := spSet (fun _ => 0) j have_ r.sent }
          | none => t
        some (.ok (if all then t.sendEnd v j (v.b.recv + have_) else t))

/-- The READY of BCAST's parent, to which nothing is sent, is consumed as well. -/
def State.parentReady (s : State) (v : CollEnv) : Option (Except Nat State) :=
  match v.parent with
  | some j =>
    if v.r.took.contains j then none
    else
      match v.takeReady s j with
      | none => none
      | some (.error ()) => some (.error j)
      | some (.ok t) => some (.ok t)
  | none => none

/-- The next thing that a running member can do: an error names the peer of a mismatch. -/
def State.collNext (s : State) (v : CollEnv) : Option (Except Nat State) :=
  if !v.b.isTree then s.stepAll v
  else if v.b.isReduce && !v.r.up then
    match s.nextKid v with
    | some j => some (.ok (s.combineKid v j))
    | none => if v.kids.all v.r.summed.contains then s.partialUp v else none
  else
    match v.kids.findSome? (s.forward v) with
    | some r => some r
    | none => s.parentReady v

/-- A running member goes on as far as it can, and completes or fails. -/
def State.collSteps (s : State) (k : Nat) : Nat → State
  | 0 => s
  | fuel + 1 =>
    match s.collEnv k with
    | none => s
    | some v =>
      match s.collNext v with
      | some (.ok t) => t.collSteps k fuel
      | some (.error j) => s.collFail v 0x0510 1 j v.peers
      | none => s.collDone v

/-- A running member goes on under the page maps as its barge translated them (R283). -/
def State.collGo (s : State) (k fuel : Nat) : State :=
  match s.collEnv k with
  | none => s
  | some v => s.asHeld v.b fun t => t.collSteps k fuel

/-- Is a running member throttled by its links or an F-die: a port towards a peer runs at x2, or the F-die that runs its
sequencer is hot (R547)? V-core throttling is noted as R448 has it. (DEDUCED, log entry 39.) -/
def State.collSlowed (s : State) (v : CollEnv) : Bool :=
  s.heat.fpdie.contains (s.slotFdie v.k) ||
    v.peers.any fun j => (s.routePort (v.sl.members.getD j 0)).any fun k => s.fld (Reg.portStatus k) F.PORT_STATUS_WIDTH != 0

/-- Throttled members take THROTTLED. -/
def State.throttleColls (s : State) : State :=
  (List.range 64).foldl (fun t k =>
    match t.collEnv k with
    | some v => if t.collSlowed v then t.addNote v.b.canal v.b.seq Note.throttled else t
    | none => t) s

/-- Enough steps for everything that a member can do at once. -/
def collFuel : Nat := 400000

/-! ### The start of a collective (R534, R535, R539) -/

/-- The member's stream to itself, copied locally; none where an ALLTOALLV's tables disagree about it. -/
def State.selfCopy (s : State) (v : CollEnv) : Option State :=
  let copy := fun (src o n : Nat) => if n = 0 then some s else
    (s.windowLocal v.b.part v.sl o n).map fun la => (s.copyRange v.b.part la src n).2
  if v.b.isA2a then copy (v.b.send + v.me * v.b.size) (v.b.recv + v.me * v.b.size) v.b.size
  else if v.b.isA2av then
    let e := v.r.sendT.getD v.me (0, 0, 0)
    if v.r.recvT.getD v.me (0, 0) = (e.2.2, e.2.1) then copy e.1 (v.b.recv + e.2.2) e.2.1 else none
  else if v.b.isBcast && v.parent.isNone then copy v.b.send v.b.recv v.b.size
  else some s

/-- A collective uses the memory that it reads and the windows that its peers write (R448). -/
def State.collUse (s : State) (b : Barge) (sl : CommSlot) (n me : Nat) : State :=
  let win := fun o k => (s.windowLocal b.part sl o k).toList.map fun la => (la, k)
  let rs := b.collReads n me ++ (s.sendTab b n).map (fun e => (e.1, e.2.1)) ++ win b.recv (s.recvLen b n) ++ win sl.scr 65536
  (rs.filter (·.2 != 0)).foldl (fun t r => t.useRange (some (b.canal, b.seq)) t.maps b.part r.1 r.2) s

/-- The accesses of a collective's start: what it reads, and its own part of the receive range. -/
def State.collTouches (s : State) (b : Barge) (sl : CommSlot) (n me : Nat) : List Touch :=
  (b.collReads n me).flatMap (fun r => s.touches b.part r.1 r.2 false) ++
    match s.windowLocal b.part sl b.recv (s.recvLen b n) with
    | some la => s.touches b.part la (s.recvLen b n) true
    | none => []

/-- Runs the checks of a collective and starts it. (DEDUCED, log entry 39.) -/
def State.collStart (s : State) (c q op : Nat) (errs : List (Nat × Ecc)) (x : Contest) : Res State :=
  s.work c q [op] fun b t =>
    let p := b.part
    let k? := t.findSlot p (b.f 35 32)
    let k := k?.getD 0
    let last := t.reg (Reg.commLast k)
    t.checked b [
      (!b.reservedZero [(127, 96), (87, 82), (39, 39)] || decide (4 ≤ b.f 36 36) || !b.collUnused, St.malformed, 0),
      (k?.isNone, 0x0542, 0),
      (t.slotState k == 3, 0x0541, bitsOf last 31 16 + bitsOf last 47 40 * 2 ^ 16)] fun t =>
      match t.slot? k with
      | none => t
      | some sl =>
        let n := sl.members.length
        let me := t.slotRank k
        let field := b.collField n me
        let tab := t.tabFault b n
        let fault := t.collFault b sl me
        t.checked b [(field.isSome, 0x0542, field.getD 0), (tab.isSome, 0x0542, tab.getD 0),
          (fault.isSome, 0x0543, fault.getD 0)] fun t =>
          let t := (t.execContest b (t.collTouches b sl n me) x).meetAll errs
          let t := t.collUse b sl n me
          let num := t.fld (Reg.commId k) F.COMM_ID_COLL_SEQ
          let rx := t.slotRadix k
          let sig := sigOf b num sl.job n rx sl.digest
          let d := b.f 37 37
          let acc := if b.isReduce then (t.localNums p b.send (dtypeBytes d) b.size).map (canonOf d) else []
          let bad := if b.isReduce then (List.range (b.partBytes / 128)).filter fun l => t.anyPoison p (b.send + 128 * l)
            (min 128 (alignUp (b.size * dtypeBytes d - 128 * l) 8)) else []
          let r : CollRun := { canal := c, seq := q, op := op, num := num, sig := sig, sendT := t.sendTab b n
                               recvT := t.recvTab b n, acc := acc, accBad := bad, poison := !bad.isEmpty, from_ := t.now }
          let t := ((t.setSlot k { sl with run := some r, early := none }).setSlotState k 2).setFld (Reg.commId k)
            F.COMM_ID_COLL_SEQ (num + 1)
          let t := t.working b.canal b.seq id
          match t.collEnv k with
          | none => t
          | some v =>
            if sl.early.isSome then t.collFail v 0x0512 3 me []
            else
              match t.selfCopy v with
              | none => t.collFail v 0x0510 1 me v.peers
              | some u =>
                (v.peers.foldl (fun u j => u.sendColl k (b.f 35 32) (u.jobOf p) sl j 0x801 sl.scr sig false [])
                  u.throttleColls).collGo k collFuel

/-- COLL_ALLTOALL. -/
def execCollAlltoall (c : Fin 256) (q : Nat) (errs : List (Nat × Ecc)) (x : Contest) (s : State) : Res State :=
  s.collStart c.val q 0x510 errs x

/-- COLL_ALLTOALLV. -/
def execCollAlltoallv (c : Fin 256) (q : Nat) (errs : List (Nat × Ecc)) (x : Contest) (s : State) : Res State :=
  s.collStart c.val q 0x511 errs x

/-- COLL_ALLREDUCE_SMALL. -/
def execCollAllreduceSmall (c : Fin 256) (q : Nat) (errs : List (Nat × Ecc)) (x : Contest) (s : State) : Res State :=
  s.collStart c.val q 0x512 errs x

/-- COLL_BCAST. -/
def execCollBcast (c : Fin 256) (q : Nat) (errs : List (Nat × Ecc)) (x : Contest) (s : State) : Res State :=
  s.collStart c.val q 0x513 errs x

/-! ### COLL packets (R537, R539 to R541, R547) -/

/-- Notes that a COLL packet came from a peer. -/
def State.hear (s : State) (k j : Nat) : State :=
  match s.slot? k with
  | some sl => s.setSlot k { sl with run := sl.run.map fun r => { r with heard := spPut j s.now r.heard } }
  | none => s

/-- Does a READY of rank `j` come too late: after its END in an ALLTOALLV, while this member still has bytes for it (R540)? When
an END would be due is taken as its arrival. (DESIGN CHOICE, log entry 39.) -/
def CollEnv.readyLate (v : CollEnv) (j : Nat) : Bool :=
  v.b.isA2av && v.r.ended.contains j && !v.r.took.contains j && (v.r.sendT.getD j (0, 0, 0)).2.1 != 0

/-- A READY from rank `j`: a second one while one is held is a mismatch, and so is one that comes too late. -/
def State.takeReadyPkt (s : State) (k j sig : Nat) : State :=
  match s.slot? k with
  | none => s
  | some sl =>
    if (sl.ready.any fun x => x.1 == j) || (s.collEnv k).any (·.readyLate j) then
      match s.collEnv k with
      | some v => s.collFail v 0x0510 1 j v.peers
      | none => s
    else (s.setSlot k { sl with ready := sl.ready ++ [(j, sig)] }).collGo k collFuel

/-- A DATA packet from rank `j`, whose lookup gave local address `la`. -/
def State.takeData (s : State) (k j : Nat) (p : Packet) (la : Nat) : State :=
  match s.collEnv k with
  | none => s
  | some v =>
    if p.data % 2 ^ 32 ≠ v.r.sig then s.collFail v 0x0510 1 j v.peers
    else
      match v.range j with
      | none => s
      | some (o, n) =>
        let len := p.body.length
        if !(decide (o ≤ p.offset ∧ p.offset + len ≤ o + n)) then
          if v.b.isA2av then s.collFail v 0x0510 1 j v.peers else s
        else if v.r.ended.contains j then s
        else
          let t := s.storeLocal s.maps v.b.part la p.body
          let t := if p.poison then t.poisonLines v.b.part la len else t
          (t.setRun v { v.r with
            got := spSet (fun _ => 0) j (spGet (fun _ => 0) v.r.got j + len) v.r.got
            inl := v.r.inl + len / 128
            poison := v.r.poison || p.poison }).collGo k collFuel

/-- The end offset of a peer's stream, whose range begins at `o` and takes `n` bytes: the end of its block, or of the scratch
region of a child (R539). -/
def CollEnv.endOf (v : CollEnv) (j o n : Nat) : Nat := if v.b.isReduce && v.kids.contains j then o + 4096 else o + n

/-- An END from rank `j`; one that names another end is not performed (R537). -/
def State.takeEnd (s : State) (k j : Nat) (p : Packet) : State :=
  match s.collEnv k with
  | none => s
  | some v =>
    if p.data % 2 ^ 32 ≠ v.r.sig then s.collFail v 0x0510 1 j v.peers
    else
      match v.range j with
      | none => s
      | some (o, n) =>
        if v.b.isA2av && (p.offset != o + n || spGet (fun _ => 0) v.r.got j != n) then s.collFail v 0x0510 1 j v.peers
        else if p.offset ≠ v.endOf j o n ∨ v.r.ended.contains j then s
        else (s.setRun v { v.r with ended := v.r.ended ++ [j] }).collGo k collFuel

/-- The collective barges that name slot `k`. -/
def State.slotBarges (s : State) (k : Nat) : List Barge :=
  s.barges.filter fun b => b.isColl && b.part == s.slotPart k && b.f 35 32 == s.slotId k

/-- An ABORT from rank `j`. (DEDUCED, log entry 39.) -/
def State.takeAbort (s : State) (k j : Nat) (p : Packet) : State :=
  let (reason, rank) := (bitsOf p.data 31 24, p.data % 65536)
  match s.collEnv k with
  | some v =>
    s.collFail v (abortStatus reason) reason rank (if v.b.isTree then v.peers.filter (· != j) else [])
  | none =>
    if s.slotState k ≠ 1 then s
    else
      let bs := s.slotBarges k
      match bs.find? fun b => b.begun && (match b.phase with
        | .ended _ _ _ => true
        | _ => false) with
      | some b =>
        let num := (s.fld (Reg.commId k) F.COMM_ID_COLL_SEQ + 2 ^ 32 - 1) % 2 ^ 32
        let st := abortStatus reason
        let t := match s.slot? k with
          | some sl => s.collWipe b sl (s.recvLen b sl.members.length)
          | none => s
        ((t.setBarge { b with phase := .ended st (rank + reason * 2 ^ 16 + num * 2 ^ 32) 0 }).setSlotState k 3).setLast
          k st reason rank
      | none =>
        if reason = 3 ∧ rank = s.slotRank k ∧ !bs.isEmpty then
          match s.slot? k with
          | some sl => s.setSlot k { sl with early := some (reason, rank) }
          | none => s
        else (s.setSlotState k 3).setFlds (Reg.commLast k) [(F.COMM_LAST_REASON, reason), (F.COMM_LAST_RANK, rank)]

/-- A COLL packet in its turn: the lookup, the communicator, the peer's rank, then its kind, and the ACK. -/
def State.collAct (errs : List (Nat × Ecc)) (x : Contest) (p : Packet) (s : State) : State :=
  match s.landing p with
  | .error (code, part) => (s.countReject part code p.offset).sendNack p code
  | .ok (e, la) =>
    let t := (s.remoteContest e.part la p.bytes true x).meetAll errs
    let done := fun (u : State) => u.sendAck p p.seq
    match t.findSlot e.part (p.data / 2 ^ 32) with
    | none => done (if p.unit = 0x800 then t else t.count Reg.collUnmatched 1)
    | some k =>
      match (t.slot? k).bind fun sl => sl.members.findIdx? (· == p.src) with
      | none => done t
      | some j =>
        let t := t.hear k j
        let t := if p.unit = 0x800 then t.wakeBasin (t.paOf t.maps e.part la) else t
        done (if p.unit = 0x800 then t.takeData k j p la
          else if p.unit = 0x801 then t.takeReadyPkt k j (p.data % 2 ^ 32)
          else if p.unit = 0x802 then t.takeEnd k j p
          else t.takeAbort k j p)

/-! ### Stalls, deadlines, changes of the job tag (R532, R547) -/

/-- Does a running member wait on a peer: for its READY, or for its data? -/
def CollEnv.waitsOn (v : CollEnv) (j : Nat) : Bool :=
  (v.peers.contains j && !v.r.took.contains j) || (v.sources.contains j && !v.r.ended.contains j)

/-- STALL_MS has passed without a COLL packet from a peer that a member waits on. -/
def execCollStallTimeout (k : Fin 64) (j : Nat) (s : State) : Res State :=
  s.go <| match s.collEnv k.val with
    | none => s
    | some v =>
      let since := max v.r.from_ (spGet (fun _ => 0) v.r.heard j)
      if v.waitsOn j && decide (since + v.sl.stall * 1000000 ≤ s.now) then s.collFail v 0x0512 3 j v.peers else s

/-- The tag of a partition has changed: slots that recorded another tag break, and a collective that runs on one
completes as withdrawn. -/
def State.slotsRetag (s : State) (p : Nat) : State :=
  (List.range 64).foldl (fun t k =>
    match t.slot? k with
    | some sl =>
      if t.slotPart k = p ∧ t.slotState k ≠ 3 ∧ t.jobTag p ≠ some sl.job then
        match t.collEnv k with
        | some v => t.collFail v 0x0540 4 v.me v.peers
        | none => t.setSlotState k 3
      else t
    | none => t) s

/-- A deadline that passes after the start of a collective takes effect with a STOP entry (R370, R426). -/
def State.collDeadline (s : State) (b : Barge) : State :=
  match (s.findSlot b.part (b.f 35 32)).bind s.collEnv with
  | some v =>
    if v.b.canal = b.canal ∧ v.b.seq = b.seq then (s.logStop b 0x03 none).collFail v St.deadlineMissed 4 v.me v.peers else s
  | none => s

/-- Frees every slot of a partition (step 3 of Table 16-3). (DEDUCED, log entry 40.) -/
def State.freeSlots (s : State) (p : Nat) : State :=
  (List.range 64).foldl (fun t k => if t.slotState k ≠ 0 ∧ t.slotPart k = p then t.freeSlot' k else t) s

/-- A COLL packet of slot `k` to a node could not be delivered, or was rejected at landing. -/
def State.collRefused (s : State) (k node code : Nat) : State :=
  match s.collEnv k with
  | none => s
  | some v =>
    let j := (v.sl.members.findIdx? (· == node)).getD 0
    if code = 8 ∨ code = 9 then s.collFail v 0x0511 2 j v.peers
    else s.collFail v (if code = 2 then 0x0502 else 0x0501) 5 v.me v.peers

/-- A collective that has run completes with a status that breaks its slot, which a yield after its end may have made
(R482, R532). -/
def State.collBreaks (s : State) (b : Barge) (status : Nat) : State :=
  match if b.isColl && okStatus status && b.yielded then s.findSlot b.part (b.f 35 32) else none with
  | some k => if s.slotState k = 1 then (s.setSlotState k 3).setFld (Reg.commLast k) F.COMM_LAST_STATUS (b.finalStatus status) else s
  | none => s

/-- The word that a collective adds to FLAG_ADDR before its tally (R536), once it has started. -/
def collFlagAdd (status : Nat) : Nat := if okStatus status then 1 else 2 ^ 32 + 1

end Sys2Proof.Machine
end

