-- ==== Sys2Proof/Machine/Jobs.lean ====
section
/-! DEFINITION. Job launch and teardown (R693 to R703): the barges, the MGMT packets between members, adoption of the
children of lost members, and the end of a launch or teardown. -/

namespace Sys2Proof.Machine

/-! ### Records -/

/-- The key of a launch (`tear` false) or teardown of a tag on a partition. -/
def jobKey (tag p : Nat) (tear : Bool) : Nat := (tag * 8 + p) * 2 + b2n tear

/-- The partition of a key. -/
def keyPart (k : Nat) : Nat := k / 2 % 8

/-- The record of a key. -/
def State.job? (s : State) (k : Nat) : Option JobRun := (s.fabric.jobs.find? fun x => x.1 == k).map (·.2)

/-- Sets the record of a key. -/
def State.setJob (s : State) (k : Nat) (j : JobRun) : State := s.modFab fun f => { f with jobs := spPut k j f.jobs }

/-- The record of a launch or of a teardown of a tag, on whichever partition takes part in it. -/
def State.jobOfTag (s : State) (tag : Nat) (tear : Bool) : Option (Nat × JobRun) :=
  s.fabric.jobs.find? fun x => x.2.tag == tag && x.2.tear == tear

/-- The node id of a member. -/
def JobRun.node (j : JobRun) (rank : Nat) : Nat := j.members.getD rank 0 % 65536

/-- The rank of a node; this member's own rank where the list does not name it. -/
def JobRun.rankOf (j : JobRun) (node : Nat) : Nat := (j.members.findIdx? fun e => e % 65536 == node).getD j.rank

/-- The children of a rank (R697). -/
def JobRun.kids (j : JobRun) (v : Nat) : List Nat :=
  ((List.range j.radix).map fun i => v * j.radix + 1 + i).filter (· < j.members.length)

/-- The roast version of the active P-die: its MAJOR, and whole (R596). -/
def State.roastMajor (s : State) : Nat := s.reg (Reg.roastVersion (2 * s.activePdie)) % 65536

def State.roastWhole (s : State) (pdie : Nat) : Nat :=
  s.reg (Reg.roastVersion (2 * pdie)) + 2 ^ 64 * s.reg (Reg.roastVersion (2 * pdie + 1))

/-! ### Sending down and up the tree (R697 to R700) -/

/-- The three packets that go down the tree. -/
inductive Down where
  | launch
  | abort
  | teardown
  deriving DecidableEq, Repr

/-- A MGMT packet of a launch or teardown to a node. -/
def State.sendMgmt (s : State) (owner : ReqOwner) (tag node unit offset data : Nat) (body : List Byte) : State :=
  s.sendReq owner ⟨Pt.mgmt, 3, false, 0, node, 0, 0, tag, offset, unit, data, body⟩

/-- The packet of one kind to a rank. -/
def State.sendDown (s : State) (k : Nat) (j : JobRun) (d : Down) (r : Nat) : State :=
  let send := fun unit offset => s.sendMgmt (.job k r) j.tag (j.node r) unit offset j.digest []
  match d with
  | .launch => send 0x900 (r + j.flags * 2 ^ 16 + j.radix * 2 ^ 24 + s.roastMajor * 2 ^ 32)
  | .abort => send 0x902 j.rank
  | .teardown => send 0x903 r

/-- Counts a rank as lost. -/
def JobRun.lose (j : JobRun) (r : Nat) : JobRun := { j with lost := setIns r j.lost }

/-- Sends a packet to each rank of a list; a rank to which no path leads is lost, and its children are adopted. -/
def State.downTo (s : State) (k : Nat) (d : Down) : List Nat → Nat → State
  | _, 0 => s
  | [], _ => s
  | r :: rest, n + 1 =>
    match s.job? k with
    | none => s
    | some j =>
      if (s.pathCode (j.node r)).isSome then
        (if d = .abort then s else s.setJob k (j.lose r)).downTo k d (rest ++ j.kids r) n
      else
        let t := if d = .abort then s else s.setJob k { j with wait := j.wait ++ [r] }
        (t.sendDown k j d r).downTo k d rest n

/-- The lost ranks that a REPORT lists, as bytes in whole lines; the tail of the last line is free. -/
def State.lostBytes (s : State) (lost : List Nat) : List Byte × State :=
  let bs := (lost.take 2048).flatMap (bytesLE 2)
  let pad := (List.range (alignUp bs.length 128 - bs.length)).map (Config.freeByte (s.freeCount + 1))
  (bs ++ pad, if pad.isEmpty then s else { s with freeCount := s.freeCount + 1 })

/-- Sends a member's REPORT to a rank. (DEDUCED, log entry 41.) -/
def State.sendReport (s : State) (k : Nat) (j : JobRun) (dest : Nat) : State :=
  let (body, t) := s.lostBytes j.lost
  t.sendMgmt (.job k dest) j.tag (j.node dest) 0x901 j.rank
    (j.applied % 2 ^ 32 + (j.lost.length + j.more) % 2 ^ 32 * 2 ^ 32) body

/-- Sends a REPORT with REFUSED and a reason to the node that a LAUNCH or TEARDOWN came from. -/
def State.sendRefusal (s : State) (p : Packet) (rank reason : Nat) : State :=
  s.sendMgmt .none p.job p.src 0x901 (rank % 65536 + 2 ^ 16 + reason * 2 ^ 17) 0 []

/-! ### The tag of a partition (R694, R699, R701, R702) -/

/-- FABRIC_JOB of a partition takes a tag; slots of another tag break. -/
def State.takeTag (s : State) (p tag : Nat) : State :=
  (s.setFlds (Reg.fabricJob p) [(F.FABRIC_JOB_VALID, 1), (F.FABRIC_JOB_JOB_ID, jobId tag),
    (F.FABRIC_JOB_GENERATION, tag % 4096)]).slotsRetag p

/-- FABRIC_JOB of a partition gives up its tag. -/
def State.dropTag (s : State) (p : Nat) : State := (s.setFld (Reg.fabricJob p) F.FABRIC_JOB_VALID 0).slotsRetag p

/-- A member applies the tag of a launch. -/
def State.applyJob (s : State) (k : Nat) (j : JobRun) : State :=
  let p := keyPart k
  let t := s.takeTag p j.tag
  let t := if bitOf j.flags 0 then
      (t.revoke fun e => e.part == p && jobId e.job == jobId j.tag && e.job != j.tag).2
    else t
  t.setJob k { j with started := true, applied := 1 }

/-! ### The end (R699, R701, R702) -/

/-- Writes the lost ranks to LOST_BASE, up to LOST_CAP; a buffer that the partition does not map takes none. -/
def State.putLost (s : State) (b : Barge) (lost : List Nat) : State :=
  let base := b.f 63 56
  let bs := (lost.take (b.f 67 64)).flatMap (bytesLE 2)
  if base = 0 ∨ (s.rangeFault s.maps b.part true base bs.length).isSome then s else s.storeLocal s.maps b.part base bs

/-- An aborted launch at a member that applied its tag, or waits for it: the tag is given up, a running JOIN ends, and
ABORT goes on down the tree. -/
def State.abortJob (s : State) (k : Nat) (j : JobRun) (r0 : Nat) : State :=
  let p := keyPart k
  let t := if s.jobTag p = some j.tag then s.dropTag p else s
  let t := match j.barge with
    | some (c, q) => t.endBarge c q 0x0521 r0 0
    | none => t
  (t.setJob k { j with barge := none, wait := [], report := true }).downTo k .abort (j.kids j.rank)
    (j.members.length + 1)

/-- The root of a launch or teardown is done once nobody is awaited. -/
def State.rootDone (s : State) (k : Nat) (j : JobRun) : State :=
  match j.barge with
  | none => s
  | some (c, q) =>
    match if j.tear then none else j.refused with
    | some r => s.abortJob k j r
    | none =>
      let t := s.setJob k { j with barge := none }
      let n := j.lost.length + j.more
      if n = 0 then t.endBarge c q St.done 0 0
      else
        let t := match t.barge? c q with
          | some b => t.putLost b j.lost
          | none => t
        t.endBarge c q (if j.tear then 0x0553 else 0x0520) j.applied n

/-- Goes on once nobody is awaited: the root completes, another member reports to its sender. -/
def State.jobGo (s : State) (k : Nat) : State :=
  match s.job? k with
  | none => s
  | some j =>
    if !j.started || !j.wait.isEmpty || j.report then s
    else if j.root then s.rootDone k j
    else (s.setJob k { j with report := true }).sendReport k j j.sender

/-- Forwards a launch or teardown to the member's children and goes on. -/
def State.forwardJob (s : State) (k : Nat) (d : Down) : State :=
  match s.job? k with
  | none => s
  | some j => (s.downTo k d (j.kids j.rank) (j.members.length + 1)).jobGo k

/-! ### The barges (R695, R696, R702) -/

/-- The byte offset of the first field outside Table 26-2. -/
def Barge.jobField (b : Barge) (tear : Bool) : Option Nat :=
  let mode := b.f 36 36
  let size := b.f 43 40
  if mode = 0 ∨ (if tear then mode = 2 ∨ 4 ≤ mode else 3 ≤ mode) then some 36
  else if tear && b.f 37 37 != 0 then some 37
  else if b.f 38 38 < 2 ∨ 16 < b.f 38 38 then some 38
  else if size = 0 ∨ 65536 < size then some 40
  else if size ≤ b.f 47 44 ∨ (mode = 1 ∧ b.f 47 44 ≠ 0) then some 44
  else if b.f 55 48 % 128 ≠ 0 then some 48
  else if mode = 1 ∧ b.f 63 56 % 128 ≠ 0 then some 56
  else if mode = 1 ∧ 65536 < b.f 67 64 then some 64
  else none

/-- The member list. -/
def State.memberList (s : State) (b : Barge) : List Nat := s.localNums b.part (b.f 55 48) 4 (b.f 43 40)

/-- The address of the first entry of the list that is not as R695 and R696 ask. -/
def State.memberFault (s : State) (b : Barge) : Option Nat :=
  let l := s.memberList b
  let rank := b.f 47 44
  ((List.range l.length).find? fun i =>
    let e := l.getD i 0
    decide (2 ^ 19 ≤ e) || (i == rank && e != s.nodeId + b.part * 65536) ||
      (l.take i).any fun x => x % 65536 == e % 65536).map fun i => b.f 55 48 + 4 * i

/-- Checks 1 to 3 of R696, then `k`. -/
def State.jobChecked (s : State) (b : Barge) (tear : Bool) (errs : List (Nat × Ecc)) (k : State → State) : State :=
  let field := b.jobField tear
  s.checked b [(!b.reservedZero [(127, 68), (39, 39)] || decide (4 ≤ b.f 37 37), St.malformed, 0),
    (field.isSome, 0x0550, field.getD 0)] fun t =>
    let t := t.meetAll errs
    let rf := t.readFault b.part (b.f 55 48) (4 * b.f 43 40)
    t.checked b [(rf.isSome, 0x0550, rf.getD 0)] fun t =>
      let lf := t.memberFault b
      t.checked b [(lf.isSome, 0x0550, lf.getD 0), (!t.nodeValid, St.notPermitted, 0)] k

/-- The record of a barge at its start. -/
def State.jobRecord (s : State) (b : Barge) (tear : Bool) : JobRun :=
  let l := s.memberList b
  { tag := b.f 35 32, root := b.f 36 36 != 2, tear := tear, barge := some (b.canal, b.seq), members := l, rank := b.f 47 44
    radix := b.f 38 38, flags := b.f 37 37, digest := digest64 (l.flatMap (bytesLE 4)) }

/-- Checks 4 and 5 of R696, which compare the tag with the one that the partition holds. (DEDUCED, log entry 41.) -/
def State.launchBars (s : State) (b : Barge) : List (Bool × Nat × Nat) :=
  let tag := b.f 35 32
  let held := s.jobTag b.part
  [(held.any fun h => jobId h != jobId tag, 0x0551, 0), (held.any fun h => decide (tag % 4096 ≤ h % 4096), 0x0552, 0)]

/-- Drops the records of a partition that no barge awaits and that are not of a tag. -/
def State.dropJobs (s : State) (p tag : Nat) : State :=
  s.modFab fun f => { f with jobs := f.jobs.filter fun x => keyPart x.1 != p || x.2.barge.isSome || x.2.tag == tag }

/-- JOB_LAUNCH with MODE ROOT: applies its tag and sends LAUNCH to its children. -/
def execJobLaunchRoot (c : Fin 256) (q : Nat) (errs : List (Nat × Ecc)) (s : State) : Res State :=
  s.work c.val q [0x520] fun b t =>
    if b.f 36 36 = 2 ∧ b.reservedZero [(127, 68), (39, 39)] then t
    else t.jobChecked b false errs fun t => t.checked b (t.launchBars b) fun t =>
      let j := t.jobRecord b false
      let k := jobKey j.tag b.part false
      (((t.dropJobs b.part j.tag).working b.canal b.seq id).applyJob k j).forwardJob k .launch

/-! ### LAUNCH at a member (R698, R699) -/

/-- The accepted, uncompleted JOIN of a tag. -/
def State.joinOf (s : State) (tag : Nat) : Option Barge :=
  s.barges.find? fun b => b.opcode == 0x520 && b.f 36 36 == 2 && b.f 35 32 == tag && (match b.phase with
    | .ended _ _ _ => false
    | _ => true)

/-- A LAUNCH meets the JOIN that waits for it. -/
def State.meetLaunch (s : State) (p : Packet) : State :=
  let rank := p.offset % 65536
  match s.joinOf p.job, s.jobOfTag p.job false with
  | none, _ => s.sendRefusal p rank 1
  | some b, some (k, j) =>
    if j.barge ≠ some (b.canal, b.seq) then
      s.modFab fun f => { f with launches := f.launches ++ [p] }
    else if p.data ≠ j.digest then s.sendRefusal p rank 2
    else if s.roastMajor ≠ p.offset / 2 ^ 32 ∨
        (bitOf (p.offset / 2 ^ 16) 1 ∧ s.roastWhole s.activePdie ≠ Config.rootVersion p.job) then s.sendRefusal p rank 3
    else if j.started then s
    else
      let j := { j with sender := j.rankOf p.src, flags := p.offset / 2 ^ 16 % 256, radix := p.offset / 2 ^ 24 % 256 }
      (s.applyJob k j).forwardJob k .launch
  | some _, none => s.modFab fun f => { f with launches := f.launches ++ [p] }

/-- Takes up the LAUNCH packets that were held for a JOIN. -/
def State.heldLaunches (s : State) : State :=
  let l := s.fabric.launches
  l.foldl State.meetLaunch (s.modFab fun f => { f with launches := [] })

/-- JOB_LAUNCH with MODE JOIN: waits for the LAUNCH of its tag. -/
def execJobLaunchJoin (c : Fin 256) (q : Nat) (errs : List (Nat × Ecc)) (s : State) : Res State :=
  s.work c.val q [0x520] fun b t =>
    if b.f 36 36 ≠ 2 ∧ (b.jobField false) ≠ some 36 then t
    else (t.jobChecked b false errs fun t => t.checked b (t.launchBars b) fun t =>
      let j := t.jobRecord b false
      (t.working b.canal b.seq id).setJob (jobKey j.tag b.part false) j).heldLaunches

/-! ### Teardown (R702) -/

/-- What a member does when it accepts a teardown of the tag that its partition holds. (DEDUCED, log entry 41.) -/
def State.tearHere (s : State) (p tag : Nat) : State :=
  ((s.dropTag p).revoke fun e => e.part == p && jobId e.job == jobId tag).2

/-- JOB_TEARDOWN with MODE ROOT: acts on its own partition, then sends TEARDOWN to its children. -/
def execJobTeardownRoot (c : Fin 256) (q : Nat) (errs : List (Nat × Ecc)) (s : State) : Res State :=
  s.work c.val q [0x521] fun b t =>
    if b.f 36 36 = 3 ∧ b.reservedZero [(127, 68), (39, 39)] then t
    else t.jobChecked b true errs fun t =>
      t.checked b [(t.jobTag b.part != some (b.f 35 32), 0x0554, 0)] fun t =>
        let j := { t.jobRecord b true with started := true, applied := 1 }
        let k := jobKey j.tag b.part true
        (((t.working b.canal b.seq id).tearHere b.part j.tag).setJob k j).forwardJob k .teardown

/-- JOB_TEARDOWN with MODE LOCAL: its own partition only. -/
def execJobTeardownLocal (c : Fin 256) (q : Nat) (s : State) : Res State :=
  s.work c.val q [0x521] fun b t =>
    if b.f 36 36 ≠ 3 then t
    else t.checked b [(!b.reservedZero [(127, 68), (39, 39)] || decide (4 ≤ b.f 37 37), St.malformed, 0),
      (b.f 37 37 != 0, 0x0550, 37), (t.jobTag b.part != some (b.f 35 32), 0x0554, 0)] fun t =>
        (t.tearHere b.part (b.f 35 32)).finish b.canal b.seq St.done 0 0

/-- A TEARDOWN at a member. -/
def State.meetTeardown (s : State) (p : Packet) : State :=
  let rank := p.offset % 65536
  match (List.range 8).find? fun x => s.jobTag x == some p.job with
  | none => s.sendRefusal p rank 4
  | some x =>
    let t := s.tearHere x p.job
    let known := t.job? (jobKey p.job x false)
    let base : JobRun := known.getD { tag := p.job, root := false, tear := true, barge := none, members := []
                                      rank := rank, radix := 2, flags := 0, digest := p.data }
    let j := { base with
      root := false, tear := true, barge := none, started := true, sender := base.rankOf p.src, wait := [], applied := 1
      lost := [], more := 0, refused := none, report := false }
    let k := jobKey p.job x true
    if base.members.isEmpty then
      let (body, t) := t.lostBytes []
      t.sendMgmt (.job k 0) p.job p.src 0x901 rank 1 body
    else (t.setJob k j).forwardJob k .teardown

/-! ### REPORT, ABORT and undeliverable packets (R699 to R701) -/

/-- A rank counts as lost, and its children are adopted. (DEDUCED, log entry 41.) -/
def State.adopt (s : State) (k r : Nat) (d : Down) : State :=
  match s.job? k with
  | none => s
  | some j =>
    let t := if d = .abort then s else s.setJob k { (j.lose r) with wait := j.wait.filter (· != r) }
    (t.downTo k d (j.kids r) (j.members.length + 1)).jobGo k

/-- Sends a refusal for reason 0x2 or 0x3 on toward the root. (DEDUCED, log entry 41.) -/
def State.relay (s : State) (k : Nat) (j : JobRun) (p : Packet) : State :=
  if j.root then s else s.sendMgmt (.job k j.sender) j.tag (j.node j.sender) 0x901 p.offset p.data p.body

/-- A REPORT at the member that awaits it. (DEDUCED, log entry 41.) -/
def State.meetReport (s : State) (p : Packet) : State :=
  let r := p.offset % 65536
  let reason := p.offset / 2 ^ 17 % 8
  let take := fun (k : Nat) (j : JobRun) =>
    if !bitOf p.offset 16 then
      let n := p.data / 2 ^ 32
      let listed := (List.range (min n (p.body.length / 2))).map fun i => fieldB p.body (2 * i + 1) (2 * i)
      (s.setJob k { j with
        wait := j.wait.filter (· != r)
        applied := j.applied + p.data % 2 ^ 32
        lost := listed.foldl (fun l x => setIns x l) j.lost
        more := j.more + (n - listed.length) }).jobGo k
    else if reason = 2 ∨ reason = 3 then
      let j := { j with wait := j.wait.filter (· != r), refused := some (j.refused.getD r) }
      ((s.setJob k j).relay k j p).jobGo k
    else if j.wait.contains r then s.adopt k r (if j.tear then .teardown else .launch)
    else s
  match s.jobOfTag p.job false, s.jobOfTag p.job true with
  | some (k, j), some (k', j') => if j.wait.contains r ∨ !j'.wait.contains r then take k j else take k' j'
  | some (k, j), none => take k j
  | none, some (k, j) => take k j
  | none, none => s

/-- An ABORT at a member. -/
def State.meetAbort (s : State) (p : Packet) : State :=
  match s.jobOfTag p.job false with
  | some (k, j) => if j.started || j.barge.isSome then s.abortJob k j 0 else s
  | none => s

/-- A MGMT packet of a launch or teardown in its turn. -/
def State.jobAct (p : Packet) (s : State) : State :=
  let t := if p.unit = 0x900 then s.meetLaunch p
    else if p.unit = 0x901 then s.meetReport p
    else if p.unit = 0x902 then s.meetAbort p
    else s.meetTeardown p
  t.sendAck p p.seq

/-- A MGMT packet of a launch or teardown was acknowledged: a JOIN whose REPORT it was completes (R699). -/
def State.jobAcked (s : State) (k : Nat) (p : Packet) : State :=
  if p.unit ≠ 0x901 then s
  else
    match s.job? k with
    | some j =>
      match j.barge with
      | some (c, q) =>
        if j.root || !j.report || p.offset % 2 ^ 17 != j.rank then s
        else (s.setJob k { j with barge := none }).endBarge c q St.done j.rank 0
      | none => s
    | none => s

/-- A MGMT packet to a rank could not be delivered: its children are adopted; a REPORT goes on to the sender's sender,
which is its parent in the tree. -/
def State.jobUndelivered (s : State) (k r : Nat) (p : Packet) : State :=
  match s.job? k with
  | none => s
  | some j =>
    if p.unit = 0x901 then
      if r = 0 then s
      else
        let up := (r - 1) / max j.radix 1
        s.sendMgmt (.job k up) j.tag (j.node up) 0x901 p.offset p.data p.body
    else if p.unit = 0x900 then s.adopt k r .launch
    else if p.unit = 0x902 then s.adopt k r .abort
    else s.adopt k r .teardown

/-- The deadline of a launch (R701), with its STOP entry (R426): a root aborts, and a JOIN that has no LAUNCH yet misses it. -/
def State.jobDeadline (s : State) (b : Barge) : State :=
  match s.fabric.jobs.find? fun x => x.2.barge == some (b.canal, b.seq) && !x.2.tear with
  | none => s
  | some (k, j) =>
    if j.root then (s.logStop b 0x03 none).abortJob k j 0xFFFF
    else if j.started then s
    else ((s.logStop b 0x03 none).modFab fun f => { f with jobs := spDel k f.jobs }).endBarge b.canal b.seq St.deadlineMissed 0 0

/-! ### Outstanding requests that are settled (R97, R98, R508, R511) -/

/-- A request is settled with an ACK (`none`) or a rejection code. -/
def State.settleReq (s : State) (r : ReqOut) (code : Option Nat) : State :=
  match r.owner, code with
  | .cluster P run, some k =>
    if r.pkt.ptype = Pt.read8 then s.loadFailed P r.pkt (codeCause k) else s.storeSettled P run r.pkt (some k)
  | .cluster P run, none => s.storeSettled P run r.pkt none
  | .slot k, some c => s.collRefused k r.pkt.dst c
  | .slot k, none => s.collGo k collFuel
  | .job k rank, some c => if c = 8 ∨ c = 9 then s.jobUndelivered k rank r.pkt else s
  | .job k _, none => s.jobAcked k r.pkt
  | .none, _ => s

/-- Abandons every outstanding request of a node pair; a NOTICE precedes the next one (R508). (DEDUCED, log entry 36.) -/
def State.abandonNode (s : State) (node : Nat) : State :=
  let l := s.fabric.sent.filter fun y => y.pkt.dst == node
  let t := s.modFab fun f => { f with
    sent := f.sent.filter fun y => y.pkt.dst != node
    resync := if f.resync.contains node then f.resync else f.resync ++ [node] }
  l.foldl (fun u y => u.settleReq y (some 8)) t

end Sys2Proof.Machine
end

