-- ==== Sys2Proof/Machine/Ckpt.lean ====
section
/-! DEFINITION. Checkpoint streams and chambers (R552 to R573): the chamber's layout, access to a chamber on this node or
another, and the barges that write, commit, abandon, survey and restore checkpoints. -/

namespace Sys2Proof.Machine

/-! ### Chambers (R554 to R556) -/

/-- MAN_BLOCKS. -/
def manBlocks (ngran : Nat) : Nat := ceilDiv (128 + 16 * ngran) 65536

/-- POOL_BLOCKS; 0 where the chamber is too small. -/
def poolBlocks (blocks ngran : Nat) : Nat := blocks - 1 - 3 * manBlocks ngran

/-- The global address of a manifest area and of a pool block. -/
def areaAt (chamber ngran a : Nat) : Nat := chamber + (1 + a * manBlocks ngran) * 65536

def blockAt (chamber ngran k : Nat) : Nat := chamber + (1 + 3 * manBlocks ngran + k) * 65536

/-- The 128 bytes of a chamber header with its CHECK (Table 19-1). -/
def headerOf (blocks ngran rc rank commit : Nat) : List Byte :=
  let h := fun (commit check : Nat) =>
    bytesLE 4 0x4B4C4368 ++ bytesLE 4 1 ++ bytesLE 8 commit ++ bytesLE 8 blocks ++ bytesLE 8 (manBlocks ngran) ++
      bytesLE 8 ngran ++ bytesLE 1 rc ++ bytesLE 7 rank ++ bytesLE 80 check
  h commit (digest64 (h 0 0))

/-- Is a header valid (R555)? -/
def headerValid (h : List Byte) : Bool :=
  let (cur, prev) := (fieldB h 8 8, fieldB h 9 9)
  fieldB h 3 0 == 0x4B4C4368 && fieldB h 5 4 == 1 &&
    fieldB h 55 48 == digest64 (patchB (patchB h 8 (List.replicate 8 0)) 48 (List.replicate 8 0)) &&
    (cur != prev || cur == 0xFF) && decide (1 ≤ fieldB h 23 16 - 1 - 3 * fieldB h 27 24)

/-- The 16 bytes of a manifest entry (Table 19-3), and the entry that 16 bytes spell. -/
def CkptEntry.bytes (e : CkptEntry) : List Byte := bytesLE 8 e.digest ++ bytesLE 4 e.block ++ bytesLE 4 e.holder

def manEntry (b : List Byte) : CkptEntry := ⟨fieldB b 7 0, fieldB b 11 8, fieldB b 12 12⟩

/-- A manifest header (Table 19-2) with a SEAL. -/
def manHeader (t : Stream) (ngran job sealW : Nat) : List Byte :=
  bytesLE 4 0x4B4C4D61 ++ bytesLE 2 1 ++ bytesLE 1 t.rc ++ bytesLE 1 t.rank ++ bytesLE 8 t.step ++ bytesLE 4 job ++
    bytesLE 4 t.shard ++ bytesLE 8 t.nshard ++ bytesLE 8 ngran ++ bytesLE 8 t.id ++ bytesLE 80 sealW

/-- A manifest as read: its header, the bytes of its entries, and whether a line of it was poisoned. -/
structure Man where
  head   : List Byte
  body   : List Byte
  poison : Bool

/-- The entries of a manifest. -/
def Man.entries (m : Man) : List CkptEntry := (List.range (m.body.length / 16)).map fun g => manEntry (sliceB m.body (16 * g) 16)

/-- Is a manifest sealed (R556)? -/
def Man.sealed (m : Man) : Bool :=
  !m.poison && fieldB m.head 55 48 == digest64 (patchB m.head 48 (List.replicate 8 0) ++ m.body)

/-- The step that an area holds; 0 for none. -/
def Man.held (m : Man) : Nat := if m.sealed then fieldB m.head 15 8 else 0

/-! ### Access to a chamber (R554) -/

/-- A request of a checkpoint barge of partition `p`, in the name of canal `c`: that of the CKPT_BEGIN that opened the stream, or
the barge's own where it runs on no stream. (DEDUCED, log entry 42.) -/
def State.chPacket (s : State) (c p ptype addr data : Nat) (poison : Bool) (body : List Byte) : Packet :=
  ⟨ptype, 0, poison, 0, addr / 2 ^ 48 % 65536, s.nodeId, 0, (s.jobTag p).getD 0, addr % 2 ^ 48, 0x400 + c, data, body⟩

/-- Sends a request and takes its answer: from this package's own landing where the chamber is its own, else from what
the other node answers. One that is sent again notes its barge (R507), and one that is abandoned takes with it the others of its
node pair (R508). (DEDUCED, log entry 42.) -/
def State.chSend (s : State) (far : Far) (x : Contest) (b : Barge) (p : Packet) : Landed × State :=
  if !s.nodeValid then ({ code := some 8 }, s)
  else if (s.jobTag b.part).isNone then ({ code := some 1 }, s)
  else if p.dst = s.nodeId then s.landReq p [] x
  else
    match s.pathCode p.dst with
    | some c => ({ code := some c }, s)
    | none =>
      let t := s.sendReq .none p
      let t := t.modFab fun f => { f with sent := f.sent.dropLast }
      let t := if far.resent.contains p.global then t.addNote b.canal b.seq Note.retried else t
      match far.fails.find? fun e => e.1 == p.global with
      | some e => ({ code := some e.2 }, if e.2 = 10 then t.abandonNode p.dst else t)
      | none =>
        if p.reads then
          ({ data := (List.range p.bytes).map fun i => spGet (fun _ => 0) far.bytes (p.global + i)
             poison := (List.range (p.bytes / 128)).any fun i => far.poison.contains (p.global + 128 * i) }, t)
        else ({}, t)

/-- Reads whole lines in packets of up to 32: the bytes, with the first lines of poisoned packets, or a code.
(DEDUCED, log entry 42.) -/
def State.chRead (s : State) (e : CkptEnv) (b : Barge) (addr : Nat) : Nat → Nat → List Byte → Bool →
    Except Nat (List Byte × Bool) × State
  | 0, _, acc, bad => (.ok (acc, bad), s)
  | _, 0, acc, bad => (.ok (acc, bad), s)
  | n, k + 1, acc, bad =>
    let m := min n 32
    let (r, t) := s.chSend e.far e.contest b (s.chPacket b.canal b.part Pt.readLines addr m false [])
    match r.code with
    | some c => (.error c, t)
    | none => t.chRead e b (addr + 128 * m) (n - m) k (acc ++ r.data) (bad || r.poison)

/-- Reads `n` bytes, a whole number of lines or rounded up to one. -/
def State.chBytes (s : State) (e : CkptEnv) (b : Barge) (addr n : Nat) : Except Nat (List Byte × Bool) × State :=
  s.chRead e b addr (ceilDiv n 128) (ceilDiv n 128) [] false

/-- Writes requests in order until one fails: its code, if any. -/
def State.chWrite (s : State) (e : CkptEnv) (b : Barge) : List Packet → Option Nat × State
  | [] => (none, s)
  | p :: rest =>
    let (r, t) := s.chSend e.far e.contest b p
    match r.code with
    | some c => (some c, t)
    | none => t.chWrite e b rest

/-- The packets of partition `p` and canal `c` that write `bs`, whole lines, in groups `(first line, lines, poison)`. -/
def State.chLines (s : State) (c p addr : Nat) (bs : List Byte) (groups : List (Nat × Nat × Bool)) : List Packet :=
  groups.map fun g =>
    s.chPacket c p Pt.writeLines (addr + 128 * g.1) 0 g.2.2 ((bs.drop (128 * g.1)).take (128 * g.2.1))

/-- Groups of 32 clean lines. -/
def cleanGroups (n : Nat) : List (Nat × Nat × Bool) :=
  (List.range (ceilDiv n 32)).map fun i => (32 * i, min 32 (n - 32 * i), false)

/-- Reads the manifest of an area, its header and the NGRAN entries that the header states; none for no area. A chamber's areas lie
as its own header's NGRAN says. (DEDUCED, log entry 42.) -/
def State.chMan (s : State) (e : CkptEnv) (b : Barge) (chamber ngran a : Nat) : Except Nat (Option Man) × State :=
  if 2 < a then (.ok none, s)
  else
    let at_ := areaAt chamber ngran a
    match s.chBytes e b at_ 128 with
    | (.error c, t) => (.error c, t)
    | (.ok (head, bad), t) =>
      let n := min (fieldB head 39 32) (2 ^ 25)
      match t.chBytes e b (at_ + 128) (16 * n) with
      | (.error c, u) => (.error c, u)
      | (.ok (bs, bad'), u) => (.ok (some ⟨head, bs.take (16 * n), bad || bad'⟩), u)

/-- A chamber as read: its header, and the manifests of its CURRENT and PREVIOUS areas. -/
structure Chamber where
  head : List Byte
  cur  : Option Man
  prev : Option Man

/-- The codes that a chamber read ends with: unreachable, or not valid. -/
inductive ChFail where
  | code (c : Nat)
  | invalid

/-- Reads both manifests of a chamber whose valid header is `h`. -/
def State.manifests (s : State) (e : CkptEnv) (b : Barge) (addr : Nat) (h : List Byte) : Except Nat Chamber × State :=
  let n := fieldB h 39 32
  match s.chMan e b addr n (fieldB h 8 8) with
  | (.error c, u) => (.error c, u)
  | (.ok cur, u) =>
    match u.chMan e b addr n (fieldB h 9 9) with
    | (.error c, v) => (.error c, v)
    | (.ok prev, v) => (.ok ⟨h, cur, prev⟩, v)

/-- The rejection code of a request to a chamber: one that was abandoned counts as code 0x08 (R508). -/
def chCode (c : Nat) : Nat := if c = 10 then 8 else c

/-- Reads a chamber's header and both manifests. -/
def State.chamber (s : State) (e : CkptEnv) (b : Barge) (addr : Nat) : Except ChFail Chamber × State :=
  match s.chBytes e b addr 128 with
  | (.error c, t) => (.error (.code c), t)
  | (.ok (h, bad), t) =>
    if bad || !headerValid h then (.error .invalid, t)
    else
      match t.manifests e b addr h with
      | (.error c, u) => (.error (.code c), u)
      | (.ok ch, u) => (.ok ch, u)

/-- The step that an area holds, 0 for none. -/
def heldBy (m : Option Man) : Nat := (m.map Man.held).getD 0

/-- The pool blocks that the entries of a manifest name. -/
def blocksOf (m : Option Man) : List Nat :=
  match m with
  | some m => (m.entries.map (·.block)).filter (· != 0xFFFFFFFF)
  | none => []

/-! ### Streams and their registers (R552, R553, R575, R576) -/

/-- The slot `k` in use. -/
def State.stream? (s : State) (k : Nat) : Option Stream := (s.streams.find? fun x => x.1 == k).map (·.2)

/-- Sets the record of slot `k`. -/
def State.setStream (s : State) (k : Nat) (t : Stream) : State := { s with streams := spPut k t s.streams }

/-- The state of slot `k`: 0 free, 1 idle, 2 open, 3 committing, 4 unknown. -/
def State.ckptSt (s : State) (k : Nat) : Nat := s.fld (Reg.ckptState k) F.CKPT_STATE_STATE

/-- The number of granules of a range list. -/
def granules (l : List (Nat × Nat)) : Nat := (l.map fun r => r.2 / 65536).sum

/-- The local address of granule `g`. -/
def granuleLa : List (Nat × Nat) → Nat → Nat
  | [], _ => 0
  | (base, len) :: rest, g => if g < len / 65536 then base + 65536 * g else granuleLa rest (g - len / 65536)

/-- The slot that holds a stream id for a partition. -/
def State.slotFor (s : State) (p id : Nat) : Option Nat :=
  (s.streams.find? fun x => x.2.part == p && x.2.id == id).map (·.1)

/-- Shows a stream in its registers, in a state. -/
def State.showStream (s : State) (k st : Nat) (t : Stream) : State :=
  let n := granules t.ranges
  let opened := st == 2 || st == 3
  let staging := ((List.range 3).find? fun a => a != t.cur && a != t.prev).getD 0
  ((((s.setStream k t).setFlds (Reg.ckptState k) [(F.CKPT_STATE_STATE, st), (F.CKPT_STATE_PARTITION, t.part),
    (F.CKPT_STATE_FULL, b2n (t.full && opened)), (F.CKPT_STATE_CANAL, t.canal), (F.CKPT_STATE_REPL_COUNT, t.rc - 1),
    (F.CKPT_STATE_REPL_RANK, t.rank), (F.CKPT_STATE_STAGING, staging), (F.CKPT_STATE_NGRAN, n)]).setFlds
      (Reg.ckptStream k) [(F.CKPT_STREAM_STREAM, t.id), (F.CKPT_STREAM_NODE, t.chamber / 2 ^ 48)]).setFlds
      (Reg.ckptProgress k) [(F.CKPT_PROGRESS_COVERED, if opened then t.covered.length else 0),
        (F.CKPT_PROGRESS_COPIED, if opened then t.copied else 0)]).setReg (Reg.ckptStep k)
    (if opened || st == 4 then t.step else t.last)

/-- The staging area of a stream. -/
def Stream.staging (t : Stream) : Nat := ((List.range 3).find? fun a => a != t.cur && a != t.prev).getD 0

/-- Where the tracked granules of a stream lie, by the maps in force. -/
def State.granulesAt (s : State) (p : Nat) (l : List (Nat × Nat)) : List Nat :=
  (List.range (granules l)).map fun g => s.paOf s.maps p (granuleLa l g) / 65536

/-- Arms physical granules as DIRTY_ARM does (R332). -/
def State.armAll (s : State) (ks : List Nat) : State :=
  ks.foldl (fun t k => { t with armed := setIns k t.armed, dirty := t.dirty.filter fun x => x / 32 != k }) s

/-- Disarms physical granules. -/
def State.disarmAll (s : State) (ks : List Nat) : State :=
  ks.foldl (fun t k => { t with armed := t.armed.filter (· != k), dirty := t.dirty.filter fun x => x / 32 != k }) s

/-- Sets the dirty bit of tracked granule `g`, wherever a map of its page leads now. (DEDUCED, log entry 42.) -/
def State.redirty (s : State) (t : Stream) (g : Nat) : State :=
  match t.phys[g]? with
  | some k => s.touch (65536 * k)
  | none => s

/-- Reads and clears the dirty bit of the granule at a physical address; an unarmed one counts as dirty and is armed. -/
def State.collectGranule (s : State) (pa : Nat) : Bool × State :=
  let k := pa / 65536
  let d := !s.armed.contains k || s.dirty.any fun x => x / 32 == k
  (d, { s with armed := setIns k s.armed, dirty := s.dirty.filter fun x => x / 32 != k })

/-! ### CKPT_BEGIN (R557 to R559) -/

/-- The range list as 16-byte records at an address. -/
def State.rangeList (s : State) (p la n : Nat) : List (Nat × Nat) :=
  (List.range n).map fun i =>
    let e := s.localBytes s.maps p (la + 16 * i) 16
    (fieldB e 7 0, fieldB e 15 8)

/-- The first failing address of a range list: the list itself, a record out of R553 (the first by which NGRAN passes 2^25, and
the first of a list without granules, among them), an unmapped page. (DEDUCED, log entry 42.) -/
def State.rangesFault (s : State) (p la n : Nat) (write : Bool) : Option Nat :=
  match s.readFault p la (16 * n) with
  | some a => some a
  | none =>
    let l := s.rangeList p la n
    let bad := (List.range n).find? fun i =>
      let (b, k) := l.getD i (0, 0)
      b % 65536 != 0 || k % 65536 != 0 || decide (b < 2 ^ 32) || decide (2 ^ 25 < granules (l.take (i + 1))) ||
        (k != 0 && (l.take i).any fun r => r.2 != 0 && spansMeet b k r.1 r.2)
    match bad.orElse fun _ => if granules l = 0 then some 0 else none with
    | some i => some (la + 16 * i)
    | none => l.findSome? fun r => s.rangeFault s.maps p write r.1 r.2

/-- The byte offset of the first field of CKPT_BEGIN outside Table 19-4. -/
def Barge.beginField (b : Barge) : Option Nat :=
  let full := bitOf (b.f 39 39) 0
  let rc := b.f 37 37
  if b.f 35 32 = 0 then some 32
  else if !full then
    if bitOf (b.f 39 39) 1 ∧ b.f 38 36 = 0 then some 39
    else if b.f 47 40 = 0 ∧ b.f 38 36 = 0 then some 40
    else ([(36, 36), (37, 37), (38, 38), (48, 55), (56, 63), (64, 71), (72, 75), (76, 79), (80, 87), (88, 95)].find? fun r =>
      b.f r.2 r.1 != 0).map (·.1)
  else if b.f 36 36 = 0 ∨ 16 < b.f 36 36 then some 36
  else if rc = 0 ∨ 16 < rc then some 37
  else if rc ≤ b.f 38 38 then some 38
  else if b.f 47 40 = 0 then some 40
  else if b.f 55 48 % 65536 ≠ 0 then some 48
  else if b.f 63 56 % 65536 ≠ 0 ∨ 2 ^ 42 < b.f 63 56 then some 56
  else if b.f 71 64 % 128 ≠ 0 then some 64
  else if b.f 79 76 ≤ b.f 75 72 then some 72
  else if b.f 79 76 = 0 ∨ 65536 < b.f 79 76 then some 76
  else if b.f 87 80 % 8 ≠ 0 ∨ (rc = 1 ∧ b.f 87 80 ≠ 0) then some 80
  else none

/-- The stream that a CKPT_BEGIN opens, from its payload or its record. (DEDUCED, log entry 42.) -/
def State.beginStream (s : State) (b : Barge) (old : Option Stream) : Stream :=
  let rc := b.f 37 37
  let base : Stream := { part := b.part, id := b.f 35 32, canal := b.canal, chamber := b.f 55 48, blocks := b.f 63 56 / 65536
                         ranges := s.rangeList b.part (b.f 71 64) (b.f 36 36)
                         repl := if rc = 1 then [b.f 55 48] else s.localNums b.part (b.f 87 80) 8 rc
                         rc := rc, rank := b.f 38 38, shard := b.f 75 72, nshard := b.f 79 76, step := b.f 47 40
                         keep := b.f 95 88, full := true, cur := 0xFF, prev := 0xFF, prevStep := 0, commits := 0, man := []
                         used := [] }
  match old with
  | some o =>
    if bitOf (b.f 39 39) 0 then { base with last := o.last }
    else { o with
      canal := b.canal, step := b.f 47 40, keep := 0, full := false, entries := [], covered := [], torn := [], copied := 0
      treated := [] }
  | none => base

/-- Opens a stream whose checks have passed, with what its chamber holds. -/
def State.openStream (s : State) (e : CkptEnv) (b : Barge) (k : Nat) (t : Stream) (ch : Chamber) : State :=
  let n := granules t.ranges
  let format := bitOf (b.f 39 39) 1
  let done := fun (u : State) (t : Stream) =>
    let t := if t.full then { t with phys := u.granulesAt t.part t.ranges } else t
    let u := if t.full then u.armAll t.phys else u
    (u.showStream k 2 t).endBarge b.canal b.seq St.done k 0
  if format then
    let h := headerOf t.blocks n t.rc t.rank 0xFFFF
    let (r, u) := s.chWrite e b (s.chLines t.canal t.part t.chamber (h ++ List.replicate 65408 0) (cleanGroups 512))
    match r with
    | some c => u.endBarge b.canal b.seq 0x061A (chCode c) 0
    | none => done u t
  else
    done s { t with
      cur := fieldB ch.head 8 8, prev := fieldB ch.head 9 9, prevStep := heldBy ch.prev, commits := fieldB ch.head 15 10
      man := (ch.cur.map (·.entries)).getD [], used := blocksOf ch.cur ++ blocksOf ch.prev }

/-- CKPT_BEGIN. -/
def execCkptBegin (c : Fin 256) (q : Nat) (e : CkptEnv) (s : State) : Res State :=
  s.work c.val q [0x600] fun b t =>
    let p := b.part
    let full := bitOf (b.f 39 39) 0
    let format := bitOf (b.f 39 39) 1
    let mine := t.slotFor p (b.f 35 32)
    let st := (mine.map t.ckptSt).getD 0
    let taken := t.streams.any fun x => x.2.id == b.f 35 32 && x.2.part != p
    let old := mine.bind t.stream?
    let stateBad := if full then taken || !(st == 0 || st == 1 || st == 4)
      else st != 1 || old.all fun o => decide (2 < o.cur)
    let field := b.beginField
    let approved := t.flag Reg.secStatus F.SEC_STATUS_APPROVED
    t.checked b [(!b.reservedZero [(127, 96)] || decide (4 ≤ b.f 39 39), St.malformed, 0),
      ((t.jobTag p).isNone || (full && approved && t.sec.ckeys.all fun x => x.1 != p), St.notPermitted, 0),
      (stateBad, 0x0611, 0), (field.isSome, 0x0610, field.getD 0)] fun t =>
      let t := (t.execContest b (t.touches b.part (b.f 71 64) (16 * b.f 36 36) false ++ t.touches b.part (b.f 87 80) (8 * b.f 37 37) false)
        e.contest).meetAll e.errs
      let rf := if full then t.rangesFault p (b.f 71 64) (b.f 36 36) false else none
      let tf := if full && decide (1 < b.f 37 37) then t.readFault p (b.f 87 80) (8 * b.f 37 37) else none
      t.checked b [(rf.isSome, 0x0610, rf.getD 0), (tf.isSome, 0x0610, tf.getD 0)] fun t =>
        let sm := t.beginStream b old
        let n := granules sm.ranges
        let k? := match mine with
          | some k => some k
          | none => (List.range 16).find? fun k => (t.stream? k).isNone
        let room := ((t.streams.filter fun x => some x.1 != mine).map fun x => granules x.2.ranges).sum + n
        t.checked b [(sm.repl.getD sm.rank 0 != sm.chamber, 0x0610, 38),
          (k?.isNone || decide (2 ^ 25 < room), St.noResource, 0)] fun t =>
          let (hr, t) := t.chBytes e b sm.chamber 128
          match hr with
          | .error c => t.finish b.canal b.seq 0x061A (chCode c) 0
          | .ok (h, bad) =>
            let same := fieldB h 23 16 == sm.blocks && fieldB h 39 32 == n && fieldB h 40 40 == sm.rc && fieldB h 41 41 == sm.rank
            t.checked b [(if format then poolBlocks sm.blocks n == 0 else bad || !headerValid h || !same, 0x0612, 0)] fun t =>
              let (cr, t) := if bad || !headerValid h then (.ok ⟨[], none, none⟩, t) else t.manifests e b sm.chamber h
              match cr with
              | .error c => t.finish b.canal b.seq 0x061A (chCode c) 0
              | .ok ch =>
                let (hc, hp) := (heldBy ch.cur, heldBy ch.prev)
                t.checked b [(decide (sm.step ≤ hc) || (sm.keep != 0 && sm.keep != hc && sm.keep != hp), 0x0619, 0)] fun t =>
                  t.openStream e b (k?.getD 0) sm ch

/-! ### CKPT_DIFF (R560, R561, R607) -/

/-- The tweak of a granule's encryption. -/
def granuleTweak (g block rank : Nat) : Nat := g % 2 ^ 32 + block % 2 ^ 32 * 2 ^ 32 + rank * 2 ^ 64

/-- The key that a partition's checkpoints are encrypted under. -/
def State.ckOf (s : State) (p : Nat) : Option (List Byte) := (s.sec.ckeys.find? fun x => x.1 == p).map (·.2)

/-- A granule's bytes as a chamber holds them. -/
def State.encGranule (s : State) (p g block rank : Nat) (bs : List Byte) : List Byte :=
  match s.ckOf p with
  | some k => (List.range bs.length).map (Config.xtsEnc k (granuleTweak g block rank) bs)
  | none => bs

/-- A granule's bytes as read back. -/
def State.decGranule (s : State) (p g block rank : Nat) (bs : List Byte) : List Byte :=
  match s.ckOf p with
  | some k => (List.range bs.length).map (Config.xtsDec k (granuleTweak g block rank) bs)
  | none => bs

/-- How a CKPT_DIFF stands: copied and carried granules, the lowest torn one, and why it stopped: a status with its
result words. -/
structure DiffSt where
  copied  : Nat := 0
  carried : Nat := 0
  torn    : List Nat := []
  stop    : Option (Nat × Nat × Nat) := none

/-- The writes of one granule: its block where this replica holds it, then its entry. -/
def State.granuleWrites (s : State) (b : Barge) (t : Stream) (g la : Nat) (block : Option Nat) (e : CkptEntry) : List Packet :=
  let n := granules t.ranges
  let entry := (List.range 2).map fun i =>
    s.chPacket t.canal t.part Pt.write8 (areaAt t.chamber n t.staging + 128 + 16 * g + 8 * i) (fieldB e.bytes (8 * i + 7) (8 * i)) false []
  match block with
  | none => entry
  | some k =>
    let bs := s.localBytes s.maps t.part la 65536
    let groups := s.cutLines t.part la 0 512 []
    let clear := groups.map fun x => if x.2.2 then (bs.drop (128 * x.1)).take (128 * x.2.1)
      else ((s.encGranule t.part g k t.rank bs).drop (128 * x.1)).take (128 * x.2.1)
    s.chLines t.canal t.part (blockAt t.chamber n k) clear.flatten groups ++ entry

/-- Treats granule `g` of slot `k`. (DEDUCED, log entry 42.) -/
def State.diffOne (s : State) (env : CkptEnv) (b : Barge) (k g : Nat) (d : DiffSt) : DiffSt × State :=
  match s.stream? k with
  | none => (d, s)
  | some t =>
    let la := granuleLa t.ranges g
    match s.rangeFault s.maps t.part false la 65536 with
    | some a => ({ d with stop := some (0x0610, a, 0) }, s)
    | none =>
      let pa := s.paOf s.maps t.part la
      let h := g % t.rc
      let (d1, s1) := (s.useRange (some (b.canal, b.seq)) s.maps t.part la 65536).collectGranule pa
      let was := (t.entries.find? fun x => x.1 == g).map (·.2)
      let covered := t.covered.contains g
      let copy := d1 || (t.full && !covered)
      let block := if copy ∧ h = t.rank then
          (List.range (poolBlocks t.blocks (granules t.ranges))).find? fun i => !t.used.contains i
        else none
      if copy ∧ h = t.rank ∧ block.isNone then
        ({ d with stop := some (0x0614, g, 0) }, (s1.touch pa).setStream k { t with
          covered := t.covered.filter (· != g) })
      else
        let entry := if copy then
            ⟨digest64 (s1.localBytes s1.maps t.part la 65536), (block.getD 0xFFFFFFFF), h⟩
          else if covered then was.getD ⟨0, 0xFFFFFFFF, h⟩ else t.man.getD g ⟨0, 0xFFFFFFFF, h⟩
        let (code, s2) := s1.chWrite env b (s1.granuleWrites b t g la block entry)
        let t' := { t with
          used := block.toList ++ t.used
          entries := spPut g entry t.entries
          phys := t.phys.set g (pa / 65536)
          treated := if t.treated.contains g then t.treated else t.treated ++ [g] }
        match code with
        | some c =>
          ({ d with stop := some (0x061A, g, chCode c) }, (s2.touch pa).setStream k { t' with
            covered := t'.covered.filter (· != g) })
        | none =>
          let torn := env.torn.contains g
          let s3 := if torn then s2.touch pa else s2
          let t' := { t' with
            copied := t'.copied + b2n copy
            covered := if torn then t'.covered.filter (· != g) else setIns g t'.covered
            torn := if torn then setIns g t'.torn else t'.torn.filter (· != g) }
          ({ d with
              copied := d.copied + b2n copy
              carried := d.carried + b2n (!copy)
              torn := if torn then d.torn ++ [g] else d.torn }, s3.setStream k t')

/-- Treats the granules of a CKPT_DIFF in order, until one stops it. -/
def State.diffAll (s : State) (env : CkptEnv) (b : Barge) (k : Nat) : List Nat → DiffSt → DiffSt × State
  | [], d => (d, s)
  | g :: rest, d =>
    if d.stop.isSome then (d, s)
    else
      let (d', t) := s.diffOne env b k g d
      t.diffAll env b k rest d'

/-- CKPT_DIFF. -/
def execCkptDiff (c : Fin 256) (q : Nat) (e : CkptEnv) (s : State) : Res State :=
  s.work c.val q [0x601] fun b t => t.asHeld b fun t =>
    let k? := t.slotFor b.part (b.f 35 32)
    let k := k?.getD 0
    let n := ((t.stream? k).map fun x => granules x.ranges).getD 0
    let (first, num) := (b.f 47 40, b.f 55 48)
    t.checked b [(!b.reservedZero [(127, 56), (39, 36)], St.malformed, 0), (k?.isNone || t.ckptSt k != 2, 0x0611, 0),
      (num == 0 || decide (n < first + num), 0x0610, 0)] fun t =>
      let t := (t.execContest b (((t.stream? k).elim [] (·.ranges)).flatMap fun r => t.touches b.part r.1 r.2 false) e.contest).meetAll e.errs
      let m := if b.stopBy = 1 then min num e.upto else num
      let (d, u) := t.diffAll e b k ((List.range m).map (first + ·)) {}
      let u := match u.stream? k with
        | some x => u.showStream k 2 x
        | none => u
      match d.stop, d.torn with
      | some (st, r0, r1), _ => u.endBarge b.canal b.seq st r0 r1
      | none, g :: _ => u.endBarge b.canal b.seq 0x0613 g d.torn.length
      | none, [] =>
        if m < num then u.endBarge b.canal b.seq St.deadlineMissed (first + m) 0
        else u.endBarge b.canal b.seq St.done d.copied d.carried

/-! ### CKPT_COMMIT and CKPT_ABANDON (R562 to R564) -/

/-- The granules of an open checkpoint that are uncovered or torn. -/
def Stream.missing (t : Stream) : List Nat := (List.range (granules t.ranges)).filter fun g => !t.covered.contains g

/-- The commit word that a stream's commit writes. -/
def Stream.commitWord (t : Stream) : Nat :=
  let prev := if t.full ∧ t.keep ≠ 0 ∧ t.keep = t.prevStep then t.prev else t.cur
  t.staging + prev * 2 ^ 8 + (t.commits + 1) % 2 ^ 48 * 2 ^ 16

/-- Runs the steps of Table 19-6. (DEDUCED, log entry 42.) -/
def State.commitStream (s : State) (e : CkptEnv) (b : Barge) (k : Nat) (t : Stream) : State :=
  let n := granules t.ranges
  let job := (s.jobTag t.part).getD 0
  let area := areaAt t.chamber n t.staging
  let h := manHeader t n job 0
  let entries := (List.range n).map fun g => spGet (fun _ => (⟨0, 0xFFFFFFFF, 0⟩ : CkptEntry)) t.entries g
  let sealW := digest64 (h ++ entries.flatMap CkptEntry.bytes)
  let incomplete := fun (u : State) => (u.showStream k 2 t).endBarge b.canal b.seq 0x0601 0 0
  match s.chWrite e b (s.chLines t.canal t.part area h [(0, 1, false)]) with
  | (some _, u) => incomplete u
  | (none, u) =>
    let flag := u.chPacket t.canal t.part Pt.flag8 (area + 48) sealW false []
    let (r, u) := u.chSend e.far e.contest b flag
    let (ok, u) := match r.code with
      | none => (true, u)
      | some 7 =>
        if flag.dst = u.nodeId then
          let (r2, v) := u.chSend e.far e.contest b flag
          (r2.code.isNone, v)
        else (e.far.again == 0, (u.sendReq .none flag).modFab fun f => { f with sent := f.sent.dropLast })
      | some _ => (false, u)
    if !ok then incomplete u
    else
      let (r, u) := u.chSend e.far e.contest b (u.chPacket t.canal t.part Pt.flag8 (t.chamber + 8) t.commitWord false [])
      match r.code with
      | some 10 => (u.showStream k 4 t).endBarge b.canal b.seq 0x0615 0 0
      | some _ => incomplete u
      | none =>
        let t' := { t with
          cur := t.staging, prev := t.commitWord / 2 ^ 8 % 256, commits := t.commits + 1, man := entries, used := []
          entries := [], covered := [], torn := [], copied := 0, treated := [], last := t.step }
        (u.showStream k 1 t').endBarge b.canal b.seq St.done t.step 0

/-- A CKPT_COMMIT that starts with every granule covered and none torn: its stream reads committing (R562). -/
def State.commitBegins (s : State) (b : Barge) : State :=
  match s.slotFor b.part (b.f 35 32) with
  | none => s
  | some k =>
    match s.stream? k with
    | none => s
    | some x =>
      if b.opcode = 0x602 ∧ b.reservedZero [(127, 48), (39, 36)] ∧ s.ckptSt k = 2 ∧ x.step = b.f 47 40 ∧ x.missing.isEmpty then
        s.showStream k 3 x
      else s

/-- CKPT_COMMIT. -/
def execCkptCommit (c : Fin 256) (q : Nat) (e : CkptEnv) (s : State) : Res State :=
  s.work c.val q [0x602] fun b t =>
    let k? := t.slotFor b.part (b.f 35 32)
    let k := k?.getD 0
    match t.stream? k with
    | none => t.checked b [(!b.reservedZero [(127, 48), (39, 36)], St.malformed, 0), (true, 0x0611, 0)] id
    | some x =>
      let miss := x.missing
      t.checked b [(!b.reservedZero [(127, 48), (39, 36)], St.malformed, 0),
        (k?.isNone || !(t.ckptSt k == 2 || t.ckptSt k == 3) || x.step != b.f 47 40, 0x0611, 0)] fun t =>
        match miss with
        | g :: _ => t.finish b.canal b.seq 0x0601 g miss.length
        | [] => (t.meetAll e.errs).commitStream e b k x

/-- Discards the checkpoint of a slot; with `release`, disarms and frees it (R564). -/
def State.abandon (s : State) (k : Nat) (release : Bool) : State :=
  match s.stream? k with
  | none => s
  | some t =>
    let u := if s.ckptSt k = 1 then s else t.treated.foldl (fun u g => u.redirty t g) s
    if release then
      let u := { (u.disarmAll t.phys) with streams := spDel k u.streams }
      ((((u.setReg (Reg.ckptState k) 0).setReg (Reg.ckptStream k) 0).setReg (Reg.ckptProgress k) 0).setReg (Reg.ckptStep k) 0)
    else u.showStream k 1 { t with entries := [], covered := [], torn := [], copied := 0, treated := [], used := [] }

/-- CKPT_ABANDON. -/
def execCkptAbandon (c : Fin 256) (q : Nat) (s : State) : Res State :=
  s.work c.val q [0x604] fun b t =>
    let k? := t.slotFor b.part (b.f 35 32)
    t.checked b [(!b.reservedZero [(127, 37)] || decide (2 ≤ b.f 36 36), St.malformed, 0), (k?.isNone, 0x0611, 0)] fun t =>
      (t.abandon (k?.getD 0) (bitOf (b.f 36 36) 0)).finish b.canal b.seq St.done 0 0

/-- Abandons and frees every stream of a partition (step 3 of Table 16-3). -/
def State.abandonAll (s : State) (p : Nat) : State :=
  (List.range 16).foldl (fun t k =>
    match t.stream? k with
    | some x => if x.part = p then t.abandon k true else t
    | none => t) s

/-! ### SURVEY (R568, R569) -/

/-- What a survey records of one chamber. (DEDUCED, log entry 42.) -/
def State.surveyOne (s : State) (e : CkptEnv) (b : Barge) (addr : Nat) : (Nat × Nat) × State :=
  let bad := 2 ^ 64 - 1
  match s.chBytes e b addr 128 with
  | (.error _, t) => ((bad, bad), t)
  | (.ok (h, poison), t) =>
    if poison || !headerValid h then ((bad, bad), t)
    else
      let step := fun (u : State) (a : Nat) =>
        if 2 < a then (some 0, u)
        else
          match u.chBytes e b (areaAt addr (fieldB h 39 32) a) 128 with
          | (.error _, v) => (none, v)
          | (.ok (m, p), v) => (if p then none else some (fieldB m 15 8), v)
      let (c, t) := step t (fieldB h 8 8)
      let (p, t) := step t (fieldB h 9 9)
      match c, p with
      | some x, some y => ((x, y), t)
      | _, _ => ((bad, bad), t)

/-- Surveys chambers in order. -/
def State.surveyAll (s : State) (e : CkptEnv) (b : Barge) : List Nat → List (Nat × Nat) → List (Nat × Nat) × State
  | [], acc => (acc.reverse, s)
  | a :: rest, acc =>
    let (r, t) := s.surveyOne e b a
    t.surveyAll e b rest (r :: acc)

/-- Is a step one that a record can share? -/
def realStep (x : Nat) : Bool := x != 0 && x != 2 ^ 64 - 1

/-- The common step of the records, 0 for none. -/
def commonStep (l : List (Nat × Nat)) : Nat :=
  match l with
  | [] => 0
  | r :: _ => ([r.1, r.2].filter fun x => realStep x && l.all fun y => y.1 == x || y.2 == x).foldl max 0

/-- The lowest record that shares no step with record 0 or holds all ones. -/
def lonely (l : List (Nat × Nat)) : Nat :=
  let r := l.getD 0 (0, 0)
  (l.findIdx? fun y => y.1 == 2 ^ 64 - 1 || y.2 == 2 ^ 64 - 1 ||
    !([r.1, r.2].any fun x => realStep x && (y.1 == x || y.2 == x))).getD 0

/-- CKPT_RESTORE with MODE 0x01. -/
def execCkptSurvey (c : Fin 256) (q : Nat) (e : CkptEnv) (s : State) : Res State :=
  s.work c.val q [0x603] fun b t =>
    let n := b.f 75 72
    let (tab, out) := (b.f 55 48, b.f 63 56)
    let fieldBad := n == 0 || decide (65536 < n) || b.f 71 64 != 0 || b.f 47 40 != 0 || b.f 38 36 != 0
    if b.f 32 32 = 0 then t
    else t.checked b [(!b.reservedZero [(127, 76), (39, 39), (35, 33)] || b.f 32 32 != 1, St.malformed, 0),
      ((t.jobTag b.part).isNone, St.notPermitted, 0), (fieldBad, 0x0610, 0)] fun t =>
      let t := (t.execContest b (t.touches b.part tab (8 * n) false ++ t.touches b.part out (16 * n) true) e.contest).meetAll e.errs
      let tf := t.readFault b.part tab (8 * n)
      let of := if out % 128 ≠ 0 then some out else t.rangeFault t.maps b.part true out (16 * n)
      t.checked b [(tf.isSome, 0x0610, tf.getD 0), (of.isSome, 0x0610, of.getD 0)] fun t =>
        let t := (t.useRange (some (b.canal, b.seq)) t.maps b.part tab (8 * n)).useRange (some (b.canal, b.seq)) t.maps b.part
          out (16 * n)
        let (l, u) := t.surveyAll e b (t.localNums b.part tab 8 n) []
        let u := u.storeLocal u.maps b.part out (l.flatMap fun r => bytesLE 8 r.1 ++ bytesLE 8 r.2)
        let cs := commonStep l
        let first := (l.getD 0 (0, 0)).1
        if cs = 0 then u.endBarge b.canal b.seq 0x0603 (lonely l) 0
        else if l.all fun r => r.1 == first then u.endBarge b.canal b.seq St.done first 0
        else u.endBarge b.canal b.seq 0x0602 cs ((l.map (·.1)).foldl max 0)

/-! ### LOAD (R570 to R572) -/

/-- The status, with result words, that a failed chamber read gives. -/
def ChFail.status (f : ChFail) : Nat × Nat × Nat :=
  match f with
  | .code c => (0x061A, chCode c, 0)
  | .invalid => (0x0612, 0, 0)

/-- The manifest that holds a step; STEP 0 takes CURRENT. -/
def Chamber.manOf (ch : Chamber) (step : Nat) : Option Man :=
  (if step = 0 then [ch.cur] else [ch.cur, ch.prev]).findSome? fun m =>
    match m with
    | some m => if m.sealed && (step == 0 || m.held == step) then some m else none
    | none => none

/-- The manifests of the other holders, by rank: none where one does not hold the step. -/
def State.holders (s : State) (e : CkptEnv) (b : Barge) (repl : List Nat) (step : Nat) :
    List Nat → List (Nat × Man) → Except (Nat × Nat × Nat) (List (Nat × Man)) × State
  | [], acc => (.ok acc, s)
  | h :: rest, acc =>
    match s.chamber e b (repl.getD h 0) with
    | (.error (.code c), t) => (.error (ChFail.code c).status, t)
    | (.error .invalid, t) => (.error (0x0602, h, 0), t)
    | (.ok ch, t) =>
      match ch.manOf step with
      | some m => t.holders e b repl step rest ((h, m) :: acc)
      | none => (.error (0x0602, h, heldBy ch.cur), t)

/-- Copies granule `g` from its holder's pool block to its destination: whether it came whole, or a code.
(DEDUCED, log entry 42.) -/
def State.loadOne (s : State) (e : CkptEnv) (b : Barge) (l : List (Nat × Nat)) (chamber g : Nat) (m : CkptEntry) :
    Except Nat Bool × State :=
  let n := granules l
  match s.chBytes e b (blockAt chamber n m.block) 65536 with
  | (.error c, t) => (.error c, t)
  | (.ok (bs, bad), t) =>
    let clear := t.decGranule b.part g m.block m.holder bs
    let la := granuleLa l g
    let ok := !bad && digest64 clear == m.digest
    let t := t.useRange (some (b.canal, b.seq)) t.maps b.part la 65536
    let u := t.storeLocal t.maps b.part la clear
    (.ok ok, if ok then u else u.poisonLines b.part la 65536)

/-- Phase 2 of a LOAD: the corrupt granules, or a code. -/
def State.loadAll (s : State) (e : CkptEnv) (b : Barge) (l : List (Nat × Nat)) (chamber : Nat → Nat) :
    List (Nat × CkptEntry) → List Nat → Except Nat (List Nat) × State
  | [], bad => (.ok bad.reverse, s)
  | (g, m) :: rest, bad =>
    match s.loadOne e b l (chamber m.holder) g m with
    | (.error c, t) => (.error c, t)
    | (.ok ok, t) => t.loadAll e b l chamber rest (if ok then bad else g :: bad)

/-- Checks 3 to 5 of R570 and phase 2, over the manifest that holds the step. -/
def State.loadMan (s : State) (e : CkptEnv) (b : Barge) (l : List (Nat × Nat)) (repl : List Nat) (m : Man) : State :=
  let (rank, rc) := (b.f 38 38, b.f 37 37)
  let step := fieldB m.head 15 8
  let done := fun (u : State) (st r0 r1 : Nat) => u.endBarge b.canal b.seq st r0 r1
  if fieldB m.head 39 32 ≠ granules l ∨ fieldB m.head 6 6 ≠ rc ∨ fieldB m.head 7 7 ≠ rank then done s 0x0616 0 0
  else
    let others := ((m.entries.map (·.holder)).eraseDups).filter (· != rank)
    match s.holders e b repl step others [] with
    | (.error (st, r0, r1), t) => done t st r0 r1
    | (.ok hs, t) =>
      let theirs := fun (h g : Nat) => ((hs.find? fun x => x.1 == h).bind fun x => x.2.entries[g]?)
      let pairs := (List.range m.entries.length).map fun g =>
        let x := m.entries.getD g ⟨0, 0, 0⟩
        (g, if x.holder = rank then x else { (theirs x.holder g).getD x with holder := x.holder })
      let split := (List.range m.entries.length).find? fun g =>
        let x := m.entries.getD g ⟨0, 0, 0⟩
        x.holder != rank && (theirs x.holder g).map (·.digest) != some x.digest
      match split with
      | some g => done t 0x0617 g 0
      | none =>
        if b.stopBy = 1 ∧ e.upto = 0 then done t St.deadlineMissed 0 0
        else
          match t.loadAll e b l (fun h => if h = rank then b.f 55 48 else repl.getD h 0) pairs [] with
          | (.error c, u) =>
            done (l.foldl (fun v r => v.storeFree b.part r.1 r.2) u) 0x061A (chCode c) 0
          | (.ok [], u) => done u St.done step 0
          | (.ok (g :: gs), u) => done u 0x0618 g (gs.length + 1)

/-- CKPT_RESTORE with MODE 0x00. It makes no choice (R572). -/
def execCkptLoad (c : Fin 256) (q : Nat) (e : CkptEnv) (s : State) : Res State :=
  let e : CkptEnv := { e with contest := .free }
  s.work c.val q [0x603] fun b t =>
    let (rank, rc, nr) := (b.f 38 38, b.f 37 37, b.f 36 36)
    let fieldBad := b.f 75 72 != 0 || rc == 0 || decide (16 < rc) || decide (rc ≤ rank) || nr == 0 || decide (16 < nr) ||
      b.f 55 48 % 65536 != 0 || b.f 63 56 % 128 != 0 || b.f 71 64 % 8 != 0 || (rc == 1 && b.f 71 64 != 0)
    if b.f 32 32 = 1 then t
    else t.checked b [(!b.reservedZero [(127, 76), (39, 39), (35, 33)] || b.f 32 32 != 0, St.malformed, 0),
      ((t.jobTag b.part).isNone, St.notPermitted, 0), (fieldBad, 0x0610, 0)] fun t =>
      let t := t.meetAll e.errs
      let rf := t.rangesFault b.part (b.f 63 56) nr true
      let tf := if rc = 1 then none else t.readFault b.part (b.f 71 64) (8 * rc)
      t.checked b [(rf.isSome, 0x0610, rf.getD 0), (tf.isSome, 0x0610, tf.getD 0)] fun t =>
        let l := t.rangeList b.part (b.f 63 56) nr
        let repl := if rc = 1 then [b.f 55 48] else t.localNums b.part (b.f 71 64) 8 rc
        t.checked b [(repl.getD rank 0 != b.f 55 48, 0x0610, 0)] fun t =>
          match t.chamber e b (b.f 55 48) with
          | (.error f, u) =>
            let (st, r0, r1) := f.status
            u.endBarge b.canal b.seq st r0 r1
          | (.ok ch, u) =>
            match ch.manOf (b.f 47 40) with
            | none => u.endBarge b.canal b.seq 0x0603 (heldBy ch.cur) (heldBy ch.prev)
            | some m => u.loadMan e b l repl m

end Sys2Proof.Machine
end

