-- ==== Sys2Proof/Machine/RegAccess.lean ====
section
/-! DEFINITION. How register accesses reach the package: the record of dropped accesses (R682, R685), what window 2 of a
partition shows (R680, R688), and the gate that a write through a path passes. -/

namespace Sys2Proof.Machine

/-- The windows' offset of a recorded access, and its KIND (Table 25-10): a narrow write, a write to a reserved offset,
a write to a view offset that is not shown. -/
def State.accessErr (s : State) (rp : RegPath) (kind off : Nat) : State :=
  let a := Reg.globalAccessErr
  if s.flag a F.GLOBAL_ACCESS_ERR_VALID then s.satAdd a F.GLOBAL_ACCESS_ERR_COUNT 1
  else s.setFlds a [(F.GLOBAL_ACCESS_ERR_VALID, 1), (F.GLOBAL_ACCESS_ERR_PATH, rp.path.val),
    (F.GLOBAL_ACCESS_ERR_KIND, kind), (F.GLOBAL_ACCESS_ERR_WINDOW, b2n rp.view.isSome),
    (F.GLOBAL_ACCESS_ERR_PART, (rp.view.getD 0).val), (F.GLOBAL_ACCESS_ERR_OFFSET, off)]

/-- The instance number of the register at `a` in an array of `n` from `base`. -/
def instOf (a base stride n : Nat) : Option Nat :=
  if base ≤ a ∧ (a - base) % stride = 0 ∧ (a - base) / stride < n then some ((a - base) / stride) else none

/-- Does window 2 of partition `p` show the window-0 register at `a` (Table 25-5)? -/
def State.shown (s : State) (p a : Nat) : Bool :=
  let mine := fun r => s.ownsReach p r
  let reach := fun base => (instOf a base 8 64).any mine
  let blockIn := fun base stride n => if base ≤ a then decide ((a - base) / stride < n) else false
  (regRow? a).isSome &&
  ([Reg.pkgId, Reg.pkgSerial, Reg.pkgCaps, Reg.globalTime, Reg.viewInfo, Reg.wakeTolerance p, Reg.throttleCount p,
      Reg.logHead, Reg.logOldest, Reg.logEpoch, Reg.logStatus, Reg.logReadIndex, Reg.secStatus, Reg.secKeys,
      Reg.mapDigest, Reg.mapGeneration, Reg.failopStatus, Reg.fabricNode, Reg.fabricJob p,
      Reg.fabricReject p].contains a ||
    reach (Reg.hcRate 0) || reach (Reg.timingCtrl 0) || reach (Reg.cuppingResult 0) || reach (Reg.paceSlipCount 0) ||
    reach (Reg.sensorReach 0) || reach (Reg.reachDepth 0) || reach (Reg.reachMap 0) ||
    decide (Reg.partState p ≤ a ∧ a ≤ Reg.partClaim p) ||
    (blockIn (Reg.canalCtrl 0) 0x100 256 && s.canalPart ((a - Reg.canalCtrl 0) / 0x100) == some p) ||
    (instOf a (Reg.logReadData 0) 8 32).isSome ||
    (instOf a (Reg.logCanalMark 0) 8 256).any (fun c => s.canalPart c == some p) ||
    (instOf a (Reg.clusterUnitMap 0) 8 576).any (fun P => mine (reachOfPhys P)) ||
    ([Reg.commState 0, Reg.commId 0, Reg.commLast 0].any fun base => (instOf a base 8 64).any fun k =>
      s.fld (Reg.commState k) F.COMM_STATE_PARTITION == p) ||
    ([Reg.ckptState 0, Reg.ckptStream 0, Reg.ckptProgress 0, Reg.ckptStep 0].any fun base =>
      (instOf a base 8 16).any fun k =>
        s.fld (Reg.ckptState k) F.CKPT_STATE_PARTITION == p) ||
    (blockIn (Reg.solverState 0) 0x400 64 && mine ((a - Reg.solverState 0) / 0x400)) ||
    (blockIn (Reg.clusterState 0) 0x400 576 && mine (reachOfPhys ((a - Reg.clusterState 0) / 0x400))))

/-- Has the boot put window 0 and the canals into service (step 14 of Table 22-4)? -/
def State.booted (s : State) : Bool :=
  s.fld (Reg.bootStatus 0) F.BOOT_STATUS_STAGE == 8 || s.fld (Reg.bootStatus 1) F.BOOT_STATUS_STAGE == 8

/-- Does the register at `a` lie in the always-on island (R455, R687): the identity, reset, weir, partition, canal,
logbook and map blocks? -/
def onIsland (a : Nat) : Bool := [0, 1, 2, 3, 4, 5, 7].contains (a / 2 ^ 16)

/-- In S4, an access to a register outside the always-on island is a wake event (R459). -/
def State.wakeFor (s : State) (a : Nat) : State :=
  if s.fld Reg.weirStatus F.WEIR_STATUS_STATE = 4 ∧ !onIsland a then s.wakeFirst else s

/-- Is the register at `a` writable through a view (Table 25-5)? The others that a view shows are RO there. -/
def viewRw (a : Nat) : Bool :=
  a / 2 ^ 16 == 4 || a == Reg.logReadIndex || (instOf a (Reg.timingCtrl 0) 8 64).isSome ||
    (instOf a (Reg.wakeTolerance 0) 8 8).isSome || (instOf a (Reg.partCtrl 0) 0x100 8).isSome ||
    (instOf a (Reg.partClaim 0) 0x100 8).isSome

/-- Have both P-dies stopped: the package then serves the reset block alone, and not through PCIe (R636)? -/
def State.stoppedBoth (s : State) : Bool :=
  s.fld (Reg.bootStatus 0) F.BOOT_STATUS_STAGE == 0xF && s.fld (Reg.bootStatus 1) F.BOOT_STATUS_STAGE == 0xF

/-- Does the package serve an access to the register at `a` on a path now? Before step 14 of Table 22-4 a PCIe port
presents no window 0 but for host recovery; a canal register write then still sets CFG_IGNORED (R634, R649). The port of a P-die
that has stopped serves nothing (R636), and while a takeover runs an access on a P-die's path is held (R687).
(DEDUCED, log entry 31.) -/
def State.serves (s : State) (path a : Nat) : Bool :=
  if s.takingOver && (path == 0 || path == 1 || decide (4 ≤ path)) then false
  else if s.stoppedBoth then decide (2 ≤ path) && a / 2 ^ 16 == 1
  else if path < 2 then
    let stage := s.fld (Reg.bootStatus path) F.BOOT_STATUS_STAGE
    stage == 8 || (stage != 0xF && (a == Reg.recoveryCtrl || (!s.booted && a / 2 ^ 16 == 4)))
  else true

/-- Performs a write to the register at `a` that arrives by a path: through a view, the write is ignored while the
partition is not live (R680), dropped and recorded where the view does not show the register (R682), and without effect
where the register is RO in the view (R688). In S4 a register outside the always-on island wakes the package first (R459). -/
def State.viaPath (s : State) (rp : RegPath) (a : Nat) (write : State → State) : State :=
  if !s.serves rp.path.val a then s
  else
  match rp.view with
  | none => write (s.wakeFor a)
  | some p =>
    if !s.live p.val then s
    else if !s.shown p.val a then s.accessErr rp 3 a
    else if viewRw a then write (s.wakeFor a)
    else s.wakeFor a

end Sys2Proof.Machine
end

