-- ==== Sys2Proof/Machine/Guarantee.lean ====
section
/-! DEFINITION. The determinism basis and its digest (R489, R593), yields of guarantees (R479 to R482), and the timing
and arbitration modes of the reaches (R46 to R53). -/

namespace Sys2Proof.Machine

/-! ### The basis (R489, R593) -/

/-- The version of the active P-die's roast as its 16 bytes. -/
def State.activeRoast (s : State) : List Byte := bytesLE 16 (s.roastWhole s.activePdie)

/-- The basis record of Table 16-6. -/
def State.basisRecord (s : State) (p : Nat) : List Byte :=
  bytesLE 8 (digest64 ((s.partReachList p).flatMap fun r => bytesLE 8 (s.reg (Reg.reachMap r)))) ++ s.activeRoast ++
    bytesLE 8 (s.reg (Reg.partReaches p)) ++ bytesLE 1 (s.fld (Reg.partCtrl p) F.PART_CTRL_CLASS) ++ bytesLE 1 p ++
    bytesLE 30 (b2n (s.dlbOff p))

/-- Recomputes the digest of a partition; where it changes, each started, uncompleted barge of it takes the note. -/
def State.rebase (s : State) (p : Nat) : State :=
  if s.partSt p = 0 then s
  else
    let d := digest64 (s.basisRecord p)
    if d = s.reg (Reg.basisDigest p) then s
    else
      let t := s.setReg (Reg.basisDigest p) d
      { t with barges := t.barges.map fun b =>
          if b.actsFor = some p ∧ b.begun then { b with notes := b.notes ||| Note.basisChanged } else b }

/-- Recomputes the digests of all partitions. -/
def State.rebaseAll (s : State) : State := (List.range 8).foldl State.rebase s

/-! ### Classes -/

/-- The class of a partition. -/
def State.classOf (s : State) (p : Nat) : Nat := s.fld (Reg.partCtrl p) F.PART_CTRL_CLASS

/-- The partition of class 2 that a reach belongs to. -/
def State.class2 (s : State) (r : Nat) : Option Nat :=
  match s.reachPart r with
  | some p => if s.classOf p = 2 then some p else none
  | none => none

/-- Does a running barge use one of these reaches? -/
def State.bargeOn (s : State) (rs : List Nat) (b : Barge) : Bool := b.executing && (s.reachesOf b).any rs.contains

/-! ### Paced and ordered modes (R47 to R53) -/

/-- Sets RATE of a reach; RATE_MIN follows it down. -/
def State.setRate (s : State) (r v : Nat) : State :=
  let a := Reg.hcRate r
  let t := s.setFld a F.HC_RATE_RATE v
  if v < t.fld a F.HC_RATE_RATE_MIN then t.setFld a F.HC_RATE_RATE_MIN v else t

/-- Is a reach quiescent (R48)? An armed reach is not (R463). -/
def State.quiescent (s : State) (r : Nat) : Bool := s.reachStill r && !s.reachCupped r

/-- A paced reach goes on in free mode as on loss of lock (R49); a class 2 partition's timing yields. -/
def State.losePace (s : State) (r cause : Nat) : State :=
  if !s.paced r then s
  else
    let t := (s.setFld (Reg.timingCtrl r) F.TIMING_CTRL_PACE_STATE 0).countSat (Reg.paceSlipCount r) 1
    let t := t.setRate r (t.fld (Reg.hcRate r) F.HC_RATE_FREE_RATE)
    match t.class2 r with
    | some p =>
      if cause = Ca.pacing then t.yieldG p Gu.timing cause r 0 (t.bargeOn [r])
      else t.yieldG p Gu.timing cause (r / 16) 0 (t.bargeOn (reachesOfDie (r / 16)))
    | none => t

/-- A pacing slip on a reach of a class 2 partition: its timing yields, and the situation is over with the slip. -/
def State.slipYields (s : State) (p r : Nat) : State :=
  (s.yieldG p Gu.timing Ca.pacing r 0 (s.bargeOn [r])).yieldEnd fun y => y.cause == Ca.pacing && y.site == r

/-- The change of mode that a reach waits for (Table 2-3), once it is quiescent. (DESIGN CHOICE, log entry 53.) -/
def State.changeMode (s : State) (r : Nat) : State :=
  let a := Reg.timingCtrl r
  if !s.quiescent r then s
  else
    let t := s.setFld a F.TIMING_CTRL_ORDER_STATE (s.fld a F.TIMING_CTRL_ORDER_REQ)
    if t.flag a F.TIMING_CTRL_PACE_REQ then
      if t.paced r || t.health.lockLost || t.paceBarred (r / 16) then t
      else (((t.follow (r / 16)).setFld a F.TIMING_CTRL_PACE_STATE 1).setRate r 1600).yieldEnd fun y =>
        y.cause == Ca.pacing && y.site == r
    else if t.paced r then
      ((t.setFld a F.TIMING_CTRL_PACE_STATE 0).setRate r (t.fld (Reg.hcRate r) F.HC_RATE_FREE_RATE)).follow (r / 16)
    else t

/-- Sets the locks and requests of a reach to those of a determinism class (Table 16-5); in class 2 it is not retained. -/
def State.lockClass (s : State) (r cls : Nat) : State :=
  let a := Reg.timingCtrl r
  let t := s.setFlds a [(F.TIMING_CTRL_PACE_LOCK, b2n (cls == 2)), (F.TIMING_CTRL_ORDER_LOCK, b2n (cls != 0))]
  let t := if cls = 0 then t else t.setFld a F.TIMING_CTRL_ORDER_REQ 1
  if cls = 2 then ((t.setFld a F.TIMING_CTRL_PACE_REQ 1).reachUp r).follow (r / 16) else t

/-! ### The rows of the timing modes -/

/-- PACE_REQ of reach `r` where PACE_LOCK does not hold it (R61): VCORE follows (R449). -/
def State.setPaceReq (s : State) (r : Nat) (v : Bool) : State :=
  let a := Reg.timingCtrl r
  if s.flag a F.TIMING_CTRL_PACE_LOCK then s else (s.setFld a F.TIMING_CTRL_PACE_REQ (b2n v)).follow (r / 16)

/-- ORDER_REQ of reach `r` where ORDER_LOCK does not hold it (R61). -/
def State.setOrderReq (s : State) (r : Nat) (v : Bool) : State :=
  let a := Reg.timingCtrl r
  if s.flag a F.TIMING_CTRL_ORDER_LOCK then s else s.setFld a F.TIMING_CTRL_ORDER_REQ (b2n v)

/-- A write of PACE_REQ. -/
def execPaceReq (r : Fin 64) (v : Bool) (rp : RegPath) (s : State) : Res State :=
  s.go (s.viaPath rp (Reg.timingCtrl r.val) fun t => t.setPaceReq r.val v)

/-- A write of ORDER_REQ. -/
def execOrderReq (r : Fin 64) (v : Bool) (rp : RegPath) (s : State) : Res State :=
  s.go (s.viaPath rp (Reg.timingCtrl r.val) fun t => t.setOrderReq r.val v)

/-- A requested change of mode runs once its reach is quiescent. (DESIGN CHOICE, log entry 53.) -/
def execTimingModeChange (r : Fin 64) (s : State) : Res State :=
  s.goDie (r.val / 16) (if s.modePending r.val then s.changeMode r.val else s)

/-- The delay monitors of a reach give its free rate, in M hc/s (R45). (DESIGN CHOICE, log entry 60.) -/
def execHcRateUpdate (r : Fin 64) (rate : BitVec 16) (s : State) : Res State :=
  s.goDie (r.val / 16)
    (let t := s.setFld (Reg.hcRate r.val) F.HC_RATE_FREE_RATE rate.toNat
     if t.paced r.val then t else t.setRate r.val rate.toNat)

/-- A paced stage was not ready at a pacing edge in one hc (R49). -/
def execPacingSlip (r : Fin 64) (s : State) : Res State :=
  s.goDie (r.val / 16)
    (if !s.paced r.val then s
     else
      let t := s.countSat (Reg.paceSlipCount r.val) 1
      match t.class2 r.val with
      | some p => t.slipYields p r.val
      | none => t)

/-- The pacing clock loses lock: every paced reach goes on in free mode. -/
def State.lockLoss (s : State) : State :=
  (List.range 64).foldl (fun t r => t.losePace r Ca.pacing) { s with health := { s.health with lockLost := true } }

def execPacingLockLoss (s : State) : Res State := s.go s.lockLoss

/-- Lock is regained: the reaches that ask for paced mode return to it, those that run work once they are quiescent.
(DEDUCED, log entry 45.) -/
def execPacingLockRegained (s : State) : Res State :=
  s.go ((List.range 64).foldl (fun t r => if t.flag (Reg.timingCtrl r) F.TIMING_CTRL_PACE_REQ then t.changeMode r else t)
    { s with health := { s.health with lockLost := false, clkOut := s.health.clkOut.filter (2 ≤ ·) } })

end Sys2Proof.Machine
end

