-- ==== Sys2Proof/Machine/Reset.lean ====
section
/-! DEFINITION. Resets (R622 to R637): levels 3 to 7 of Table 22-1, the record of a reset (R627), a lost link (R498), and
the boot of one P-die (R633, R635). -/

namespace Sys2Proof.Machine

/-! ### The record of a reset (R627) -/

/-- The partition that a unit of Table 20-3 belongs to. -/
def State.unitPart (s : State) (u : Nat) : Option Nat :=
  if u / 2 ^ 24 = 1 then s.clPart (u % 2 ^ 24)
  else if u / 2 ^ 24 = 5 then s.reachPart (u % 2 ^ 24)
  else none

/-- RESET_CAUSE as one reset sets it. -/
def causeOf (source level unit : Nat) : Nat := unit % 2 ^ 32 + source % 2 ^ 8 * 2 ^ 32 + level % 8 * 2 ^ 40

/-- Sets RESET_CAUSE and writes the error record of the reset; `unit` names the unit in the record.
(DEDUCED, log entry 43.) -/
def State.resetRecord (s : State) (cause level unit : Nat) : State :=
  let t := s.setReg Reg.resetCause cause
  t.errRecord unit 0x0C level 9 (t.unitPart unit) 0 0 cause t.now

/-! ### Ragar links (R498, R500) -/

/-- Is a link trained? -/
def State.trained (s : State) (k : Nat) : Bool := s.portUp k

/-- Is a link trained, or moored (R500)? -/
def State.linked (s : State) (k : Nat) : Bool :=
  s.trained k || s.fld (Reg.portStatus k) F.PORT_STATUS_STATE == 4

/-- The flit state of a link that begins anew. -/
def LinkSt.fresh (l : LinkSt) : LinkSt :=
  { l with fseq := 0, recv := 0, held := [], rest := [], spent := [], owed := [], ackDue := false, stream := [], lastCw := 0 }

/-- A link ends in a state of PORT_STATUS: its unacknowledged flits are dropped, its keys destroyed, and the packets that have
not left go by the routes that are left. (DEDUCED, log entry 37.) -/
def State.linkDown (s : State) (k st : Nat) : State :=
  let t := s.setFld (Reg.portStatus k) F.PORT_STATUS_STATE st
  let u := (t.setLink k { (t.link k).fresh with enc := false, queue := [] }).modFab fun f => { f with times := spDel k f.times }
  (t.link k).queue.foldl State.emitPkt u

/-- The link of a port is lost (R498); the loss is counted in the window of Table 20-2. (DEDUCED, log entry 37.) -/
def State.linkLost (s : State) (k : Nat) : State :=
  let t := s.linkDown k 3
  (t.setLink k { t.link k with losses := (t.link k).losses + 1 }).noteFault (unitPort k) 7 0

/-! ### Level 3: a host port -/

/-- The canals whose rings lie in host memory behind a port. -/
def State.canalsBehind (s : State) (k : Nat) : List Nat :=
  (List.range 256).filter fun c => s.fld (Reg.canalCtrl c) F.CANAL_CTRL_RING_LOC == k

/-- Faults the active ones among some canals. -/
def State.faultCanals (s : State) (cs : List Nat) (cause : Nat) : State :=
  cs.foldl (fun t c => if t.canalActive c then t.canalFault c cause else t) s

/-- Returns one register to its reset value. -/
def State.clearReg (s : State) (a : Nat) : State := s.setReg a (regReset a).toNat

/-- The straps of a port: root-port mode, and BOOT_SRC of its P-die. -/
def State.rootStrap (s : State) (k : Nat) : Nat :=
  s.fld Reg.strapLatch (if k = 0 then F.STRAP_LATCH_PCIE_MODE_A else F.STRAP_LATCH_PCIE_MODE_B)

def State.bootSrc (s : State) (k : Nat) : Nat :=
  s.fld Reg.strapLatch (if k = 0 then F.STRAP_LATCH_BOOT_SRC_A else F.STRAP_LATCH_BOOT_SRC_B)

/-- A level-3 reset of the host port of P-die `k`. (PRESUMED, log entry 32.) -/
def State.resetHostPort (s : State) (k : Nat) : State :=
  let t := (((s.clearReg (Reg.hostPortStatus k)).clearReg (Reg.hostWin4 k)).clearReg (Reg.hostErr k)).setHost k {}
  (t.setFld (Reg.hostPortStatus k) F.HOST_PORT_STATUS_ROOT (t.rootStrap k)).faultCanals (t.canalsBehind k) 0x02

/-! ### Level 6: the dies -/

/-- A level-6 reset of C-die `d`. -/
def State.resetCdie (s : State) (d : Nat) : State :=
  let t := (reachesOfDie d).foldl State.resetReach s
  { t with
    watches := t.watches.filter fun w => w.stack / 8 != d
    health := { t.health with voidDies := t.health.voidDies.filter (· != d) } }

/-- Returns the registers of a base die to their reset values: those that no reset of the stack keeps. -/
def State.clearScrub (s : State) (st : Nat) : State :=
  (s.clearReg (Reg.scrubCtrl st)).clearReg (Reg.scrubStatus st)

/-- Near-memory operations whose uncompleted units run again take RETRIED (R340). -/
def State.retryOps (s : State) (sel : NmOp → Bool) : State :=
  { s with nmOps := s.nmOps.map fun o => if !o.done && sel o then { o with notes := o.notes ||| 4 } else o }

/-- Has granule `g` lines in stack `st`? The 512 lines of a granule meet every stack of their C-die, or every stack of the
package where their group is interleaved across it (R278). -/
def State.granuleOn (s : State) (g st : Nat) : Bool := s.packageWide (g / 65536) || s.stackOf (g * 65536) / 8 == st / 8

/-- A reset that reaches stack `st` sets the dirty bit of every armed granule in it (R333). -/
def State.dirtyAll (s : State) (st : Nat) : State :=
  { s with dirty := (s.armed.filter fun g => s.granuleOn g st).foldl (fun l g => setIns (g * 32 + st) l) s.dirty }

/-- A level-6 reset of stack `st`. -/
def State.resetStack (s : State) (st : Nat) : State :=
  ((s.dirtyAll st).clearScrub st).retryOps fun o => o.lead / 8 == st

/-- The collectives whose sequencer F-die `f` runs end as lost members (R528, R547). -/
def State.loseSlots (s : State) (f : Nat) : State :=
  (List.range 64).foldl (fun t k =>
    match t.collEnv k with
    | some v => if t.slotFdie k = f then t.collFail v 0x0511 2 v.me v.peers else t
    | none => t) s

/-- A level-6 reset of F-die `f`: its links go down as lost, and its sequencers are cleared. -/
def State.resetFdie (s : State) (f : Nat) : State :=
  ((List.range 9).foldl (fun t p => if t.linked (9 * f + p) then t.linkLost (9 * f + p) else t) s).loseSlots f

/-! ### The boot of a P-die (R633, R635) -/

/-- The boot flash of a P-die. -/
def State.flashOf (s : State) (k : Nat) : Flash := spGet (fun _ => ({} : Flash)) s.sec.flash k

def flashSlot (f : Flash) (i : Nat) : Option Roast := if i = 0 then f.slot0 else f.slot1

def setFlashSlot (f : Flash) (i : Nat) (r : Option Roast) : Flash := if i = 0 then { f with slot0 := r } else { f with slot1 := r }

def State.modSec (s : State) (f : Security → Security) : State := { s with sec := f s.sec }

def State.setFlash (s : State) (k : Nat) (f : Flash) : State :=
  s.modSec fun x => { x with flash := spSet (fun _ => ({} : Flash)) k f x.flash }

/-- SVN_FLOOR, and the key sets that fuses revoke. -/
def State.svnFloor (s : State) : Nat := s.fld Reg.secFuse F.SEC_FUSE_SVN_FLOOR

/-- May a P-die boot a roast: its key set stands, and its SVN is at least the floor? -/
def State.bootable (s : State) (r : Roast) : Bool :=
  !bitOf (s.fld Reg.secFuse F.SEC_FUSE_KEYSET_REVOKED) r.keyset && decide (s.svnFloor ≤ r.svn)

/-- The roasts that P-die `k` tries, with their slot and whether they lie in the other P-die's flash. -/
def State.roastList (s : State) (k : Nat) : List (Option Roast × Nat × Bool) :=
  let own := s.flashOf k
  let peer := s.flashOf (1 - k)
  let l := [(flashSlot own own.sel, own.sel, false), (flashSlot own (1 - own.sel), 1 - own.sel, false),
    (flashSlot peer peer.sel, peer.sel, true), (flashSlot peer (1 - peer.sel), 1 - peer.sel, true)]
  if s.bootSrc k = 1 then l.take 1 else l

/-- The roast that P-die `k` boots, and its place in the list. -/
def State.pickRoast (s : State) (k : Nat) : Option (Roast × Nat × Bool × Nat) :=
  ((s.roastList k).zipIdx.findSome? fun x => x.1.1.bind fun r =>
    if s.bootable r then some (r, x.1.2.1, x.1.2.2, x.2) else none)

/-- The roast that a P-die runs. -/
def State.runs? (s : State) (k : Nat) : Option Roast := (s.sec.running.find? fun x => x.1 == k).map (·.2)

/-- A P-die runs a roast from now on: its version shows, and SPLIT tells whether the P-dies run different ones. -/
def State.setRunning (s : State) (k : Nat) (r : Roast) : State :=
  let t := (s.setReg (Reg.roastVersion (2 * k)) (r.version % 2 ^ 64)).setReg (Reg.roastVersion (2 * k + 1)) (r.version / 2 ^ 64)
  let t := t.modSec fun x => { x with running := spPut k r x.running }
  let split := match t.runs? 0, t.runs? 1 with
    | some a, some b => a.version != b.version
    | _, _ => false
  t.setFld Reg.failopStatus F.FAILOP_STATUS_SPLIT (b2n split)

/-- The ROAST entry (Table 14-2). -/
def State.logRoast (s : State) : State :=
  s.logEnter 0x9 0 0 0 none [] [] (bytesLE 16 (s.roastWhole 0) ++ bytesLE 16 (s.roastWhole 1))

/-- The BOOT entry (Table 14-2). -/
def State.logBoot (s : State) (level : Nat) : State :=
  s.logEnter 0xA 0 0 0 none [] [] (bytesLE 8 level ++ bytesLE 8 (s.reg Reg.resetCause))

/-- Where a boot of P-die `k` ends: STAGE 0x8 with the roast booted. -/
def State.bootDone (s : State) (k slot : Nat) (peer recovered : Bool) (idx : Nat) : State :=
  s.setFlds (Reg.bootStatus k) [(F.BOOT_STATUS_STAGE, 8), (F.BOOT_STATUS_STOP_CAUSE, 0), (F.BOOT_STATUS_SLOT, slot),
    (F.BOOT_STATUS_FALLBACK, b2n (idx != 0)), (F.BOOT_STATUS_FROM_PEER, b2n peer),
    (F.BOOT_STATUS_RECOVERY, b2n recovered), (F.BOOT_STATUS_TIME, s.now % 2 ^ 48)]

/-- A boot of P-die `k` that stops with a cause of Table 22-5 (R636). -/
def State.bootStop (s : State) (k cause : Nat) : State :=
  s.setFlds (Reg.bootStatus k) [(F.BOOT_STATUS_STAGE, 0xF), (F.BOOT_STATUS_STOP_CAUSE, cause),
    (F.BOOT_STATUS_TIME, s.now % 2 ^ 48)]

/-- Sets the role of a P-die with the reason of the change. -/
def State.setRole (s : State) (k role change : Nat) : State :=
  s.setFlds (Reg.pdieStatus k) [(F.PDIE_STATUS_ROLE, role), (F.PDIE_STATUS_CHANGE, change),
    (F.PDIE_STATUS_TIME, s.now % 2 ^ 48)]

/-- P-die `k` becomes the standby and begins to synchronise its mirror (step 13 of Table 22-4); without the link between
the P-dies it reads absent (R591). -/
def State.beginSync (s : State) (k change : Nat) : State :=
  ((s.setRole k 1 change).setFld Reg.failopStatus F.FAILOP_STATUS_STANDBY (if s.health.linksOut.contains 53 then 2 else 1)).setFld Reg.logStatus F.LOG_STATUS_SINGLE 1

/-- P-die `k` serves no role, as FAILOP_STATUS.STANDBY reads in `st`: it is disabled, or it still boots and is absent, waiting
for a recovery roast, its ROLE resetting. (DEDUCED, log entry 43.) -/
def State.noStandby (s : State) (k st change : Nat) : State :=
  ((s.setRole k (if st = 2 then 2 else 3) change).setFld Reg.failopStatus F.FAILOP_STATUS_STANDBY st).setFld Reg.logStatus F.LOG_STATUS_SINGLE 1

/-- Clears what a level-6 reset of P-die `k` clears: its host port, management port and SPDM sessions. The P-die is out, and
entries carry SINGLE from here on (R422). -/
def State.clearPdie (s : State) (k : Nat) : State :=
  let t := (((s.setFld Reg.logStatus F.LOG_STATUS_SINGLE 1).resetHostPort k).setMgmt k {}).clearReg (Reg.bootStatus k)
  let t := t.modSec fun x => { x with
    sessions := x.sessions.filter fun v => v.pdie != k
    stages := spDel k x.stages }
  t.setFld Reg.secStatus F.SEC_STATUS_SESSIONS (t.sec.sessions.filter (·.open_)).length

/-- A roast booted on P-die `k`: where the version changes, a ROAST entry follows the BOOT entry. -/
def State.startRoast (s : State) (k : Nat) (r : Roast) : State :=
  let old := (s.runs? k).map (·.version)
  let t := s.setRunning k r
  if old = some r.version then t else t.logRoast

/-- Boots the standby P-die `k` by itself, the entries made while it is out carrying SINGLE (R422): it becomes the standby
and synchronises, or stops. With host recovery it waits for a roast. -/
def State.bootStandby (s : State) (k change : Nat) : State :=
  let t := s.logBoot 6
  if t.bootSrc k = 3 then (t.bootStop k 1).noStandby k 3 change
  else if t.bootSrc k = 2 then
    (((t.setFld (Reg.bootStatus k) F.BOOT_STATUS_STAGE 3).setFld (Reg.hostPortStatus k) F.HOST_PORT_STATUS_STATE 3).setFld
      Reg.recoveryCtrl F.RECOVERY_CTRL_STATE 1).noStandby k 2 change
  else
    match t.pickRoast k with
    | some (r, slot, peer, idx) => ((t.startRoast k r).bootDone k slot peer false idx).beginSync k change
    | none => (t.bootStop k 4).noStandby k 3 change

/-- A level-6 reset of the P-die that is not active, with the boot that follows it. -/
def State.resetStandby (s : State) (k source change : Nat) : State :=
  ((s.clearPdie k).resetRecord (causeOf source 6 (unitPdie k)) 6 (unitPdie k)).bootStandby k change

/-- Swaps the roles of the P-dies: the standby becomes active (Table 20-6 from step 3). Every digest of the basis is
computed anew. -/
def State.swapRoles (s : State) (change : Nat) : State :=
  let k := 1 - s.activePdie
  let t := s.setFld Reg.failopStatus F.FAILOP_STATUS_ACTIVE k
  let t := (t.setRole k 0 change).logEnter 0x8 0 0 0 none [] [] (bytesLE 1 k)
  (t.hostEvt F.HOST_EVENT_TAKEOVER).rebaseAll

/-- HANDOVER (R597): the standby becomes active and the active becomes standby, with no reset. -/
def State.handover (s : State) : State :=
  let k := s.activePdie
  (s.swapRoles 1).setRole k 1 1

/-- Is the standby P-die in sync? -/
def State.inSync (s : State) : Bool := s.fld Reg.failopStatus F.FAILOP_STATUS_STANDBY == 0

/-- A reset of level 6 on P-die `k` that is not a failure: on the active one a HANDOVER runs first, or the reset acts at
level 3 where the standby is not in sync (R626). -/
def State.resetPdie (s : State) (k source : Nat) : State :=
  if s.activePdie ≠ k then s.resetStandby k source (s.fld (Reg.pdieStatus k) F.PDIE_STATUS_CHANGE)
  else if s.inSync then s.handover.resetStandby k source 1
  else (s.resetHostPort k).resetRecord (causeOf source 3 k) 3 (unitPdie k)

/-! ### Level 7: the package -/

/-- Registers that a level-7 reset keeps: what is fixed, and, where stack power stays, what resets at cold reset
only. -/
def keepsReg (cold : Bool) (a : Nat) : Bool :=
  match regRow? a with
  | none => false
  | some r =>
    match r.scope with
    | .fixed => true
    | .cold | .store | .alwaysOn => !cold
    | _ => false

/-- What a warm level-7 reset keeps of a register: all of it, or the field that counts since cold reset (RETAINS,
INCARNATION, RUNS). -/
def warmReg (a : Nat) (v : Word) : Option (Nat × Word) :=
  if keepsReg false a then some (a, v)
  else
    let w := fun (f : Fld) => BitVec.ofNat 64 (withBits (regReset a).toNat f.hi f.lo (bitsOf v.toNat f.hi f.lo))
    let part :=
      if (instOf a (Reg.reachDepth 0) 8 64).isSome then w F.REACH_DEPTH_RETAINS
      else if (instOf a (Reg.partState 0) 0x100 8).isSome then w F.PART_STATE_INCARNATION
      else if (instOf a (Reg.cuppingResult 0) 8 64).isSome then w F.CUPPING_RESULT_RUNS
      else regReset a
    if part = regReset a then none else some (a, part)

/-- The groups whose interleave mode a reset changes: their contents are undefined (R280). -/
def State.modeGroups (s : State) : List Nat := (List.range 16).flatMap fun k => (setBits 64 (s.reg (Reg.memInterleave k))).map (64 * k + ·)

/-- A level-7 reset (Table 22-1), which a boot follows. RESTARTS counts the boots that it and its forerunners cut off; while
RESET_N is low no boot has begun (R629). A failure whose map change still waits for a substitution is in no record yet, and is forgotten.
(DEDUCED, log entry 43; DESIGN CHOICE, log entry 46.) -/
def State.levelSeven (s : State) (cold : Bool) (source : Nat) (short opt absorbed : Bool) : State :=
  let was := s.reg Reg.resetCause
  let on := s.booting && !cold
  let again := on && !s.tap.low
  let dev := fun (a : Nat) => !inBasin a
  let fills := if cold then [] else s.fills.filter fun f => dev f.base
  let noticed := if cold then s
    else (List.range 18).foldl (fun t k => if t.trained k then t.sendControl k Ft.notice 2 else t) s
  let cause := causeOf source 7 0 +
    (if on then min (bitsOf was 55 48 + b2n again) 0xFF * 2 ^ 48 else 0) +
    b2n (short || (on && bitOf was 47)) * 2 ^ 47 + b2n ((again && opt) || (on && bitOf was 46)) * 2 ^ 46 +
    b2n absorbed * 2 ^ 45
  let t : State := { noticed with
    regs := if cold then s.regs.filter fun c => keepsReg true c.1 else s.regs.filterMap fun c => warmReg c.1 c.2
    mem := if cold then [] else s.mem.filter fun c => dev c.1 && c.2 != memDefault fills c.1
    fills := fills
    poison := if cold then [] else s.poison.filter dev
    armed := if cold then [] else s.armed
    dirty := if cold then [] else s.armed.foldl (fun l g => (List.range 32).foldl (fun l st => setIns (g * 32 + st) l) l) s.dirty
    clusters := [], maps := [], mapVer := [], unmapped := [], watches := [], cargo := []
    barges := [], done := [], tallies := []
    log := if cold then {} else { s.log with orphans := s.log.orphans ++ s.barges }
    errs := if cold then {} else s.errs
    nmOps := [], chains := [], tokenKey := [], partReq := [], fabric := {}
    fronts := if cold then [] else s.fronts
    krylov := if cold then [] else s.krylov
    health := { railOut := s.health.railOut && !cold, clkOut := if cold then [] else s.health.clkOut }
    heat := { trip := s.heat.trip && !cold }
    e4 := [], hostPort := [], mgmt := [], logRead := [], streams := []
    sec := { flash := s.sec.flash, dusShut := s.sec.dusShut && !cold, drawn := s.sec.drawn
             running := if cold then [] else s.sec.running }
    subs := [], mapWait := [], copies := [], weir := {}, booting := true }
  let t := if cold then t else s.modeGroups.foldl (fun u g => u.undefine (g * 2 ^ 32) (2 ^ 32)) t
  t.resetRecord cause 7 0

end Sys2Proof.Machine
end

