-- ==== Sys2Proof/Machine/Failover.lean ====
section
/-! DEFINITION. Staying in service: map changes (R31 to R33), cluster substitution (R582 to R585), lost reaches, stacks,
channels, ports and F-dies (R587 to R590), takeovers (R595), the thresholds of Table 20-2, and the rows of the failures. -/

namespace Sys2Proof.Machine

/-! ### Map changes (R31 to R33, R578, R579) -/

/-- MAP_DIGEST as the map registers give it. -/
def State.mapDigestOf (s : State) : Nat :=
  let words := fun (f : Nat → Nat) (n : Nat) => (List.range n).flatMap fun i => bytesLE 8 (s.reg (f i))
  digest64 (words Reg.reachMap 64 ++ words Reg.stackMap 32 ++ words Reg.portMap 2 ++ words Reg.clusterUnitMap 576)

/-- The digests after a change of the map registers, and HOST_EVENT once MAP_GENERATION is even. -/
def State.mapDone (s : State) : State :=
  let t := (s.setReg Reg.mapDigest s.mapDigestOf).rebaseAll
  if t.reg Reg.mapGeneration % 2 = 0 then t.hostEvt F.HOST_EVENT_MAP_CHANGE else t

/-- DETAIL of a record about a memory unit: that of the latest error of its kind on the unit (Table 20-3).
(DESIGN CHOICE, log entry 47.) -/
def State.unitDetail (s : State) (unit kind detail : Nat) : Nat × State :=
  match (s.errs.events.filter fun e => e.unit == unit && e.kind == kind).getLast? with
  | some e => if kind = 1 ∨ kind = 2 then s.memDetail (e.place * 128) else (detail, s)
  | none => (detail, s)

/-- Enters the MAP entry of the change that an event makes, and the error record that names it, with the time of the
detection; the unit joins the in-service record with its CAUSE and what failed in it. -/
def State.mapEntry (s : State) (unit : Nat) (taker : Option Nat) (level action bits : Nat) (e : MapEvent) : State :=
  let t := s.logEnter 0x7 0 0 0 none [] [] (bytesLE 8 (s.reg Reg.mapGeneration + 2) ++ bytesLE 8 unit ++
    bytesLE 8 (taker.getD 0xFFFFFFFF))
  let (detail, t) := t.unitDetail unit e.kind 0
  let t := t.errRecord unit e.kind level action (t.unitPart unit) (t.log.next - 1) 0 detail e.time
  { t with inService := t.inService ++ [⟨unit, e.cause, bits⟩] }

/-- A map change made at once: MAP_GENERATION is even before it and two higher after it (R32). -/
def State.mapChange (s : State) (unit : Nat) (taker : Option Nat) (level action bits : Nat) (e : MapEvent)
    (change : State → State) : State :=
  ((change (s.mapEntry unit taker level action bits e)).count Reg.mapGeneration 2).mapDone

/-! ### Work on lost clusters and reaches (R585, R587) -/

/-- A live cluster of a run is lost: it leaves the run, and its status registers hold cause 0x0009 and TVAL 0 (R585). -/
def State.dropLost (s : State) (P : Nat) : State :=
  let pc := (s.cl P).pc
  ((s.leaveRun P none).modCl P fun c => { (c.stopAs Cause.dataPoison 0 pc) with barge := none }).unwatch (.cluster P)

/-- A running cargo has lost the clusters `ps`: unless an earlier stop by trap is reported, it will complete with EXEC_FAULT and
cause 0x0009, naming logical cluster `L`; its other clusters stop as under R106. -/
def State.loseRun (s : State) (b : Barge) (ps : List Nat) (L : Nat) : State :=
  match b.run? with
  | none => s
  | some w =>
    let f : RunFault := ⟨s.now, L, Cause.dataPoison, 0⟩
    let t := if w.fault.isSome then s else s.logEnter 0x4 b.canal b.seq 0 (s.logPart b.canal (some b.part)) [] [] [0x04]
    let t := t.setBarge { (t.barge? b.canal b.seq).getD b with work := .run { w with
      fault := some (match w.fault with
        | some g => if g.before f then g else f
        | none => f) } }
    ((w.live.filter ps.contains).foldl State.dropLost t).finishRun b.canal b.seq

/-- Ends the cargo barges that run or lie armed on some physical clusters, naming `L`. A barge whose clusters there have
all halted runs on. -/
def State.loseCargo (s : State) (ps : List Nat) (L : Nat) : State :=
  s.barges.foldl (fun t b =>
    match t.barge? b.canal b.seq with
    | none => t
    | some x =>
      match x.run? with
      | none => t
      | some w =>
        if w.gate.any (fun g => !g.released) then
          if w.clusters.any ps.contains then (t.disarm w).endBarge x.canal x.seq St.noResource 0 0 else t
        else if w.live.any ps.contains then t.loseRun x ps L
        else t) s

/-- A solver barge that holds reach `r` and has not ended: a batch is dealt anew, and the other forms stop as at a
deadline (R587). -/
def State.loseSolve (s : State) (r : Nat) : State :=
  { s with barges := s.barges.map fun b =>
      if b.begun ∧ b.executing ∧ b.native / 256 = 3 ∧ bitOf (b.f 39 32) r then
        { b with
          lost := setIns r b.lost
          stopBy := if b.native = 0x301 ∨ b.native = 0x302 ∨ b.native = 0x303 then (if b.stopBy = 0 then 3 else b.stopBy)
            else b.stopBy }
      else b }

/-- The map registers of a reach of STATE 0b10: no slot of it is enabled, backed or spare, and its clusters take CAUSE 0x5
(R36, R37, R587). `part` is what failed: 1 the solver sequencer, 2 the crossbar. (DEDUCED, log entry 46.) -/
def State.markReach (s : State) (r cause part : Nat) : State :=
  let a := Reg.reachMap r
  let t := s.setFlds a [(F.REACH_MAP_STATE, 2), (F.REACH_MAP_CAUSE, cause), (F.REACH_MAP_DISABLED, 0x1FF),
    (F.REACH_MAP_SPARE_SLOT, 0xF), (F.REACH_MAP_ENABLED_COUNT, 0), (F.REACH_MAP_SLOT_MAP, 2 ^ 32 - 1)]
  let t := if part = 1 then t.setFld a F.REACH_MAP_SOLVER_FAILED 1
    else if part = 2 then t.setFld a F.REACH_MAP_XBAR_FAILED 1 else t
  (physOfReach r).foldl (fun v P =>
    if v.fld (Reg.clusterUnitMap P) F.CLUSTER_UNIT_MAP_STATE = 2 then v
    else v.setFlds (Reg.clusterUnitMap P) [(F.CLUSTER_UNIT_MAP_STATE, 2), (F.CLUSTER_UNIT_MAP_CAUSE, 5)]) t

/-- The work on reach `r` ends (R587). -/
def State.stopReach (s : State) (r : Nat) : State := (s.loseCargo (physOfReach r) (logOf r 0)).loseSolve r

/-- Reach `r`, whose work has ended, becomes STATE 0b10. -/
def State.reachLost (s : State) (r part : Nat) (e : MapEvent) : State :=
  s.mapChange (unitReach r) none 5 7 part e fun u => u.markReach r e.cause part

/-! ### A failed cluster (R582 to R586) -/

/-- The slot of the idle spare of a reach. -/
def State.idleSpare (s : State) (r : Nat) : Option Nat :=
  let k := s.fld (Reg.reachMap r) F.REACH_MAP_SPARE_SLOT
  if k = 0xF then none else some k

/-- CLUSTER_UNIT_MAP of a failed cluster. -/
def State.unitFailed (s : State) (P bits cause : Nat) : State :=
  let a := Reg.clusterUnitMap P
  s.setReg a ((s.reg a ||| bits) % 2 ^ 32 / 2 ^ 16 * 2 ^ 16 + cause * 2 ^ 12 + 2 * 2 ^ 10 + (s.reg a ||| bits) % 16)

/-- Marks a physical slot of its reach disabled. -/
def State.slotOut (s : State) (P : Nat) : State :=
  let a := Reg.reachMap (reachOfPhys P)
  s.setFld a F.REACH_MAP_DISABLED (s.fld a F.REACH_MAP_DISABLED ||| 2 ^ slotOfPhys P)

/-- Gives a logical slot a physical slot, 0xF for none. -/
def State.mapSlot (s : State) (r x k : Nat) : State :=
  let a := Reg.reachMap r
  s.setFld a F.REACH_MAP_SLOT_MAP (withBits (s.fld a F.REACH_MAP_SLOT_MAP) (4 * x + 3) (4 * x) k)

/-- The guarantees of partition `p` that a pause on reach `r` yields (R594). -/
def State.pauseYields (s : State) (r : Nat) : State :=
  match s.reachPart r with
  | none => s
  | some p =>
    let on := fun (b : Barge) => (s.reachesOf b).contains r
    let t := if s.fld (Reg.partGuarantee p) F.PART_GUARANTEE_LAT_CEIL ≠ 0 then s.yieldG p Gu.latency Ca.containment r 0 on else s
    if s.classOf p = 2 then t.yieldG p Gu.timing Ca.containment r 0 on else t

/-- A cluster of a reach without an idle spare fails: its logical slot is unbacked (R585), and a reach with no backed slot
left becomes STATE 0b10. -/
def State.clusterLost (s : State) (P bits : Nat) (e : MapEvent) : State :=
  let r := reachOfPhys P
  let x := (s.logOfPhys P).map (· % 8)
  let t := s.loseCargo [P] ((s.logOfPhys P).getD 0)
  let n := t.fld (Reg.reachMap r) F.REACH_MAP_ENABLED_COUNT - 1
  let t := t.mapChange (unitCluster P) none 4 7 bits e fun u =>
    let u := (u.unitFailed P bits e.cause).slotOut P
    match x with
    | some x => (u.mapSlot r x 0xF).setFlds (Reg.reachMap r)
        [(F.REACH_MAP_ENABLED_COUNT, n), (F.REACH_MAP_STATE, 1), (F.REACH_MAP_CAUSE, e.cause)]
    | none => u
  let t := t.modCl P fun c => if c.act = .stopped then c else { c with act := .idle, wait := .none, barge := none, mat := [] }
  if n = 0 then (t.stopReach r).reachLost r 0 e else t

/-- The idle spare of a reach fails. -/
def State.spareLost (s : State) (P bits : Nat) (e : MapEvent) : State :=
  s.mapChange (unitCluster P) none 4 7 bits e fun u =>
    ((u.unitFailed P bits e.cause).slotOut P).setFld (Reg.reachMap (reachOfPhys P)) F.REACH_MAP_SPARE_SLOT 0xF

/-- Steps 1 and 2 of a substitution (Table 20-4): the failed cluster issues nothing more, the change is recorded, and
MAP_GENERATION becomes odd. -/
def State.beginSubst (s : State) (P spare bits : Nat) (e : MapEvent) : State :=
  let t := (s.mapEntry (unitCluster P) (some (unitCluster spare)) 4 5 bits e).count Reg.mapGeneration 1
  (({ t with subs := t.subs ++ [⟨P, spare, e.was, e.cause, bits, e.kind⟩] } : State).modCl P fun c =>
    { c with act := .paused }).pauseYields (reachOfPhys P)

/-- A paused cluster goes on with what it did, `was`. A wait.flag is executed again from its first read (R94). -/
def State.resume (s : State) (P : Nat) (was : Act) : State :=
  let c := s.cl P
  if c.act ≠ .paused then s
  else
    match c.wait with
    | .flag _ => (s.setCl P { c with act := was, wait := .none }).unwatch (.cluster P)
    | _ => s.setCl P { c with act := was }

/-- The map change of a failed cluster: the spare takes over, or none is left. (DEDUCED, log entry 46.) -/
def State.clusterChange (s : State) (P bits : Nat) (e : MapEvent) : State :=
  let r := reachOfPhys P
  let back := fun (t : State) => t.resume P e.was
  if s.fld (Reg.reachMap r) F.REACH_MAP_STATE = 2 then back s
  else
    match s.idleSpare r with
    | none => (back s).clusterLost P bits e
    | some k => if slotOfPhys P = k then (back s).spareLost P bits e else s.beginSubst P (physOf r k) bits e

/-- The address in the spare's basin of an address in the failed one. -/
def moveAddr (P Q a : Nat) : Nat := if inBasin a ∧ basinOwner a = P then a - basinPA P + basinPA Q else a

/-- Copies a basin with its poison (step 3). -/
def State.copyBasin (s : State) (P Q : Nat) : State :=
  let lo := basinPA P
  let inside := fun (a : Nat) => decide (lo ≤ a ∧ a < lo + basinSize)
  let undef := s.fills.any fun f => f.gen != 0 && decide (f.base < lo + basinSize ∧ lo < f.base + f.len)
  let cells := if undef then (List.range basinSize).map fun i => (i, s.byteAt (lo + i))
    else (s.mem.filter fun c => inside c.1).map fun c => (c.1 - lo, c.2)
  let t := s.zeroBasin Q
  let t := cells.foldl (fun u c => u.putByte (basinPA Q + c.1) c.2) t
  let kept := t.poison.filter fun a => !decide (basinPA Q ≤ a ∧ a < basinPA Q + basinSize)
  { t with poison := (s.poison.filter inside).foldl (fun l a => setIns (moveAddr P Q a) l) kept }

/-- Moves what waits on cluster `P` or on words of its basin to cluster `Q`. -/
def State.moveRefs (s : State) (P Q : Nat) : State :=
  let mv := moveAddr P Q
  let id_ := fun n => if n = P then Q else n
  let wait := fun (w : CWait) => match w with
    | .flag f => CWait.flag { f with pa := mv f.pa }
    | w => w
  { s with
    clusters := s.clusters.map fun c => (c.1, { c.2 with wait := wait c.2.wait })
    watches := s.watches.map fun w => match w.who with
      | .cluster n => { w with who := .cluster (id_ n) }
      | _ => w
    nmOps := s.nmOps.map fun o => { o with
      source := match o.source with
        | .cluster n run => .cluster (id_ n) run
        | x => x
      status := o.status.map mv
      flag := o.flag.map mv }
    fabric := { s.fabric with sent := s.fabric.sent.map fun r => match r.owner with
      | .cluster n run => { r with owner := .cluster (id_ n) run }
      | _ => r }
    barges := s.barges.map fun b => { b with work := match b.work with
      | .wait w => .wait { w with pa := mv w.pa }
      | .run w => .run { w with
          clusters := w.clusters.map id_
          live := w.live.map id_
          gate := w.gate.map fun g => { g with pa := mv g.pa }
          claims := w.claims.map fun c => (mv c.1, id_ c.2) }
      | w => w } }

/-- Sets SPARE_USED in the barge that ran on the cluster and in a solver barge that holds its reach (R593).
(DEDUCED, log entry 46.) -/
def State.spareNotes (s : State) (P : Nat) : State :=
  let run := (s.cl P).barge
  { s with barges := s.barges.map fun b =>
      if run = some (b.canal, b.seq) ∨ (b.begun ∧ b.executing ∧ b.native / 256 = 3 ∧ bitOf (b.f 39 32) (reachOfPhys P)) then
        { b with notes := b.notes ||| Note.spareUsed }
      else b }

/-- The register file, control words and issue log go to the spare, which goes on with what the failed cluster did; `hc`
counts the pause (R583). -/
def State.moveCluster (s : State) (x : Subst) (hc : Nat) : State :=
  let c := s.cl x.failed
  let t := ((s.unwatch (.cluster x.failed)).setCl x.spare { c with hc := c.hc + hc }).resume x.spare x.was
  t.setCl x.failed { c with act := if x.was = .stopped then .stopped else .idle, wait := .none, barge := none, mat := [] }

/-- Steps 3 to 5 of a substitution: the copy, and the registers of Table 1-11. (DEDUCED, log entry 46.) -/
def State.endSubst (s : State) (x : Subst) (hc : Nat) : State :=
  let r := reachOfPhys x.failed
  let slot := (s.logOfPhys x.failed).map (· % 8)
  let t := ((s.copyBasin x.failed x.spare).spareNotes x.failed).moveCluster x hc
  let t := t.moveRefs x.failed x.spare
  let t := (t.unitFailed x.failed x.bits x.cause).setFld (Reg.clusterUnitMap x.spare) F.CLUSTER_UNIT_MAP_STATE 0
  let t := (t.slotOut x.failed).setFld (Reg.reachMap r) F.REACH_MAP_SPARE_SLOT 0xF
  let t := match slot with
    | some k => t.mapSlot r k (slotOfPhys x.spare)
    | none => t
  let t : State := { t with subs := t.subs.filter fun y => y.failed != x.failed }
  (t.count Reg.mapGeneration 1).mapDone.yieldEnd fun y => y.cause == Ca.containment && y.site == r

/-- Completes the SPARE_SUBSTITUTE that asked for the substitution of a unit. -/
def State.spareDone (s : State) (kind unit taker : Nat) : State :=
  match s.barges.find? fun b => b.native == 0x901 && b.phase == .working && b.f 32 32 == kind && b.f 39 36 == unit with
  | some b => s.endBarge b.canal b.seq St.done taker 0
  | none => s

/-! ### Stacks, channels and near-memory engines (R275, R588) -/

/-- The map change of a lost stack: STATE 0b10, its engines disabled, the frames of the logbook that it held lost. -/
def State.stackChange (s : State) (st : Nat) (e : MapEvent) : State :=
  (s.mapChange (unitStack st) none 6 7 0 e fun u =>
    u.setFlds (Reg.stackMap st) [(F.STACK_MAP_STATE, 2), (F.STACK_MAP_CAUSE, e.cause), (F.STACK_MAP_NME_DISABLED, 0xFF)]).logLose

/-- A stack is degraded where it was whole. -/
def State.stackWorse (s : State) (st cause : Nat) : State :=
  if s.fld (Reg.stackMap st) F.STACK_MAP_STATE = 0 then
    s.setFlds (Reg.stackMap st) [(F.STACK_MAP_STATE, 1), (F.STACK_MAP_CAUSE, cause)]
  else s

/-- Does a near-memory engine count as failed? -/
def State.engineOut (s : State) (n : Nat) : Bool :=
  bitOf (s.fld (Reg.stackMap (n / 8)) F.STACK_MAP_NME_DISABLED) (n % 8) || s.awaits (.engine n)

/-- The map change of a near-memory engine that is disabled. -/
def State.engineChange (s : State) (n : Nat) (e : MapEvent) : State :=
  let a := Reg.stackMap (n / 8)
  if bitOf (s.fld a F.STACK_MAP_NME_DISABLED) (n % 8) then s
  else
    s.mapChange (unitNme n) none 3 7 0 e fun u =>
      (u.setFld a F.STACK_MAP_NME_DISABLED (u.fld a F.STACK_MAP_NME_DISABLED ||| 2 ^ (n % 8))).stackWorse (n / 8) e.cause

/-- The idle spare channel of a stack: 0 or 1. -/
def State.idleChannel (s : State) (st : Nat) : Option Nat :=
  let a := Reg.stackChannelMap st
  if s.fld a F.STACK_CHANNEL_MAP_SPARE0_FOR = 0xFF ∧ !s.flag a F.STACK_CHANNEL_MAP_SPARE0_FAILED then some 0
  else if s.fld a F.STACK_CHANNEL_MAP_SPARE1_FOR = 0xFF ∧ !s.flag a F.STACK_CHANNEL_MAP_SPARE1_FAILED then some 1
  else none

/-- The channel whose copy runs shows in STACK_STATUS. -/
def State.showCopy (s : State) (st : Nat) : State :=
  match s.copies.find? fun x => x.1 == st with
  | some x => s.setFlds (Reg.stackStatus st) [(F.STACK_STATUS_COPYING, 1), (F.STACK_STATUS_COPY_CH, x.2)]
  | none => s.setFld (Reg.stackStatus st) F.STACK_STATUS_COPYING 0

/-- Does a channel of a stack already count as failed or failing? Channels 32 and 33 are the spares (R303). -/
def State.channelOut (s : State) (st c : Nat) : Bool :=
  let a := Reg.stackChannelMap st
  s.awaits (.channel st c) ||
    if c = 32 then s.flag a F.STACK_CHANNEL_MAP_SPARE0_FAILED
    else if c = 33 then s.flag a F.STACK_CHANNEL_MAP_SPARE1_FAILED
    else bitOf (s.fld a F.STACK_CHANNEL_MAP_CH_FAILED) c

/-- The field that names what spare channel `i` serves. -/
def spareFor (i : Nat) : Fld := if i = 0 then F.STACK_CHANNEL_MAP_SPARE0_FOR else F.STACK_CHANNEL_MAP_SPARE1_FOR

/-- CHANNELS_SPARED as STACK_CHANNEL_MAP gives it (R303). -/
def State.countSpared (s : State) (st : Nat) : State :=
  let a := Reg.stackChannelMap st
  s.setFld (Reg.stackMap st) F.STACK_MAP_CHANNELS_SPARED
    (([0, 1].filter fun i => s.fld a (spareFor i) != 0xFF).length)

/-- Gives the lines of data channel `c` to the idle spare channel of its stack, or to none (R588). -/
def State.assignSpare (s : State) (st c cause : Nat) : State :=
  match s.idleChannel st with
  | some i => (s.setFld (Reg.stackChannelMap st) (spareFor i) c).countSpared st
  | none => (s.stackWorse st cause).countSpared st

/-- Marks a channel failed: a data channel, or a spare, which then serves none. -/
def State.markChannel (s : State) (st c : Nat) : State :=
  let a := Reg.stackChannelMap st
  if c < 32 then s.setFld a F.STACK_CHANNEL_MAP_CH_FAILED (s.fld a F.STACK_CHANNEL_MAP_CH_FAILED ||| 2 ^ c)
  else s.setFlds a [(if c = 32 then F.STACK_CHANNEL_MAP_SPARE0_FAILED else F.STACK_CHANNEL_MAP_SPARE1_FAILED, 1),
    (spareFor (c - 32), 0xFF)]

/-- The data channel whose lines a channel holds: its own, or those that a spare serves. -/
def State.servesFor (s : State) (st c : Nat) : Option Nat :=
  if c < 32 then some c
  else
    let v := s.fld (Reg.stackChannelMap st) (spareFor (c - 32))
    if v = 0xFF then none else some v

/-- The map change of a channel that fails or counts as failing: a spare channel takes its lines, or nothing serves them.
(DEDUCED, log entry 46.) -/
def State.channelChange (s : State) (st c : Nat) (e : MapEvent) : State :=
  match s.servesFor st c with
  | none => s.mapChange (unitChannel st c) none 3 7 0 e fun u => u.markChannel st c
  | some d =>
    match (s.markChannel st c).idleChannel st with
    | some i =>
      let t := s.mapChange (unitChannel st c) (some (unitChannel st (32 + i))) 3 (if e.kind = 0x0B then 5 else 4) 0 e fun u =>
        (u.markChannel st c).assignSpare st d e.cause
      ({ t with copies := t.copies.filter (· != (st, d)) ++ [(st, d)] } : State).showCopy st
    | none =>
      let t := s.mapChange (unitChannel st c) none 3 7 0 e fun u => (u.markChannel st c).assignSpare st d e.cause
      (({ t with copies := t.copies.filter (· != (st, d)) } : State).showCopy st).logLose

/-! ### Ports and F-dies (R499, R589, R590) -/

/-- The barges with outstanding traffic on a port take SPARE_USED when its traffic moves (R593). -/
def State.portNotes (s : State) (k : Nat) : State :=
  s.fabric.sent.foldl (fun t r =>
    if t.routePort r.pkt.dst ≠ some k then t
    else
      match r.owner with
      | .cluster _ (some (c, q)) => t.addNote c q Note.spareUsed
      | .slot i => match (t.slot? i).bind (·.run) with
        | some x => t.addNote x.canal x.seq Note.spareUsed
        | none => t
      | _ => t) s

/-- Is a port lost or substituted? -/
def State.portOut (s : State) (k : Nat) : Bool :=
  bitOf (s.fld (Reg.portMap (k / 9)) F.PORT_MAP_DISABLED) (k % 9) || s.fdieOut (k / 9) || s.awaits (.port k)

/-- The map registers of a port that fails: port 8 of its F-die takes its traffic, or the port is lost. -/
def State.markPort (s : State) (k cause : Nat) : State :=
  let f := k / 9
  let p := k % 9
  let a := Reg.portMap f
  let q := s.fld a F.PORT_MAP_SPARE_FOR
  let worse := fun (u : State) =>
    if u.fld a F.PORT_MAP_STATE = 0 then u.setFlds a [(F.PORT_MAP_STATE, 1), (F.PORT_MAP_CAUSE, cause)] else u
  let t := s.setFld a F.PORT_MAP_DISABLED (s.fld a F.PORT_MAP_DISABLED ||| 2 ^ p)
  if p = 8 then
    let t := t.setFld a F.PORT_MAP_SPARE_FOR 0xF
    if q < 8 then worse (t.setFld (Reg.portStatus (9 * f + q)) F.PORT_STATUS_SUBSTITUTED 0) else t
  else if q = 0xF ∧ !bitOf (s.fld a F.PORT_MAP_DISABLED) 8 then
    (t.setFld a F.PORT_MAP_SPARE_FOR p).setFld (Reg.portStatus k) F.PORT_STATUS_SUBSTITUTED 1
  else worse t

/-- The map change of a port that fails or is substituted. -/
def State.portChange (s : State) (k : Nat) (e : MapEvent) : State :=
  let f := k / 9
  let a := Reg.portMap f
  if s.fld a F.PORT_MAP_STATE = 2 then s
  else
    let spare := k % 9 != 8 && s.fld a F.PORT_MAP_SPARE_FOR == 0xF && !bitOf (s.fld a F.PORT_MAP_DISABLED) 8
    s.mapChange (unitPort k) (if spare then some (unitPort (9 * f + 8)) else none) 3 (if spare then 5 else 7) 0 e fun u =>
      u.markPort k e.cause

/-- Do the ranges of an operation lie on more than one C-die? -/
def NmEnv.crosses (v : NmEnv) : Bool :=
  decide (2 ≤ ((v.d.ranges.flatMap fun r => (lineSteps r.len).map fun k => v.s.dieOf (v.pa (r.la + k))).eraseDups).length)

/-- An F-die path fails: a running operation that reaches across C-dies issues the accesses that the F-die carried again, and
takes RETRIED (R340). Whether it had one on the way is a free value. (DESIGN CHOICE, log entry 65.) -/
def State.retryCross (s : State) : State :=
  s.nmOps.foldl (fun t o =>
    if o.done || !(s.nmEnv o).crosses then t
    else
      let (w, t) := t.draw
      if w.toNat % 2 = 1 then t.retryOps fun x => x.num == o.num else t) s

/-- A mismatch of an F-die's router pair or control: the first in 24 h resets the F-die, a second disables it. -/
def State.fdieFault (s : State) (f : Nat) : State :=
  if s.fdieOut f then s
  else
    let t := s.retryCross.noteFault (unitFdie f) 4 0
    if t.faultsIn (unitFdie f) 4 dayNs ≤ 1 then
      ((t.errRecord (unitFdie f) 4 6 9 none 0 0 0 t.now).resetFdie f).resetRecord (causeOf 0x09 6 (unitFdie f)) 6 (unitFdie f)
    else t

/-- The map registers of an F-die of STATE 0b10: its ports carry nothing, and its communicator slots move
(R39, R528, R589). (DEDUCED, log entry 46.) -/
def State.markFdie (s : State) (f cause : Nat) : State :=
  let t := s.setFlds (Reg.portMap f) [(F.PORT_MAP_STATE, 2), (F.PORT_MAP_CAUSE, cause), (F.PORT_MAP_DISABLED, 0x1FF),
    (F.PORT_MAP_SPARE_FOR, 0xF)]
  let t := t.setFld Reg.failopStatus (if f = 0 then F.FAILOP_STATUS_FDIE0_OUT else F.FAILOP_STATUS_FDIE1_OUT) 1
  let t := (List.range 9).foldl (fun u p => u.setFld (Reg.portStatus (9 * f + p)) F.PORT_STATUS_SUBSTITUTED 0) t
  (List.range 64).foldl (fun u k =>
    if u.slotState k = 0 then u else u.setFld (Reg.commState k) F.COMM_STATE_FDIE (u.slotFdie k)) t

/-- The map change of an F-die that is disabled (R589). -/
def State.fdieChange (s : State) (f : Nat) (e : MapEvent) : State :=
  s.mapChange (unitFdie f) none 6 7 0 e fun u => u.markFdie f e.cause

/-! ### A unit fails (R31, R578, R599) -/

/-- Does a unit count as failed already, or does its failure wait? -/
def State.failed (s : State) (u : Failing) : Bool :=
  match u with
  | .cluster P _ => s.fld (Reg.clusterUnitMap P) F.CLUSTER_UNIT_MAP_STATE == 2 || s.reachOut (reachOfPhys P) ||
      s.subs.any (·.failed == P) || s.mapWait.any fun e => match e.what with
        | .cluster Q _ => Q == P
        | _ => false
  | .reach r _ => s.reachOut r
  | .stack st => s.stackLost st
  | .engine n => s.engineOut n
  | .channel st c => s.channelOut st c
  | .port k => s.portOut k
  | .fdie f => s.fdieOut f

/-- What a failure stops at its detection, before its map change. -/
def State.contain (s : State) (u : Failing) : State :=
  match u with
  | .cluster P _ => s.modCl P fun c => { c with act := .paused }
  | .reach r _ => s.stopReach r
  | .port k =>
    let t := s.portNotes k
    if t.linked k then t.linkDown k 3 else t
  | .fdie f => (List.range 9).foldl (fun u p => u.linkDown (9 * f + p) 5) (s.retryCross.resetFdie f)
  | _ => s

/-- Makes the map change of a failure. -/
def State.meetEvent (s : State) (e : MapEvent) : State :=
  match e.what with
  | .cluster P bits => s.clusterChange P bits e
  | .reach r part => if s.fld (Reg.reachMap r) F.REACH_MAP_STATE = 2 then s else s.reachLost r part e
  | .stack st => s.stackChange st e
  | .engine n => s.engineChange n e
  | .channel st c => s.channelChange st c e
  | .port k => s.portChange k e
  | .fdie f => s.fdieChange f e

/-- A unit fails (R578). What it stops, it stops at once; its map change waits while a substitution is in progress, since
changes are made one at a time in the order of their entries (R31). (DEDUCED, log entry 46.) -/
def State.unitFail (s : State) (what : Failing) (cause kind : Nat) : State :=
  if s.failed what then s
  else
    let was := match what with
      | .cluster P _ => (s.cl P).act
      | _ => .idle
    let e : MapEvent := ⟨what, cause, kind, s.now, was⟩
    let t := s.contain what
    if t.subs.isEmpty then t.meetEvent e else { t with mapWait := t.mapWait ++ [e] }

/-- Makes the map changes that waited, until one of them begins a substitution (R599). -/
def State.meetWaiting (s : State) : Nat → State
  | 0 => s
  | n + 1 =>
    if !s.subs.isEmpty then s
    else
      match s.mapWait with
      | [] => s
      | e :: l => (({ s with mapWait := l } : State).meetEvent e).meetWaiting n

/-- A physical cluster fails: `bits` are those of its CLUSTER_UNIT_MAP entry, `kind` that of the error record. -/
def State.clusterFail (s : State) (P bits cause kind : Nat) : State := s.unitFail (.cluster P bits) cause kind

/-- Reach `r` fails whole; `part` is 1 for its solver sequencer, 2 for its crossbar. -/
def State.reachDown (s : State) (r kind cause part : Nat) : State := s.unitFail (.reach r part) cause kind

/-- Stack `st` is lost. -/
def State.stackDown (s : State) (st kind cause : Nat) : State := s.unitFail (.stack st) cause kind

/-- A near-memory engine fails; the operations with units that it had not completed take RETRIED (R340). -/
def State.nmeFail (s : State) (n : Nat) (ops : List Nat) : State :=
  if s.engineOut n then s else (s.retryOps fun o => ops.contains o.num).unitFail (.engine n) 3 3

/-- A channel of a stack fails or counts as failing. -/
def State.channelFail (s : State) (st c cause kind : Nat) : State := s.unitFail (.channel st c) cause kind

/-- A port fails or is substituted. -/
def State.portFail (s : State) (k cause kind : Nat) : State := s.unitFail (.port k) cause kind

/-- An F-die is disabled (R589). -/
def State.fdieDown (s : State) (f kind : Nat) : State := s.unitFail (.fdie f) 3 kind

/-- The failure of an F-die's lockstep. -/
def State.fdieFail (s : State) (f : Nat) : State :=
  let t := s.fdieFault f
  if t.faultsIn (unitFdie f) 4 dayNs ≤ 1 then t else t.fdieDown f 4

/-- Step 6 of a substitution: the spare goes on, and the failures that waited for it are met (R599).
(DEDUCED, log entry 46.) -/
def execSubstitutionResume (p : Fin 576) (hc : Nat) (s : State) : Res State :=
  s.goDieOn (p.val / 144) <|
    match s.subs.find? fun x => x.failed == p.val with
    | none => s
    | some x => ((s.endSubst x hc).spareDone 1 x.failed x.spare).meetWaiting (s.mapWait.length + 1)

/-! ### The P-dies (R595) -/

/-- The failure of a P-die is counted; a second one in 24 h disables it. -/
def State.pdieFails (s : State) (k : Nat) : Nat := s.faultsIn (unitPdie k) 8 dayNs

/-- The reset of P-die `k` that a failure of it brings, at level 6. -/
def State.pdieFall (s : State) (k : Nat) : State :=
  (s.clearPdie k).resetRecord (causeOf 0x08 6 (unitPdie k)) 6 (unitPdie k)

/-- P-die `k`, which its failure has reset, stays out (Table 20-2). -/
def State.pdieGone (s : State) (k : Nat) : State :=
  ({ s with inService := s.inService ++ [⟨unitPdie k, 3, 0⟩] } : State).noStandby k 3 2

/-- P-die `k` is disabled (Table 20-2). -/
def State.pdieOut (s : State) (k : Nat) : State := (s.pdieFall k).pdieGone k

/-- The standby P-die fails. -/
def State.standbyFail (s : State) (k kind : Nat) : State :=
  let t := s.noteFault (unitPdie k) 8 0
  if t.pdieFails k ≤ 1 then
    (t.errRecord (unitPdie k) kind 6 9 none 0 0 0 t.now).resetStandby k 0x08 2
  else
    (t.errRecord (unitPdie k) kind 6 7 none 0 0 0 t.now).pdieOut k

/-- The active P-die fails: the standby in sync takes over and the failed P-die is reset at level 6, steps 1 to 3 of Table 20-6.
With no standby in sync, the failed P-die is reset and boots again; at its second failure in 24 h it is disabled, and the other
P-die becomes active where it has booted and synchronises. (DEDUCED, log entry 46.) -/
def State.takeover (s : State) (kind : Nat) : State :=
  let k := s.activePdie
  let t := s.noteFault (unitPdie k) 8 0
  if !t.inSync && decide (2 ≤ t.pdieFails k) then
    let t := t.errRecord (unitPdie k) kind 6 7 none 0 0 0 t.now
    if t.fld Reg.failopStatus F.FAILOP_STATUS_STANDBY = 1 then (t.swapRoles 2).pdieOut k else t.pdieOut k
  else if !t.inSync then
    let t := ((t.errRecord (unitPdie k) kind 6 9 none 0 0 0 t.now).pdieFall k).logBoot 6
    match t.pickRoast k with
    | some (r, slot, peer, idx) => ((t.startRoast k r).bootDone k slot peer false idx).rebaseAll
    | none => t.bootStop k 4
  else
    let t := t.setFld Reg.logStatus F.LOG_STATUS_SINGLE 1
    let t := t.swapRoles 2
    let t := t.errRecord (unitPdie k) kind 6 8 none (t.log.next - 1) 0 0 t.now
    ((t.pdieFall k).setRole k 2 2).setFlds Reg.failopStatus [(F.FAILOP_STATUS_STANDBY, 2), (F.FAILOP_STATUS_TAKING_OVER, 1)]

/-- The new active P-die goes on (steps 4 and 5 of Table 20-6): the failed one boots and becomes the standby, or is disabled.
(DESIGN CHOICE, log entry 46.) -/
def State.endTakeover (s : State) : State :=
  let k := 1 - s.activePdie
  let t := s.setFld Reg.failopStatus F.FAILOP_STATUS_TAKING_OVER 0
  if t.pdieFails k ≤ 1 then t.bootStandby k 2 else t.pdieGone k

/-- The standby misses three heartbeats of the active P-die. -/
def execHeartbeatMiss (s : State) : Res State := s.go (s.takeover 8)

/-- The watchdog of the active P-die expires. -/
def execWatchdogExpiry (s : State) : Res State := s.go (s.takeover 8)

/-! ### Thresholds of the memories (Table 20-2) -/

/-- The events of a kind on a unit in the last `window` ns. -/
def State.eventsOf (s : State) (unit kind window : Nat) : List FaultEvent :=
  s.errs.events.filter fun e => e.unit == unit && e.kind == kind && decide (s.now < e.time + window)

/-- The pseudo-channel, bank and row of the line at which an event fell: two rows are distinct where these differ
(Table 20-2). (DESIGN CHOICE, log entry 47.) -/
def State.rowOf (s : State) (e : FaultEvent) : Nat := s.dramPlace (e.place * 128) / 64

/-- The events of a list that come after the last repair of a row of a channel. -/
def afterRepair (u row : Nat) (l : List FaultEvent) : List FaultEvent :=
  l.foldl (fun m e => if e.unit == u && e.kind == 0x20 && e.place == row then [] else m ++ [e]) []

/-- Repairs the rows of a channel in which three corrected errors fell in 24 h (R287), those before the row's last repair
left out. An event of kind 0x20 marks a row repaired; the channel counts as failing where its bank has no repair row left.
(DESIGN CHOICE, log entry 47.) -/
def State.repairRows (s : State) (st c : Nat) : State :=
  let u := unitChannel st c
  let es := s.eventsOf u 1 dayNs
  let done := s.errs.events.filter fun e => e.unit == u && e.kind == 0x20
  let rows := (es.map s.rowOf).eraseDups
  rows.foldl (fun t row =>
    let new := (afterRepair u row s.errs.events).filter es.contains
    if (new.filter fun e => s.rowOf e == row).length < 3 then t
    else if Config.noRepairRow row done.length then t.channelFail st c 3 1
    else
      let (w, t) := t.draw
      ((t.noteFault u 0x20 row).satAdd (Reg.stackEccCount st) F.STACK_ECC_COUNT_ROWS_REPAIRED 1).errRecord
        u 1 3 3 none 0 0 (w.toNat + (c + row * 64) * 2 ^ 64) t.now) s

/-- The bank of a basin that holds the line of an event, offset bits [10:7] (R73); `place` is its physical line. -/
def basinBank (place : Nat) : Nat := bitsOf (place * 128 % basinSize) 10 7

/-- Meets the thresholds of one unit that events name. -/
def State.retireUnit (s : State) (u : Nat) : State :=
  if u / 2 ^ 24 = 1 then
    let P := u % 2 ^ 24
    let file := fun (e : FaultEvent) => decide (regPlace ≤ e.place ∧ e.place < cachePlace)
    let bank := fun (b : Nat) (e : FaultEvent) => decide (e.place < regPlace) && basinBank e.place == b
    let hit := (List.range 16).find? fun b =>
      decide (2 ≤ ((s.eventsOf u 2 dayNs).filter (bank b)).length) ||
        decide (1000 ≤ ((s.eventsOf u 1 hourNs).filter (bank b)).length)
    match hit with
    | some b => s.clusterFail P (2 ^ (16 + b)) 3 (if 2 ≤ ((s.eventsOf u 2 dayNs).filter (bank b)).length then 2 else 1)
    | none =>
      if (s.eventsOf u 2 dayNs).any file then s.clusterFail P 1 3 2
      else if 100 ≤ ((s.eventsOf u 1 hourNs).filter file).length then s.clusterFail P 1 3 1
      else s
  else if u / 2 ^ 24 = 2 then
    let st := u % 2 ^ 24 / 34
    let c := u % 2 ^ 24 % 34
    if s.channelOut st c then s
    else if 2 ≤ (((s.eventsOf u 2 dayNs).map s.rowOf).eraseDups).length then s.channelFail st c 3 2
    else if 10000 ≤ (s.eventsOf u 1 dayNs).length then s.channelFail st c 3 1
    else s.repairRows st c
  else s

/-- Meets the thresholds of every unit that has had memory errors. (DESIGN CHOICE, log entries 2 and 47.) -/
def State.retireDue (s : State) : State := ((s.errs.events.map (·.unit)).eraseDups).foldl State.retireUnit s

/-! ### Residue and lockstep mismatches (R577) -/

/-- Notes a recomputation of an engine, with its error record. (DEDUCED, log entry 46.) -/
def State.recompute (s : State) (unit place : Nat) : State :=
  let t := s.noteFault unit 3 place
  t.errRecord unit 3 2 2 (t.unitPart unit) 0 0 0 t.now

/-- Has an engine recomputed 16 times in an hour? -/
def State.recomputedOften (s : State) (unit place : Nat) : Bool :=
  decide (16 ≤ ((s.eventsOf unit 3 hourNs).filter fun e => e.place == place).length)

/-- The barges that use the engines of cluster `P` take RETRIED: the cargo that it runs, and a solver barge that holds its
reach (R577). -/
def State.retriedOn (s : State) (P : Nat) : State :=
  let run := (s.cl P).barge
  { s with barges := s.barges.map fun b =>
      if run = some (b.canal, b.seq) ∨ (b.begun ∧ b.executing ∧ b.native / 256 = 3 ∧ bitOf (b.f 39 32) (reachOfPhys P)) then
        { b with notes := b.notes ||| Note.retried }
      else b }

/-- A residue check fails in an engine of cluster `P`, whose CLUSTER_UNIT_MAP bit is `bit`. -/
def State.clusterResidue (s : State) (P bit : Nat) (again : Bool) : State :=
  let t := (s.recompute (unitCluster P) bit).retriedOn P
  if again || t.recomputedOften (unitCluster P) bit then t.clusterFail P (2 ^ bit) 3 3 else t

/-- A residue check fails: the group is computed again once; `again` says that it fails again. -/
def execResidueMismatch (w : ResidueAt) (again : Bool) (s : State) : Res State :=
  match w with
  | .matrix p => s.goDie (p.val / 144) (s.clusterResidue p.val 3 again)
  | .vector p => s.goDie (p.val / 144) (s.clusterResidue p.val 2 again)
  | .near e ops =>
    s.goStack (e.val / 8) (
      let t := (s.recompute (unitNme e.val) 0).retryOps fun o => ops.contains o.num
      if again || t.recomputedOften (unitNme e.val) 0 then t.nmeFail e.val ops else t)

/-- Duplicated logic disagrees: the engine fails. -/
def execLockstepMismatch (w : LockstepAt) (s : State) : Res State :=
  match w with
  | .sequencer p => s.goDie (p.val / 144) (s.clusterFail p.val 2 3 4)
  | .solver r => s.goDie (r.val / 16) (s.reachDown r.val 4 3 1)
  | .crossbar r => s.goDie (r.val / 16) (s.reachDown r.val 4 3 2)
  | .fdie f => s.go (s.fdieFail f.val)
  | .base st => s.goStack st.val (s.stackDown st.val 4 3)
  | .pdie k => s.go (if k.val = s.activePdie then s.takeover 4 else s.standbyFail k.val 4)

/-! ### Links inside the package (R591, R592) -/

/-- The towpath stations (R19): P-die `k`, C-die `d`, stack `st`, F-die `f`. -/
def stPdie (k : Nat) : Nat := if k = 0 then 0 else 39

def stCdie (d : Nat) : Nat := 1 + 9 * d + d / 2

def stStack (st : Nat) : Nat := stCdie (st / 8) + 1 + st % 8

def stFdie (f : Nat) : Nat := if f = 0 then 19 else 38

/-- The pairs of stations that a management transaction can pass between: unbroken segments, and those links of Table 1-2
that carry rerouted ones, a stack being reached through its C-die (R592). -/
def State.towEdges (s : State) : List (Nat × Nat) :=
  let h := s.health
  let ring := ((List.range 40).filter fun i => !h.towOut.contains i).map fun i => (i, (i + 1) % 40)
  let link := fun (l a b : Nat) => if h.linksOut.contains l then [] else [(a, b)]
  ring ++ (List.range 32).flatMap (fun st => link st (stCdie (st / 8)) (stStack st)) ++
    (List.range 8).flatMap (fun i => link (40 + i) (stCdie (i / 2)) (stPdie (i % 2))) ++
    (List.range 4).flatMap (fun i => link (48 + i) (stFdie (i / 2)) (stPdie (i % 2))) ++ link 53 (stPdie 0) (stPdie 1)

/-- The stations that `n` rounds of steps over pairs add to those of `seen`. -/
def reachVia (edges : List (Nat × Nat)) : Nat → List Nat → List Nat
  | 0, seen => seen
  | n + 1, seen => reachVia edges n (edges.foldl (fun l e =>
      if l.contains e.1 then setIns e.2 l else if l.contains e.2 then setIns e.1 l else l) seen)

/-- The stations that the active P-die reaches. -/
def State.stations (s : State) : List Nat := reachVia s.towEdges 40 [stPdie s.activePdie]

/-- The stations that a loss has cut off count as failed (R592): an F-die, a stack and the standby P-die as such, a C-die
with every reach of it. `kind` is that of the loss. (DEDUCED, log entry 46.) -/
def State.cutStations (s was : State) (kind : Nat) : State :=
  if s.health.towOut.length < 2 then s
  else
    let left := s.stations
    let cut := was.stations.filter fun n => !left.contains n
    let lost := fun (n : Nat) => cut.contains n
    let t := ((List.range 2).filter fun f => lost (stFdie f)).foldl (fun u f => u.fdieDown f kind) s
    let t := ((List.range 32).filter fun st => lost (stStack st)).foldl (fun u st => u.stackDown st kind 3) t
    let t := ((List.range 64).filter fun r => lost (stCdie (r / 16))).foldl (fun u r => u.reachDown r kind 3 0) t
    if lost (stPdie (1 - s.activePdie)) then t.standbyFail (1 - s.activePdie) kind else t

/-- A die-to-die link is lost, numbered in the order of Table 1-2; `ops` are the near-memory operations with an access
on it (R340). -/
def execDieLinkLost (l : Fin 54) (ops : List Nat) (s : State) : Res State :=
  s.go <|
    if s.health.linksOut.contains l.val then s
    else
      let t : State := { s with health := { s.health with linksOut := s.health.linksOut ++ [l.val] } }
      let t := (t.errRecord (unitDieLink l.val) 5 7 7 none 0 0 0 t.now).cutStations s 5
      if l.val < 32 then t.stackDown l.val 5 3
      else if l.val < 40 then t.retryOps fun o => ops.contains o.num
      else if l.val = 53 then
        (t.setFld Reg.failopStatus F.FAILOP_STATUS_STANDBY 2).setFld Reg.logStatus F.LOG_STATUS_SINGLE 1
      else t

/-- A towpath segment breaks. -/
def execTowpathBreak (g : Fin 40) (s : State) : Res State :=
  s.go <|
    if s.health.towOut.contains g.val then s
    else
      let t : State := { s with health := { s.health with towOut := setIns g.val s.health.towOut } }
      ((t.setFld Reg.failopStatus F.FAILOP_STATUS_TOWPATH_BREAKS (min t.health.towOut.length 3)).errRecord
        (unitTowpath g.val) 0x0A 7 6 none 0 0 0 t.now).cutStations s 0x0A

/-! ### Power (R663 to R665) -/

/-- A power module under the package's control fails: the units that it feeds have failed. (DESIGN CHOICE, log entry 61.) -/
def execRailFault (r : Rail) (s : State) : Res State :=
  let reaches := fun (d : Nat) (t : State) => (reachesOfDie d).foldl (fun u r => u.reachDown r 4 3 0) t
  match r with
  | .vcore d => s.goDie d.val (reaches d.val s)
  | .vunc d => s.goDie d.val ((List.range 8).foldl (fun u i => u.stackDown (8 * d.val + i) 5 3) (reaches d.val s))
  | .vfab f | .vser f | .vserh f => s.go (s.fdieDown f.val 4)

/-- VCORE of a C-die falls below 0.55 V: what the die does is void until its next level-6 reset.
(DESIGN CHOICE, log entries 7 and 61.) -/
def execVcoreUndervolt (d : Fin 4) (s : State) : Res State :=
  s.go { s with health := { s.health with voidDies := setIns d.val s.health.voidDies } }

/-- Board rail `n` leaves its operating range, where RESET_N is high, or is raised or removed out of order (R665, R668). The
rails that feed the stacks of a C-die are 0 to 3, any other is 4, and 5 one that breaks the order of Table 24-5 or 24-6. -/
def Health.railLost (h : Health) (low : Bool) (n : Nat) : Health :=
  if n < 5 ∧ low = true then h
  else if n < 4 then { h with stackOut := setIns n h.stackOut }
  else { h with railOut := true }

/-- A board rail leaves its operating range while RESET_N is high, or is raised or removed out of order: nothing is promised
of the units it feeds, or of the package, until a cold reset (R665, R668). The row does not say which rail: it is a free
value. (DESIGN CHOICE, log entries 6 and 61.) -/
def execBoardRailOutOfRange (s : State) : Res State :=
  s.go <|
    let (w, t) := s.draw
    { t with health := t.health.railLost t.tap.low (w.toNat % 6) }

/-! ### The barges of service (R417 to R419) -/

/-- SPARE_SUBSTITUTE: it waits while a substitution is in progress, since map changes are made one at a time (R31).
(DEDUCED, log entry 46.) -/
def execSpareSubstitute (c : Fin 256) (q : Nat) (s : State) : Res State :=
  s.work c.val q [0x901] fun b t =>
    if !t.subs.isEmpty then t else
    let kind := b.f 32 32
    let u := b.f 39 36
    let r := reachOfPhys u
    let pm := Reg.portMap (u / 9)
    let named :=
      if kind = 1 then decide (u < 576) && t.fld (Reg.clusterUnitMap u) F.CLUSTER_UNIT_MAP_STATE == 0 && !t.reachOut r
      else if kind = 2 then decide (u < 1024) && t.fld (Reg.stackMap (u / 32)) F.STACK_MAP_STATE != 2 &&
        !t.channelOut (u / 32) (u % 32)
      else kind == 3 && decide (u < 18 ∧ u % 9 < 8) && t.fld pm F.PORT_MAP_STATE != 2 && !bitOf (t.fld pm F.PORT_MAP_DISABLED) (u % 9)
    let spare :=
      if kind = 1 then (t.idleSpare r).isSome
      else if kind = 2 then (t.idleChannel (u / 32)).isSome
      else t.fld pm F.PORT_MAP_SPARE_FOR == 0xF && !bitOf (t.fld pm F.PORT_MAP_DISABLED) 8
    t.checked b [(!b.reservedZero [(35, 33), (127, 40)], St.malformed, 0), (!named, 0x0911, 0), (!spare, 0x0901, 0)] fun t =>
      if kind = 1 then (t.working b.canal b.seq id).clusterFail u 0 4 0x0B
      else if kind = 2 then
        let i := (t.idleChannel (u / 32)).getD 0
        (t.channelFail (u / 32) (u % 32) 4 0x0B).endBarge b.canal b.seq St.done (u / 32 * 34 + 32 + i) 0
      else (t.portFail u 4 0x0B).endBarge b.canal b.seq St.done (u / 9 * 9 + 8) 0

/-- What failed in slot `k`, as bits of CLUSTER_UNIT_MAP. (DESIGN CHOICE, log entry 44.) -/
def cuppingBits (x : Cupping) (k : Nat) : Nat :=
  let n := ((x.parts.find? fun p => p.1 == k).map (·.2.toNat)).getD 0
  n / 16 * 2 ^ 16 + n % 16

/-- Do the figures of a cupping miss a limit of Table 2-6? -/
def cupMisses (x : Cupping) : Bool :=
  decide (x.margin.toNat < 50 ∨ x.rate.toNat < 1660 ∨ 32 < x.arb.toNat ∨ 50 < x.cal.toNat)

/-- The slots that fail a cupping. -/
def cupBad (x : Cupping) : Nat := if cupMisses x then x.slots % 512 else 0

/-- Does the reach fail: a limit is missed in the solver sequencer, the crossbar or the monitors, or in no slot (R57)? -/
def cupWhole (x : Cupping) : Bool :=
  cupMisses x && (x.slots % 512 == 0 || x.part % 4 != 0 || decide (50 < x.cal.toNat))

/-- A cupping that no limit fails, its figures drawn from a free value. -/
def passingCup (n : Nat) : Cupping :=
  { margin := BitVec.ofNat 16 (50 + n / 2 ^ 16 % (2 ^ 16 - 50)), rate := BitVec.ofNat 16 (1660 + n / 2 ^ 32 % (2 ^ 16 - 1660))
    arb := BitVec.ofNat 8 (n / 2 ^ 48 % 33) }

/-- CUPPING_RESULT of a cupping (R62). -/
def State.showCup (s : State) (r : Nat) (x : Cupping) : State :=
  let a := Reg.cuppingResult r
  let st := if cupWhole x then 3 else if cupBad x = 0 then 1 else 2
  (s.setFlds a [(F.CUPPING_RESULT_STATUS, st), (F.CUPPING_RESULT_FAILED_SLOTS, cupBad x),
    (F.CUPPING_RESULT_MARGIN, x.margin.toNat), (F.CUPPING_RESULT_PACED_RATE, x.rate.toNat),
    (F.CUPPING_RESULT_ARB_WORST, x.arb.toNat)]).satAdd a F.CUPPING_RESULT_RUNS 1

/-- The result of one cupping of a reach, and its failures handled as failed in service (R57). -/
def State.cup (s : State) (r : Nat) (x : Cupping) : State :=
  let t := s.showCup r x
  if cupWhole x then t.reachDown r 9 3 x.part
  else (setBits 9 (cupBad x)).foldl (fun u k => u.clusterFail (physOf r k) (cuppingBits x k) 3 9) t

/-- A reach's cupping where `cup` lists its figures; else it passes with free ones. -/
def State.cupReach (s : State) (cup : List (Nat × Cupping)) (r : Nat) : State :=
  match (cup.find? fun x => x.1 == r).map (·.2) with
  | some x => s.cup r x
  | none =>
    let (w, t) := s.draw
    t.cup r (passingCup w.toNat)

/-- The barge of a DIAG_CUPPING whose work has not ended. -/
def State.cupping? (s : State) (c q : Nat) : Option Barge :=
  (s.barge? c q).bind fun b => if b.native == 0x900 && b.executing then some b else none

/-- Is a reach being cupped now? -/
def State.cupRuns (s : State) (r : Nat) : Bool := s.fld (Reg.cuppingResult r) F.CUPPING_RESULT_STATUS == 4

/-- The cupping of a reach begins. -/
def State.cupBegin (s : State) (r : Nat) : State := s.setFld (Reg.cuppingResult r) F.CUPPING_RESULT_STATUS 4

/-- On each C-die the reach of a list that is being cupped is done, and the next one above it begins (R417). -/
def State.cupOn (s : State) (rs : List Nat) (cup : List (Nat × Cupping)) : State :=
  (rs.filter s.cupRuns).foldl (fun t r =>
    let t := t.cupReach cup r
    match rs.find? fun x => decide (r < x) && x / 16 == r / 16 with
    | some x => t.cupBegin x
    | none => t) s

/-- The lowest reach of a list on each C-die. -/
def firstOnDies (rs : List Nat) : List Nat := (List.range 4).filterMap fun d => rs.find? fun r => r / 16 == d

/-- DIAG_CUPPING (R417): its checks, a wait until every named reach is quiescent, and the cupping, on each C-die one reach at a
time in ascending number; each further offer of the row ends those that run, with the figures `cup`, and the last one the barge.
(DEDUCED, log entry 46.) -/
def execDiagCupping (c : Fin 256) (q : Nat) (cup : List (Nat × Cupping)) (s : State) : Res State :=
  s.go <| match s.cupping? c.val q with
    | none => s
    | some b =>
      let rs := setBits 64 (b.f 39 32)
      let cp := s.canalPart b.canal
      if b.phase = .working then
        let t := s.cupOn rs cup
        let bad := rs.filter fun r => t.fld (Reg.cuppingResult r) F.CUPPING_RESULT_STATUS != 1
        if rs.any t.cupRuns then t
        else t.endBarge b.canal b.seq (if bad.isEmpty then St.done else 0x0910) (maskOf bad) 0
      else
        s.checked b [(!b.reservedZero [(127, 40)] || rs.isEmpty, St.malformed, 0),
          (cp.isSome && rs.any (fun r => s.reachPart r != cp), St.notPermitted, 0),
          (rs.any fun r => s.reachGone r || s.reachRuns r || s.reachArmed r, St.noResource, 0)] fun t =>
          if rs.any fun r => !t.reachStill r || t.subs.any fun x => reachOfPhys x.failed == r then t
          else (firstOnDies rs).foldl State.cupBegin (t.working b.canal b.seq id)

/-- ERR_QUERY: copies the retained error records of its scope from SINCE on. -/
def execErrQuery (c : Fin 256) (q : Nat) (x : Contest) (s : State) : Res State :=
  s.work c.val q [0x902] fun b t =>
    let bp := b.part
    let base := b.f 39 32
    let n := b.f 43 40
    let scope := b.f 44 44
    let since := b.f 55 48
    let sysc := (t.canalPart b.canal).isNone
    let af := t.bufferFault bp base (64 * n) 128
    t.checked b [(!b.reservedZero [(47, 45), (127, 56)], St.malformed, 0),
      (scope == 1 && !sysc, St.notPermitted, 0),
      (decide (2 ≤ scope ∨ n = 0 ∨ 65536 < n), St.malformed, 0),
      (af.isSome, 0x0912, af.getD 0)] fun t =>
      let out := (t.errs.recs.filter fun r => decide (since ≤ r.number) && (scope == 1 || r.part == some bp)).take n
      let t := ((t.execContest b (t.touches bp base (64 * n) true) x).useRange (some (b.canal, b.seq)) t.maps bp base (64 * n)).storeLocal t.maps bp base (out.flatMap ErrRec.bytes)
      t.finish b.canal b.seq St.done (((out.getLast?).map (·.number + 1)).getD since) out.length

/-! ### Refresh and scrubbing (R286, R335 to R337, R275) -/

/-- A refresh changes timing only. -/
def execRefresh (st : Fin 32) (s : State) : Res State := s.goStack st.val s

/-- Refresh management changes timing only. -/
def execRefreshManagement (st : Fin 32) (s : State) : Res State := s.goStack st.val s

/-- The physical address of a stack line (the inverse of R278). -/
def State.lineAddr (s : State) (st sla : Nat) : Nat :=
  let g := sla / 2 ^ 20
  let x := sla % 2 ^ 20
  if s.packageWide g then
    let m := x * 32
    let lo := Nat.xor (Nat.xor st (bitsOf m 9 5)) (bitsOf m 14 10)
    g * 2 ^ 32 + (m + lo) * 128
  else
    let l := x * 8
    let lo := Nat.xor (Nat.xor (st % 8) (bitsOf l 5 3)) (bitsOf l 8 6)
    g * 2 ^ 32 + st / 8 * 2 ^ 30 + (l + lo) * 128

/-- The next line of a stack's scrub pass; `half` is the sector in which the error lies. -/
def State.scrubLine (s : State) (st half : Nat) (ecc : Ecc) : State :=
  if !s.flag (Reg.scrubCtrl st) F.SCRUB_CTRL_ENABLE ∨ s.fld (Reg.stackMap st) F.STACK_MAP_STATE = 2 then s
  else
    let a := Reg.scrubStatus st
    let sla := s.fld a F.SCRUB_STATUS_NEXT_SLA
    let t := s.meetEcc ecc (s.lineAddr st sla + 64 * half)
    if sla + 1 = 2 ^ 30 then (t.setFld a F.SCRUB_STATUS_NEXT_SLA 0).satAdd a F.SCRUB_STATUS_PASSES 1
    else t.setFld a F.SCRUB_STATUS_NEXT_SLA (sla + 1)

/-- The base die reads the next line of its pass; what the error counts lead to follows at once. -/
def execPatrolScrub (st : Fin 32) (half : Fin 2) (ecc : Ecc) (s : State) : Res State :=
  s.goStack st.val ((s.scrubLine st.val half.val ecc).retireDue)

/-- In S4 the stack leaves self-refresh for a burst of scrubbing and returns to it. -/
def execSelfRefreshScrubBurst (st : Fin 32) (lines : List (Fin 2 × Ecc)) (s : State) : Res State :=
  s.goStack st.val <|
    if s.fld Reg.weirStatus F.WEIR_STATUS_STATE = 4 ∧ s.flag (Reg.stackStatus st.val) F.STACK_STATUS_SELF_REFRESH then
      (lines.foldl (fun t e => t.scrubLine st.val e.1.val e.2) s).retireDue
    else s

/-- The band of a DRAM temperature (Table 9-5): up at a threshold, down 3 °C below it. -/
def refreshBand (band temp : Nat) : Nat :=
  let up := if 95 < temp then 2 else if 85 < temp then 1 else 0
  if band ≤ up then up
  else if band = 2 ∧ 92 < temp then 2
  else if 82 < temp then 1
  else 0

/-- A new DRAM temperature: the band follows it, and in S4 the stack leaves self-refresh above 85 °C (R337). -/
def execRefreshBandChange (st : Fin 32) (temp : BitVec 8) (s : State) : Res State :=
  let a := Reg.stackStatus st.val
  s.goStack st.val (
    let band := refreshBand (s.fld a F.STACK_STATUS_REFRESH_BAND) temp.toNat
    let t := s.setFlds a [(F.STACK_STATUS_DRAM_TEMP, temp.toNat), (F.STACK_STATUS_REFRESH_BAND, band)]
    if t.fld Reg.weirStatus F.WEIR_STATUS_STATE = 4 then t.setFld a F.STACK_STATUS_SELF_REFRESH (b2n (band == 0)) else t)

/-- The copy of a channel into its spare is complete. -/
def execChannelCopyComplete (st : Fin 32) (s : State) : Res State :=
  s.goStack st.val <|
    match s.copies.find? fun x => x.1 == st.val with
    | none => s
    | some x =>
      let t : State := { s with
        barges := s.barges.map s.copyNote
        copies := s.copies.filter (· != x) }
      (t.showCopy st.val).retireDue

end Sys2Proof.Machine
end

