-- ==== Sys2Proof/Machine/Weir.lean ====
section
/-! DEFINITION. The weir (R437 to R470): the budget and its updates, VCORE, the responses to heat, retained reaches, the
sleep states, the domain barges and WEIR_SET; and the interleave mode of memory (R280). -/

namespace Sys2Proof.Machine

/-! ### VCORE of a die -/

/-- The paced reaches of a die leave paced mode as on loss of lock (R47). -/
def State.dropPace (s : State) (d cause : Nat) : State :=
  (reachesOfDie d).foldl (fun u r => u.losePace r cause) (s.setFld (Reg.vcoreStatus d) F.VCORE_STATUS_PACE_FLOOR 0)

/-- Lowers VCORE of a die; below the paced floor its paced reaches leave paced mode, and a class 2 partition's timing
yields with `cause` (R444, Table 15-4, Table 16-4). (DEDUCED, log entry 49.) -/
def State.lowerVcore (s : State) (d v cause : Nat) (f : Fld) : State :=
  let a := Reg.vcoreStatus d
  let t := ((s.setVcore d (min (s.vcore d) v)).setFld a f 1).throttleDie d
  if t.vcore d < t.paceFloor d ∧ t.diePacing d then
    (if f = F.VCORE_STATUS_BUDGET then { t with weir := { t.weir with resort := setIns d t.weir.resort } } else t).dropPace d cause
  else t

/-- Nothing keeps the reaches of a die out of paced mode any more: those that ask for it return at once where they are
quiescent, and the timing that yielded on the die is restored. -/
def State.rePace (s : State) (d : Nat) : State :=
  if s.paceBarred d then s
  else ((reachesOfDie d).foldl State.changeMode s).yieldEnd fun y => y.guar == Gu.timing && y.site == d &&
    (y.cause == Ca.thermal || y.cause == Ca.power)

/-- The sensors of a die with paced reaches have been read: VCORE keeps to the floor that they give; where heat or the last
resort has it lower, the reaches leave paced mode (R47). -/
def State.holdFloor (s : State) (d : Nat) : State :=
  if !s.diePacing d || !s.coreOn d then s
  else if s.paceBarred d then s.dropPace d (if s.weir.resort.contains d then Ca.power else Ca.thermal)
  else s.follow d

/-! ### WEIR_SET (R466) -/

/-- A voltage setting is in range. -/
def voltageOk (v : Nat) : Bool := decide (600 ≤ v ∧ v ≤ 900) && v % 5 == 0

/-- The byte offset of the first failing field of a WEIR_SET. VIDLE, VSET and VMAX are compared as they would stand on
each selected die after the change. (DEDUCED, log entry 48.) -/
def State.weirSetBad (s : State) (b : Barge) : Option Nat :=
  let g := fun k => bitOf (b.f 49 49) k
  let dies := setBits 4 (b.f 48 48)
  let vset := fun d => if g 2 then b.f 41 40 else s.fld (Reg.vcoreCtrl d) F.VCORE_CTRL_VSET
  let vidle := fun d => if g 3 then b.f 45 44 else s.fld (Reg.vcoreCtrl d) F.VCORE_CTRL_VIDLE
  ([(32, g 0 && !decide (1000 ≤ b.f 33 32 ∧ b.f 33 32 ≤ 5600)),
    (34, g 0 && !decide (b.f 33 32 ≤ b.f 35 34 ∧ b.f 35 34 ≤ 6400)),
    (36, g 0 && decide (20 < b.f 36 36)),
    (37, g 1 && !decide (70 ≤ b.f 37 37 ∧ b.f 37 37 ≤ 105)),
    (38, g 2 && decide (1 < b.f 38 38)),
    (40, g 2 && (!voltageOk (b.f 41 40) || decide (b.f 43 42 < b.f 41 40))),
    (42, g 2 && !voltageOk (b.f 43 42)),
    (44, (g 3 && !voltageOk (b.f 45 44)) || ((g 2 || g 3) && dies.any fun d => decide (vset d < vidle d))),
    (46, g 3 && decide (1000 < b.f 47 46)),
    (48, (g 2 || g 3) && dies.isEmpty)].find? (·.2)).map (·.1)

/-- The depth of the bucket in 10 µJ, and A. -/
def State.depth (s : State) : Nat :=
  (s.fld Reg.weirLimits F.WEIR_LIMITS_EXC_LIMIT - s.fld Reg.weirLimits F.WEIR_LIMITS_PKG_LIMIT) *
    s.fld Reg.weirLimits F.WEIR_LIMITS_EXC_MS * 100

/-- Shows the bucket, A and ADMIT_HELD for a bucket level. -/
def State.showBucket (s : State) (level : Nat) : State :=
  let a := if level = 0 then s.fld Reg.weirLimits F.WEIR_LIMITS_PKG_LIMIT else s.fld Reg.weirLimits F.WEIR_LIMITS_EXC_LIMIT
  let t : State := { s with weir := { s.weir with level := level } }
  let t := t.setFlds Reg.weirBucket [(F.WEIR_BUCKET_LEVEL, level / 100), (F.WEIR_BUCKET_DEPTH, t.depth / 100)]
  t.setFlds Reg.weirStatus [(F.WEIR_STATUS_ALLOWED, a), (F.WEIR_STATUS_BUCKET_EMPTY, b2n (level == 0)),
    (F.WEIR_STATUS_ADMIT_HELD, b2n (decide (a < t.fld Reg.weirPower F.WEIR_POWER_P100)))]

/-- The partitions that are live or being created. -/
def State.liveParts (s : State) : List Nat := (List.range 8).filter fun p => s.partSt p == 1 || s.partSt p == 2

/-- The shares in force once PKG_LIMIT has changed: where their sum no longer fits, every live partition's throughput
yields and its share is scaled; where it fits again, each has its own share back (Table 16-4). (DEDUCED, log entry 48.) -/
def State.scaleShares (s : State) : State :=
  let ps := (List.range 8).filter s.live
  let sum := (ps.map s.shareOf).sum
  let room := s.fld Reg.weirLimits F.WEIR_LIMITS_PKG_LIMIT - s.fld Reg.weirStatus F.WEIR_STATUS_BASE
  let fits := decide (sum ≤ room)
  ps.foldl (fun t p =>
    let a := Reg.partGuarantee p
    let want := t.shareOf p
    let v := if fits then want else want * room / sum
    let t := t.setFld a F.PART_GUARANTEE_POWER_SHARE v
    if fits then t.yieldEnd fun y => y.part == p && y.guar == Gu.throughput && y.cause == Ca.power
    else t.yieldG p Gu.throughput Ca.power 0 0 fun b => b.phase == .waiting && t.ready b) s

/-- A partition has gone: where the shares of those that are left fit again, each has its own back. -/
def State.restoreShares (s : State) : State :=
  let sum := (((List.range 8).filter s.live).map s.shareOf).sum
  if sum ≤ s.fld Reg.weirLimits F.WEIR_LIMITS_PKG_LIMIT - s.fld Reg.weirStatus F.WEIR_STATUS_BASE then s.scaleShares else s

/-- Applies the groups of a WEIR_SET. (DEDUCED, log entry 48.) -/
def State.weirApply (s : State) (b : Barge) : State :=
  let g := fun k => bitOf (b.f 49 49) k
  let t := if g 0 then s.setFlds Reg.weirLimits [(F.WEIR_LIMITS_PKG_LIMIT, b.f 33 32),
      (F.WEIR_LIMITS_EXC_LIMIT, b.f 35 34), (F.WEIR_LIMITS_EXC_MS, b.f 36 36)] else s
  let t := if g 1 then t.setFld Reg.weirLimits F.WEIR_LIMITS_TJ_TARGET (b.f 37 37) else t
  let t := if g 0 then (t.showBucket (min t.weir.level t.depth)).scaleShares else t
  (setBits 4 (b.f 48 48)).foldl (fun t d =>
    let a := Reg.vcoreCtrl d
    let t := if g 2 then t.setFlds a [(F.VCORE_CTRL_VMODE, b.f 38 38), (F.VCORE_CTRL_VSET, b.f 41 40),
        (F.VCORE_CTRL_VMAX, b.f 43 42)] else t
    let t := if g 3 then t.setFlds a [(F.VCORE_CTRL_VIDLE, b.f 45 44), (F.VCORE_CTRL_IDLE_DROP_US, b.f 47 46)] else t
    if g 2 then t.follow d else t) t

/-- WEIR_SET. -/
def execWeirSet (c : Fin 256) (q : Nat) (s : State) : Res State :=
  s.work c.val q [0x700] fun b t =>
    let bad := t.weirSetBad b
    t.checked b [(!b.reservedZero [(127, 50), (39, 39)] || decide (16 ≤ b.f 48 48 ∨ 16 ≤ b.f 49 49), St.malformed, 0),
      (bad.isSome, 0x0712, bad.getD 0)] fun t => (t.weirApply b).finish b.canal b.seq St.done 0 0

/-! ### The tick of the weir (R441 to R444, R452) -/

/-- The mean of the first `n` measurements that are there, rounded down. (DEDUCED, log entry 49.) -/
def meanOf (n : Nat) (l : List Nat) : Nat := let x := l.take n; x.sum / max 1 x.length

/-- A measured junction temperature; PEAK keeps the highest. -/
def State.measureTj (s : State) (a tj : Nat) (tjf peak : Fld) : State :=
  s.setFlds a [(tjf, tj), (peak, max (s.fld a peak) tj)]

/-- Takes the measurements of one tick into the registers. -/
def State.measure (s : State) (e : WeirEnv) : State :=
  let t := e.dies.foldl (fun t x => if 4 ≤ x.1 then t else
    t.setFlds (Reg.vcoreStatus x.1) [(F.VCORE_STATUS_POWER, x.2.1), (F.VCORE_STATUS_CURRENT, x.2.2)]) s
  let t := e.reach.foldl (fun t x => if 64 ≤ x.1 then t else
    t.measureTj (Reg.sensorReach x.1) x.2 F.SENSOR_REACH_TJ F.SENSOR_REACH_PEAK) t
  let t := e.die.foldl (fun t x => if 8 ≤ x.1 then t else
    (t.measureTj (Reg.sensorDie x.1) x.2.2.2 F.SENSOR_DIE_TJ F.SENSOR_DIE_PEAK).setFlds (Reg.sensorDie x.1)
      [(F.SENSOR_DIE_POWER, x.2.1), (F.SENSOR_DIE_VOLTAGE, x.2.2.1)]) t
  let p10s := (e.p10.toNat :: t.weir.p10s).take 100
  ({ t with weir := { t.weir with p10s := p10s } } : State).setFlds Reg.weirPower
    [(F.WEIR_POWER_P10, e.p10.toNat), (F.WEIR_POWER_P100, meanOf 10 p10s), (F.WEIR_POWER_P1M, meanOf 100 p10s)]

/-- The bucket after a tick: both sides are kept in W × 10 µs. -/
def State.bucketNext (s : State) : Nat :=
  let p10 := s.fld Reg.weirPower F.WEIR_POWER_P10
  min s.depth (s.weir.level + s.fld Reg.weirLimits F.WEIR_LIMITS_PKG_LIMIT - p10)

/-- The dies in the order in which R444 lowers them, those of highest measured power first. -/
def State.byPower (s : State) (pacing : Bool) : List Nat :=
  let p := fun d => s.fld (Reg.vcoreStatus d) F.VCORE_STATUS_POWER
  ((List.range 4).filter fun d => s.coreOn d && s.diePacing d == pacing && decide (600 < s.vcore d)).mergeSort
    fun x y => decide (p y < p x ∨ (p x = p y ∧ x ≤ y))

/-- Lowers the dies of a list by at most `room` mV in all. (DEDUCED, log entry 49.) -/
def State.lowerDies (s : State) (room : Nat) : List Nat → State × Nat
  | [] => (s, room)
  | d :: ds =>
    let cut := min room (s.vcore d - 600)
    if cut = 0 then s.lowerDies room ds
    else (s.lowerVcore d (s.vcore d - cut) Ca.power F.VCORE_STATUS_BUDGET).lowerDies (room - cut) ds

/-- One tick of R444 above A: 100 mV in 10 µs, the last resort only once no other die stands above 0.60 V.
(DEDUCED, log entry 49.) -/
def State.lowerTick (s : State) : State :=
  let (t, room) := s.lowerDies 100 (s.byPower false)
  if (t.byPower false).isEmpty then (t.lowerDies room (t.byPower true)).1 else t

/-- R444 has a die back where it would be without it. -/
def State.budgetOver (s : State) (d : Nat) : State :=
  ((({ s with weir := { s.weir with resort := setDel d s.weir.resort } } : State).setFld (Reg.vcoreStatus d)
    F.VCORE_STATUS_BUDGET 0).follow d).rePace d

/-- One tick of R444 at A − 300 W or less: each die that it lowered rises by 50 mV toward its target, or to the paced floor
where that is higher and paced reaches need it; one that an idle drop holds stays where it is. (DEDUCED, log entry 49.) -/
def State.raiseTick (s : State) : State :=
  (List.range 4).foldl (fun t d =>
    let a := Reg.vcoreStatus d
    if !t.flag a F.VCORE_STATUS_BUDGET || !t.coreOn d || t.heat.cdie.contains d || t.heat.tj.contains d then t
    else if t.flag a F.VCORE_STATUS_LENT then t.budgetOver d
    else
      let goal := if t.diePacing d then max (t.vTarget d) (t.paceFloor d) else t.vTarget d
      let v := min goal (t.vcore d + 50)
      let t := t.setVcore d v
      if goal ≤ v then t.budgetOver d
      else if t.paceFloor d ≤ v then ({ t with weir := { t.weir with resort := setDel d t.weir.resort } } : State).rePace d
      else t) s

/-- Does a cluster, the solver sequencer or a cupping of a C-die issue work? -/
def State.dieIssues (s : State) (d : Nat) : Bool :=
  (reachesOfDie d).any fun r => s.reachHeld r || s.reachCupped r || (physOfReach r).any fun P => (s.cl P).issues

/-- Has a candidate waited out the latency ceiling of its partition? -/
def State.ceilingMet (s : State) (b : Barge) (p : Nat) : Bool :=
  let lc := s.fld (Reg.partGuarantee p) F.PART_GUARANTEE_LAT_CEIL
  lc != 0 && s.ready b && !b.admitted && match b.readyAt with
    | some t => decide (t + lc * 1000 ≤ s.now)
    | none => false

/-- The excess for which a latency ceiling or a throughput yielded has ended (Table 16-4). -/
def State.excessEnds (s : State) : State :=
  let beyond := decide (s.fld Reg.weirStatus F.WEIR_STATUS_ALLOWED < s.commit + s.fld Reg.weirStatus F.WEIR_STATUS_BASE)
  s.yieldEnd fun y => (y.cause == Ca.latencyOther && !beyond) || (y.cause == Ca.timingOther &&
    !s.barges.any fun b => b.acc == y.site && b.actsFor == some y.part && s.ceilingMet b y.part)

/-- The weir measures, updates the bucket and A, and holds admission or moves VCORE. While a takeover runs, its budget control
is what goes on with step 4 (R595). (DEDUCED, log entry 49; DESIGN CHOICE, log entry 46.) -/
def execWeirTick (e : WeirEnv) (s : State) : Res State :=
  if s.takingOver then s.go s.endTakeover
  else
  let t := s.measure e
  let t := t.showBucket t.bucketNext
  let t := (List.range 4).foldl (fun u d => (if u.dieIssues d then u.firstIssue d else u).holdFloor d) t
  let a := t.fld Reg.weirStatus F.WEIR_STATUS_ALLOWED
  let p100 := t.fld Reg.weirPower F.WEIR_POWER_P100
  s.go (if a < p100 then t.lowerTick else if p100 + 300 ≤ a then t.raiseTick else t).excessEnds

/-- Every 100 µs the target of a die with VMODE 0b01 moves by 5 mV (R450). -/
def execVmodeAdjust (d : Fin 4) (s : State) : Res State :=
  s.goDie d.val <|
    let a := Reg.vcoreCtrl d.val
    if s.fld a F.VCORE_CTRL_VMODE ≠ 1 then s
    else
      let lim := (s.fld Reg.weirLimits F.WEIR_LIMITS_TJ_TARGET - 5) * 4
      let cool := ((reachesOfDie d.val).all fun r => decide (s.fld (Reg.sensorReach r) F.SENSOR_REACH_TJ ≤ lim)) &&
        decide (s.fld (Reg.sensorDie d.val) F.SENSOR_DIE_TJ ≤ lim)
      let room := decide (s.fld Reg.weirPower F.WEIR_POWER_P100 + 300 ≤ s.fld Reg.weirStatus F.WEIR_STATUS_ALLOWED)
      let v := s.vTarget d.val
      let v := if cool && room then min (s.fld a F.VCORE_CTRL_VMAX) (v + 5) else max (s.fld a F.VCORE_CTRL_VSET) (v - 5)
      ({ s with weir := { s.weir with target := spPut d.val v s.weir.target } } : State).follow d.val

/-- The issue guard of a die acts, and ends. -/
def execIssueGuard (d : Fin 4) (s : State) : Res State :=
  s.goDie d.val (({ s with weir := { s.weir with guard := setIns d.val s.weir.guard } } : State).throttleDie d.val)

def execIssueGuardEnd (d : Fin 4) (s : State) : Res State :=
  s.goDie d.val { s with weir := { s.weir with guard := setDel d.val s.weir.guard } }

/-- A die has issued no work for IDLE_DROP_US: VCORE falls toward VIDLE, not below the paced floor (R452). -/
def execIdleDrop (d : Fin 4) (s : State) : Res State :=
  s.goDie d.val <|
    let a := Reg.vcoreCtrl d.val
    if s.fld a F.VCORE_CTRL_IDLE_DROP_US = 0 ∨ s.dieIssues d.val ∨ !s.coreOn d.val then s
    else (s.placeVcore d.val (min (s.vcore d.val) (s.fld a F.VCORE_CTRL_VIDLE))).setFld (Reg.vcoreStatus d.val)
      F.VCORE_STATUS_LENT 1

/-! ### Retained reaches (R453, R454) -/

/-- May the weir place a reach in the retained depth? That it has been quiet for 100 µs is what the command says. -/
def State.mayRetain (s : State) (r : Nat) : Bool :=
  s.fld Reg.weirStatus F.WEIR_STATUS_STATE == 0 && s.fld (Reg.reachDepth r) F.REACH_DEPTH_DEPTH == 1 &&
    !s.reachRuns r && !s.reachArmed r && !s.reachHeld r && !s.reachCupped r &&
    match s.reachPart r with
    | none => true
    | some p => s.classOf p != 2 && decide (25 ≤ s.fld (Reg.wakeTolerance p) F.WAKE_TOLERANCE_US)

/-- A quiet reach enters the retained depth. (DESIGN CHOICE, log entry 50.) -/
def execReachRetain (r : Fin 64) (s : State) : Res State :=
  s.goDie (r.val / 16) <|
    if s.mayRetain r.val then
      (s.setFlds (Reg.reachDepth r.val) [(F.REACH_DEPTH_DEPTH, 2), (F.REACH_DEPTH_DOMAIN, 2)]).satAdd (Reg.reachDepth r.val)
        F.REACH_DEPTH_RETAINS 1
    else s

/-- A barge or a basin access wakes a retained reach. (DESIGN CHOICE, log entry 50.) -/
def execReachWake (r : Fin 64) (s : State) : Res State := s.goDie (r.val / 16) (s.reachUp r.val)

/-- Does a waiting barge that meets conditions 1 to 3 of R361 need a reach: to work on it, or for memory of its basins? -/
def State.needed (s : State) (r : Nat) : Bool :=
  s.barges.any fun b => b.phase == .waiting && s.ordered b && ((s.reachesOf (s.e4Placed b)).contains r ||
    (b.native / 256 == 1 && b.memRanges.any fun x => windowReach x.1 == some r) ||
    ((b.native == 0x702 || b.native == 0x703) && b.f 32 32 == 1 && b.f 39 36 == r))

/-- The wakes that barges give: a retained reach that one needs begins to wake, and one that wakes is up. -/
def State.wakeReaches (s : State) : State :=
  ((List.range 64).filter s.retained).foldl (fun t r =>
    if t.flag (Reg.reachDepth r) F.REACH_DEPTH_WAKING then t.reachUp r
    else if t.needed r then t.setFlds (Reg.reachDepth r) [(F.REACH_DEPTH_DOMAIN, 3), (F.REACH_DEPTH_WAKING, 1)]
    else t) s

/-! ### The latency ceiling (R479, Table 16-4) -/

/-- The ceiling of a candidate is met: it is admitted although the excess lowers VCORE, unless only a die with paced
reaches of a class 2 partition could pay for it. (DEDUCED, log entry 49.) -/
def State.ceiling (s : State) (b : Barge) (p : Nat) : State :=
  let hot := ((s.reachesOf b).any fun r => s.heat.cdie.contains (r / 16)) || (b.native / 256 == 5 && !s.heat.fpdie.isEmpty)
  let excess := decide (s.fld Reg.weirStatus F.WEIR_STATUS_ALLOWED <
    s.commit + s.estimate b + s.fld Reg.weirStatus F.WEIR_STATUS_BASE)
  let class2 := (List.range 64).findSome? fun r => if s.paced r then s.class2 r else none
  let adm := s.setBarge { b with admitted := true }
  if hot || s.heat.trip || s.fld Reg.weirStatus F.WEIR_STATUS_STATE != 0 then s
  else if !excess then adm
  else
    match class2, (s.byPower false).isEmpty with
    | some w, true =>
      s.yieldG p Gu.latency Ca.timingOther b.acc w fun x => x.canal == b.canal && x.seq == b.seq
    | _, _ =>
      ((List.range 8).filter (· != p)).foldl (fun t q =>
        let passed := fun (x : Barge) => x.phase == .waiting && x.passedAt.isSome && s.ready x
        if t.barges.any fun x => x.actsFor == some q && passed x then t.yieldG q Gu.throughput Ca.latencyOther 0 p passed
        else t) adm

/-- A barge has waited LAT_CEIL µs for admission. -/
def execLatencyCeiling (c : Fin 256) (q : Nat) (s : State) : Res State :=
  s.go <| match s.barge? c.val q with
    | some b =>
      match b.actsFor with
      | some p => if s.ceilingMet b p then s.ceiling b p else s
      | none => s
    | none => s

/-! ### Heat (Table 15-4) -/

/-- HOT shows whether a response of Table 15-4 other than the last row is in force. -/
def State.showHot (s : State) : State :=
  let h := s.heat
  let hot := h.trip || !h.s110.isEmpty || !h.s105.isEmpty || !h.cdie.isEmpty || !h.fpdie.isEmpty
  let t := s.setFld Reg.weirStatus F.WEIR_STATUS_HOT (b2n hot)
  if hot && !s.flag Reg.weirStatus F.WEIR_STATUS_HOT then t.hostEvt F.HOST_EVENT_HOT else t

def State.modHeat (s : State) (f : Heat → Heat) : State := { s with heat := f s.heat }

/-- The thermal trip: all VCORE to 0 V, every cluster stops, and the package asserts THERMTRIP_N.
(DESIGN CHOICE, log entries 51 and 61.) -/
def execThermalTrip (s : State) : Res State :=
  let t := (List.range 4).foldl (fun u d => ((u.throttleDie d).setVcore d 0).dropPace d Ca.thermal)
    (s.modHeat fun h => { h with trip := true })
  let t : State := { t with clusters := t.clusters.map fun c =>
    if c.2.act = .idle then c else (c.1, { c.2 with act := .stopped, wait := .none, mat := [] }) }
  s.go (t.showHot.emit .thermTrip)

/-- A stack at 110 °C or above takes no new access. (DESIGN CHOICE, log entry 51.) -/
def execDramOver110 (st : Fin 32) (s : State) : Res State :=
  s.goStack st.val (s.modHeat fun h => { h with s110 := setIns st.val h.s110 }).showHot

/-- A stack above 105 °C serves at most half its rate: the bandwidth floor of each partition with requests there yields;
`waiting` are the barges with requests that wait at the stack. (DESIGN CHOICE, log entry 51.) -/
def execDramOver105 (st : Fin 32) (parts : BitVec 8) (waiting : List (Nat × Nat)) (s : State) : Res State :=
  s.goStack st.val <|
    let t := (s.modHeat fun h => { h with s105 := setIns st.val h.s105 }).showHot
    if s.heat.s105.contains st.val then t
    else (setBits 8 parts.toNat).foldl (fun u p =>
      if u.live p && u.fld (Reg.partGuarantee p) F.PART_GUARANTEE_BW_FLOOR != 0 then
        u.yieldG p Gu.bandwidth Ca.thermal st.val 0 fun b => waiting.contains (b.canal, b.seq)
      else u) t

/-- A C-die junction at 105 °C or above: VCORE to 0.60 V. -/
def execCdieOver105 (d : Fin 4) (s : State) : Res State :=
  s.goDie d.val <|
    let t := s.modHeat fun h => { h with cdie := setIns d.val h.cdie }
    (t.lowerVcore d.val 600 Ca.thermal F.VCORE_STATUS_THERMAL).showHot

/-- An F-die or P-die junction at 105 °C or above holds admission of class 0x05 barges. -/
def execFpdieOver105 (k : Fin 4) (s : State) : Res State :=
  s.go (s.modHeat fun h => { h with fpdie := setIns k.val h.fpdie }).showHot.throttleColls

/-- The hottest junction of a C-die above TJ_TARGET: VCORE falls by 5 mV each 100 µs. -/
def execTjTargetExceeded (d : Fin 4) (s : State) : Res State :=
  s.goDie d.val <|
    let t := s.modHeat fun h => { h with tj := setIns d.val h.tj }
    if !t.coreOn d.val then t else t.lowerVcore d.val (max 600 (t.vcore d.val - 5)) Ca.thermal F.VCORE_STATUS_THERMAL

/-- A C-die whose last response to heat has ended follows its target again. (DESIGN CHOICE, log entry 51.) -/
def State.coolDie (s : State) (d : Nat) : State :=
  if s.heat.cdie.contains d || s.heat.tj.contains d then s
  else
    ((s.setFld (Reg.vcoreStatus d) F.VCORE_STATUS_THERMAL 0).follow d).rePace d

/-- A response of Table 15-4 ends. -/
def execThermalResponseEnd (h : HeatAt) (s : State) : Res State :=
  let cut := fun (k : Nat) (l : List Nat) => setDel k l
  match h with
  | .dram110 st => s.goStack st.val (s.modHeat fun x => { x with s110 := cut st.val x.s110 }).showHot
  | .dram105 st => s.goStack st.val ((s.modHeat fun x => { x with s105 := cut st.val x.s105 }).showHot.yieldEnd fun y =>
      y.guar == Gu.bandwidth && y.site == st.val)
  | .cdie d => s.goDie d.val (((s.modHeat fun x => { x with cdie := cut d.val x.cdie }).coolDie d.val).showHot)
  | .fpdie k => s.go (s.modHeat fun x => { x with fpdie := cut k.val x.fpdie }).showHot
  | .target d => s.goDie d.val ((s.modHeat fun x => { x with tj := cut d.val x.tj }).coolDie d.val)

/-! ### Sleep (R456 to R461) -/

/-- The wake latency of a state of Table 15-5, in µs. -/
def wakeLatency (target : Nat) : Nat := if target = 1 then 1 else if target = 2 then 20 else if target = 3 then 400 else 15000

/-- The lowest created partition whose tolerance lies below the latency of a state. -/
def State.intolerant (s : State) (target : Nat) : Option Nat :=
  (List.range 8).find? fun p => s.partSt p != 0 && decide (s.fld (Reg.wakeTolerance p) F.WAKE_TOLERANCE_US < wakeLatency target)

/-- Is every reach quiet, so that an entry can go on (step 2 of Table 15-6), with no substitution in progress (R599)? -/
def State.allQuiet (s : State) : Bool := (List.range 64).all s.quiescent && s.subs.isEmpty

/-- An exit that runs ends. An entry that runs goes on to its TARGET once every reach is quiet; with a barge or a wake event
there, exit follows at once (R461). S4 sends the moor notice on every trained link and takes the links down (R500). (DESIGN CHOICE, log entry
50.) -/
def State.sleepDue (s : State) : State :=
  if !s.flag Reg.weirStatus F.WEIR_STATUS_ENTERING then s.exitEnd
  else if !s.allQuiet then s
  else
    let target := s.fld Reg.weirStatus F.WEIR_STATUS_TARGET
    let t := if target = 4 then
        (List.range 18).foldl (fun u k => if u.trained k then (u.sendControl k Ft.notice 1).linkDown k 0 else u) s
      else s
    let t := t.enterSleep target
    let due := t.weir.woken || !t.barges.isEmpty
    let t : State := { t with weir := { t.weir with woken := false } }
    if due then t.exitBegin else t

/-- The entry to a sleep state begins: no barge is admitted, and a barge that runs on goes on to its end. -/
def State.sleep (s : State) (target : Nat) (force : Bool) : State :=
  (({ s with weir := { s.weir with forced := force, woken := false } } : State).setFlds Reg.weirStatus
    [(F.WEIR_STATUS_TARGET, target), (F.WEIR_STATUS_ENTERING, 1)]).sleepDue

/-- SLEEP: completes, and entry begins; a barge accepted meanwhile wakes the package at once (R461). -/
def execSleep (c : Fin 256) (q : Nat) (s : State) : Res State :=
  s.work c.val q [0x701] fun b t =>
    let target := b.f 32 32
    let low := t.intolerant target
    t.checked b [(!b.reservedZero [(127, 34)] || decide (2 ≤ b.f 33 33 ∨ target = 0 ∨ 4 < target), St.malformed, 0),
      (low.isSome && b.f 33 33 == 0, 0x0710, low.getD 0)] fun t =>
      (t.finish b.canal b.seq St.done target 0).sleep target (b.f 33 33 == 1)

/-- A wake event (R459). -/
def execWakeEvent (s : State) : Res State := s.go s.wakeUp

/-- A write to WEIR_WAKE: bit 0 written as 1 is a wake event. -/
def execWeirWake (v : Word) (rp : RegPath) (s : State) : Res State :=
  s.go (s.viaPath rp Reg.weirWake fun t => if bitOf v.toNat 0 then t.wakeUp else t)

/-! ### Time (R6) -/

/-- Notes since when conditions 1 to 4 of R361 hold for each waiting barge (R447, R448). -/
def State.markReady (s : State) : State :=
  { s with barges := s.barges.map fun b =>
      { b with readyAt := if s.ready b then some (b.readyAt.getD s.now) else if b.phase = .waiting then none else b.readyAt } }

/-- The package with no command waiting: failures that thresholds have decided are met, an entry to sleep or an exit goes on,
retained reaches wake for barges, each port sends a flit, and the device timebase advances by 1 ns (R6). (DESIGN CHOICE, log entry 2.) -/
def State.idleStep (s : State) : State := s.endFaults.retireDue.sleepDue.wakeReaches.markReady.sendTimes.sendFlits.idle

/-! ### Domain barges (R462 to R465) -/

/-- A barge names a unit of its KIND. -/
def domainUnitOk (kind u : Nat) : Bool :=
  (kind == 1 && decide (u < 64)) || (kind == 2 && decide (u < 4)) || (kind == 3 && decide (u < 18))

/-- Is the unit disabled in the map of disabled units? A C-die core has no entry there. -/
def State.unitOut (s : State) (kind u : Nat) : Bool :=
  if kind = 1 then s.reachOut u
  else if kind = 3 then
    s.fld (Reg.portMap (u / 9)) F.PORT_MAP_STATE == 2 || bitOf (s.fld (Reg.portMap (u / 9)) F.PORT_MAP_DISABLED) (u % 9)
  else false

/-- DFLAGS has no bit that its KIND and opcode do not define. -/
def dflagsOk (off : Bool) (kind fl : Nat) : Bool :=
  decide (fl < 4) && (!bitOf fl 0 || kind == 3) && (!bitOf fl 1 || (off && kind == 1))

/-- The checks of R462. -/
def State.domainChecks (s : State) (b : Barge) : List (Bool × Nat × Nat) :=
  let kind := b.f 32 32
  let u := b.f 39 36
  let off := b.native == 0x703
  [(!b.reservedZero [(127, 40), (35, 34)] || !dflagsOk off kind (b.f 33 33), St.malformed, 0),
    (!domainUnitOk kind u, 0x0711, 0),
    (s.unitOut kind u, St.noResource, 0),
    (off && kind == 3 && s.trained u && !bitOf (b.f 33 33) 0, St.notPermitted, 0)]

/-- The DOMAIN field of a reach or a C-die core. -/
def State.domainOf (s : State) (kind u : Nat) : Nat :=
  if kind = 1 then s.fld (Reg.reachDepth u) F.REACH_DEPTH_DOMAIN else s.fld (Reg.vcoreStatus u) F.VCORE_STATUS_DOMAIN

def State.setDomain (s : State) (kind u v : Nat) : State :=
  if kind = 1 then s.setFld (Reg.reachDepth u) F.REACH_DEPTH_DOMAIN v
  else s.setFld (Reg.vcoreStatus u) F.VCORE_STATUS_DOMAIN v

/-- Is a port's domain off? -/
def State.portOff (s : State) (k : Nat) : Bool := bitOf (s.fld (Reg.portPower (k / 9)) F.PORT_POWER_OFF) (k % 9)

/-- Powers a reach: its clusters and solver sequencer are reset at level 5. Under a C-die core that is off, it stays
off until the core is on. -/
def State.powerReach (s : State) (r : Nat) : State :=
  let on := s.fld (Reg.vcoreStatus (r / 16)) F.VCORE_STATUS_DOMAIN != 2
  (s.resetReach r).setFlds (Reg.reachDepth r) [(F.REACH_DEPTH_DEPTH, if on then 1 else 3),
    (F.REACH_DEPTH_DOMAIN, if on then 0 else 2), (F.REACH_DEPTH_HOST_OFF, 0), (F.REACH_DEPTH_RETAINED_DATA, 0)]

/-- Powers a domain that is off. (DESIGN CHOICE, log entry 50.) -/
def State.powerOn (s : State) (kind u : Nat) : State :=
  if kind = 1 then s.powerReach u
  else if kind = 2 then
    let t := s.ramp u
    (reachesOfDie u).foldl (fun v r => if v.flag (Reg.reachDepth r) F.REACH_DEPTH_HOST_OFF then v
      else (v.resetReach r).setFlds (Reg.reachDepth r) [(F.REACH_DEPTH_DEPTH, 1), (F.REACH_DEPTH_DOMAIN, 0)]) t
  else
    let a := Reg.portPower (u / 9)
    ({ s with weir := { s.weir with portsOff := setDel u s.weir.portsOff } } : State).setFld a F.PORT_POWER_OFF
      (s.fld a F.PORT_POWER_OFF - 2 ^ (u % 9)) |>.setFld (Reg.portStatus u) F.PORT_STATUS_STATE 0

/-- DOMAIN_ENABLE. It completes with ENABLE_DEFERRED where it waited for a shut-down. -/
def execDomainEnable (c : Fin 256) (q : Nat) (s : State) : Res State :=
  s.work c.val q [0x702] fun b t => t.checked b (t.domainChecks b) fun t =>
    let kind := b.f 32 32
    let u := b.f 39 36
    let isOff := if kind = 3 then t.portOff u else t.domainOf kind u == 2
    let t := if isOff then t.powerOn kind u else t
    match b.waitFrom with
    | some w => t.endBarge b.canal b.seq 0x0701 (b.startAt - w) 0
    | none => t.endBarge b.canal b.seq St.done 0 0

/-- Shuts a reach down: its state is scrubbed, the basins too unless they are retained. -/
def State.shutReach (s : State) (r depth : Nat) (retain : Bool) : State :=
  let t := s.clearReach r
  let t := if retain then t else t.zeroReach r
  t.setFlds (Reg.reachDepth r) [(F.REACH_DEPTH_DEPTH, depth), (F.REACH_DEPTH_DOMAIN, 2), (F.REACH_DEPTH_RETAINED_DATA, b2n retain)]

/-- The shut-down of a reach or a C-die core. -/
def State.shutDown (s : State) (kind u : Nat) (retain : Bool) : State :=
  if kind = 1 then (s.shutReach u 3 retain).setFld (Reg.reachDepth u) F.REACH_DEPTH_HOST_OFF 1
  else ((reachesOfDie u).foldl (fun t r => t.shutReach r 3 false) s).setFlds (Reg.vcoreStatus u)
    [(F.VCORE_STATUS_DOMAIN, 2), (F.VCORE_STATUS_HOST_OFF, 1), (F.VCORE_STATUS_VCORE, 0)]

/-- Switches a port off; a trained link is lost first (R462). -/
def State.portDown (s : State) (k : Nat) : State :=
  let a := Reg.portPower (k / 9)
  let t := if s.linked k then s.linkLost k else s
  let t : State := { t with weir := { t.weir with portsOff := setIns k t.weir.portsOff } }
  (t.setFld a F.PORT_POWER_OFF (t.fld a F.PORT_POWER_OFF ||| 2 ^ (k % 9))).setFld (Reg.portStatus k) F.PORT_STATUS_STATE 5

/-- Is a reach of a domain quiescent, with no substitution in progress on it? -/
def State.atRest (s : State) (r : Nat) : Bool := s.quiescent r && !s.subs.any fun x => reachOfPhys x.failed == r

/-- The second part of R463 once every reach of the domain is quiescent; until then the disable waits.
(DESIGN CHOICE, log entry 50.) -/
def State.tryShut (s : State) (b : Barge) : State :=
  let kind := b.f 32 32
  let u := b.f 39 36
  let rs := if kind = 1 then [u] else reachesOfDie u
  if rs.all s.atRest then (s.shutDown kind u (bitOf (b.f 33 33) 1)).endBarge b.canal b.seq St.done 0 0 else s

/-- DOMAIN_DISABLE: its checks and its wait; given again while it waits, it goes on once the domain is quiescent. -/
def execDomainDisable (c : Fin 256) (q : Nat) (s : State) : Res State :=
  s.go <| match s.barge? c.val q with
    | none => s
    | some b =>
      if b.native ≠ 0x703 then s
      else
        let kind := b.f 32 32
        let u := b.f 39 36
        match b.phase with
        | .started => s.checked b (s.domainChecks b) fun t =>
          if kind = 3 then (if t.portOff u then t else t.portDown u).endBarge b.canal b.seq St.done 0 0
          else if t.domainOf kind u = 2 then t.endBarge b.canal b.seq St.done 0 0
          else ((t.working b.canal b.seq id).setDomain kind u 1).tryShut b
        | .working => s.tryShut b
        | _ => s

/-! ### The interleave mode (R280) -/

/-- Has a group a mapped page? -/
def State.groupMapped (s : State) (g : Nat) : Bool := s.maps.any fun r => r.pa / 2 ^ 32 == g

/-- A write of a MEM_INTERLEAVE register: the bits of mapped groups stand, and a group whose mode changes has undefined
contents. -/
def State.writeInterleave (s : State) (k v : Nat) : State :=
  let old := s.reg (Reg.memInterleave k)
  let hit := (List.range 64).filter fun i => bitOf old i != bitOf v i && !s.groupMapped (64 * k + i) && 64 * k + i != 1023
  let t := s.setReg (Reg.memInterleave k) (Nat.xor old (maskOf hit))
  hit.foldl (fun t i => t.undefine ((64 * k + i) * 2 ^ 32) (2 ^ 32)) t

def execMemInterleaveWrite (k : Fin 16) (v : Word) (rp : RegPath) (s : State) : Res State :=
  s.go (s.viaPath rp (Reg.memInterleave k.val) fun t => t.writeInterleave k.val v.toNat)

end Sys2Proof.Machine
end

