-- ==== Sys2Proof/Machine/Part.lean ====
section
/-! DEFINITION. Partitions (R471 to R478, R486): PART_CREATE, PART_DESTROY, and the changes of the determinism class, of
load balancing and of the claim line. -/

namespace Sys2Proof.Machine

/-! ### PART_CREATE (R472 to R475) -/

/-- The sum of a field of PART_GUARANTEE over the partitions that are live or creating. -/
def State.guaranteeSum (s : State) (f : Fld) : Nat := (s.liveParts.map fun p => s.fld (Reg.partGuarantee p) f).sum

/-- Does a reach or a canal belong to a partition that is live or creating? -/
def State.reachTaken (s : State) (r : Nat) : Bool := (s.reachPart r).any s.liveParts.contains

def State.canalTaken (s : State) (c : Nat) : Bool := (s.canalPart c).any s.liveParts.contains

/-- The checks of Table 16-2, with those of R608 and R615 after the first. -/
def State.createChecks (s : State) (b : Barge) : List (Bool × Nat × Nat) :=
  let rs := setBits 64 (b.f 55 48)
  let cs := setBits 256 (b.f 87 56)
  [(!b.reservedZero [(127, 100), (90, 90), (47, 34)] || decide (2 ≤ b.f 33 33), St.malformed, 0),
    (s.flag Reg.secStatus F.SEC_STATUS_MODULE_ERROR, 0x0820, 0),
    (s.flag Reg.secFuse F.SEC_FUSE_APPROVED_FORCE && !s.flag Reg.secStatus F.SEC_STATUS_APPROVED, 0x0802, 0),
    (decide (2 < b.f 32 32 ∨ 1000000 < b.f 95 92 ∨ 80 < b.f 91 91 ∨ 4600 < b.f 89 88) || rs.isEmpty ||
      (b.f 32 32 == 2 && b.f 91 91 == 0), 0x0810, 0),
    (s.partSt b.part != 0, 0x0811, 0),
    (rs.any s.reachTaken || cs.any fun c => s.canalTaken c || s.flag (Reg.canalCtrl c) F.CANAL_CTRL_ENABLE ||
      !s.canalIdle c, 0x0812, 0),
    (rs.any s.reachGone, St.noResource, 0),
    (decide (80 < s.guaranteeSum F.PART_GUARANTEE_BW_FLOOR + b.f 91 91) ||
      decide (s.fld Reg.weirLimits F.WEIR_LIMITS_PKG_LIMIT <
        s.fld Reg.weirStatus F.WEIR_STATUS_BASE + s.guaranteeSum F.PART_GUARANTEE_POWER_SHARE + b.f 89 88), 0x0813, 0)]

/-- Steps 1 to 8 of R475. -/
def State.partBuild (s : State) (b : Barge) : State :=
  let p := b.part
  let rs := setBits 64 (b.f 55 48)
  let t := s.setFld (Reg.partState p) F.PART_STATE_STATE 1
  let t := rs.foldl (fun u r => ((u.clearReach r).zeroReach r).resetSolver r) t
  let t := t.setReg (Reg.partReaches p) (b.f 55 48)
  let t := (setBits 256 (b.f 87 56)).foldl (fun u c => u.setFlds (Reg.canalCtrl c)
    [(F.CANAL_CTRL_SYSTEM, 0), (F.CANAL_CTRL_PARTITION, p)]) t
  let (key, t) := t.draw
  let t : State := { t with
    maps := t.maps.filter fun m => m.part != p
    mapVer := spDel p t.mapVer
    cargo := t.cargo.filter fun x => x.part != p
    tokenKey := spPut p key t.tokenKey
    partReq := spDel p t.partReq
    weir := { t.weir with shares := spPut p (b.f 89 88) t.weir.shares, yields := t.weir.yields.filter fun y => y.part != p } }
  let t := (((t.setReg (Reg.choiceCount p) 0).setReg (Reg.yieldCount p) 0).setReg (Reg.partYield p) 0).setReg (Reg.partClaim p) 0
  let t := t.setReg (Reg.wakeTolerance p) (b.f 99 96)
  let t := t.setFlds (Reg.partGuarantee p) [(F.PART_GUARANTEE_LAT_CEIL, b.f 95 92), (F.PART_GUARANTEE_BW_FLOOR, b.f 91 91),
    (F.PART_GUARANTEE_SLOTS, b.f 91 91 * 256 / 100), (F.PART_GUARANTEE_POWER_SHARE, b.f 89 88)]
  let t := t.setReg (Reg.partCtrl p) (b.f 32 32 * 16 + b.f 33 33 * 4 + b.f 32 32)
  rs.foldl (fun u r => (u.lockClass r (b.f 32 32)).changeMode r) t

/-- Step 9 of R475: the digest, and the partition is live; the LOG_READ_INDEX of its view is reset (R689). -/
def State.partLive (s : State) (p : Nat) : State :=
  let a := Reg.partState p
  let t : State := { s with logRead := spDel p s.logRead }
  (t.setReg (Reg.basisDigest p) (digest64 (s.basisRecord p))).setFlds a [(F.PART_STATE_STATE, 2), (F.PART_STATE_INCARNATION, s.fld a F.PART_STATE_INCARNATION + 1)]

/-- PART_CREATE. (DEDUCED, log entry 52.) -/
def execPartCreate (c : Fin 256) (q : Nat) (s : State) : Res State :=
  s.work c.val q [0x800] fun b t => t.checked b (t.createChecks b) fun t =>
    let t := (t.partBuild b).partLive b.part
    let inc := t.fld (Reg.partState b.part) F.PART_STATE_INCARNATION
    match b.waitFrom with
    | some w => t.finish b.canal b.seq 0x0701 (b.startAt - w) inc
    | none => t.finish b.canal b.seq St.done 0 inc

/-! ### PART_DESTROY (R476 to R478) -/

/-- Step 1 of Table 16-3: destroying, and every canal of the partition stops. -/
def State.partStop (s : State) (p : Nat) : State :=
  (List.range 256).foldl (fun t c =>
    if t.canalPart c = some p ∧ t.flag (Reg.canalCtrl c) F.CANAL_CTRL_ENABLE then
      (t.setFld (Reg.canalCtrl c) F.CANAL_CTRL_ENABLE 0).logCanal c
    else t) (s.setFld (Reg.partState p) F.PART_STATE_STATE 3)

/-- The uncompleted barges that act for a partition and came before a PART_DESTROY. -/
def State.partBarges (s : State) (b : Barge) : List Barge :=
  s.barges.filter fun x => x.actsFor == some b.part && decide (x.acc < b.acc)

/-- The pages of some records, each once: those that lie in a larger one are left out. -/
def pagesOnce (recs : List MapRec) : List (Nat × Nat) :=
  let ps := (recs.map fun r => (r.pa, pageBytes r.size)).eraseDups
  ps.filter fun a => !ps.any fun b => b != a && decide (b.1 ≤ a.1 ∧ a.1 + a.2 ≤ b.1 + b.2)

/-- Steps 3 to 5 of Table 16-3, and how many bytes of device memory were scrubbed. -/
def State.partScrub (s : State) (p : Nat) : Nat × State :=
  let recs := s.maps.filter fun m => m.part == p
  let pages := pagesOnce recs
  let rs := s.partReachList p
  let t := (s.revoke fun e => e.part == p).2
  let t := (t.abandonAll p).freeSlots p
  let t : State := { t with
    maps := t.maps.filter fun m => m.part != p
    unmapped := t.unmapped.filter fun m => m.2.part != p
    armed := t.armed.filter fun g => !pages.any fun x => decide (x.1 ≤ g * 65536 ∧ g * 65536 < x.1 + x.2)
    cargo := t.cargo.filter fun x => x.part != p
    tokenKey := spDel p t.tokenKey
    partReq := spDel p t.partReq
    sec := { t.sec with ckeys := spDel p t.sec.ckeys }
    weir := { t.weir with shares := spDel p t.weir.shares, yields := t.weir.yields.filter fun y => y.part != p } }
  let t := pages.foldl (fun u x => u.zeroRange x.1 x.2) t
  let t := rs.foldl (fun u r => (u.clearReach r).zeroReach r) t
  let t := (List.range 256).foldl (fun u c => if u.canalPart c = some p then u.setFlds (Reg.canalCtrl c)
    [(F.CANAL_CTRL_SYSTEM, 1), (F.CANAL_CTRL_PARTITION, 0), (F.CANAL_CTRL_EHL, 0)] else u) t
  let t := rs.foldl (fun u r => u.setFlds (Reg.timingCtrl r) [(F.TIMING_CTRL_PACE_LOCK, 0), (F.TIMING_CTRL_ORDER_LOCK, 0)]) t
  ((pages.map (·.2)).sum,
    (((t.setReg (Reg.partReaches p) 0).setReg (Reg.wakeTolerance p) 0).setFld (Reg.partState p)
      F.PART_STATE_STATE 0).restoreShares)

/-- Goes on with a PART_DESTROY: once every earlier barge of the partition has completed and nothing uses its pages.
(DEDUCED, log entry 52.) -/
def State.destroyOn (s : State) (b : Barge) : State :=
  if !(s.partBarges b).isEmpty || s.maps.any (fun m => m.part == b.part && s.pageInUse (b.startNo, m)) then s
  else
    let (n, t) := s.partScrub b.part
    t.endBarge b.canal b.seq St.done n 0

/-- PART_DESTROY: its checks and steps 1 and 2; given again while it waits, it goes on once the waits are over.
(DEDUCED, log entry 52.) -/
def execPartDestroy (c : Fin 256) (q : Nat) (s : State) : Res State :=
  s.go <| match s.barge? c.val q with
    | none => s
    | some b =>
      if b.native ≠ 0x801 then s
      else
        match b.phase with
        | .started =>
          s.checked b [(!b.reservedZero [(127, 33)] || decide (2 ≤ b.f 32 32), St.malformed, 0),
            (!s.live b.part, 0x0814, 0)] fun t =>
            let old := t.partBarges b
            if old.any t.runPaused then t
            else
              let t := (t.working b.canal b.seq id).partStop b.part
              let t := (t.drainAll (b.canal, b.seq) (old.map fun x => (x.canal, x.seq))).2
              t.destroyOn b
        | .working => s.destroyOn b
        | _ => s

/-! ### Changes of a partition (R486) -/

/-- What a partition waits to change to; what is in force where nothing waits. -/
def State.partReqOf (s : State) (p : Nat) : PartReq :=
  ((s.partReq.find? fun x => x.1 == p).map (·.2)).getD ⟨s.flag (Reg.partCtrl p) F.PART_CTRL_DLB_OFF, s.reg (Reg.partClaim p)⟩

/-- Leaves a change to wait. -/
def State.partPend (s : State) (p : Nat) (r : PartReq) : State :=
  ({ s with partReq := spPut p r s.partReq } : State).setFld (Reg.partCtrl p) F.PART_CTRL_CHANGE_PENDING 1

/-- A write of PART_CTRL: a class that cannot be takes no effect and sets CLASS_REFUSED. (DEDUCED, log entry 52.) -/
def State.writePartCtrl (s : State) (p v : Nat) : State :=
  if !s.live p then s
  else
    let a := Reg.partCtrl p
    let cls := bitsOf v 1 0
    let dlb := bitOf v 2
    let t := if bitOf v 9 then s.setFld a F.PART_CTRL_CLASS_REFUSED 0 else s
    let bad := cls == 3 || (cls == 2 && t.fld (Reg.partGuarantee p) F.PART_GUARANTEE_BW_FLOOR == 0)
    let t := if bad then t.setFld a F.PART_CTRL_CLASS_REFUSED 1 else t.setFld a F.PART_CTRL_CLASS_REQ cls
    let r := t.partReqOf p
    if t.fld a F.PART_CTRL_CLASS_REQ ≠ t.classOf p ∨ dlb ≠ r.dlbOff then t.partPend p { r with dlbOff := dlb } else t

def execPartCtrlWrite (p : Fin 8) (v : Word) (rp : RegPath) (s : State) : Res State :=
  s.go (s.viaPath rp (Reg.partCtrl p.val) fun t => t.writePartCtrl p.val v.toNat)

/-- A write of PART_CLAIM. -/
def State.writePartClaim (s : State) (p v : Nat) : State :=
  if !s.live p then s
  else
    let w := withBits (withBits 0 47 7 (bitsOf v 47 7)) 0 0 (bitsOf v 0 0)
    let r := s.partReqOf p
    if w = r.claim then s else s.partPend p { r with claim := w }

def execPartClaimWrite (p : Fin 8) (v : Word) (rp : RegPath) (s : State) : Res State :=
  s.go (s.viaPath rp (Reg.partClaim p.val) fun t => t.writePartClaim p.val v.toNat)

/-- A waiting change takes effect once every reach of the partition is quiescent and no barge of it runs.
(DEDUCED, log entry 52.) -/
def State.partChange (s : State) (p : Nat) : State :=
  let a := Reg.partCtrl p
  let rs := s.partReachList p
  if !s.live p || !s.flag a F.PART_CTRL_CHANGE_PENDING || rs.any (fun r => !s.quiescent r) ||
      s.barges.any (fun b => b.actsFor == some p && b.begun) then s
  else
    let r := s.partReqOf p
    let cls := s.fld a F.PART_CTRL_CLASS_REQ
    let t := s.setFlds a [(F.PART_CTRL_CLASS, cls), (F.PART_CTRL_DLB_OFF, b2n r.dlbOff), (F.PART_CTRL_CHANGE_PENDING, 0)]
    let t := ({ t with partReq := spDel p t.partReq } : State).setReg (Reg.partClaim p) r.claim
    let t := rs.foldl (fun u x => (u.lockClass x cls).changeMode x) t
    (if cls = 2 then t else t.yieldEnd fun y => y.part == p && y.guar == Gu.timing).rebase p

def execPartChangeEffect (p : Fin 8) (s : State) : Res State := s.go (s.partChange p.val)

end Sys2Proof.Machine
end

