-- ==== Sys2Proof/Machine/Security.lean ====
section
/-! DEFINITION. The security module (R602 to R622): KEY_LOAD, ATTEST, ROAST_STAGE and ROAST_SWITCH, approved mode, tamper
events and zeroisation, and the SPDM responder. -/

namespace Sys2Proof.Machine

/-! ### The state of the module -/

/-- Is the package in approved mode, and is the module in the error state? -/
def State.approved (s : State) : Bool := s.flag Reg.secStatus F.SEC_STATUS_APPROVED

def State.secError (s : State) : Bool := s.flag Reg.secStatus F.SEC_STATUS_MODULE_ERROR

/-- Completes a barge with AUTH_FAILED, which is counted. -/
def State.authFailed (s : State) (b : Barge) (r0 : Nat) : State :=
  (s.satAdd Reg.secStatus F.SEC_STATUS_AUTH_FAILS 1).finish b.canal b.seq 0x0801 r0 0

/-! ### KEY_LOAD (R611, R612) -/

/-- Is the key of a KEY_LOAD given in clear, and is it wrapped? -/
def Barge.keyPlain (b : Barge) : Bool := bitOf (b.f 33 33) 0

def Barge.keyWrapped (b : Barge) : Bool := !b.keyPlain && (b.f 32 32 == 1 || b.f 32 32 == 2)

/-- The fields that a KIND does not use are zero, and the KIND is assigned. (DEDUCED, log entry 54.) -/
def Barge.keyArgsOk (b : Barge) : Bool :=
  let kind := b.f 32 32
  let load := kind == 1 || kind == 2
  let z := zeroB b.bytes
  (load || kind == 3 || kind == 4) && (load || (!b.keyPlain && z 87 56)) &&
    (b.keyWrapped || (z 103 88 && z 51 40 && z 39 36))

/-- The live session that a KEY_LOAD names. -/
def State.keySession (s : State) (b : Barge) : Option Session := s.sec.sessions.find? fun v => v.open_ && v.id == b.f 39 36

/-- Checks 1 to 6 of R612. -/
def State.keyChecks (s : State) (b : Barge) : List (Bool × Nat × Nat) :=
  let kind := b.f 32 32
  let v := s.keySession b
  [(!b.reservedZero [(127, 104), (55, 52), (35, 34)] || decide (2 ≤ b.f 33 33), St.malformed, 0),
    (!b.keyArgsOk, 0x0821, 0),
    ((kind == 1 || kind == 4) && (s.canalPart b.canal).isSome, St.notPermitted, 0),
    (s.secError, 0x0820, 0),
    (b.keyPlain && s.approved, 0x0802, 0),
    (b.keyWrapped && v.isNone, 0x0824, 0),
    (b.keyWrapped && s.approved && v.any fun x => !x.both, 0x0802, 0)]

/-- The key that a KEY_LOAD carries: none where check 7 fails. -/
def State.keyOf (s : State) (b : Barge) : Option (List Byte) :=
  let key := sliceB b.bytes 56 32
  if !b.keyWrapped then some key
  else
    match s.keySession b with
    | none => none
    | some v =>
      if v.nonce.any fun n => decide (b.f 51 40 ≤ n) then none
      else Config.unwrap v.secret (b.f 51 40) (sliceB b.bytes 0 2 ++ sliceB b.bytes 7 1 ++ sliceB b.bytes 32 8) key
        (sliceB b.bytes 88 16)

/-- Consumes the NONCE of a wrapped key. -/
def State.takeNonce (s : State) (b : Barge) : State :=
  let mark := fun (v : Session) => if v.open_ && v.id == b.f 39 36 then { v with nonce := some (b.f 51 40) } else v
  if b.keyWrapped then s.modSec fun x => { x with sessions := x.sessions.map mark }
  else s

/-- The lowest stream slot of a partition that is not free (check 8). -/
def State.slotInUse (s : State) (p : Nat) : Option Nat :=
  (List.range 16).find? fun k => (s.stream? k).any fun x => x.part == p

/-- Shows which keys are held. -/
def State.showKeys (s : State) : State :=
  s.setFlds Reg.secKeys [(F.SEC_KEYS_MK_VALID, b2n s.sec.mkey.isSome), (F.SEC_KEYS_CK_VALID, maskOf (s.sec.ckeys.map (·.1)))]

/-- The effect of a KEY_LOAD that has passed its checks. -/
def State.keySet (s : State) (b : Barge) (key : List Byte) : State :=
  let t := match b.f 32 32 with
    | 1 => (s.modSec fun x => { x with mkey := some key }).setFld Reg.secKeys F.SEC_KEYS_MK_GEN
        (s.fld Reg.secKeys F.SEC_KEYS_MK_GEN + 1)
    | 2 => s.modSec fun x => { x with ckeys := spPut b.part key x.ckeys }
    | 3 => s.modSec fun x => { x with ckeys := spDel b.part x.ckeys }
    | _ => s.modSec fun x => { x with mkey := none }
  t.showKeys

/-- KEY_LOAD of one KIND. A field or KIND that fails checks 1 and 2 is refused whichever row runs it. -/
def State.keyRow (s : State) (c q kind : Nat) : Res State :=
  s.work c q [0x802] fun b t =>
    let fails := (firstFail ((t.keyChecks b).take 2)).isSome
    if b.f 32 32 ≠ kind ∧ !fails then t
    else t.checked b (t.keyChecks b) fun t =>
      match t.keyOf b with
      | none => t.authFailed b 0
      | some key =>
        let t := t.takeNonce b
        let busy := if kind = 2 ∨ kind = 3 then t.slotInUse b.part else none
        t.checked b [(busy.isSome, 0x0825, busy.getD 0)] fun t => (t.keySet b key).finish b.canal b.seq St.done 0 0

def execKeyLoadMk (c : Fin 256) (q : Nat) (s : State) : Res State := s.keyRow c.val q 1

def execKeyLoadCk (c : Fin 256) (q : Nat) (s : State) : Res State := s.keyRow c.val q 2

def execKeyClearCk (c : Fin 256) (q : Nat) (s : State) : Res State := s.keyRow c.val q 3

def execKeyClearMk (c : Fin 256) (q : Nat) (s : State) : Res State := s.keyRow c.val q 4

/-! ### ATTEST (R614) -/

/-- Bytes 0 to 255 of the report of Table 21-7. -/
def State.attestHead (s : State) (b : Barge) : List Byte :=
  let p := b.part
  bytesLE 4 0x4B417474 ++ bytesLE 2 1 ++ bytesLE 1 p ++
    bytesLE 1 (b2n s.approved + 2 * s.fld Reg.failopStatus F.FAILOP_STATUS_SPLIT) ++ bytesLE 8 0 ++ sliceB b.bytes 64 32 ++
    bytesLE 8 s.now ++ bytesLE 16 (s.roastWhole 0) ++ bytesLE 16 (s.roastWhole 1) ++ bytesLE 8 (s.reg (Reg.basisDigest p)) ++
    bytesLE 8 (s.reg Reg.mapDigest) ++ bytesLE 8 s.log.epoch ++
    bytesLE 8 (s.svnFloor + s.fld (Reg.partState p) F.PART_STATE_INCARNATION * 2 ^ 32) ++ bytesLE 8 (s.reg Reg.secStatus) ++
    bytesLE 8 (s.reg (Reg.fabricJob p) % 2 ^ 32 + s.fld Reg.fabricNode F.FABRIC_NODE_NODE_ID * 2 ^ 32) ++
    List.replicate 120 0

/-- The report with the signatures that AFLAGS asks for. -/
def State.attestReport (s : State) (b : Barge) : List Byte :=
  let head := s.attestHead b
  let sig := fun (on ml : Bool) (n : Nat) => (List.range n).map fun i => if on then Config.signByte ml head i else 0
  head ++ sig (bitOf (b.f 44 44) 0) false 96 ++ sig (bitOf (b.f 44 44) 1) true 4627 ++ List.replicate 13 0

/-- ATTEST. (DEDUCED, log entry 54.) -/
def execAttest (c : Fin 256) (q : Nat) (x : Contest) (s : State) : Res State :=
  s.work c.val q [0x803] fun b t =>
    let base := b.f 39 32
    let n := b.f 43 40
    let af := b.f 44 44
    let fault := if n < 4992 then some base else t.bufferFault b.part base n 128
    t.checked b [(!b.reservedZero [(127, 96), (63, 45)], St.malformed, 0), (decide (af = 0 ∨ 4 ≤ af), 0x0821, 0),
      (fault.isSome, 0x0822, fault.getD 0), (t.secError || t.sec.dusShut, 0x0820, 0)] fun t =>
      ((t.execContest b (t.touches b.part base 4992 true) x).storeLocal t.maps b.part base (t.attestReport b)).finish b.canal b.seq St.done 4992 0

/-! ### Roasts (R609, R610, R597) -/

/-- A roast image with a valid header (Table 21-3); none for one whose header breaks it. -/
def roastOf (img : List Byte) : Option Roast :=
  let f := fieldB img
  let ok := f 3 0 == 0x4B526F61 && f 5 4 == 1 && decide (f 7 6 < 2) && decide (f 16 16 ≤ 64) && decide (f 24 24 < 4) &&
    zeroB img 23 17 && zeroB img 31 25 && zeroB img 4095 48 && f 39 32 == img.length && decide (4096 ≤ f 47 40) &&
    f 47 40 + 4723 == img.length
  if ok then some ⟨f 13 8 + digest64 img * 2 ^ 64, f 16 16, f 15 14, f 24 24, bitOf (f 7 6) 0⟩ else none

/-- What makes a roast not authentic: bit 0 ECDSA, bit 1 ML-DSA, bit 2 its header or a revoked KEYSET.
(DEDUCED, log entry 54.) -/
def State.roastFault (s : State) (img : List Byte) : Nat :=
  let header := match roastOf img with
    | none => true
    | some r => bitOf (s.fld Reg.secFuse F.SEC_FUSE_KEYSET_REVOKED) r.keyset
  b2n (!Config.ecdsaOk img) + 2 * b2n (!Config.mldsaOk img) + 4 * b2n header

/-- Empties the staging slot of a P-die's flash, or fills it. -/
def State.setStaged (s : State) (k : Nat) (r : Option Roast) : State :=
  s.setFlash k (setFlashSlot (s.flashOf k) (1 - (s.flashOf k).sel) r)

/-- The staged roast of a P-die. -/
def State.staged (s : State) (k : Nat) : Option Roast := flashSlot (s.flashOf k) (1 - (s.flashOf k).sel)

/-- Check 1 of Table 21-4. -/
def Barge.stageShape (b : Barge) : Bool := b.reservedZero [(127, 57), (39, 34)] && (b.f 32 32 == 1 || b.f 32 32 == 2)

/-- Checks 1 to 5 of a STAGE. -/
def State.stageChecks (s : State) (b : Barge) : List (Bool × Nat × Nat) :=
  let (p, base, n) := (b.f 33 33, b.f 47 40, b.f 55 48)
  let bad := if base < 2 ^ 32 then some base
    else match s.rangeFault s.maps p false base n with
      | some a => some a
      | none => s.localPoison s.maps p base n
  [(!b.stageShape, St.malformed, 0),
    (!(decide (p < 8) && s.live p) || base % 128 != 0 || n % 128 != 0 || decide (n < 8192 ∨ 2 ^ 24 < n) || b.f 56 56 != 0,
      0x0821, 0),
    (bad.isSome, 0x0822, bad.getD 0), (s.secError, 0x0820, 0),
    (decide (2 ≤ s.fld Reg.failopStatus F.FAILOP_STATUS_STANDBY), St.noResource, 0)]

/-- Checks 6 to 8 of a STAGE, and the roast written to the staging slot. (DEDUCED, log entry 54.) -/
def State.stageImage (s : State) (b : Barge) : State :=
  let img := s.localBytes s.maps (b.f 33 33) (b.f 47 40) (b.f 55 48)
  let fault := s.roastFault img
  match roastOf img with
  | some r =>
    if fault ≠ 0 then s.authFailed b fault
    else if r.svn < s.svnFloor then s.finish b.canal b.seq 0x0823 r.svn s.svnFloor
    else if s.approved && !r.approved then s.finish b.canal b.seq 0x0802 0 0
    else (s.setStaged (1 - s.activePdie) (some r)).finish b.canal b.seq St.done (r.version / 2 ^ 64) 0
  | none => s.authFailed b fault

/-- ROAST_STAGE, OP 0x01 STAGE. Whatever the outcome, the roast staged before is gone. -/
def execRoastStage (c : Fin 256) (q : Nat) (errs : List (Nat × Ecc)) (x : Contest) (s : State) : Res State :=
  s.work c.val q [0x804] fun b t =>
    if b.f 32 32 = 2 ∧ b.stageShape then t
    else
      let t := if b.f 32 32 = 1 then t.setStaged (1 - t.activePdie) none else t
      let t := if (firstFail ((t.stageChecks b).take 2)).isSome then t else (t.execContest b (t.touches (b.f 33 33) (b.f 47 40) (b.f 55 48) false) x).meetAll errs
      t.checked b (t.stageChecks b) fun t => t.stageImage b

/-- ROAST_STAGE, OP 0x02 RAISE_FLOOR. -/
def execRaiseFloor (c : Fin 256) (q : Nat) (s : State) : Res State :=
  s.work c.val q [0x804] fun b t =>
    if b.f 32 32 = 1 ∧ b.stageShape then t
    else
      let v := b.f 56 56
      let args := decide (t.svnFloor < v) && t.sec.running.all (fun r => decide (v ≤ r.2.svn)) && b.f 33 33 == 0 &&
        zeroB b.bytes 55 40
      t.checked b [(!b.stageShape, St.malformed, 0), (!args, 0x0821, 0), (t.secError, 0x0820, 0)] fun t =>
        (t.setFld Reg.secFuse F.SEC_FUSE_SVN_FLOOR v).finish b.canal b.seq St.done 0 0

/-- The checks of R597; `r` is the roast that the operation turns to. -/
def State.switchChecks (s : State) (b : Barge) (hand : Bool) (r : Option Roast) : List (Bool × Nat × Nat) :=
  let st := s.fld Reg.failopStatus F.FAILOP_STATUS_STANDBY
  let version := (r.map (·.version)).getD 0
  [(!b.reservedZero [(127, 56), (39, 33)] || decide (b.f 32 32 = 0 ∨ 3 ≤ b.f 32 32), St.malformed, 0),
    (if hand then st != 0 else decide (2 ≤ st), St.noResource, 0),
    (r.isNone, St.noResource, 0),
    (b.f 55 40 != version, St.notPermitted, version / 2 ^ 64),
    ((s.runs? s.activePdie).map (·.mirror) != r.map (·.mirror), St.notPermitted, 0)]

/-- ROAST_SWITCH, OP 0x01 LOAD: the standby boots the staged roast and synchronises its mirror. (DEDUCED, log entry 54.) -/
def execRoastSwitchLoad (c : Fin 256) (q : Nat) (s : State) : Res State :=
  s.work c.val q [0x805] fun b t =>
    let k := 1 - t.activePdie
    let l := t.switchChecks b false (t.staged k)
    if b.f 32 32 = 2 ∧ (firstFail (l.take 1)).isNone then t
    else t.checked b l fun t =>
      let f := t.flashOf k
      let t := (t.setFlash k { f with sel := 1 - f.sel }).clearPdie k
      (t.bootStandby k (t.fld (Reg.pdieStatus k) F.PDIE_STATUS_CHANGE)).finish b.canal b.seq St.done 0 0

/-- ROAST_SWITCH, OP 0x02 HANDOVER. -/
def execHandover (c : Fin 256) (q : Nat) (s : State) : Res State :=
  s.work c.val q [0x805] fun b t =>
    let l := t.switchChecks b true (t.runs? (1 - t.activePdie))
    if b.f 32 32 = 1 ∧ (firstFail (l.take 1)).isNone then t
    else t.checked b l fun t => t.handover.finish b.canal b.seq St.done 0 0

/-! ### SEC_CTRL and approved mode (R615, R616) -/

/-- LINK_ENC and DEBUG_LOCK as a write sets them. -/
def State.writeLinkEnc (s : State) (on : Bool) : State :=
  if s.approved then s else s.setFld Reg.secCtrl F.SEC_CTRL_LINK_ENC (b2n on)

def State.writeDebugLock (s : State) (on : Bool) : State :=
  if s.approved || !on then s else s.setFld Reg.secCtrl F.SEC_CTRL_DEBUG_LOCK 1

/-- Does DEBUG_LOCK read 1: written, or fused? -/
def State.debugLocked (s : State) : Bool := s.flag Reg.secCtrl F.SEC_CTRL_DEBUG_LOCK || s.flag Reg.secFuse F.SEC_FUSE_DEBUG_FUSED_OFF

/-- Why a request for approved mode is refused (REFUSE_REASON). -/
def State.refuseReason (s : State) : Option Nat :=
  if s.secError then some 1
  else if s.sec.running.any fun r => !r.2.approved then some 2
  else if !s.debugLocked then some 3
  else if !s.flag Reg.secCtrl F.SEC_CTRL_LINK_ENC then some 4
  else if (List.range 8).any s.live then some 5
  else none

/-- Discards a staged roast whose build approved mode does not cover. -/
def State.dropStaged (s : State) (k : Nat) : State := if (s.staged k).any fun r => !r.approved then s.setStaged k none else s

/-- A write of 1 to APPROVED_REQ: it takes effect once, and is judged against the present state. -/
def State.writeApprovedReq (s : State) (on : Bool) : State :=
  if !on || s.flag Reg.secCtrl F.SEC_CTRL_APPROVED_REQ then s
  else
    let t := s.setFld Reg.secCtrl F.SEC_CTRL_APPROVED_REQ 1
    match t.refuseReason with
    | some r => t.setFlds Reg.secStatus [(F.SEC_STATUS_APPROVED_REFUSED, 1), (F.SEC_STATUS_REFUSE_REASON, r)]
    | none => ((t.setFld Reg.secStatus F.SEC_STATUS_APPROVED 1).dropStaged 0).dropStaged 1

/-- A write of SEC_CTRL as a whole. -/
def State.writeSecCtrl (s : State) (v : Nat) : State :=
  ((s.writeLinkEnc (bitOf v 2)).writeDebugLock (bitOf v 1)).writeApprovedReq (bitOf v 0)

def execLinkEnc (on : Bool) (rp : RegPath) (s : State) : Res State :=
  s.go (s.viaPath rp Reg.secCtrl fun t => t.writeLinkEnc on)

def execDebugLock (rp : RegPath) (s : State) : Res State := s.go (s.viaPath rp Reg.secCtrl fun t => t.writeDebugLock true)

/-- (DEDUCED, log entry 54.) -/
def execApprovedReq (rp : RegPath) (s : State) : Res State :=
  s.go (s.viaPath rp Reg.secCtrl fun t => t.writeApprovedReq true)

/-! ### Tamper and zeroisation (R617, R618) -/

/-- Records a tamper event. -/
def State.tamper (s : State) (cause : Nat) : State :=
  s.setFlds Reg.secTamper [(F.SEC_TAMPER_LAST_CAUSE, cause), (F.SEC_TAMPER_TIME, s.now % 2 ^ 48)]

/-- Zeroisation: the keys, the contents of device memory under them, the logbook and the error records are gone, the
links are lost, and a level-7 reset follows. (DEDUCED, log entry 43.) -/
def State.zeroise (s : State) (cause : Nat) : State :=
  let t := (s.tamper cause).satAdd Reg.secTamper F.SEC_TAMPER_ZEROISE_COUNT 1
  let t := (List.range 18).foldl (fun u k => if u.linked k then u.linkLost k else u) t
  let t : State := { t with
    mem := [], fills := [⟨0, 2 ^ 42, t.freeCount + 1⟩], freeCount := t.freeCount + 1, poison := [], fronts := [], krylov := []
    barges := [], log := {}, errs := { ({} : ErrStore) with events := t.errs.events }
    sec := { t.sec with dusShut := true } }
  t.levelSeven false 0x0A false false false

def execLidMeshOpen (s : State) : Res State := s.go (s.zeroise 1)

def execZeroiseInput (s : State) : Res State := s.go (s.zeroise 2)

/-- A write to SEC_ZEROISE: 0x5EC0, then 0x0ED5 within 10 µs. Any other write discards a pending 0x5EC0. -/
def State.writeZeroise (s : State) (v : Nat) : State :=
  let fresh := s.sec.armedAt.any fun t => decide (s.now ≤ t + 10000)
  if v % 65536 = 0x5EC0 then s.modSec fun x => { x with armedAt := some s.now }
  else if v % 65536 = 0x0ED5 ∧ fresh then s.zeroise 3
  else s.modSec fun x => { x with armedAt := none }

def execSecZeroise (v : Word) (rp : RegPath) (s : State) : Res State :=
  s.go (s.viaPath rp Reg.secZeroise fun t => t.writeZeroise v.toNat)

/-- An event that zeroises in approved mode alone. -/
def State.tamperOr (s : State) (cause : Nat) : State := if s.approved then s.zeroise cause else s.tamper cause

def execAonRailExcursion (s : State) : Res State := s.go (s.tamperOr 4)

def execPdieCold (s : State) : Res State := s.go (s.tamperOr 5)

/-- A continuous test of the DRBG or the entropy source fails. -/
def execSelftestFailure (s : State) : Res State := s.go (s.setFld Reg.secStatus F.SEC_STATUS_MODULE_ERROR 1)

/-! ### SPDM (R613) -/

/-- Answers request `req` of Table 21-6 on P-die `k`. The error state answers every request with an error; a request
out of its order or session is answered with one too. (DESIGN CHOICE, log entry 55.) -/
def State.spdm (s : State) (k req : Nat) (ok : Bool) (effect : State → State) : Res State :=
  s.go <|
    if s.fld (Reg.bootStatus k) F.BOOT_STATUS_STAGE ≠ 8 then s
    else if s.secError || !ok then s.emit (.spdm k req true)
    else (effect s).emit (.spdm k req false)

/-- How far the connection of a P-die has been negotiated: version, capabilities, algorithms.
(DESIGN CHOICE, log entry 55.) -/
def State.stage (s : State) (k : Nat) : Nat := ((s.sec.stages.find? fun x => x.1 == k).map (·.2)).getD 0

def State.setStage (s : State) (k v : Nat) : State := s.modSec fun x => { x with stages := spPut k v x.stages }

def execGetVersion (k : Fin 2) (s : State) : Res State := s.spdm k.val 0 true fun t => t.setStage k.val 1

def execGetCapabilities (k : Fin 2) (s : State) : Res State :=
  s.spdm k.val 1 (s.stage k.val == 1) fun t => t.setStage k.val 2

def execNegotiateAlgorithms (k : Fin 2) (s : State) : Res State :=
  s.spdm k.val 2 (s.stage k.val == 2) fun t => t.setStage k.val 3

/-- Is a connection negotiated, and are the identity keys within reach? -/
def State.negotiated (s : State) (k : Nat) : Bool := s.stage k == 3

def State.canSign (s : State) (k : Nat) : Bool := s.negotiated k && !s.sec.dusShut

def execGetDigests (k : Fin 2) (s : State) : Res State := s.spdm k.val 3 (s.negotiated k.val) fun t => t

def execGetCertificate (k : Fin 2) (slot : Nat) (s : State) : Res State :=
  s.spdm k.val 4 (s.negotiated k.val && decide (slot < 2)) fun t => t

def execChallenge (k : Fin 2) (s : State) : Res State := s.spdm k.val 5 (s.canSign k.val) fun t => t

/-- A measurement by its index: the digest of a roast image is a free value, since the model keeps no image. -/
def State.measurement (s : State) (i : Nat) : State :=
  match i with
  | 3 => s.emit (.value (s.reg Reg.secFuse))
  | 4 => (s.emit (.value (s.reg Reg.secStatus))).emit (.value (s.reg Reg.secCtrl))
  | 5 => s.emit (.value (s.reg Reg.mapDigest))
  | _ =>
    let (v, t) := s.draw
    t.emit (.value v.toNat)

/-- (DESIGN CHOICE, log entry 55.) -/
def execGetMeasurements (k : Fin 2) (index : Fin 6) (signed : Bool) (s : State) : Res State :=
  s.spdm k.val 6 (s.negotiated k.val && (!signed || !s.sec.dusShut) && index.val != 0) fun t => t.measurement index.val

/-- KEY_EXCHANGE begins a session: up to 4 per P-die. (DESIGN CHOICE, log entry 55.) -/
def execKeyExchange (k : Fin 2) (id : BitVec 32) (both : Bool) (s : State) : Res State :=
  let room := decide ((s.sec.sessions.filter fun v => v.pdie == k.val).length < 4) &&
    !s.sec.sessions.any fun v => v.id == id.toNat
  s.spdm k.val 7 (s.canSign k.val && room) fun t => t.modSec fun x => { x with
    sessions := x.sessions ++ [⟨k.val, id.toNat, x.drawn, both, false, none⟩]
    drawn := x.drawn + 1 }

/-- Is there a session on a P-die with an id, open or not? -/
def State.session? (s : State) (k id : Nat) (open_ : Bool) : Bool :=
  s.sec.sessions.any fun v => v.pdie == k && v.id == id && v.open_ == open_

/-- SESSIONS shows the live sessions. -/
def State.showSessions (s : State) : State :=
  s.setFld Reg.secStatus F.SEC_STATUS_SESSIONS (s.sec.sessions.filter (·.open_)).length

/-- FINISH opens a session; `ok` says that its authentication verifies. (DESIGN CHOICE, log entry 55.) -/
def execFinish (k : Fin 2) (id : BitVec 32) (ok : Bool) (s : State) : Res State :=
  s.spdm k.val 8 (s.session? k.val id.toNat false && ok) fun t =>
    (t.modSec fun x => { x with sessions := x.sessions.map fun v =>
      if v.pdie == k.val && v.id == id.toNat then { v with open_ := true } else v }).showSessions

def execHeartbeat (k : Fin 2) (id : BitVec 32) (s : State) : Res State :=
  s.spdm k.val 9 (s.session? k.val id.toNat true) fun t => t

def execKeyUpdate (k : Fin 2) (id : BitVec 32) (s : State) : Res State :=
  s.spdm k.val 10 (s.session? k.val id.toNat true) fun t => t

/-- END_SESSION destroys the keys of a session. -/
def execEndSession (k : Fin 2) (id : BitVec 32) (s : State) : Res State :=
  s.spdm k.val 11 (s.session? k.val id.toNat true) fun t =>
    (t.modSec fun x => { x with sessions := x.sessions.filter fun v => !(v.pdie == k.val && v.id == id.toNat) }).showSessions

end Sys2Proof.Machine
end

