-- ==== Sys2Proof/Machine/Boot.lean ====
section
/-! DEFINITION. Reset sources (R626 to R630, R640), the boot of the package (R29, R631 to R636, R708), host recovery
(R649), lost clocks (R670) and window 4 (R641 to R646). -/

namespace Sys2Proof.Machine

/-! ### The boot of a P-die (R633, R636) -/

/-- What becomes of a P-die at a boot: a stop with its cause, a wait for a recovery roast, a die that the map records as
disabled, or a roast with its slot, whether it came from the other flash or by recovery, and its place in the list. -/
inductive PdieBoot where
  | stop (cause : Nat)
  | wait
  | gone
  | up (r : Roast) (slot : Nat) (peer recovered : Bool) (idx : Nat)
  deriving DecidableEq, Repr

/-- A roast once it is chosen: the control cores may still fail their check. -/
def bootCores (e : BootEnv) (k : Nat) (b : PdieBoot) : PdieBoot := if e.badCore.contains k then .stop 6 else b

/-- Steps 1 to 6 of Table 22-4 on P-die `k`. -/
def State.pdieBoot (s : State) (k : Nat) (e : BootEnv) : PdieBoot :=
  let src := s.bootSrc k
  if s.inService.any fun u => u.unit == unitPdie k then .gone
  else if src = 3 then .stop 1
  else if e.badFuse.contains k then .stop 2
  else if src ≠ 2 ∧ e.noFlash.contains k then .stop 3
  else if e.badTest.contains k then .stop 5
  else if src = 2 then
    match (s.sec.received.find? fun x => x.1 == k).map (·.2) with
    | some r => if s.bootable r then bootCores e k (.up r 0 false true 0) else .wait
    | none => .wait
  else
    let t := if e.noFlash.contains (1 - k) then s.setFlash (1 - k) {} else s
    match t.pickRoast k with
    | some (r, slot, peer, idx) => bootCores e k (.up r slot peer false idx)
    | none => .stop 4

/-- Both P-dies have stopped: ALERT_N. -/
def State.stoppedAlert (s : State) : State :=
  if s.fld (Reg.bootStatus 0) F.BOOT_STATUS_STAGE = 0xF ∧ s.fld (Reg.bootStatus 1) F.BOOT_STATUS_STAGE = 0xF then
    (s.emit (.alert 0)).emit (.alert 1)
  else s

/-- P-die `k` waits for a recovery roast: its port presents the recovery interface. -/
def State.awaitRoast (s : State) (k : Nat) : State :=
  ((s.setFld (Reg.bootStatus k) F.BOOT_STATUS_STAGE 3).setFld (Reg.hostPortStatus k) F.HOST_PORT_STATUS_STATE 3).setFld
    Reg.recoveryCtrl F.RECOVERY_CTRL_STATE 1

/-- A P-die that serves no role at the end of the boot. -/
def State.pdieIdle (s : State) (k : Nat) (o : PdieBoot) : State :=
  match o with
  | .stop c => s.bootStop k c
  | .wait => if s.fld (Reg.bootStatus k) F.BOOT_STATUS_STAGE = 3 then s else s.awaitRoast k
  | _ => s

/-! ### The map of disabled units (R29, R35 to R39, R708) -/

/-- Takes one disabled unit of the in-service record into the map registers. (DESIGN CHOICE, log entry 44.) -/
def State.mapUnit (s : State) (x : InService) : State :=
  let i := x.unit % 2 ^ 24
  match x.unit / 2 ^ 24 with
  | 1 => s.unitFailed i x.bits x.cause
  | 2 =>
    let t := s.markChannel (i / 34) (i % 34)
    match s.servesFor (i / 34) (i % 34) with
    | some c => t.assignSpare (i / 34) c x.cause
    | none => t
  | 3 => s.markPort i x.cause
  | 5 => s.markReach i x.cause x.bits
  | 6 =>
    let a := Reg.stackMap (i / 8)
    (s.setFld a F.STACK_MAP_NME_DISABLED (s.fld a F.STACK_MAP_NME_DISABLED ||| 2 ^ (i % 8))).stackWorse (i / 8) x.cause
  | 7 => s.setFlds (Reg.stackMap i) [(F.STACK_MAP_STATE, 2), (F.STACK_MAP_CAUSE, x.cause), (F.STACK_MAP_NME_DISABLED, 0xFF)]
  | 8 => s.markFdie i x.cause
  | _ => s

/-- SLOT_MAP for working slots in logical order; the remaining logical slots hold 0xF. -/
def slotMapOf (w : List Nat) : Nat :=
  (List.range 8).foldl (fun n x => n + (w.getD x 0xF) * 2 ^ (4 * x)) 0

/-- Forms REACH_MAP of reach `r` from the slots that no record disables (R708). (DEDUCED, log entry 44.) -/
def State.formReach (s : State) (r : Nat) : State :=
  let a := Reg.reachMap r
  let out := (List.range 9).filter fun k => s.fld (Reg.clusterUnitMap (physOf r k)) F.CLUSTER_UNIT_MAP_STATE == 2
  let w := (List.range 9).filter fun k => !out.contains k
  let spare := ((((s.factory.map (·.spare)).getD []).find? fun x => x.1 == r).map (·.2 % 9)).getD 8
  let slots := if out.isEmpty then w.filter (· != spare) else w
  let last := (((s.inService.filter fun u => u.unit / 2 ^ 24 == 1 && reachOfPhys (u.unit % 2 ^ 24) == r).getLast?).map
    (·.cause)).getD 0
  if s.fld a F.REACH_MAP_STATE = 2 then s
  else if w.isEmpty then s.markReach r last 0
  else
    let t := s.setFlds a [(F.REACH_MAP_DISABLED, maskOf out), (F.REACH_MAP_SLOT_MAP, slotMapOf slots),
      (F.REACH_MAP_ENABLED_COUNT, slots.length), (F.REACH_MAP_SPARE_SLOT, if out.isEmpty then spare else 0xF)]
    let t := if out.isEmpty then t.setFld (Reg.clusterUnitMap (physOf r spare)) F.CLUSTER_UNIT_MAP_STATE 1 else t
    if w.length < 8 then t.setFlds a [(F.REACH_MAP_STATE, 1), (F.REACH_MAP_CAUSE, last)] else t

/-- The units that fail cupping or training at a boot (CAUSE 0x2), which join the in-service record. -/
def bootFailures (e : BootEnv) : List InService :=
  e.cup.flatMap (fun x =>
    if cupWhole x.2 then [⟨unitReach x.1, 2, x.2.part⟩]
    else (setBits 9 (cupBad x.2)).map fun k => ⟨unitCluster (physOf x.1 k), 2, cuppingBits x.2 k⟩) ++
    e.badStack.map fun st => ⟨unitStack st, 2, 0⟩

/-- The factory fuse record, which the first boot reads and no reset changes (R28, R29). (DESIGN CHOICE, log entry 44.) -/
def State.readFuses (s : State) (e : BootEnv) : State :=
  if s.factory.isSome then s else { s with factory := some ⟨e.spare, e.channels⟩ }

/-- Step 11 of Table 22-4: the factory record, the in-service record and the failures of this boot form the map.
(DEDUCED, log entry 44.) -/
def State.formMap (s : State) (e : BootEnv) : State :=
  let s := s.readFuses e
  let new := (bootFailures e).filter fun u => s.inService.all fun x => x.unit != u.unit
  let t : State := { s with inService := s.inService ++ new }
  let t := (List.range 32).foldl (fun u st => u.setFlds (Reg.stackChannelMap st) [(F.STACK_CHANNEL_MAP_SPARE0_FOR, 0xFF),
    (F.STACK_CHANNEL_MAP_SPARE1_FOR, 0xFF)]) t
  let t := [0, 1].foldl (fun u f => u.setFld (Reg.portMap f) F.PORT_MAP_SPARE_FOR 0xF) t
  let t := ((s.factory.map (·.channels)).getD []).foldl (fun u x =>
    ((u.markChannel x.1 (x.2.1 % 32)).setFld (Reg.stackChannelMap x.1) (spareFor x.2.2) (x.2.1 % 32)).countSpared x.1) t
  let t := t.inService.foldl State.mapUnit t
  let t := (List.range 64).foldl State.formReach t
  let g := t.reg Reg.mapGeneration
  let t := t.setReg Reg.mapGeneration (g - g % 2 + 2)
  t.setReg Reg.mapDigest t.mapDigestOf

/-- CUPPING_RESULT after steps 9 and 10, which count as one run (R62). The figures of a reach that `e` does not list, which
passed, and the measured rate of every reach are free values. -/
def State.bootCup (s : State) (e : BootEnv) (r : Nat) : State :=
  let (w, t) := s.draw
  let n := w.toNat
  let t := t.showCup r (((e.cup.find? fun x => x.1 == r).map (·.2)).getD (passingCup n))
  let t := t.setFld (Reg.hcRate r) F.HC_RATE_FREE_RATE (n % 2 ^ 16)
  if t.flag Reg.strapLatch F.STRAP_LATCH_PACE then
    (t.setFlds (Reg.timingCtrl r) [(F.TIMING_CTRL_PACE_REQ, 1), (F.TIMING_CTRL_PACE_STATE, 1)]).setRate r 1600
  else t.setRate r (n % 2 ^ 16)

/-! ### The logbook at a boot (R423, R429) -/

/-- A valid logbook goes on; without one, an empty one starts with a new epoch. -/
def State.bootLogbook (s : State) (e : BootEnv) : State :=
  if s.log.valid then s else { s with log := { epoch := e.epoch.toNat, valid := true } }

/-- The COMPLETE entries of the barges that a reset of level 7 cut off, in the order of their ACCEPT; each is closed once its
own is entered (R429). (DEDUCED, log entry 44.) -/
def State.closeOrphans (s : State) : Nat → State
  | 0 => s
  | n + 1 =>
    match s.log.orphans with
    | [] => s
    | b :: _ =>
      let t := s.logEnter 0x2 b.canal b.seq St.cancelled (s.partOfEntry b.entry) [] (s.tallyBytes b St.cancelled 0 0) [0x01]
      ({ t with log := { t.log with orphans := t.log.orphans.tail } } : State).closeOrphans n

/-- Step 12 of Table 22-4: the BOOT entry, then the COMPLETE entries, then a ROAST entry where a version changed.
(DEDUCED, log entry 44.) -/
def State.bootLog (s : State) (e : BootEnv) (changed : Bool) : State :=
  let t := (s.bootLogbook e).logBoot 7
  let t := t.closeOrphans t.log.orphans.length
  if changed then t.logRoast else t

/-! ### The boot of the package (R634) -/

/-- A P-die that has booted: its roast, its BOOT_STATUS, and its role. -/
def State.pdieUp (s : State) (k : Nat) (o : PdieBoot) : State :=
  match o with
  | .up r slot peer rec idx => (s.setRunning k r).bootDone k slot peer rec idx
  | _ => s

/-- Is the outcome that of a P-die which boots? -/
def PdieBoot.isUp : PdieBoot → Bool
  | .up _ _ _ _ _ => true
  | _ => false

/-- Did the roast of a P-die change, where the package knows what ran before? -/
def State.roastChanged (s : State) (k : Nat) (o : PdieBoot) : Bool :=
  match s.runs? k, o with
  | some old, .up r _ _ _ _ => old.version != r.version
  | _, _ => false

/-- Ports at the end of a boot: those of a disabled F-die are off, a disabled port is down, the others train.
(DEDUCED, log entry 44.) -/
def State.bootPorts (s : State) : State :=
  (List.range 18).foldl (fun t k =>
    let a := Reg.portMap (k / 9)
    let st := if t.fld a F.PORT_MAP_STATE = 2 then 5 else if bitOf (t.fld a F.PORT_MAP_DISABLED) (k % 9) then 0 else 1
    t.setFld (Reg.portStatus k) F.PORT_STATUS_STATE st) s

/-- The end of a boot with P-die `a` active. SELFTEST_DONE reads 1 where no self-test of the boot put the module in the error
state (R608). (DEDUCED, log entry 44.) -/
def State.bootPackage (s : State) (e : BootEnv) (a : Nat) (o0 o1 : PdieBoot) : State :=
  let other := 1 - a
  let oo := if a = 0 then o1 else o0
  let changed := s.roastChanged 0 o0 || s.roastChanged 1 o1
  let t := s.modSec fun x => { x with running := [] }
  let t := (List.range 64).foldl (fun u r => u.bootCup e r) (t.formMap e)
  let t := t.setFld Reg.failopStatus F.FAILOP_STATUS_ACTIVE a
  let t := (t.pdieUp 0 o0).pdieUp 1 o1
  let t := (t.setFld Reg.logStatus F.LOG_STATUS_SINGLE 1).bootLog e changed
  let t := t.setRole a 0 0
  let t := match oo with
    | .up _ _ _ _ _ => t.beginSync other 0
    | .wait => (t.pdieIdle other oo).noStandby other 2 0
    | _ => (t.pdieIdle other oo).noStandby other 3 0
  let t := [0, 1].foldl (fun u k => if (if k = 0 then o0 else o1).isUp then
    u.setFld (Reg.hostPortStatus k) F.HOST_PORT_STATUS_STATE 1 else u) t
  let t := (t.setFld Reg.secStatus F.SEC_STATUS_SELFTEST_DONE (b2n (!t.secError))).setFld Reg.weirStatus F.WEIR_STATUS_BASE e.base.toNat
  let t := (t.showBucket t.depth).bootPorts
  let t : State := { t with booting := false }
  if t.flag Reg.secFuse F.SEC_FUSE_APPROVED_FORCE then
    ((t.setFld Reg.secCtrl F.SEC_CTRL_DEBUG_LOCK 1).setFld Reg.secCtrl F.SEC_CTRL_LINK_ENC 1).writeApprovedReq true
  else t

/-- Step 1 of Table 22-4: the straps. -/
def State.latchStraps (s : State) (straps : Nat) : State :=
  let t := s.setReg Reg.strapLatch straps
  [0, 1].foldl (fun u k => u.setFld (Reg.hostPortStatus k) F.HOST_PORT_STATUS_ROOT (u.rootStrap k)) t

/-- What the boot flashes hold where the package has not written them. -/
def State.readFlashes (s : State) (e : BootEnv) : State :=
  e.flash.foldl (fun t x => if t.sec.flash.any (·.1 == x.1) then t else t.setFlash x.1 x.2) s

/-- Has a P-die that waits for recovery latched the straps already? -/
def State.inBoot (s : State) : Bool :=
  [0, 1].any fun k => s.fld (Reg.bootStatus k) F.BOOT_STATUS_STAGE != 0

/-- The boot that follows the last release of a level-7 reset. With host recovery it goes on once a roast has been
received; where both P-dies have stopped it does not begin again. -/
def State.boot (s : State) (e : BootEnv) : State :=
  let stopped := fun k => s.fld (Reg.bootStatus k) F.BOOT_STATUS_STAGE == 0xF
  if !s.booting || s.tap.low || (stopped 0 && stopped 1) then s
  else
    let t := if s.inBoot then s else (s.latchStraps e.straps.toNat).readFlashes e
    let o := fun k => if stopped k then PdieBoot.stop (s.fld (Reg.bootStatus k) F.BOOT_STATUS_STOP_CAUSE) else t.pdieBoot k e
    if (o 0).isUp then t.bootPackage e 0 (o 0) (o 1)
    else if (o 1).isUp then t.bootPackage e 1 (o 0) (o 1)
    else ((t.pdieIdle 0 (o 0)).pdieIdle 1 (o 1)).stoppedAlert

/-- BOOT. (DESIGN CHOICE, log entry 1; DEDUCED, log entry 44.) -/
def execBoot (e : BootEnv) (s : State) : Res State := s.go (s.boot e)

/-! ### Sources of level 7 (R623, R628, R629) -/

/-- The always-on rail rises: a cold reset, which also resets the TAP. -/
def execAlwaysOnRailRise (s : State) : Res State :=
  .next { s.levelSeven true 1 false false false with tap := {} }

/-- Is a TAP instruction one of those that take effect only while RESET_N is low (R653)? -/
def boundary (inst : Nat) : Bool := decide (3 ≤ inst ∧ inst ≤ 7)

/-- A TAP instruction that acts while RESET_N is low acts as BYPASS once it is high (R653). (PRESUMED, log entry 34.) -/
def State.tapRelease (s : State) : State :=
  { s with tap := { s.tap with low := false, inst := if boundary s.tap.inst then 0 else s.tap.inst } }

/-- RESET_N goes low: without a pulse length it stays low. With one, a line that is high goes low and high again, and a
line that is low is released at that total length. `opt` says that the reset falls within option loading. -/
def execResetN (pulse : Option Nat) (opt : Bool) (s : State) : Res State :=
  s.go <| match pulse with
    | none =>
      if s.tap.low then s
      else
        let t := s.levelSeven false 2 false opt false
        let t : State := { t with tap := { t.tap with low := true, inst := t.tap.loaded } }
        if boundary t.tap.inst then t.emit (.pins t.tap.inst) else t
    | some n =>
      if s.tap.low then
        let t := s.tapRelease
        if n < 10000 then t.setFld Reg.resetCause F.RESET_CAUSE_SHORT 1 else t
      else if n < 50 then s
      else s.levelSeven false 2 (decide (n < 10000)) opt false

/-! ### Sources of levels 3 and 6 (R626, R640, R646) -/

/-- A reset of a unit of a package that is itself being reset and booted is absorbed into that (R630). (DEDUCED, log entry
43.) -/
def State.absorb (s : State) : State := s.setFld Reg.resetCause F.RESET_CAUSE_ABSORBED 1

/-- A level-3 reset of a host port, with its record. -/
def State.portReset (s : State) (k source : Nat) : State :=
  (s.resetHostPort k).resetRecord (causeOf source 3 k) 3 (unitPdie k)

/-- PERST_N of P-die `k` acts at its fused level; it is absorbed while the package boots (R630). -/
def State.perst (s : State) (k : Nat) (f : Fld) : State :=
  let level := s.fld Reg.resetFuse f
  if level = 7 then s.levelSeven false (3 + k) false false false
  else if s.booting then s.absorb
  else if level = 6 then s.resetPdie k (3 + k)
  else s.portReset k (3 + k)

def execPerstAN (s : State) : Res State := s.go (s.perst 0 F.RESET_FUSE_PERST_A_LEVEL)

def execPerstBN (s : State) : Res State := s.go (s.perst 1 F.RESET_FUSE_PERST_B_LEVEL)

/-- A hot reset, a link-down or a PF Function Level Reset of a port. -/
def execPcieHotReset (k : Fin 2) (s : State) : Res State := s.go (if s.booting then s.absorb else s.portReset k.val 5)

/-- A Function Level Reset of VF `p` + 1. -/
def execVfFlr (k : Fin 2) (p : Fin 8) (s : State) : Res State :=
  s.go <|
    if !s.vfExists k.val p.val then s
    else
      let fn := p.val + 1
      let h := s.host k.val
      let t := s.setHost k.val { h with
        window := h.window.filter fun x => x.1 / 8 != fn
        master := h.master.filter (· != fn)
        msixOn := h.msixOn.filter (· != fn)
        unmasked := h.unmasked.filter fun x => x / 512 != fn
        waiting := h.waiting.filter fun x => x / 512 != fn }
      t.faultCanals ((t.canalsBehind k.val).filter fun c => t.canalPart c == some p.val) 0x02

/-- Do LEVEL, UNIT and the other bits of a RESET_CTRL write keep to R640? -/
def resetFields (v : Nat) : Bool :=
  let level := bitsOf v 42 40
  let ty := bitsOf v 31 24
  let i := bitsOf v 23 0
  bitsOf v 47 43 == 0 && bitsOf v 39 32 == 0 &&
    ((level == 4 && ty == 1 && decide (i < 576)) || (level == 5 && ty == 5 && decide (i < 64)) ||
      (level == 6 && ((ty == 0x0A && decide (i < 4)) || (ty == 7 && decide (i < 32)) || (ty == 8 && decide (i < 2)) ||
        (ty == 9 && decide (i < 2)))) || (level == 7 && bitsOf v 31 0 == 0))

/-- Is a reach in a live partition? -/
def State.reachLive (s : State) (r : Nat) : Bool := (s.reachPart r).any s.live

/-- The first reason of R640 for which a request is refused. An accepted request is performed at once, so none is in
progress when another arrives. -/
def State.resetBar (s : State) (v : Nat) : Option Nat :=
  let level := bitsOf v 42 40
  let ty := bitsOf v 31 24
  let i := bitsOf v 23 0
  let r := if level = 4 then reachOfPhys i else i
  if !resetFields v then some 1
  else if level ≤ 5 ∧ (s.reachLive r ∨ s.reachHeld r ∨ s.reachRuns r ∨ s.reachArmed r ∨ s.reachCupped r) then some 2
  else if level = 6 ∧ ty = 0x0A ∧ ((reachesOfDie i).any s.reachLive) then some 3
  else if level = 6 ∧ ty = 8 ∧ (s.fld (Reg.portMap (1 - i)) F.PORT_MAP_STATE = 2 ∨
      (List.range 64).any fun k => s.slotState k == 2 && s.slotFdie k == i) then some 4
  else if level = 6 ∧ ty = 9 ∧ i = s.activePdie ∧ !s.inSync then some 5
  else none

/-- Performs an accepted request. (DEDUCED, log entry 43.) -/
def State.resetUnit (s : State) (v : Nat) : State :=
  let level := bitsOf v 42 40
  let unit := bitsOf v 31 0
  let i := bitsOf v 23 0
  let done := fun (t : State) => t.resetRecord (causeOf 6 level unit) level unit
  match level, bitsOf v 31 24 with
  | 4, _ => done (s.resetCluster i)
  | 5, _ => done (s.resetReach i)
  | 6, 0x0A => done (s.resetCdie i)
  | 6, 7 => done (s.resetStack i)
  | 6, 8 => done (s.resetFdie i)
  | 6, _ => s.resetPdie i 6
  | _, _ => s.levelSeven false 6 false false false

/-- A write to RESET_CTRL. (DEDUCED, log entry 43.) -/
def State.writeResetCtrl (s : State) (v : Nat) : State :=
  if bitsOf v 63 48 ≠ 0xB0E7 then s
  else
    match s.resetBar v with
    | some reason => s.setFlds Reg.resetReqStatus [(F.RESET_REQ_STATUS_REASON, reason), (F.RESET_REQ_STATUS_REFUSED, 1)]
    | none => if s.booting ∧ bitsOf v 42 40 ≠ 7 then s.absorb else s.resetUnit v

def execResetCtrl (v : Word) (rp : RegPath) (s : State) : Res State :=
  s.go (s.viaPath rp Reg.resetCtrl fun t => t.writeResetCtrl v.toNat)

/-! ### Host recovery (R649) -/

/-- Does P-die `k` wait for a recovery roast? -/
def State.recovering (s : State) (k : Nat) : Bool :=
  s.fld (Reg.hostPortStatus k) F.HOST_PORT_STATUS_STATE == 3 && s.fld (Reg.bootStatus k) F.BOOT_STATUS_STAGE == 3

/-- The first `n` bytes of the recovery buffer of a port. -/
def State.recoveryImage (s : State) (k n : Nat) : List Byte :=
  (List.range n).map fun i => spGet (fun _ => 0) (s.host k).recovery i

/-- The recovery of P-die `k` has ended: the port no longer presents it. -/
def State.endRecovery (s : State) (k : Nat) : State :=
  let up := s.fld (Reg.hostPortStatus k) F.HOST_PORT_STATUS_WIDTH != 0
  (s.setHost k { s.host k with recovery := [] }).setFld (Reg.hostPortStatus k) F.HOST_PORT_STATUS_STATE (if up then 2 else 1)

/-- An authentic roast was received. While the package itself boots, BOOT takes it up; where it is up, the P-die boots and
becomes the standby. -/
def State.recovered (s : State) (k : Nat) (r : Roast) : State :=
  let t := (s.setFld Reg.recoveryCtrl F.RECOVERY_CTRL_STATE 4).modSec fun x => { x with received := spPut k r x.received }
  if t.booting then t else (((t.startRoast k r).bootDone k 0 false true 0).beginSync k 0).endRecovery k

/-- A write of RECOVERY_CTRL with GO: verifies BYTES of the buffer. -/
def State.recoveryGo (s : State) (k n : Nat) : State :=
  let t := s.setFld Reg.recoveryCtrl F.RECOVERY_CTRL_BYTES n
  if !t.recovering k then t
  else
    let bad := t.setFld Reg.recoveryCtrl F.RECOVERY_CTRL_STATE 3
    if n % 128 ≠ 0 ∨ n < 8192 ∨ 2 ^ 24 < n then bad
    else
      let img := t.recoveryImage k n
      match roastOf img with
      | some r => if t.roastFault img = 0 ∧ t.bootable r then t.recovered k r else bad
      | none => bad

def execRecoveryGo (k : Fin 2) (bytes : BitVec 32) (s : State) : Res State := s.go (s.recoveryGo k.val bytes.toNat)

/-- 60 s without an authentic roast. -/
def execRecoveryTimeout (k : Fin 2) (s : State) : Res State :=
  s.go <|
    if !s.recovering k.val ∨ s.fld Reg.recoveryCtrl F.RECOVERY_CTRL_STATE = 4 then s
    else
      let t := ((s.setFld Reg.recoveryCtrl F.RECOVERY_CTRL_STATE 0).endRecovery k.val).bootStop k.val 4
      let t := t.setFld (Reg.hostPortStatus k.val) F.HOST_PORT_STATUS_STATE 0
      if t.booting then t.stoppedAlert else t.noStandby k.val 3 (t.fld (Reg.pdieStatus k.val) F.PDIE_STATUS_CHANGE)

/-! ### PCIe links (R641, R644) -/

/-- Training of a port ends: a link of a width and rate, or none. -/
def execPcieRetrain (k : Fin 2) (link : Option (Bool × Bool)) (s : State) : Res State :=
  let a := Reg.hostPortStatus k.val
  s.go <|
    if s.fld a F.HOST_PORT_STATUS_STATE = 2 ∨ s.fld (Reg.bootStatus k.val) F.BOOT_STATUS_STAGE = 0xF then s
    else
      match link with
      | none => if s.recovering k.val then s else s.setFld a F.HOST_PORT_STATUS_STATE 0
      | some (x16, g64) =>
        let t := s.setFlds a [(F.HOST_PORT_STATUS_WIDTH, if x16 then 2 else 1), (F.HOST_PORT_STATUS_RATE, b2n g64)]
        if t.recovering k.val then t else t.setFld a F.HOST_PORT_STATUS_STATE 2

/-- The last COMPLETE of a canal in the logbook. (DESIGN CHOICE, log entry 18.) -/
def State.lastComplete (s : State) (c : Nat) : Option LogEntry :=
  (s.log.entries.filter fun x => x.kind == 2 && x.canal == c).getLast?

/-- A request for a canal's ring fails on PCIe: a ring read, or the last tally write, which then has not advanced
CANAL_TALLY_TAIL. -/
def execPcieCompletionError (c : Fin 256) (tally : Bool) (s : State) : Res State :=
  s.go <|
    if !s.canalActive c.val ∨ s.fld (Reg.canalCtrl c.val) F.CANAL_CTRL_RING_LOC = 2 then s
    else if !tally then s.canalFault c.val 0x02
    else
      let tail := s.reg (Reg.canalTallyTail c.val)
      match if tail = s.reg (Reg.canalTallyHead c.val) then none else s.lastComplete c.val with
      | none => s
      | some x =>
        let t := (s.setReg (Reg.canalTallyTail c.val) ((tail + 2 ^ 32 - 1) % 2 ^ 32)).canalFault c.val 0x03
        t.logEnter 0x5 c.val x.seq 0 x.part [] [] (bytesLE 8 x.number)

/-! ### Window 4 (R643) -/

/-- The partition and the local address that a window-4 access reaches; none where the window is disabled. -/
def State.win4Addr (s : State) (k : Nat) (w : Win4) : Option (Nat × Nat) :=
  match w.vf with
  | some p => some (p.val, 2 ^ 32 + w.offset)
  | none =>
    let a := Reg.hostWin4 k
    if s.flag a F.HOST_WIN4_ENABLE then some (s.fld a F.HOST_WIN4_PART, s.fld a F.HOST_WIN4_BASE * 65536 + w.offset) else none

/-- The CODE of Table 23-6 with which an access fails. (DEDUCED, log entry 45.) -/
def State.win4Fault (s : State) (k : Nat) (w : Win4) : Option Nat :=
  match s.win4Addr k w with
  | none => some 5
  | some (p, la) =>
    let n := ((w.write.map List.length).getD w.len)
    if !s.live p then some 4
    else if (s.rangeFault s.maps p false la n).isSome then some 1
    else if w.write.isSome ∧ (s.rangeFault s.maps p true la n).isSome then some 2
    else none

/-- Records a failure in HOST_ERR. (DEDUCED, log entry 45.) -/
def State.hostErr (s : State) (k code offset : Nat) : State :=
  (s.satAdd (Reg.hostErr k) F.HOST_ERR_COUNT 1).setFlds (Reg.hostErr k) [(F.HOST_ERR_CODE, code), (F.HOST_ERR_OFFSET, offset)]

/-- Poisons the units that a local range touches. -/
def State.poisonLocal (s : State) (p la n : Nat) : State :=
  (List.range n).foldl (fun t i => t.setPoison (t.paOf t.maps p (la + i))) s

/-- Performs a window-4 access that no failure stops. (DEDUCED, log entry 45.) -/
def State.win4 (s : State) (k p la : Nat) (w : Win4) (errs : List (Nat × Ecc)) (x : Contest) : State :=
  let t := s.wakeBasin (s.paOf s.maps p la)
  let t := t.remoteContest p la w.len w.write.isSome x
  match w.write with
  | some bs =>
    let t := (t.meetAll errs).storeLocal t.maps p la bs
    if w.ep then t.poisonLocal p la bs.length else t
  | none =>
    let t := t.meetAll errs
    let bs := t.localBytes t.maps p la w.len
    if (List.range w.len).any fun i => t.poisonedAt (t.paOf t.maps p (la + i)) then
      (t.hostErr k 3 w.offset).emit (.poisoned bs)
    else t.emit (.bytes bs)

/-- A host access through window 4 of port `k`: a wake event in S4. -/
def execWindow4Access (k : Fin 2) (w : Win4) (errs : List (Nat × Ecc)) (x : Contest) (s : State) : Res State :=
  s.go <|
    if !s.booted ∨ s.fld (Reg.hostPortStatus k.val) F.HOST_PORT_STATUS_STATE ≠ 2 then s
    else
      let t := if s.fld Reg.weirStatus F.WEIR_STATUS_STATE = 4 then s.wakeFirst else s
      let refuse := fun (u : State) => if w.write.isSome then u else u.emit .unsupported
      if w.vf.any (fun p => !t.vfExists k.val p.val) then refuse t
      else
        match t.win4Fault k.val w, t.win4Addr k.val w with
        | none, some (p, la) => t.win4 k.val p la w errs x
        | code, _ => refuse (t.hostErr k.val (code.getD 5) w.offset)

/-! ### Lost clocks (R670) -/

/-- A reference is lost. -/
def State.clockOut (s : State) (i : Nat) : State := { s with health := { s.health with clkOut := setIns i s.health.clkOut } }

/-- Every paced reach slips once (R49). -/
def State.slipAll (s : State) : State :=
  (List.range 64).foldl (fun t r =>
    if !t.paced r then t
    else
      let u := t.countSat (Reg.paceSlipCount r) 1
      match u.class2 r with
      | some p => u.slipYields p r
      | none => u) s

/-- A PCIe reference is lost: its port goes down; the active P-die's clocks switch to the other reference, and with both
lost, pacing loses lock. (DEDUCED, log entry 45.) -/
def execRefclkLoss (k : Fin 2) (s : State) : Res State :=
  s.go <|
    if s.health.clkOut.contains k.val then s
    else
      let t := s.clockOut k.val
      let t := if t.health.clkOut.contains (1 - k.val) then t.lockLoss else if k.val = t.activePdie then t.slipAll else t
      if t.booting then t.absorb else t.portReset k.val 5

/-- A SerDes reference is lost: so are the links of its F-die. -/
def execSrefclkLoss (f : Fin 2) (s : State) : Res State :=
  s.go <|
    if s.health.clkOut.contains (2 + f.val) then s
    else (List.range 9).foldl (fun t p => if t.linked (9 * f.val + p) then t.linkLost (9 * f.val + p) else t)
      (s.clockOut (2 + f.val))

/-- An always-on reference is lost: its island runs on from another. -/
def execAonClkLoss (k : Fin 2) (s : State) : Res State := s.go (s.clockOut (4 + k.val))

end Sys2Proof.Machine
end

