-- ==== Sys2Proof/Machine/Canals.lean ====
section
/-! DEFINITION. Canals: the writes of their registers (R348 to R354), acceptance (R359, R360), the start of a barge
(R361), deadlines before the start and after it (R366 to R368), and E4 queue mode (R382 to R388). -/

namespace Sys2Proof.Machine

/-! ### Register writes -/

/-- A write of a canal register before step 14 of Table 22-4 has no effect and sets CFG_IGNORED (R634). -/
def State.canalWrite (s : State) (c : Nat) (write : State → State) : State :=
  if s.booted then write s else s.setFld (Reg.canalStatus c) F.CANAL_STATUS_CFG_IGNORED 1

/-- Is a ring base of a partition canal in device memory usable (step 4 of R351)? (DEDUCED, log entry 19.) -/
def State.ringBaseOk (s : State) (c : Nat) (write : Bool) (base : Nat) : Bool :=
  match s.canalPart c with
  | none => false
  | some p => decide (2 ^ 32 ≤ base) && (match s.execTranslate p write 1 base with
    | .ok _ => true
    | .error _ => false)

/-- The steps of R351 when ENABLE changes from 0 to 1. -/
def State.canalEnable (s : State) (c : Nat) : State :=
  let h := s.reg (Reg.canalHead c)
  let t := (((s.setReg (Reg.canalTail c) h).setReg (Reg.canalDoneSeq c) h).setReg (Reg.canalTallyTail c) 0).setReg
    (Reg.canalTallyHead c) 0
  let t := t.setFlds (Reg.canalStatus c) [(F.CANAL_STATUS_FAULT, 0), (F.CANAL_STATUS_FAULT_CAUSE, 0)]
  let e : E4Batch := spGet (fun _ => ({} : E4Batch)) t.e4 c
  let t := ({ t with e4 := spSet (fun _ => ({} : E4Batch)) c { e with size := 0, openB := false } t.e4 }).pruneDone c
  let t := (t.setFld (Reg.canalCtrl c) F.CANAL_CTRL_ENABLE 1).logCanal c
  if t.fld (Reg.canalCtrl c) F.CANAL_CTRL_RING_LOC == 2 &&
      !(t.ringBaseOk c false (t.reg (Reg.canalRing c)) && t.ringBaseOk c true (t.reg (Reg.canalTallyRing c))) then
    t.canalFault c 0x04
  else t

/-- What a write makes of the fields of CANAL_CTRL other than ENABLE (Table 12-2). -/
def State.canalConfig (s : State) (c v : Nat) (window0 : Bool) : Nat :=
  let old := s.reg (Reg.canalCtrl c)
  let keep := fun (f : Fld) (ok : Nat → Bool) =>
    let x := bitsOf v f.hi f.lo
    (f, if ok x then x else bitsOf old f.hi f.lo)
  [keep F.CANAL_CTRL_RING_LOG2 (fun x => decide (6 ≤ x ∧ x ≤ 16)), keep F.CANAL_CTRL_IRQ (· != 3),
    keep F.CANAL_CTRL_RING_LOC (· != 3), keep F.CANAL_CTRL_MODE (fun _ => true),
    keep F.CANAL_CTRL_EHL (fun _ => window0)].foldl (fun n fv => withBits n fv.1.hi fv.1.lo fv.2) old

/-- A write of CANAL_CTRL (R349): the fields other than ENABLE are locked while the canal is enabled or not idle. -/
def State.writeCanalCtrl (s : State) (c v : Nat) (window0 : Bool) : State :=
  s.canalWrite c fun s =>
    let old := s.reg (Reg.canalCtrl c)
    let was := bitOf old 0
    let new := s.canalConfig c v window0
    let t := if new = old then s
      else if was || !s.canalIdle c then s.setFld (Reg.canalStatus c) F.CANAL_STATUS_CFG_IGNORED 1
      else s.setReg (Reg.canalCtrl c) new
    if bitOf v 0 && !was then t.canalEnable c
    else if !bitOf v 0 && was then (t.setFld (Reg.canalCtrl c) F.CANAL_CTRL_ENABLE 0).logCanal c
    else t

/-- Setting ENABLE (R351): a write of CANAL_CTRL with bit 0 set and the other fields of `cfg`. -/
def execCanalEnable (c : Fin 256) (cfg : Word) (rp : RegPath) (s : State) : Res State :=
  s.go <| s.viaPath rp (Reg.canalCtrl c) fun t => t.writeCanalCtrl c (withBits cfg.toNat 0 0 1) rp.view.isNone

/-- Clearing ENABLE (R351): a write of CANAL_CTRL with bit 0 clear and the other fields of `cfg`. -/
def execCanalDisable (c : Fin 256) (cfg : Word) (rp : RegPath) (s : State) : Res State :=
  s.go <| s.viaPath rp (Reg.canalCtrl c) fun t => t.writeCanalCtrl c (withBits cfg.toNat 0 0 0) rp.view.isNone

/-- A doorbell write (R352). One that takes effect on an active canal is a wake event (R459). (DEDUCED, log entry 19.) -/
def State.writeDoorbell (s : State) (c v : Nat) : State :=
  s.canalWrite c fun s =>
    let t := v % 2 ^ 32
    if !s.flag (Reg.canalCtrl c) F.CANAL_CTRL_ENABLE then
      s.setFld (Reg.canalStatus c) F.CANAL_STATUS_DOORBELL_IGNORED 1
    else if s.canalSlots c < (t + 2 ^ 32 - s.reg (Reg.canalHead c)) % 2 ^ 32 then s.canalFault c 0x01
    else
      let u := s.setReg (Reg.canalTail c) t
      if u.canalActive c then u.wakeUp else u

def execCanalDoorbell (c : Fin 256) (v : Word) (rp : RegPath) (s : State) : Res State :=
  s.go <| s.viaPath rp (Reg.canalDoorbell c) fun t => t.writeDoorbell c v.toNat

/-- A write of CANAL_TALLY_HEAD (R353). -/
def State.writeTallyHead (s : State) (c v : Nat) : State :=
  s.canalWrite c fun s =>
    let u := v % 2 ^ 32
    let old := s.reg (Reg.canalTallyHead c)
    if (u + 2 ^ 32 - old) % 2 ^ 32 ≤ (s.reg (Reg.canalTallyTail c) + 2 ^ 32 - old) % 2 ^ 32 then
      s.setReg (Reg.canalTallyHead c) u
    else s.setFld (Reg.canalStatus c) F.CANAL_STATUS_TALLY_HEAD_BAD 1

def execCanalTallyHead (c : Fin 256) (v : Word) (rp : RegPath) (s : State) : Res State :=
  s.go <| s.viaPath rp (Reg.canalTallyHead c) fun t => t.writeTallyHead c v.toNat

/-- A write of CANAL_HEAD, of a ring base or of an E4 register (R348, R350, R388). -/
def State.writeCanalHead (s : State) (c v : Nat) : State :=
  s.canalWrite c fun s =>
    if s.flag (Reg.canalCtrl c) F.CANAL_CTRL_ENABLE then s else s.setReg (Reg.canalHead c) (v % 2 ^ 32)

def State.writeE4Ctrl (s : State) (c v : Nat) : State :=
  s.canalWrite c fun s =>
    let m := bitsOf v 6 0
    let t := s.setFld (Reg.canalE4Ctrl c) F.CANAL_E4_CTRL_BATCH_WAIT (bitsOf v 31 16)
    if 1 ≤ m ∧ m ≤ 64 then t.setFld (Reg.canalE4Ctrl c) F.CANAL_E4_CTRL_BATCH_MAX m else t

/-! ### Acceptance (R359, Table 12-6) -/

/-- The acceptance checks in order: the status and RESULT0 of the first that fails. `h` is CANAL_HEAD once it has
advanced, `src` whether the barge is the translation of an E4 packet. (DEDUCED, log entry 19.) -/
def State.acceptFail (s : State) (b : Barge) (src : Bool) (h : Nat) : Option (Nat × Nat) :=
  let c := b.canal
  let cp := s.canalPart c
  let hseq := b.f 5 2
  let tok := fun i => b.f (27 + 4 * i) (24 + 4 * i)
  let valid := [0, 1].filter fun i => b.flagB (5 + i)
  let first := fun (p : Nat → Bool) => (valid.find? p).map fun i => 24 + 4 * i
  let fieldErr : Option Nat :=
    if b.f 6 6 ≠ c then some 6
    else if bitOf (b.f 7 7) 3 then some 7
    else if 2 ^ 7 ≤ b.flags then some 8
    else if !b.flagB 5 && tok 0 != 0 then some 24
    else if !b.flagB 6 && tok 1 != 0 then some 28
    else if !b.packet.isEmpty && decide (8 ≤ (b.packet.getD 1 0).toNat) then some 1
    else none
  let dist := fun i => (tok i % 2 ^ 24 + 2 ^ 24 - h % 2 ^ 24) % 2 ^ 24
  if hseq ≠ b.seq then some (St.malformed, hseq)
  else
    match fieldErr with
    | some o => some (St.malformed, o)
    | none =>
      match opSources b.opcode with
      | none => some (St.malformed, 0)
      | some sr =>
        let bad4 := match cp with
          | some p => b.part != p
          | none => !opForPart b.opcode && b.part != 0
        let bad5 := match sr with
          | .any => src
          | .system => cp.isSome
          | .ehl => !s.flag (Reg.canalCtrl c) F.CANAL_CTRL_EHL
          | .translated => !src
        if bad4 then some (St.notPermitted, 7)
        else if bad5 then some (St.notPermitted, 0)
        else
          match first fun i => tok i / 2 ^ 24 == c && (decide (dist i < 2 ^ 23) || dist i == 2 ^ 24 - 1) with
          | some o => some (St.malformed, o)
          | none =>
            match first fun i => cp.isSome && s.canalPart (tok i / 2 ^ 24) != cp with
            | some o => some (St.notPermitted, o)
            | none => if b.deadline ≠ 0 ∧ b.deadline ≤ s.now then some (St.deadlineMissed, 0) else none

/-- Accepts a barge: the ACCEPT entry, CANAL_HEAD, the checks, and the tokens resolved (R363). (DEDUCED, log entry 20.) -/
def State.acceptBarge (s : State) (c : Nat) (bytes packet : List Byte) (batch : Nat) : State :=
  let q := s.reg (Reg.canalHead c)
  let h := (q + 1) % 2 ^ 32
  let b0 : Barge :=
    { canal := c, seq := q, bytes := bytes, packet := packet, entry := 0, part := fieldB bytes 7 7 % 8, headAt := [],
      deps := [], phase := .waiting, notes := 0, work := .none, admitted := false, startAt := 0, batch := batch, acc := 0 }
  let t := s.logEnter 0x0 c q 0 (s.logPart c b0.actsFor) b0.logBytes [] []
  let n := t.log.next - 1
  let t := t.setReg (Reg.canalHead c) h
  let headOf := fun k => t.reg (Reg.canalHead k)
  let fail := t.acceptFail b0 (!packet.isEmpty) h
  let toks := ([0, 1].filter fun i => b0.flagB (5 + i)).map fun i => b0.f (27 + 4 * i) (24 + 4 * i)
  let b := { b0 with
    entry := n, acc := n
    headAt := [(b0.f 35 35, headOf (b0.f 35 35))]
    deps := if fail.isSome then [] else toks.map fun k => tokenOf k (headOf (k / 2 ^ 24)) }
  let t := { t with
    barges := t.barges ++ [b]
    done := t.done.filter fun d => !(d.canal == c && d.seq == q) }
  match fail with
  | some (st, r0) => t.finish c q st r0 0
  | none => t.settle t.barges.length

/-- May the package fetch the next barge of a canal (R359, R428, R595)? -/
def State.mayFetch (s : State) (c : Nat) (e4 : Bool) : Bool :=
  s.booted && !s.takingOver && s.canalActive c && s.flag (Reg.canalCtrl c) F.CANAL_CTRL_MODE == e4 &&
    s.reg (Reg.canalTail c) != s.reg (Reg.canalHead c) && s.tallyFree c && decide (s.barges.length < 1048576)

/-- Reads the next ring slot of a canal, from device memory or as the host returned it, and goes on with its bytes; a
read that cannot be made faults the canal (R354, R644). -/
def State.fetchSlot (s : State) (c size : Nat) (ring : List Byte) (k : List Byte → State) : State :=
  let a := s.ringSlot c (s.reg (Reg.canalRing c)) size (s.reg (Reg.canalHead c))
  if s.fld (Reg.canalCtrl c) F.CANAL_CTRL_RING_LOC == 2 then
    match (s.canalPart c).map fun p => s.execTranslate p false 1 a with
    | some (.ok pa) => if (s.poisonIn pa size).isSome then s.canalFault c 0x02 else k (s.bytesAt pa size)
    | _ => s.canalFault c 0x02
  else if s.canMaster c (s.canalPort c) then k (sliceB ring 0 size)
  else s.canalFault c 0x02

/-- Fetches and accepts the next barge of a native canal. `ring` is what the host returns for a ring in host memory.
The acceptance is a wake event (R459). -/
def execBargeAccept (c : Fin 256) (ring : List Byte) (s : State) : Res State :=
  s.go <| if s.mayFetch c false then
      s.fetchSlot c 128 ring fun bytes => (s.acceptBarge c bytes [] 0).wakeUp
    else s

/-! ### E4 queue mode -/

/-- The native barge that an E4 packet translates to (R383, R384). (DEDUCED, log entry 20.) -/
def State.e4Translate (s : State) (c : Nat) (p : List Byte) : List Byte :=
  let g := fun hi lo => fieldB p hi lo
  let addr := fun hi lo => (s.fld (Reg.canalE4Base c) F.CANAL_E4_BASE_BASE * 65536 + g hi lo) % 2 ^ 64
  let part := s.fld (Reg.canalCtrl c) F.CANAL_CTRL_PARTITION
  let head := bytesLE 2 (0xE00 + g 0 0) ++ bytesLE 4 (g 7 4) ++ [BitVec.ofNat 8 c, BitVec.ofNat 8 part] ++
    List.replicate 24 0
  let pay : List Byte :=
    match g 0 0 with
    | 0x01 => bytesLE 8 (addr 15 8) ++ bytesLE 8 (addr 23 16) ++ bytesLE 8 (g 31 24)
    | 0x02 => bytesLE 8 (addr 15 8) ++ bytesLE 8 (g 23 16) ++ bytesLE 8 (g 31 24)
    | 0x10 => bytesLE 4 (g 11 8) ++ bytesLE 4 1 ++ bytesLE 2 0 ++ bytesLE 2 (min (g 15 12) 0xFFFF) ++
        List.replicate 20 0 ++ sliceB p 16 48
    | 0x18 => bytesLE 8 (s.reg (Reg.partReaches part)) ++ bytesLE 4 0 ++ bytesLE 3 basinSize ++ [0] ++
        bytesLE 8 (addr 15 8) ++ bytesLE 8 (addr 23 16) ++ bytesLE 4 (g 27 24) ++ bytesLE 2 (g 29 28) ++
        bytesLE 2 (g 31 30) ++ bytesLE 1 (g 32 32) ++ bytesLE 1 (g 33 33)
    | 0x20 => bytesLE 8 (addr 15 8) ++ bytesLE 8 (g 23 16) ++ [0]
    | 0x21 => bytesLE 8 (addr 15 8) ++ bytesLE 8 (g 23 16) ++ bytesLE 1 (g 24 24)
    | _ => []
  sliceB (head ++ pay) 0 128

/-- The batch that the next packet of a canal joins, and the canal's record once it has joined (R385). -/
def State.e4Join (s : State) (c : Nat) (concurrent : Bool) : E4Batch :=
  let b : E4Batch := spGet (fun _ => ({} : E4Batch)) s.e4 c
  let max := s.fld (Reg.canalE4Ctrl c) F.CANAL_E4_CTRL_BATCH_MAX
  let n := if b.openB then b.size + 1 else 1
  ⟨if b.openB then b.num else b.num + 1, n, concurrent && decide (n < max)⟩

/-- Fetches an E4 packet, translates it and adds it to the open batch or begins a new one. -/
def execE4Packet (c : Fin 256) (ring : List Byte) (s : State) : Res State :=
  s.go <| if s.mayFetch c true then
      s.fetchSlot c 64 ring fun p =>
        let b := s.e4Join c (bitOf (p.getD 1 0).toNat 0)
        let b := if s.fld (Reg.canalE4Ctrl c) F.CANAL_E4_CTRL_BATCH_WAIT == 0 then { b with openB := false } else b
        (({ s with e4 := spSet (fun _ => ({} : E4Batch)) c b s.e4 }).acceptBarge c (s.e4Translate c p) p b.num).wakeUp
    else s

/-- No next packet arrives within BATCH_WAIT: the batch closes (R385). -/
def execE4BatchWait (c : Fin 256) (s : State) : Res State :=
  s.go <|
    let b : E4Batch := spGet (fun _ => ({} : E4Batch)) s.e4 c
    { s with e4 := spSet (fun _ => ({} : E4Batch)) c { b with openB := false } s.e4 }

end Sys2Proof.Machine
end

