-- ==== Sys2Proof/Machine/Cargo.lean ====
section
/-! DEFINITION. The cargo barges: CARGO_LOAD, CARGO_RUN, CARGO_ARM with its lock gate, CARGO_ABORT, CARGO_FREE (R377 to
R381, R407 to R416). -/

namespace Sys2Proof.Machine

/-! ### CARGO_LOAD (R410) -/

/-- The lowest free slot of a partition's store. -/
def State.freeSlot (s : State) (p : Nat) : Option Nat := (List.range 64).find? fun k => !(s.cargoSlot p k).loaded

/-- The bytes that a partition's store holds. -/
def State.storeUsed (s : State) (p : Nat) : Nat :=
  ((s.cargo.filter fun x => x.part == p && x.loaded).map fun x => x.image.length).sum

/-- CARGO_LOAD validates an image and copies it into the lowest free slot; those of one partition take slots in the order
in which they start. -/
def execCargoLoad (c : Fin 256) (q : Nat) (errs : List (Nat × Ecc)) (x : Contest) (s : State) : Res State :=
  s.work c.val q [0x200] fun b t =>
    if t.startedBefore b [0x200] fun x => x.part == b.part then t else
    let p := b.part
    let (base, n) := (b.f 39 32, b.f 47 40)
    let rf := t.rangeFault t.maps p false base n
    t.checked b [(!b.reservedZero [(127, 48)], St.malformed, 0),
      (base % 128 != 0 || decide (base < 2 ^ 32), 0x0217, base),
      (n % 128 != 0 || n == 0 || decide (8 * 2 ^ 20 < n), 0x0217, n),
      (rf.isSome, 0x0217, rf.getD 0)] fun t =>
      let t := ((t.execContest b (t.touches p base n false) x).useRange (some (b.canal, b.seq)) t.maps p base n).meetAll errs
      let bad := t.localPoison t.maps p base n
      let img := t.localBytes t.maps p base n
      let imf := imageFault img n
      let pt := passBytes img
      let tied := t.tied p img
      let full := (t.freeSlot p).isNone || decide (64 * 2 ^ 20 < t.storeUsed p + n)
      t.checked b [(bad.isSome, 0x0217, bad.getD 0), (imf.isSome, 0x0214, imf.getD 0),
        ((match pt with
          | some k => passBad k
          | none => usesDefer img), 0x0212, 0),
        (tied.isSome, 0x0210, tied.getD 0), (full, St.noResource, 0)] fun t =>
        let k := (t.freeSlot p).getD 0
        let g := (t.cargoSlot p k).gen
        (t.setCargoSlot ⟨p, k, g, true, img, t.mapVersion p⟩).finish b.canal b.seq St.done (k + g * 256) 0

/-! ### The checks of CARGO_RUN and CARGO_ARM (R378, R412) -/

/-- Check 1 of R412: the reserved fields. -/
def Barge.cargoReserved (b : Barge) : Bool :=
  if b.native = 0x202 then decide (b.f 39 36 < 8)
  else decide (b.f 39 36 < 2) && b.reservedZero [(63, 48)] && (!bitOf (b.f 39 36) 0 || zeroB b.bytes 47 44)

/-- The overlap check that a changed map calls for (check 6). -/
def State.cargoTied (s : State) (b : Barge) : Option Nat :=
  match s.cargoOf b.part (b.f 35 32) with
  | some x => if x.mapVer = s.mapVersion b.part then none else s.tied b.part x.image
  | none => none

/-- The checks of R412 in order, and the gate's of R378. -/
def State.cargoChecks (s : State) (b : Barge) : List (Bool × Nat × Nat) :=
  let p := b.part
  let sel := b.native == 0x201 && bitOf (b.f 39 36) 0
  let rs := s.reachesOf b
  let tied := s.cargoTied b
  let gate := match s.execTranslate p true 8 (b.f 55 48) with
    | .ok _ => false
    | .error _ => true
  [(!b.cargoReserved, St.malformed, 0),
    ((s.cargoOf p (b.f 35 32)).isNone, 0x0215, 0),
    (!sel && rs.any fun r => !s.ownsReach p r, St.notPermitted, 0),
    (rs.any s.reachGone, St.noResource, 0),
    (if sel then b.f 43 42 == 0 || decide ((s.partBacked p).length < b.f 41 40 + b.f 43 42) else b.f 47 40 == 0,
      0x0216, 0),
    (tied.isSome, 0x0210, tied.getD 0),
    (b.native == 0x202 && gate, 0x0213, 0)]

/-- The eight argument words. -/
def Barge.args (b : Barge) : List Word :=
  (List.range 8).map fun i => BitVec.ofNat 64 (b.f (71 + 8 * i) (64 + 8 * i))

/-- An armed cluster keeps what its last stop left until it starts (R110). -/
def Cluster.afterStop (c : Cluster) (act : Act) (old : Cluster) : Cluster :=
  if act = .armed then { c with
    faulted := old.faulted, stopCause := old.stopCause, stopTval := old.stopTval, stopEpc := old.stopEpc } else c

/-- Places the cargo in every selected basin and sets the start state, `act` being what the clusters then do. -/
def State.placeCargo (s : State) (b : Barge) (x : CargoSlot) (act : Act) (gate : Option Gate) : State :=
  let ps := (s.selClusters b).filterMap s.physOfLog
  let t := ps.foldl (fun t P => (t.placeIn x.image P).setCl P
    ((startCluster act (entryOf x.image) b.args b.seed b.deadline b.canal b.seq).afterStop act (t.cl P))) s
  let t := t.setCargoSlot { x with mapVer := t.mapVersion b.part }
  t.working b.canal b.seq fun d => { d with
    work := .run ⟨ps, ps, 0, 0, 0, gate, b.args, [], none⟩ }

/-- CARGO_RUN (R413): checks 2 to 6 again, placement, the start. -/
def execCargoRun (c : Fin 256) (q : Nat) (s : State) : Res State :=
  s.work c.val q [0x201] fun b t => t.checked b (t.cargoChecks b) fun t =>
    match t.cargoOf b.part (b.f 35 32) with
    | none => t
    | some x => (t.placeCargo b x .running none).finishRun b.canal b.seq

/-! ### CARGO_ARM and its gate (R379 to R381) -/

/-- Releases the gate: every armed cluster goes on to its first instruction, unless the deadline has passed (R381) or a
solver barge holds a reach of the mask (R210). -/
def State.release (s : State) (b : Barge) (w : RunWork) (g : Gate) : State :=
  if b.deadline ≠ 0 ∧ b.deadline ≤ s.now then
    ((s.logStop b 0x03 none).disarm w).finish b.canal b.seq St.deadlineMissed 0 0
  else if s.gateHeld w then
    s.setBarge { b with work := .run { w with gate := some { g with tripped := true } } }
  else
    let t := (s.unwatch (.barge b.canal b.seq)).setBarge
      { b with work := .run { w with gate := some { g with released := true } } }
    (w.clusters.foldl (fun t P => t.modCl P Cluster.released) t).finishRun b.canal b.seq

/-- Reads the gate word of an armed barge: poison disarms, a condition that holds releases. -/
def State.readGate (s : State) (c q : Nat) (ecc : Ecc) : State :=
  match s.barge? c q with
  | none => s
  | some b =>
    match b.run? with
    | none => s
    | some w =>
      match w.gate with
      | none => s
      | some g =>
        if g.released then s
        else if g.tripped then s.release b w g
        else
          let t := (s.stall [(g.pa, 8)]).meetEcc ecc g.pa
          if t.poisonedAt g.pa then (t.disarm w).finish c q 0x021A g.la 0
          else if condHolds g.cond (BitVec.ofNat 64 (t.numAt g.pa 8)) g.ref then t.release b w g
          else t

/-- CARGO_ARM (R379): the checks, placement, the armed state, the watch and the first read. -/
def execCargoArm (c : Fin 256) (q : Nat) (ecc : Ecc) (s : State) : Res State :=
  s.work c.val q [0x202] fun b t => t.checked b (t.cargoChecks b) fun t =>
    match t.cargoOf b.part (b.f 35 32), t.execTranslate b.part true 8 (b.f 55 48) with
    | some x, .ok pa =>
      let (watched, t) := t.takeWatch pa (.barge b.canal b.seq)
      let g : Gate := ⟨b.f 55 48, pa, b.f 39 36 % 8, BitVec.ofNat 64 (b.f 63 56), watched, false, false⟩
      (t.placeCargo b x .armed (some g)).readGate b.canal b.seq ecc
    | _, _ => t

/-- Is the gate of an armed barge watched? -/
def State.gateWatched (s : State) (c q : Nat) : Option Bool :=
  ((s.barge? c q).bind Barge.run?).bind fun w => w.gate.map (·.watched)

/-- A write to a watched gate word, or the end of the hold that a release waited for. -/
def execLockGateRelease (c : Fin 256) (q : Nat) (ecc : Ecc) (s : State) : Res State :=
  s.go <| if (s.gateWatched c.val q).isSome then s.readGate c.val q ecc else s

/-- A gate without a watch entry reads its word every 256 hc. -/
def execLockGatePoll (c : Fin 256) (q : Nat) (ecc : Ecc) (s : State) : Res State :=
  s.go <| if s.gateWatched c.val q == some false then s.readGate c.val q ecc else s

/-! ### CARGO_ABORT and CARGO_FREE (R415, R416) -/

/-- CARGO_ABORT: its target stops under R107 and R381. -/
def execCargoAbort (c : Fin 256) (q : Nat) (s : State) : Res State :=
  s.work c.val q [0x203] fun b t =>
    let tok := b.f 35 32
    let k := tok / 2 ^ 24
    let cp := t.canalPart b.canal
    t.checked b [(!b.reservedZero [(127, 36)], St.malformed, 0),
      (cp.isSome && t.canalPart k != cp, St.notPermitted, 0)] fun t =>
      let h := ((b.headAt.find? fun x => x.1 == k).map (·.2)).getD (t.reg (Reg.canalHead k))
      let d := tokenOf tok h
      match t.barge? d.canal d.seq with
      | none => t.finish b.canal b.seq St.done 0 0
      | some x =>
        if x.native ≠ 0x201 ∧ x.native ≠ 0x202 then t.finish b.canal b.seq 0x0219 0 0
        else if t.runPaused x then t
        else
          let u := t.working b.canal b.seq fun e => { e with work := .abort x.canal x.seq }
          match x.phase with
          | .waiting => (u.logStop x 0x02 (some (b.canal, b.seq))).finish x.canal x.seq St.cancelled 0 0
          | .ended _ _ _ => u
          | _ => (u.stopNow x 0x02 (some (b.canal, b.seq)) St.cancelled).2

/-- Does an accepted, uncompleted barge of a partition other than `b` name a cargo? (DESIGN CHOICE, log entry 59.) -/
def State.cargoNamed (s : State) (b : Barge) (h : Nat) : Bool :=
  s.barges.any fun x => x.part == b.part && x.acc != b.acc &&
    (x.native == 0x201 || x.native == 0x202 || x.native == 0x204) && x.f 35 32 == h

/-- CARGO_FREE empties a slot; its generation rises by one. -/
def execCargoFree (c : Fin 256) (q : Nat) (s : State) : Res State :=
  s.work c.val q [0x204] fun b t =>
    let h := b.f 35 32
    t.checked b [(!b.reservedZero [(127, 36)], St.malformed, 0), ((t.cargoOf b.part h).isNone, 0x0215, 0),
      (t.cargoNamed b h, 0x0218, 0)] fun t =>
      (t.setCargoSlot ⟨b.part, h % 256, (h / 256 + 1) % 2 ^ 24, false, [], 0⟩).finish b.canal b.seq St.done 0 0

/-! ### The start of a barge (R361, R412, R471) -/

/-- Does a barge wait on a domain's shut-down or on a partition's scrub, which makes its status ENABLE_DEFERRED (R465,
R473), or an E4_LAUNCH for clusters of its batch (R386)? -/
def State.defers (s : State) (b : Barge) : Bool :=
  if b.native = 0x702 then
    s.barges.any fun x => x.begun && x.native == 0x703 && x.f 32 32 == b.f 32 32 && x.f 39 36 == b.f 39 36
  else if b.native = 0x201 then s.e4Crowded b
  else b.native == 0x800 && ((s.barges.any fun x => x.begun && x.native == 0x801 && x.part == b.part) ||
    (List.range 8).any fun p => s.partSt p == 3 &&
      (((setBits 64 (b.f 55 48)).any fun r => s.reachPart r == some p) ||
        (List.range 256).any fun c => bitOf (b.f 87 56) c && s.canalPart c == some p))

/-- A solver barge whose work begins clears FLUSH_SEEN and the hidden flags of the clusters of its reaches (R70, R190). -/
def State.clearSeen (s : State) (r : Nat) : State :=
  ((s.backed r).filterMap s.physOfLog).foldl (fun t P => t.modCl P fun c =>
    { c with fpctrl := withBits c.fpctrl 8 8 0, flushed := false, clipped := false }) s

/-- Enters the START of a barge; THROTTLED where the weir held it for more than 1 µs or slows a die that it uses (R448). An
E4_LAUNCH takes its clusters (R386), and a solver barge's smallest pivot begins at +∞, the iterations of a SOLVE_ITER at
zero (R271). Solver work and cupping issue on their dies from here on (R452). -/
def State.startBarge (s : State) (b : Barge) : State :=
  let t := s.logEnter 0x1 b.canal b.seq 0 (s.logPart b.canal b.actsFor) [] [] []
  match t.barge? b.canal b.seq with
  | none => t
  | some d =>
    let held := match b.readyAt with
      | some r => decide (r + 1000 < s.now)
      | none => false
    let bytes := (s.e4Placed d).bytes
    let t := if b.native / 256 = 3 then (s.reachesOf b).foldl (fun u r =>
        let v := (u.setReg (Reg.solverDone r) 0).setReg (Reg.solverMinPivot r) 0x7FF0000000000000
        if b.native = 0x302 then (v.setReg (Reg.solverIterCount r) 0).setReg (Reg.solverResid r) 0 else v) t
      else t
    let t := if b.native / 256 = 3 ∨ b.native = 0x900 then
        (((s.reachesOf b).map (· / 16)).eraseDups).foldl State.firstIssue t
      else t
    (t.commitBegins b).setBarge { d with
      phase := .started, begun := true, yielded := d.yielded || t.timingLost d, startAt := s.now, startNo := t.log.next - 1, bytes := bytes
      notes := if held || (List.range 4).any (fun k => t.slowDie k && t.usesDie d k) then d.notes ||| Note.throttled
        else d.notes }

/-- Is a barge a PART_DESTROY with FORCE 1, which starts once conditions 1 to 3 hold (R477)? -/
def Barge.forced (b : Barge) : Bool := b.native == 0x801 && b.f 32 32 % 2 == 1

/-- A barge's attempt to start: a deadline that has passed ends it (R366), and so does a partition that is not live (R471);
then the cargo checks that come before the wait (R412), then conditions 4 and 5. -/
def State.tryStart (s : State) (b : Barge) : State :=
  if b.phase ≠ .waiting then s
  else if b.deadline ≠ 0 ∧ b.deadline ≤ s.now then
    (s.logStop b 0x03 none).finish b.canal b.seq St.deadlineMissed 0 0
  else if !s.ordered b ∨ s.partHolds b then s
  else if b.native ≠ 0x800 ∧ b.native ≠ 0x801 ∧ b.actsFor.any fun p => !s.live p then
    s.finish b.canal b.seq St.notPermitted 0 0
  else
    match if b.native = 0x201 ∨ b.native = 0x202 then firstFail (s.cargoChecks b) else none with
    | some (st, r0) => s.finish b.canal b.seq st r0 0
    | none =>
      if !s.resourcesFree b then
        s.setBarge { b with waitFrom := if s.defers b then some (b.waitFrom.getD s.now) else b.waitFrom }
      else if s.admits b || b.forced then s.startBarge b
      else
        (s.setBarge { b with readyAt := some (b.readyAt.getD s.now), passedAt := some (b.passedAt.getD s.now) }).passYields b

/-- A barge starts once its conditions hold. -/
def execBargeStart (c : Fin 256) (q : Nat) (s : State) : Res State :=
  s.go <| match s.barge? c.val q with
    | some b => s.tryStart b
    | none => s

end Sys2Proof.Machine
end

