-- ==== Sys2Proof/Machine/Vector.lean ====
section
/-! DEFINITION. The long-vector instructions that act on registers (R111 to R130, R133). Every result is computed from
the registers as they stand before the instruction, and written afterwards. -/

namespace Sys2Proof.Machine

/-! ### Elements and configuration -/

/-- The element width in bytes of a SEW code, and VLMAX (Table 4-3). -/
def sewBytes (sew : Nat) : Nat := 2 ^ (sew % 4)

def vlMax (sew : Nat) : Nat := 1024 / sewBytes sew

/-- SEW and ALT of CW_VTYPE (Table 4-2). -/
def Cluster.sew (c : Cluster) : Nat := bitsOf c.vtype 1 0

def Cluster.alt (c : Cluster) : Bool := bitOf c.vtype 2

/-- The element width in bytes and in bits. -/
def Cluster.ew (c : Cluster) : Nat := sewBytes c.sew

def Cluster.eb (c : Cluster) : Nat := 8 * c.ew

/-- The FP format of vector arithmetic; none at 8-bit width (Table 4-3). -/
def Cluster.vfmt (c : Cluster) : Option Fmt :=
  match c.sew with
  | 1 => some (if c.alt then .bf16 else .binary16)
  | 2 => some .binary32
  | 3 => some .binary64
  | _ => none

/-- Element `i` of width `w` bytes of the register (or group) that begins at v[n] (R111, R112). -/
def Cluster.el (c : Cluster) (w n i : Nat) : Nat := c.vnum (1024 * n + i * w) w

/-- Elements 0 to `k` − 1. -/
def Cluster.els (c : Cluster) (w n k : Nat) : List Nat := (List.range k).map (c.el w n)

/-- Writes elements from element `i` on. -/
def Cluster.putEls (c : Cluster) (w n i : Nat) : List Nat → Cluster
  | [] => c
  | x :: xs => (c.setV (1024 * n + i * w) w x).putEls w n (i + 1) xs

/-- Writes the elements of an instruction from element 0 on; the words that they cover together are no longer poisoned
(R285). -/
def Cluster.putAll (c : Cluster) (w n : Nat) (xs : List Nat) : Cluster :=
  (c.putEls w n 0 xs).covered [(1024 * n, xs.length * w)]

/-- Writes single elements: index and value. -/
def Cluster.putAt (c : Cluster) (w n : Nat) : List (Nat × Nat) → Cluster
  | [] => c
  | (i, x) :: xs => (c.setV (1024 * n + i * w) w x).putAt w n xs

/-- Writes the single elements of an instruction, as `putAll` does. -/
def Cluster.putSome (c : Cluster) (w n : Nat) (xs : List (Nat × Nat)) : Cluster :=
  (c.putAt w n xs).covered (xs.map fun x => (1024 * n + x.1 * w, w))

/-- The unit that executes an instruction (Table 4-16). -/
inductive VUnit where
  | lsu | fma | alu | cvt
  deriving DecidableEq, Repr

/-- Counts a retired vector instruction and the hc in which its unit was busy (Table 4-17). -/
def Cluster.vretire (c : Cluster) (u : VUnit) (busy : Nat) : Cluster :=
  let c := { c.retire with vecRetired := c.vecRetired + 1 }
  match u with
  | .lsu => { c with lsuBusy := c.lsuBusy + busy }
  | .fma => { c with fmaBusy := c.fmaBusy + busy }
  | .alu => { c with aluBusy := c.aluBusy + busy }
  | .cvt => { c with cvtBusy := c.cvtBusy + busy }

/-- The first poisoned word of the register file that an instruction reads: the first `n` bytes of each of some registers.
(DESIGN CHOICE, log entry 66.) -/
def Cluster.vreadPois (c : Cluster) (n : Nat) (rd : List (Nat × Nat)) : Option Nat :=
  rd.findSome? fun r => c.vpoisIn (1024 * r.1) (min n (1024 * r.2))

/-- The bytes of the first `k` elements of a register. -/
def Cluster.elsAt (c : Cluster) (n k : Nat) : Nat × Nat := (1024 * n, k * c.ew)

/-- The first poisoned word among the bytes that an instruction reads: those given, or else the first CW_VL elements of each
register of `rd`. (DESIGN CHOICE, log entry 66.) -/
def Cluster.readPois (c : Cluster) (rd : List (Nat × Nat)) (at_ : Option (List (Nat × Nat))) : Option Nat :=
  match at_ with
  | none => c.vreadPois (c.vl * c.ew) rd
  | some l => l.findSome? fun r => c.vpoisIn r.1 r.2

/-- Runs a register instruction that reads and writes register ranges: it waits while an unfinished matrix instruction
holds one of them (R142), and a poisoned word among the bytes that it reads stops the cluster. `at_` gives those bytes where
they are not its elements in each register. -/
def State.vrun (s t : State) (P : Nat) (rd wr : List (Nat × Nat)) (f : Cluster → Cluster)
    (at_ : Option (List (Nat × Nat)) := none) : State :=
  let c := t.cl P
  if rd.any c.regBusyR || wr.any c.regBusyW then s
  else
    match c.readPois rd at_ with
    | some w => t.regPoison P (w / 128)
    | none => t.modCl P fun c => (f c).touchRegs (rd ++ wr)

/-- A VEC_CONFIG trap with the word (R120). It has no element address, and VEC_FAULT, which R145 gives a value for a failing
element alone, stays as it was. (DESIGN CHOICE, log entry 13.) -/
def State.vecConfig (t : State) (P w : Nat) : State := t.trap P Cause.vecConfig w

/-! ### Configuration (R116) -/

/-- Sets vtype and vl and writes vl to x[rd]. -/
def Cluster.setVl (c : Cluster) (rd vtype avl : Nat) : Cluster :=
  let vl := min avl (vlMax (bitsOf vtype 1 0))
  let c := { c with vtype := vtype, vl := vl }.setX rd (BitVec.ofNat 64 vl)
  { c.retire with vecRetired := c.vecRetired + 1 }

/-- The vtype image of alt and sew in a VC word. -/
def vcType (w : Nat) : Nat := 4 * bitsOf w 4 4 + bitsOf w 3 2

/-- setvl. -/
def execSetvl (p : Fin 576) (env : CEnv) (s : State) : Res State :=
  s.instr p.val .setvl env fun w t =>
    t.modCl p.val fun c => c.setVl (fA w) (vcType w) (c.x (fB w)).toNat

/-- setvli. -/
def execSetvli (p : Fin 576) (env : CEnv) (s : State) : Res State :=
  s.instr p.val .setvli env fun w t =>
    t.modCl p.val fun c => c.setVl (fA w) (vcType w) (bitsOf w 15 5)

/-- setvlt: the image (CW_VL << 16) | CW_VTYPE. -/
def execSetvlt (p : Fin 576) (env : CEnv) (s : State) : Res State :=
  s.instr p.val .setvlt env fun w t =>
    let x := ((t.cl p.val).x (fB w)).toNat
    if bitOf x 2 && bitsOf x 1 0 != 1 then t.vecConfig p.val w
    else t.modCl p.val fun c => c.setVl (fA w) (bitsOf x 2 0) (bitsOf x 26 16)

/-! ### Integer operations (Table 4-6) -/

/-- Clamps an integer to the signed e-bit range. -/
def clampS (e : Nat) (i : Int) : Nat := ((⟨e, true⟩ : IFmt).sat i).1

/-- The integer operation `f` on e-bit elements. -/
def vIntFn (f e a b : Nat) : Nat :=
  let m := 2 ^ e
  let sa := signedOf e a
  let sb := signedOf e b
  match f with
  | 0x00 => (a + b) % m
  | 0x01 => (a + m - b) % m
  | 0x02 => (b + m - a) % m
  | 0x03 => a * b % m
  | 0x04 => wrapInt e (sa * sb / (m : Int))
  | 0x05 => a * b / m
  | 0x06 => Nat.land a b
  | 0x07 => Nat.lor a b
  | 0x08 => Nat.xor a b
  | 0x09 => a * 2 ^ (b % e) % m
  | 0x0A => a / 2 ^ (b % e)
  | 0x0B => wrapInt e (sa / (2 ^ (b % e) : Nat))
  | 0x0C => if sa ≤ sb then a else b
  | 0x0D => if sa ≤ sb then b else a
  | 0x0E => min a b
  | 0x0F => max a b
  | 0x10 => clampS e (sa + sb)
  | 0x11 => min (a + b) (m - 1)
  | 0x12 => clampS e (sa - sb)
  | _ => a - b

/-- The operand b of an integer instruction for element `i`: vs2[i] in VV, x[rs2] in VX, imm7 in VI. -/
def Cluster.intB (c : Cluster) (w form i : Nat) : Nat :=
  if form = 0 then c.el c.ew (vS2 w) i
  else if form = 1 then (c.x (vX2 w)).toNat % 2 ^ c.eb
  else wrapInt c.eb (signedOf 7 (vS2 w))

/-- The registers that a VV or VX word reads. -/
def vvReads (w : Nat) (vv : Bool) : List (Nat × Nat) := if vv then [(vS1 w, 1), (vS2 w, 1)] else [(vS1 w, 1)]

/-- Vector integer operations, opcodes 0x23 to 0x25 (R121). -/
def execVectorIntegerOp (p : Fin 576) (env : CEnv) (s : State) : Res State :=
  s.instr p.val .vectorIntegerOp env fun w t =>
    let form := opOf w - 0x23
    let f := vFunc w
    s.vrun t p.val (vvReads w (form == 0)) [(vD w, 1)] fun c =>
      let r := (List.range c.vl).map fun i => vIntFn f c.eb (c.el c.ew (vS1 w) i) (c.intB w form i)
      (c.putAll c.ew (vD w) r).vretire (if 0x03 ≤ f ∧ f ≤ 0x05 then .fma else .alu) env.busy

/-! ### FP operations (Table 4-7) -/

/-- The FP operation `f` on elements a, b and d. -/
def vFpFn (f : Nat) (m : Fmt) (r : Rnd) (ftz : Bool) (a b d : Nat) : Nat × Fx :=
  match f with
  | 0x00 => m.addC r ftz a b
  | 0x01 => m.subC r ftz a b
  | 0x02 => m.mulC r ftz a b
  | 0x03 => m.divC r ftz a b
  | 0x04 => m.sqrtC r ftz a
  | 0x05 => m.minMaxC false ftz a b
  | 0x06 => m.minMaxC true ftz a b
  | 0x07 => (m.sgnjC 0 a b, {})
  | 0x08 => (m.sgnjC 1 a b, {})
  | 0x09 => (m.sgnjC 2 a b, {})
  | 0x0A => m.fmaC false false r ftz a b d
  | 0x0B => m.fmaC true true r ftz a b d
  | 0x0C => m.fmaC false true r ftz a b d
  | 0x0D => m.fmaC true false r ftz a b d
  | 0x0E => m.subC r ftz b a
  | 0x0F => m.divC r ftz b a
  | _ => (m.classC a, {})

/-- The FP operand b: vs2[i], or element 0 of v[rs2]. -/
def Cluster.fpB (c : Cluster) (w : Nat) (vv : Bool) (i : Nat) : Nat :=
  if vv then c.el c.ew (vS2 w) i else c.el c.ew (vX2 w) 0

/-- The registers that an FP word reads. -/
def fpReads (w : Nat) (vv : Bool) : List (Nat × Nat) := [(vS1 w, 1), (if vv then vS2 w else vX2 w, 1)]

/-- The registers that an FP operation reads: the fused ones read their destination too, and vfsqrt and vfclass read vs1
alone. -/
def vFpReads (w : Nat) : List (Nat × Nat) :=
  if vFunc w = 0x04 ∨ vFunc w = 0x10 then [(vS1 w, 1)]
  else (if 0x0A ≤ vFunc w ∧ vFunc w ≤ 0x0D then [(vD w, 1)] else []) ++ fpReads w (opOf w == 0x26)

/-- The bytes that an FP word reads of the registers `rd`: of v[rs2] in the VF form, element 0 alone. -/
def Cluster.fpAt (c : Cluster) (w : Nat) (vv : Bool) (rd : List (Nat × Nat)) : Option (List (Nat × Nat)) :=
  if vv then none
  else
    let scalar := rd.length != 1
    some ((if scalar then rd.dropLast else rd).map (fun r => c.elsAt r.1 c.vl) ++
      if scalar then [c.elsAt (vX2 w) (min c.vl 1)] else [])

/-- Vector FP operations, opcodes 0x26 and 0x27 (R122, R133). -/
def execVectorFpOp (p : Fin 576) (env : CEnv) (s : State) : Res State :=
  s.instr p.val .vectorFpOp env fun w t =>
    let vv := opOf w == 0x26
    let f := vFunc w
    match (t.cl p.val).vfmt with
    | none => t.vecConfig p.val w
    | some m =>
      s.vrun t p.val (vFpReads w) [(vD w, 1)] (at_ := (t.cl p.val).fpAt w vv (vFpReads w)) fun c =>
        let r := (List.range c.vl).map fun i =>
          vFpFn f m (t.rnd p.val i) (ftzOf c.fpctrl) (c.el c.ew (vS1 w) i) (c.fpB w vv i) (c.el c.ew (vD w) i)
        ((c.putAll c.ew (vD w) (r.map (·.1))).note (fxAll r)).vretire
          (if (0x05 ≤ f ∧ f ≤ 0x09) ∨ f = 0x10 then .alu else .fma) env.busy

/-! ### Compares (Table 4-8) -/

/-- An integer compare. -/
def vCmpInt (f e a b : Nat) : Bool :=
  let sa := signedOf e a
  let sb := signedOf e b
  match f with
  | 0x00 => a == b
  | 0x01 => a != b
  | 0x02 => decide (sa < sb)
  | 0x03 => decide (a < b)
  | 0x04 => decide (sa ≤ sb)
  | 0x05 => decide (a ≤ b)
  | 0x06 => decide (sb < sa)
  | _ => decide (b < a)

/-- An FP compare. -/
def vCmpFp (f : Nat) (m : Fmt) (ftz : Bool) (a b : Nat) : Bool × Fx :=
  match f with
  | 0x08 => m.cmpC FVal.eq ftz a b
  | 0x09 => m.cmpC (fun x y => !x.eq y) ftz a b
  | 0x0A => m.cmpC FVal.lt ftz a b
  | 0x0B => m.cmpC FVal.le ftz a b
  | 0x0C => m.cmpC FVal.lt ftz b a
  | _ => m.cmpC FVal.le ftz b a

/-- An element with every bit set or none. -/
def maskEl (e : Nat) (b : Bool) : Nat := if b then 2 ^ e - 1 else 0

/-- Compares, opcodes 0x28 and 0x29 (R123). -/
def execVectorCompare (p : Fin 576) (env : CEnv) (s : State) : Res State :=
  s.instr p.val .vectorCompare env fun w t =>
    let vv := opOf w == 0x28
    let f := vFunc w
    if f ≤ 0x07 then
      s.vrun t p.val (vvReads w vv) [(vD w, 1)] fun c =>
        let r := (List.range c.vl).map fun i =>
          maskEl c.eb (vCmpInt f c.eb (c.el c.ew (vS1 w) i) (c.intB w (if vv then 0 else 1) i))
        (c.putAll c.ew (vD w) r).vretire .alu env.busy
    else
      match (t.cl p.val).vfmt with
      | none => t.vecConfig p.val w
      | some m =>
        s.vrun t p.val (fpReads w vv) [(vD w, 1)] (at_ := (t.cl p.val).fpAt w vv (fpReads w vv)) fun c =>
          let r := (List.range c.vl).map fun i =>
            let (b, fx) := vCmpFp f m (ftzOf c.fpctrl) (c.el c.ew (vS1 w) i) (c.fpB w vv i)
            (maskEl c.eb b, fx)
          ((c.putAll c.ew (vD w) (r.map (·.1))).note (fxAll r)).vretire .alu env.busy

/-! ### Select and move (Table 4-9) -/

/-- The registers that a select or a move reads. -/
def selReads (w : Nat) : List (Nat × Nat) :=
  if opOf w = 0x2A then
    match vFunc w with
    | 0 => [(vD w, 1), (vS1 w, 1), (vS2 w, 1)]
    | 1 => [(vD w, 1), (vS1 w, 1), (vS2 w, 1)]
    | 2 => [(vS1 w, 1)]
    | _ => []
  else
    match vFunc w with
    | 1 => [(vD w, 1), (vS1 w, 1)]
    | 3 => [(vS1 w, 1)]
    | 4 => [(vX2 w, 1)]
    | _ => []

/-- The bytes that a move of element 0 reads: that element. -/
def Cluster.selAt (c : Cluster) (w : Nat) : Option (List (Nat × Nat)) :=
  if opOf w = 0x2B ∧ vFunc w = 3 then some [c.elsAt (vS1 w) 1]
  else if opOf w = 0x2B ∧ vFunc w = 4 then some [c.elsAt (vX2 w) (min c.vl 1)]
  else none

/-- Select and move, opcodes 0x2A and 0x2B (R124). -/
def execVectorSelectMove (p : Fin 576) (env : CEnv) (s : State) : Res State :=
  s.instr p.val .vectorSelectMove env fun w t =>
    let f := vFunc w
    let d := vD w
    let a := vS1 w
    if opOf w = 0x2A then
      s.vrun t p.val (selReads w) [(d, 1)] fun c =>
        let r := (List.range c.vl).map fun i =>
          match f with
          | 0 => if c.el c.ew a i ≠ 0 then c.el c.ew (vS2 w) i else c.el c.ew d i
          | 1 => if c.el c.ew a i = 0 then c.el c.ew (vS2 w) i else c.el c.ew d i
          | 2 => c.el c.ew a i
          | _ => i
        (c.putAll c.ew d r).vretire .alu env.busy
    else if f = 3 then
      s.vrun t p.val (selReads w) []
        (fun c => (c.setX (bitsOf w 23 19) (sext64 c.eb (c.el c.ew a 0))).vretire .alu env.busy)
        ((t.cl p.val).selAt w)
    else
      s.vrun t p.val (selReads w) [(d, 1)] (at_ := (t.cl p.val).selAt w) fun c =>
        let x := (c.x (vX2 w)).toNat % 2 ^ c.eb
        let n := if f = 2 then min c.vl 1 else c.vl
        let r := (List.range n).map fun i =>
          match f with
          | 1 => if c.el c.ew a i ≠ 0 then x else c.el c.ew d i
          | 4 => c.el c.ew (vX2 w) 0
          | _ => x
        (c.putAll c.ew d r).vretire .alu env.busy

/-! ### Reductions and scans (R125 to R127) -/

/-- The rounding mode of reductions and FP add scans: stochastic mode rounds to nearest even (R186). -/
def Cluster.rndRed (c : Cluster) : Rnd := if rmOf c.fpctrl = 1 then .rtz else .rne

/-- The integer function of a reduction (Table 4-10). -/
def redInt (f e a b : Nat) : Nat :=
  match f with
  | 0 => vIntFn 0x00 e a b
  | 1 => vIntFn 0x0D e a b
  | 2 => vIntFn 0x0C e a b
  | 3 => max a b
  | 4 => min a b
  | 5 => Nat.land a b
  | 6 => Nat.lor a b
  | _ => Nat.xor a b

/-- One level of the tree of R126: neighbours are added, and an odd last element is kept. -/
def treeStep (add : Nat → Nat → Nat × Fx) : List Nat → List Nat × Fx
  | a :: b :: rest =>
    let (x, fx) := add a b
    let (l, gx) := treeStep add rest
    (x :: l, fx.or gx)
  | l => (l, {})

/-- The tree of R126, level by level; `k` bounds the levels. -/
def treeSum (add : Nat → Nat → Nat × Fx) : Nat → List Nat → Fx → List Nat × Fx
  | 0, l, fx => (l, fx)
  | k + 1, l, fx =>
    if l.length ≤ 1 then (l, fx)
    else
      let (m, gx) := treeStep add l
      treeSum add k m (fx.or gx)

/-- A left fold that gathers flags. -/
def foldFx (g : Nat → Nat → Nat × Fx) (seed : Nat) (l : List Nat) : Nat × Fx :=
  l.foldl (fun (a : Nat × Fx) b =>
    let (x, fx) := g a.1 b
    (x, a.2.or fx)) (seed, {})

/-- The FP reduction `f` (0x08 to 0x0B) of a seed and elements; with no element the seed stands. -/
def redFp (f : Nat) (m : Fmt) (r : Rnd) (ftz : Bool) (seed : Nat) (l : List Nat) : Nat × Fx :=
  if l.isEmpty then (seed, {})
  else
    match f with
    | 0x08 =>
      let (t, fx) := treeSum (m.addC r ftz) 11 l {}
      let (x, gx) := m.addC r ftz seed (t.headD 0)
      (x, fx.or gx)
    | 0x09 => foldFx (m.addC r ftz) seed l
    | 0x0A => foldFx (m.minMaxC true ftz) seed l
    | _ => foldFx (m.minMaxC false ftz) seed l

/-- The registers that a reduction reads: vcpop and vfirst have no seed. -/
def redReads (w : Nat) : List (Nat × Nat) := if 0x0C ≤ vFunc w then [(vS2 w, 1)] else [(vS1 w, 1), (vS2 w, 1)]

/-- The bytes that a reduction reads: the seed vs1[0] and the elements of vs2. -/
def Cluster.redAt (c : Cluster) (w : Nat) : Option (List (Nat × Nat)) :=
  some ((if 0x0C ≤ vFunc w then [] else [c.elsAt (vS1 w) 1]) ++ [c.elsAt (vS2 w) c.vl])

/-- Reductions, opcode 0x2C (R125). -/
def execVectorReduction (p : Fin 576) (env : CEnv) (s : State) : Res State :=
  s.instr p.val .vectorReduction env fun w t =>
    let f := vFunc w
    let rd := redReads w
    let wr := [(vD w, 1)]
    let at_ := (t.cl p.val).redAt w
    if f ≤ 0x07 then
      s.vrun t p.val rd wr (at_ := at_) fun c =>
        let x := (c.els c.ew (vS2 w) c.vl).foldl (redInt f c.eb) (c.el c.ew (vS1 w) 0)
        (c.putEls c.ew (vD w) 0 [x]).vretire .alu env.busy
    else if 0x0C ≤ f then
      s.vrun t p.val rd wr (at_ := at_) fun c =>
        let l := c.els c.ew (vS2 w) c.vl
        let ow := if c.ew = 1 then 2 else c.ew
        let x := if f = 0x0C then (l.filter (· != 0)).length
          else (l.findIdx? (· != 0)).getD (2 ^ (8 * ow) - 1)
        (c.setV (1024 * vD w) ow x).vretire .alu env.busy
    else
      match (t.cl p.val).vfmt with
      | none => t.vecConfig p.val w
      | some m =>
        s.vrun t p.val rd wr (at_ := at_) fun c =>
          let (x, fx) := redFp f m c.rndRed (ftzOf c.fpctrl) (c.el c.ew (vS1 w) 0) (c.els c.ew (vS2 w) c.vl)
          ((c.putEls c.ew (vD w) 0 [x]).note fx).vretire (if f ≤ 0x09 then .fma else .alu) env.busy

/-- The scan operation ⊕ (Table 4-11); `m` is the FP format, unused by integer operations. -/
def scanFn (f e : Nat) (m : Fmt) (r : Rnd) (ftz : Bool) (a b : Nat) : Nat × Fx :=
  match f with
  | 0 => (vIntFn 0x00 e a b, {})
  | 1 => (vIntFn 0x0D e a b, {})
  | 2 => (vIntFn 0x0C e a b, {})
  | 3 => (max a b, {})
  | 4 => (min a b, {})
  | 5 => m.addC r ftz a b
  | 6 => m.minMaxC true ftz a b
  | _ => m.minMaxC false ftz a b

/-- The identity of an exclusive scan. -/
def scanId (f e : Nat) (m : Fmt) : Nat :=
  match f with
  | 1 => 2 ^ (e - 1)
  | 2 => 2 ^ (e - 1) - 1
  | 4 => 2 ^ e - 1
  | 6 => m.inf true
  | 7 => m.inf false
  | _ => 0

/-- One pass of R127 at distance `d`: `x` holds each element with its flag. -/
def scanPass (g : Nat → Nat → Nat × Fx) (d : Nat) (x : List (Nat × Bool)) : List (Nat × Bool) × Fx :=
  let r := (List.range x.length).map fun i =>
    let (v, f) := x.getD i (0, true)
    if i < d then ((v, f), ({} : Fx))
    else
      let (u, e) := x.getD (i - d) (0, true)
      if f then ((v, true), {})
      else
        let (y, fx) := g u v
        ((y, e), fx)
  (r.map (·.1), r.foldl (fun a b => a.or b.2) {})

/-- The passes at distances 1, 2, 4, …; `k` bounds their number. (DEDUCED, log entry 13.) -/
def scanRun (g : Nat → Nat → Nat × Fx) : Nat → Nat → List (Nat × Bool) → Fx → List (Nat × Bool) × Fx
  | 0, _, x, fx => (x, fx)
  | k + 1, d, x, fx =>
    if x.length ≤ d then (x, fx)
    else
      let (y, gx) := scanPass g d x
      scanRun g k (2 * d) y (fx.or gx)

/-- An element as a scan reads it: an FP one is flushed under FTZ, and a NaN becomes the canonical NaN, also where it is
combined with no other (R133, R192). -/
def scanIn (f : Nat) (m : Fmt) (ftz : Bool) (a : Nat) : Nat × Fx :=
  if f < 5 then (a, {})
  else
    let (x, fx) := m.operand ftz a
    m.fin1 .rne ftz x fx

/-- Scans and segmented scans, opcode 0x2D (R127). -/
def execVectorScan (p : Fin 576) (env : CEnv) (s : State) : Res State :=
  s.instr p.val .vectorScan env fun w t =>
    let f := bitsOf w 2 0
    let go := fun (m : Fmt) =>
      s.vrun t p.val ((vS2 w, 1) :: if bitOf w 4 then [(vS1 w, 1)] else []) [(vD w, 1)] fun c =>
        let h := (List.range c.vl).map fun i => i == 0 || (bitOf w 4 && c.el c.ew (vS1 w) i != 0)
        let x := (c.els c.ew (vS2 w) c.vl).map (scanIn f m (ftzOf c.fpctrl))
        let (r, fx) := scanRun (scanFn f c.eb m c.rndRed (ftzOf c.fpctrl)) 11 1 ((x.map (·.1)).zip h) (fxAll x)
        let out := r.map (·.1)
        let res := if bitOf w 3 then
            (List.range c.vl).map fun i => if h.getD i true then scanId f c.eb m else out.getD (i - 1) 0
          else out
        ((c.putAll c.ew (vD w) res).note fx).vretire .alu env.busy
    if f < 5 then go .binary64
    else
      match (t.cl p.val).vfmt with
      | none => t.vecConfig p.val w
      | some m => go m

/-! ### Conversions (R128, R129) -/

/-- A format of Table 4-12. -/
inductive CvFmt where
  | int (i : IFmt)
  | fp (m : Fmt)
  deriving DecidableEq, Repr

/-- The format of a code of Table 4-12. -/
def cvFmt (c : Nat) : CvFmt :=
  match c with
  | 0x8 => .fp .e4m3
  | 0x9 => .fp .e5m2
  | 0xA => .fp .binary16
  | 0xB => .fp .bf16
  | 0xC => .fp .binary32
  | 0xD => .fp .binary64
  | _ => .int ⟨8 * cvBytes c, c % 2 == 0⟩

/-- One conversion (Table 6-4). (DEDUCED, log entry 63.) -/
def cvOne (src dst : CvFmt) (r : Rnd) (ftz : Bool) (a : Nat) : Nat × Fx :=
  match src, dst with
  | .fp m, .fp n => m.convC n false r ftz ftz a
  | .fp m, .int i => m.toIntC i r ftz a
  | .int i, .fp n => i.toFpC n r ftz a
  | .int i, .int j => i.convC j a

/-- Conversions, opcode 0x2E. -/
def execVectorConversion (p : Fin 576) (env : CEnv) (s : State) : Res State :=
  s.instr p.val .vectorConversion env fun w t =>
    let ws := cvBytes (cvSrc w)
    let wd := cvBytes (cvDst w)
    if ws ≠ (t.cl p.val).ew ∨ 96 < vD w + cvRegs w then t.vecConfig p.val w
    else
      s.vrun t p.val [(vS1 w, 1)] [(vD w, cvRegs w)] fun c =>
        let r := (List.range c.vl).map fun i =>
          cvOne (cvFmt (cvSrc w)) (cvFmt (cvDst w)) (t.rnd p.val i) (ftzOf c.fpctrl) (c.el ws (vS1 w) i)
        ((c.putAll wd (vD w) (r.map (·.1))).note (fxAll r)).vretire .cvt env.busy

/-! ### Permutes (Table 4-13) -/

/-- The elements that a permute writes: index and value. -/
def Cluster.permute (c : Cluster) (f w : Nat) : List (Nat × Nat) :=
  let a := c.el c.ew (vS1 w)
  let max := vlMax c.sew
  let x := (c.x (vX2 w)).toNat
  match f with
  | 0 => (List.range c.vl).map fun i =>
      let j := c.el c.ew (vS2 w) i
      (i, if j < max then a j else 0)
  | 1 =>
    let kept := (List.range c.vl).filter fun i => c.el c.ew (vS2 w) i != 0
    (List.range kept.length).map fun j => (j, a (kept.getD j 0))
  | 2 => ((List.range c.vl).filter fun i => decide (x ≤ i)).map fun i => (i, a (i - x))
  | 3 => (List.range c.vl).map fun i => (i, if i + x < max then a (i + x) else 0)
  | 4 => (List.range c.vl).map fun i => (i, if i = 0 then x % 2 ^ c.eb else a (i - 1))
  | _ => (List.range c.vl).map fun i => (i, if i + 1 = c.vl then x % 2 ^ c.eb else a (i + 1))

/-- The bytes that a permute reads: the first CW_VL elements of its index or mask, and the elements of vs1 that it takes. -/
def Cluster.permAt (c : Cluster) (f w : Nat) : List (Nat × Nat) :=
  let max := vlMax c.sew
  let x := (c.x (vX2 w)).toNat
  let els := List.range c.vl
  let from_ := match f with
    | 0 => (els.map fun i => c.el c.ew (vS2 w) i).filter fun j => decide (j < max)
    | 1 => els.filter fun i => c.el c.ew (vS2 w) i != 0
    | 2 => (els.filter fun i => decide (x ≤ i)).map fun i => i - x
    | 3 => (els.map fun i => i + x).filter fun j => decide (j < max)
    | 4 => List.range (c.vl - 1)
    | _ => (List.range (c.vl - 1)).map fun i => i + 1
  (if f ≤ 1 then [c.elsAt (vS2 w) c.vl] else []) ++ from_.map fun j => (1024 * vS1 w + j * c.ew, c.ew)

/-- Permutes, opcode 0x2F (R130). -/
def execVectorPermute (p : Fin 576) (env : CEnv) (s : State) : Res State :=
  s.instr p.val .vectorPermute env fun w t =>
    let f := vFunc w
    s.vrun t p.val (vvReads w (f ≤ 1)) [(vD w, 1)]
      (fun c => (c.putSome c.ew (vD w) (c.permute f w)).vretire .cvt env.busy)
      (some ((t.cl p.val).permAt f w))

end Sys2Proof.Machine
end

