-- ==== Sys2Proof/Machine/RegView.lean ====
section
/-! DEFINITION. What the registers of window 0 read as (R678 to R691): those that follow other state of the package are
formed from it, through window 0 or through window 2 of a partition. -/

namespace Sys2Proof.Machine

/-- A register value with some fields replaced. -/
def withFlds (n : Nat) (l : List (Fld × Nat)) : Nat := l.foldl (fun m fv => withBits m fv.1.hi fv.1.lo fv.2) n

/-! ### Cluster status (R109, R110, R145, R178) -/

/-- CLUSTER_STATE of a physical cluster. -/
def State.clusterStateView (s : State) (P : Nat) : Nat :=
  let part := s.clPart P
  withFlds 0 [(F.CLUSTER_STATE_MODE, (s.cl P).mode), (F.CLUSTER_STATE_FAULTED, b2n (s.cl P).faulted),
    (F.CLUSTER_STATE_PARTITION, part.getD 0), (F.CLUSTER_STATE_IN_PART, b2n part.isSome)]

/-- VEC_STATE; at reset it reads 0, whatever CW_VTYPE holds. -/
def Cluster.vecState (c : Cluster) : Nat :=
  if c.fresh then 0
  else withFlds 0 [(F.VEC_STATE_SEW, c.sew), (F.VEC_STATE_ALT, b2n c.alt), (F.VEC_STATE_VL, c.vl)]

/-- The register at an offset of the status block of cluster `P` (Tables 3-18, 4-17, 5-7): the values of the last instruction
boundary. FAULTED and what stands with it concern the stopped cluster alone. (DEDUCED, log entry 15.) -/
def State.clusterReg (s : State) (P off : Nat) : Nat :=
  let c := s.cl P
  match off with
  | 0x000 => s.clusterStateView P
  | 0x008 => c.pc
  | 0x010 => if c.faulted then c.stopCause else c.cause
  | 0x018 => if c.faulted then c.stopTval else c.tval
  | 0x020 => if c.faulted then c.stopEpc else c.epc
  | 0x028 => c.seen.getD 1 0
  | 0x030 => c.retired
  | 0x038 => c.seen.getD 0 0
  | 0x040 => c.vecState
  | 0x048 => (match c.vecFault with
    | some i => withFlds 0 [(F.VEC_FAULT_VALID, 1), (F.VEC_FAULT_INDEX, i)]
    | none => 0)
  | 0x050 => c.vecRetired
  | 0x058 => c.lsuBusy
  | 0x060 => c.fmaBusy
  | 0x068 => c.aluBusy
  | 0x070 => c.cvtBusy
  | 0x078 => c.checkStall
  | 0x200 => c.seen.getD 2 0
  | 0x208 => c.seen.getD 3 0
  | 0x210 => c.seen.getD 4 0
  | 0x218 => c.seen.getD 5 0
  | 0x220 => c.seen.getD 6 0
  | 0x228 => c.seen.getD 7 0
  | 0x230 => c.seen.getD 8 0
  | 0x238 => c.seen.getD 9 0
  | _ => 0

/-! ### Solver sequencers (R242, R243) -/

/-- The solver barge that holds a reach. -/
def State.holder? (s : State) (r : Nat) : Option Barge :=
  s.barges.find? fun b => b.begun && b.native / 256 == 3 && bitOf (b.f 39 32) r

/-- FORM of a solver barge; a SOLVE_RESUME shows the form of its token. -/
def State.solverForm (s : State) (b : Barge) : Nat :=
  let op := if b.native = 0x303 then numLE (s.localBytes s.maps b.part (b.f 55 48 + 6) 2) else b.native
  match op with
  | 0x300 => 1
  | 0x301 => 2
  | 0x302 => 3
  | 0x305 => 4
  | 0x304 => 5
  | _ => 0

/-- PRECOND of a SOLVE_ITER, or of the SOLVE_ITER whose token a SOLVE_RESUME names. -/
def State.solverPrec (s : State) (b : Barge) : Nat :=
  if b.native = 0x303 then numLE (s.localBytes s.maps b.part (b.f 55 48 + 85) 1) else b.f 85 85

/-- PHASE of a solver barge that holds reach `r`. The work of a barge is one command, so whether the reach stands in a wait
on a step counter of a schedule is free. (DEDUCED and DESIGN CHOICE, log entry 30.) -/
def State.solverPhase (s : State) (b : Barge) (r : Nat) : Nat :=
  if b.stopBy ≠ 0 then 4
  else if b.phase = .started then 1
  else if (s.solverForm b == 2 || (s.solverForm b == 3 && s.solverPrec b == 3)) && Config.solverWaits r s.now then 3
  else 2

/-- Does a release of a gate on a reach wait for the solver barge that holds it (R210)? -/
def State.releaseWaits (s : State) (r : Nat) : Bool :=
  s.barges.any fun b => b.armedOn s r && (match b.work with
    | .run w => w.gate.any (·.tripped)
    | _ => false)

/-- SOLVER_STATE. (DEDUCED, log entry 30.) -/
def State.solverStateView (s : State) (r : Nat) : Nat :=
  let waiters := (s.barges.filter fun b => !b.begun && (s.reachesOf b).contains r).length
  let n := withFlds 0 [(F.SOLVER_STATE_RELEASE_WAIT, b2n (s.releaseWaits r)), (F.SOLVER_STATE_WAITERS, min waiters 0xFFFF)]
  match s.holder? r with
  | none => n
  | some b => withFlds n [(F.SOLVER_STATE_CANAL, b.canal), (F.SOLVER_STATE_FORM, s.solverForm b),
      (F.SOLVER_STATE_PHASE, s.solverPhase b r), (F.SOLVER_STATE_HELD, 1), (F.SOLVER_STATE_PARTITION, b.part)]

/-! ### Fabric (R509, R524) -/

/-- The 32 bytes of a landing entry (Table 17-5). -/
def Landing.bytes (e : Landing) : List Byte :=
  bytesLE 8 e.wbase ++ bytesLE 8 e.lbase ++ bytesLE 4 e.wlen ++ bytesLE 4 e.job ++ bytesLE 2 e.srcLo ++ bytesLE 2 e.srcHi ++
    bytesLE 1 (1 + 2 * b2n e.read + 4 * b2n e.write + 8 * b2n e.flag + 16 * e.part) ++ [0, 0, 0]

/-- LANDING_DATA[k]: zero where no entry has the index. -/
def State.landingData (s : State) (k : Nat) : Nat :=
  match s.fabric.landing.find? fun e => e.index == s.fld Reg.landingIndex F.LANDING_INDEX_INDEX with
  | some e => fieldB e.bytes (8 * k + 7) (8 * k)
  | none => 0

/-! ### Near-memory engines, checkpoints, the map and the weir -/

/-- The operation whose units an engine runs, the oldest that it has to run (R308), and how many units were dealt to it. -/
def State.nmRunning (s : State) (e : Nat) : Option (NmOp × Nat) :=
  s.nmOps.findSome? fun o =>
    if o.done then none else (((s.nmEnv o).onEngines).find? fun x => x.1 == e).map fun x => (o, x.2.1)

/-- NME_STATUS. An engine runs the units of an operation from its acceptance on, and ends them all in one command.
(DEDUCED, log entry 28.) -/
def State.nmeStatus (s : State) (e : Nat) : Nat :=
  let n := withFlds 0 [(F.NME_STATUS_LEAD_QUEUED, min (s.nmQueued e none) 16)]
  if !s.nmEnabled e then withFlds n [(F.NME_STATUS_STATE, 2)]
  else
    match s.nmRunning e with
    | none => n
    | some (o, k) => withFlds n [(F.NME_STATUS_STATE, 1), (F.NME_STATUS_CURRENT_OP, fieldB o.desc 1 0),
        (F.NME_STATUS_PARTITION, o.part), (F.NME_STATUS_UNITS_LEFT, min k (2 ^ 28 - 1))]

/-- Does a barge of the stream in slot `k` run (BUSY)? -/
def State.ckptBusy (s : State) (k : Nat) : Bool :=
  match s.stream? k with
  | none => false
  | some st => s.barges.any fun b => b.begun && b.executing && b.native / 256 == 6 && b.native != 0x603 &&
      b.part == st.part && b.f 35 32 == st.id

/-- FAILOP_STATUS with its counts of reaches. (DEDUCED, log entry 30.) -/
def State.failopView (s : State) : Nat :=
  let n := fun (p : Nat → Bool) => ((List.range 64).filter p).length
  let st := fun r => s.fld (Reg.reachMap r) F.REACH_MAP_STATE
  withFlds (s.reg Reg.failopStatus) [(F.FAILOP_STATUS_REACHES_DEGRADED, n fun r => st r == 1),
    (F.FAILOP_STATUS_REACHES_DISABLED, n fun r => st r == 2), (F.FAILOP_STATUS_SPARES_LEFT, n fun r => st r != 2 && (s.idleSpare r).isSome)]

/-- Does a cluster of a cargo issue work: it runs, and waits neither in wait.flag nor in halt (Table 15-2)? -/
def Cluster.atWork (c : Cluster) : Bool :=
  c.act == .running && match c.wait with
    | .flag _ => false
    | .halt _ => false
    | _ => true

/-- Does a reach issue work: a cluster, its solver sequencer, a cupping, or a cargo about to be placed on it (R439)? -/
def State.reachIssues (s : State) (r : Nat) : Bool :=
  s.reachHeld r || s.reachCupped r || s.barges.any fun b => Barge.runsOn s b r &&
    match b.run? with
    | some w => w.live.any fun P => reachOfPhys P == r && (s.cl P).atWork
    | none => true

/-- REACH_DEPTH: a reach that issues work is active. (DEDUCED, log entry 30.) -/
def State.reachDepthView (s : State) (r : Nat) : Nat :=
  let v := s.reg (Reg.reachDepth r)
  if s.fld (Reg.reachDepth r) F.REACH_DEPTH_DEPTH = 1 ∧ s.reachIssues r then withFlds v [(F.REACH_DEPTH_DEPTH, 0)] else v

/-- VIEW_INFO through a view (R691). -/
def State.viewInfo (s : State) (view : Option Nat) : Nat :=
  match view with
  | none => 0
  | some p => withFlds 0 [(F.VIEW_INFO_LIVE, 1), (F.VIEW_INFO_PARTITION, p),
      (F.VIEW_INFO_INCARNATION, s.fld (Reg.partState p) F.PART_STATE_INCARNATION)]

/-- SEC_KEYS: a view shows only CK_VALID of its partition (R688). -/
def State.secKeysView (s : State) (view : Option Nat) : Nat :=
  match view with
  | none => s.reg Reg.secKeys
  | some p => b2n (bitOf (s.reg Reg.secKeys) p) * 2 ^ p

/-! ### Reads -/

/-- Registers of one instance that follow other state; none for one that reads as stored. (DEDUCED, log entry 30.) -/
def State.viewOne (s : State) (view : Option Nat) (a : Nat) : Option Nat :=
  if a = Reg.viewInfo then some (s.viewInfo view)
  else if a = Reg.resetCtrl ∨ a = Reg.weirWake ∨ a = Reg.secZeroise then some 0
  else if a = Reg.weirStatus then some (withFlds (s.reg a) [(F.WEIR_STATUS_COMMIT, min s.commit 0xFFFF)])
  else if a = Reg.logHead then some s.log.next
  else if a = Reg.logOldest then some s.logOldest
  else if a = Reg.logEpoch then some s.log.epoch
  else if a = Reg.logStatus then some (s.logStatusView view)
  else if a = Reg.logReadIndex then some (s.logIndex view)
  else if a = Reg.secCtrl then some (withFlds (s.reg a) [(F.SEC_CTRL_DEBUG_LOCK, b2n s.debugLocked)])
  else if a = Reg.secKeys then some (s.secKeysView view)
  else if a = Reg.failopStatus then some s.failopView
  else if a = Reg.errHead then some s.errs.next
  else if a = Reg.errOldest then some (match s.errs.recs.head? with
    | some r => r.number
    | none => s.errs.next)
  else if a = Reg.routeData then some (s.routeWord (s.fld Reg.routeIndex F.ROUTE_INDEX_NODE))
  else if a = Reg.landingUsed then some s.fabric.landing.length
  else none

/-- Registers of arrays that follow other state. -/
def State.viewMany (s : State) (view : Option Nat) (a : Nat) : Option Nat :=
  let arr := fun (base stride n : Nat) (f : Nat → Nat) => (instOf a base stride n).map f
  if Reg.clusterState 0 ≤ a ∧ a < Reg.clusterState 576 then
    some (s.clusterReg ((a - Reg.clusterState 0) / 0x400) ((a - Reg.clusterState 0) % 0x400))
  else
    [arr (Reg.reachDepth 0) 8 64 s.reachDepthView, arr (Reg.canalDoorbell 0) 0x100 256 fun _ => 0,
      arr (Reg.canalStatus 0) 0x100 256 s.canalStatus, arr (Reg.logReadData 0) 8 32 (s.logData view),
      arr (Reg.logCanalMark 0) 8 256 s.canalMark,
      arr (Reg.pdieStatus 0) 8 2 fun k => withFlds (s.reg a) [(F.PDIE_STATUS_FAILS, min (s.pdieFails k) 15)],
      arr (Reg.nmeStatus 0) 8 256 s.nmeStatus, arr (Reg.landingData 0) 8 4 s.landingData,
      arr (Reg.ckptState 0) 8 16 fun k => withFlds (s.reg a) [(F.CKPT_STATE_BUSY, b2n (s.ckptBusy k))],
      arr (Reg.solverState 0) 0x400 64 s.solverStateView,
      arr (Reg.solverSeq 0) 0x400 64 fun r => ((s.holder? r).map (·.seq)).getD 0].findSome? id

/-- What the register at `a` reads as, through window 0 or the view of a partition. A reserved offset, an offset that the
view does not show, and every offset of the view of a partition that is not live read as zero (R680, R682). -/
def State.regView (s : State) (view : Option Nat) (a : Nat) : Nat :=
  if (match view with
    | some p => !s.live p || !s.shown p a
    | none => false) then 0
  else
    match s.viewOne view a with
    | some v => v
    | none => (s.viewMany view a).getD (s.reg a)

end Sys2Proof.Machine
end

