-- ==== Sys2Proof/Machine/RegWrite.lean ====
section
/-! DEFINITION. Writes of the registers (R681 to R691, Table 25-3), the configuration of the PCIe functions (R642 to
R649), and the fabric registers that a write sets (R501, R502, R508, R522). -/

namespace Sys2Proof.Machine

/-! ### Fields without behaviour of their own (R683) -/

/-- What a write makes of one field. -/
def FieldSpec.write (f : FieldSpec) (old v : Nat) : Nat :=
  match f.acc with
  | .rw => withBits old f.hi f.lo (bitsOf v f.hi f.lo)
  | .w1c => withBits old f.hi f.lo (bitsOf old f.hi f.lo - Nat.land (bitsOf old f.hi f.lo) (bitsOf v f.hi f.lo))
  | _ => old

/-- A write of a register by the access types of its fields. -/
def State.writeFields (s : State) (a v : Nat) : State :=
  match regRow? a with
  | some r => s.setReg a (r.fields.foldl (fun n f => f.write n v) (s.reg a))
  | none => s

/-! ### Registers with rules of their own -/

/-- GLOBAL_ACCESS_ERR: writing VALID clears VALID and COUNT. (DEDUCED, log entry 31.) -/
def State.writeAccessErr (s : State) (v : Nat) : State :=
  if bitOf v 63 then
    s.setFlds Reg.globalAccessErr [(F.GLOBAL_ACCESS_ERR_VALID, 0), (F.GLOBAL_ACCESS_ERR_COUNT, 0)]
  else s

/-- LOG_READ_INDEX of window 0, or of a view (R689). -/
def State.writeLogIndex (s : State) (view : Option Nat) (v : Nat) : State :=
  match view with
  | none => s.setReg Reg.logReadIndex v
  | some p => { s with logRead := spSet (fun _ => 0) p v s.logRead }

/-- SCRUB_CTRL (R343). -/
def State.writeScrub (s : State) (st v : Nat) : State :=
  let a := Reg.scrubCtrl st
  let h := bitsOf v 15 8
  let t := s.setFld a F.SCRUB_CTRL_ENABLE (bitsOf v 0 0)
  if h = 0 then t else t.setFld a F.SCRUB_CTRL_PERIOD_H (min h 0xA8)

/-- HC_RATE: RATE_MIN takes the value, and falls at once to a lower RATE (R60, R687). (DEDUCED, log entry 31.) -/
def State.writeRateMin (s : State) (r v : Nat) : State :=
  let a := Reg.hcRate r
  s.setFld a F.HC_RATE_RATE_MIN (min (v % 65536) (s.fld a F.HC_RATE_RATE))

/-- TIMING_CTRL: each request stands where its lock is set. -/
def State.writeTiming (s : State) (r v : Nat) : State := (s.setPaceReq r (bitOf v 1)).setOrderReq r (bitOf v 0)

/-- A write to PEAK restarts it at TJ (R470). (DEDUCED, log entry 31.) -/
def State.writePeak (s : State) (a : Nat) : State := s.setReg a (withBits (s.reg a) 31 16 (s.reg a % 65536))

/-- FABRIC_NODE: locked while a job tag is valid (Table 17-12). -/
def State.writeNode (s : State) (v : Nat) : State :=
  if (List.range 8).any fun p => s.flag (Reg.fabricJob p) F.FABRIC_JOB_VALID then
    s.setFld Reg.fabricNode F.FABRIC_NODE_WRITE_IGNORED 1
  else s.writeFields Reg.fabricNode v

/-- FABRIC_TIMERS: both fields stand where the written values do not agree (Table 17-13). -/
def State.writeTimers (s : State) (v : Nat) : State :=
  if bitsOf v 15 0 = 0 ∨ bitsOf v 47 32 < 2 * bitsOf v 15 0 then s else s.writeFields Reg.fabricTimers v

/-- ROUTE_DATA: the entry that ROUTE_INDEX names, in both F-dies. The two copies are equal, and so are the digests that the
F-dies then compare (R502, R503). -/
def State.writeRoute (s : State) (v : Nat) : State :=
  let w := withBits (withBits (bitsOf v 4 0) 12 8 (bitsOf v 12 8)) 15 15 (bitsOf v 15 15)
  s.modFab fun f => { f with routes := spSet (fun _ => 0x1F1F) (s.fld Reg.routeIndex F.ROUTE_INDEX_NODE) w f.routes }

/-- TIME_STATUS.MASTER: a package that becomes the time master lies at its own time; one that ceases to be reads LOCKED 0
until it follows another (R522). (DEDUCED, log entry 31.) -/
def State.writeMaster (s : State) (on : Bool) : State :=
  let a := Reg.timeStatus
  if on == s.flag a F.TIME_STATUS_MASTER then s
  else if on then (s.setReg a 0).setFlds a [(F.TIME_STATUS_MASTER, 1), (F.TIME_STATUS_LOCKED, 1)]
  else s.setFlds a [(F.TIME_STATUS_MASTER, 0), (F.TIME_STATUS_LOCKED, 0)]

/-- RECOVERY_CTRL on port `k`: BYTES, and GO where bit 32 is set (R649). -/
def State.writeRecovery (s : State) (k v : Nat) : State :=
  if bitOf v 32 then s.recoveryGo k (v % 2 ^ 32) else s.setFld Reg.recoveryCtrl F.RECOVERY_CTRL_BYTES (v % 2 ^ 32)

/-! ### The registers of a canal -/

/-- A write at an offset of the block of canal `c`. The ring bases, the E4 base and CANAL_STATUS follow their fields. -/
def State.writeCanal (s : State) (c off v : Nat) (window0 : Bool) : State :=
  match off with
  | 0x00 => s.writeCanalCtrl c v window0
  | 0x18 => s.writeCanalHead c v
  | 0x28 => s.writeDoorbell c v
  | 0x38 => s.writeTallyHead c v
  | 0x50 => s.writeE4Ctrl c v
  | _ => s.canalWrite c fun t => t.writeFields (Reg.canalCtrl c + off) v

/-! ### One 8-byte write -/

/-- The P-die whose port or control cores a path belongs to: towpath and fabric writes are the active P-die's.
(PRESUMED, log entry 32.) -/
def State.pathPdie (s : State) (path : Nat) : Nat := if path < 2 then path else if path < 4 then s.activePdie else path - 4

/-- Registers of one instance with rules of their own. -/
def State.writeOne (s : State) (rp : RegPath) (a v : Nat) : Option State :=
  if a = Reg.globalAccessErr then some (s.writeAccessErr v)
  else if a = Reg.resetCtrl then some (s.writeResetCtrl v)
  else if a = Reg.weirWake then some (if bitOf v 0 then s.wakeUp else s)
  else if a = Reg.logReadIndex then some (s.writeLogIndex (rp.view.map (·.val)) v)
  else if a = Reg.secCtrl then some (s.writeSecCtrl v)
  else if a = Reg.secZeroise then some (s.writeZeroise v)
  else if a = Reg.fabricNode then some (s.writeNode v)
  else if a = Reg.fabricTimers then some (s.writeTimers v)
  else if a = Reg.timeStatus then some (s.writeMaster (bitOf v 63))
  else if a = Reg.routeData then some (s.writeRoute v)
  else if a = Reg.recoveryCtrl then some (s.writeRecovery (s.pathPdie rp.path.val) v)
  else none

/-- Registers of arrays with rules of their own. -/
def State.writeMany (s : State) (rp : RegPath) (a v : Nat) : Option State :=
  let arr := fun (base stride n : Nat) (f : Nat → State) => (instOf a base stride n).map f
  if Reg.canalCtrl 0 ≤ a ∧ a < Reg.canalCtrl 256 then
    some (s.writeCanal ((a - Reg.canalCtrl 0) / 0x100) ((a - Reg.canalCtrl 0) % 0x100) v rp.view.isNone)
  else
    [arr (Reg.partCtrl 0) 0x100 8 fun p => s.writePartCtrl p v, arr (Reg.partClaim 0) 0x100 8 fun p => s.writePartClaim p v,
      arr (Reg.memInterleave 0) 8 16 fun k => s.writeInterleave k v, arr (Reg.scrubCtrl 0) 8 32 fun st => s.writeScrub st v,
      arr (Reg.hcRate 0) 8 64 fun r => s.writeRateMin r v,
      arr (Reg.timingCtrl 0) 8 64 fun r => s.writeTiming r v,
      arr (Reg.sensorReach 0) 8 64 fun _ => s.writePeak a,
      arr (Reg.sensorDie 0) 8 8 fun _ => s.writePeak a].findSome? id

/-- An aligned 8-byte write of the register at `a`. (DEDUCED, log entry 31.) -/
def State.writeReg (s : State) (rp : RegPath) (a v : Nat) : State :=
  match s.writeOne rp a v with
  | some t => t
  | none => (s.writeMany rp a v).getD (s.writeFields a v)

/-- Does an offset of window 0 lie in the recovery buffer? -/
def inBuffer (off : Nat) : Bool := decide (0x02000000 ≤ off ∧ off < 0x03000000)

/-- Writes bytes into the recovery buffer of a port; outside recovery it ignores them (R649). -/
def State.writeBuffer (s : State) (k off : Nat) (bs : List Byte) : State :=
  if !s.recovering k then s
  else
    let h := s.host k
    let buf := (bs.zipIdx.filter fun x => decide (off + x.2 < 2 ^ 24)).foldl
      (fun l x => spSet (fun _ => (0 : Byte)) (off + x.2) x.1 l) h.recovery
    s.setHost k { h with recovery := buf }

/-- A write of `size` bytes at an offset of window 0 or of a view (R680 to R682, R685). -/
def State.writeAt (s : State) (rp : RegPath) (off size : Nat) (v : Word) : State :=
  if rp.view.isNone && inBuffer off then s.writeBuffer (s.pathPdie rp.path.val) (off - 0x02000000) (bytesLE (min size 8) v.toNat)
  else if !s.serves rp.path.val off then s
  else if rp.view.any fun p => !s.live p.val then s
  else if size ≠ 8 ∨ off % 8 ≠ 0 then (if (regRow? (alignDown off 8)).isSome then s.wakeFor off else s).accessErr rp 1 off
  else if rp.view.isNone ∧ (regRow? off).isNone then s.accessErr rp 2 off
  else s.viaPath rp off fun t => t.writeReg rp off v.toNat

/-- A write that a PCIe request makes: one access for each register that it touches, ascending, where one that it covers only
in part takes a narrow write (R681). -/
def State.writeSpan (s : State) (rp : RegPath) (off : Nat) (bs : List Byte) : State :=
  (List.range (bs.length / 8 + 2)).foldl (fun t i =>
    let a := alignDown off 8 + 8 * i
    let lo := max off a
    let hi := min (off + bs.length) (a + 8)
    if hi ≤ lo then t else t.writeAt rp lo (hi - lo) (BitVec.ofNat 64 (fieldB bs (hi - off - 1) (lo - off)))) s

/-! ### The configuration of the functions of a port (R642 to R649) -/

/-- Does a port answer configuration requests, and does a function of it exist? -/
def State.fnConfig (s : State) (k fn : Nat) (write : HostPort → HostPort) : State :=
  if !(s.booted || s.recovering k) || (fn != 0 && !s.vfExists k (fn - 1)) then s else s.setHost k (write (s.host k))

/-- Sends the interrupts of a function that were pending and are no longer held back. (PRESUMED, log entry 32.) -/
def State.sendPending (s : State) (k fn : Nat) : State :=
  let h := s.host k
  if !h.msixOn.contains fn then s
  else
    let go := h.waiting.filter fun x => x / 512 == fn && h.unmasked.contains x
    go.foldl (fun t x => t.emit (.msix k fn (x % 512)))
      (s.setHost k { h with waiting := h.waiting.filter fun x => !go.contains x })

/-- Adds a number to a list of them, or takes it off. -/
def putBit (on : Bool) (x : Nat) (l : List Nat) : List Nat := if on then setIns x l else setDel x l

/-- What a host keeps of the functions once NumVFs is `n`: those above it do not exist. (PRESUMED, log entry 32.) -/
def dropVfs (h : HostPort) (n : Nat) : HostPort :=
  { h with
    window := h.window.filter fun x => decide (x.1 / 8 ≤ n)
    master := h.master.filter fun x => decide (x ≤ n)
    msixOn := h.msixOn.filter fun x => decide (x ≤ n)
    unmasked := h.unmasked.filter fun x => decide (x / 512 ≤ n)
    waiting := h.waiting.filter fun x => decide (x / 512 ≤ n) }

/-- A write by a host or a management controller. (PRESUMED, log entry 32.) -/
def State.hostWriteAt (s : State) (w : WriteAt) : State :=
  match w with
  | .reg rp off size v => s.writeAt rp off size v
  | .span rp off bs => s.writeSpan rp off bs
  | .buffer k off bytes => s.writeBuffer k.val off bytes
  | .master k fn on => s.fnConfig k.val fn.val fun h => { h with master := putBit on fn.val h.master }
  | .msix k fn on =>
    (s.fnConfig k.val fn.val fun h => { h with msixOn := putBit on fn.val h.msixOn }).sendPending k.val fn.val
  | .mask k fn e on =>
    (s.fnConfig k.val fn.val fun h => { h with unmasked := putBit (!on) (fn.val * 512 + e.val) h.unmasked }).sendPending
      k.val fn.val
  | .numVfs k n =>
    if !s.booted || s.flag (Reg.hostPortStatus k.val) F.HOST_PORT_STATUS_ROOT then s
    else (s.setFld (Reg.hostPortStatus k.val) F.HOST_PORT_STATUS_NUM_VFS n.val).setHost k.val (dropVfs (s.host k.val) n.val)
  | .bar k fn i b => s.fnConfig k.val fn.val fun h =>
    { h with window := spSet (fun _ => 0) (fn.val * 8 + i.val) b.toNat h.window }

/-- A write without a row of its own. -/
def execRegisterWrite (w : WriteAt) (s : State) : Res State := s.go (s.hostWriteAt w)

/-! ### Rows of the fabric registers -/

/-- A write of ROUTE_DATA. -/
def execRouteDataWrite (v : Word) (rp : RegPath) (s : State) : Res State :=
  s.go (s.viaPath rp Reg.routeData fun t => t.writeRoute v.toNat)

/-- A write of FABRIC_NODE. -/
def execFabricNodeWrite (v : Word) (rp : RegPath) (s : State) : Res State :=
  s.go (s.viaPath rp Reg.fabricNode fun t => t.writeNode v.toNat)

/-- A write of FABRIC_TIMERS. -/
def execFabricTimersWrite (v : Word) (rp : RegPath) (s : State) : Res State :=
  s.go (s.viaPath rp Reg.fabricTimers fun t => t.writeTimers v.toNat)

/-- A write of TIME_STATUS. -/
def execTimeMaster (on : Bool) (rp : RegPath) (s : State) : Res State :=
  s.go (s.viaPath rp Reg.timeStatus fun t => t.writeMaster on)

end Sys2Proof.Machine
end

