-- ==== Sys2Proof/Machine/Mgmt.lean ====
section
/-! DEFINITION. The management ports (R650 to R652) and the test access port (R653, R616). -/

namespace Sys2Proof.Machine

/-! ### I3C common command codes (R650) -/

/-- Changes a management port. -/
def State.modMgmt (s : State) (k : Nat) (f : MgmtPort → MgmtPort) : State := s.setMgmt k (f (s.mgmtPort k))

/-- The first dynamic address that a port takes moves it to I3C mode. (PRESUMED, log entry 33.) -/
def State.takeAddr (s : State) (k addr : Nat) : State :=
  s.modMgmt k fun m => if m.i3c then m else { m with i3c := true, addr := addr }

def execEntdaa (k : Fin 2) (addr : BitVec 7) (s : State) : Res State := s.go (s.takeAddr k.val addr.toNat)

def execSetdasa (k : Fin 2) (addr : BitVec 7) (s : State) : Res State := s.go (s.takeAddr k.val addr.toNat)

def execRstdaa (k : Fin 2) (s : State) : Res State := s.go (s.modMgmt k.val fun m => { m with i3c := false, addr := 0 })

def execEnec (k : Fin 2) (s : State) : Res State := s.go (s.modMgmt k.val fun m => { m with ibiOn := true })

def execDisec (k : Fin 2) (s : State) : Res State := s.go (s.modMgmt k.val fun m => { m with ibiOn := false })

/-- An answer of `n` bytes that is fixed for the part and that the manual does not give. (DESIGN CHOICE, log entry 33.) -/
def State.emitFixed (s : State) (k what n : Nat) : State := s.emit (.bytes (bytesBE n (Config.i3cReply k what).toNat))

/-- The provisioned ID: six bytes. -/
def execGetpid (k : Fin 2) (s : State) : Res State := s.go (s.emitFixed k.val 0 6)

/-- The bus characteristics: one byte. -/
def execGetbcr (k : Fin 2) (s : State) : Res State := s.go (s.emitFixed k.val 1 1)

/-- The device characteristics: one byte. -/
def execGetdcr (k : Fin 2) (s : State) : Res State := s.go (s.emitFixed k.val 2 1)

/-- A value of `n` bytes that the manual leaves open, as a port returns it. (DESIGN CHOICE, log entry 33.) -/
def State.emitFree (s : State) (n : Nat) : State :=
  let (w, t) := s.draw
  t.emit (.bytes (bytesBE n w.toNat))

/-- The target status: two bytes, which the manual does not give. (PRESUMED, log entry 33.) -/
def execGetstatus (k : Fin 2) (s : State) : Res State := s.go (s.emitFree 2)

/-- The maximum write length: two bytes, the more significant first. -/
def execGetmwl (k : Fin 2) (s : State) : Res State := s.go (s.emit (.bytes (bytesBE 2 (s.mgmtPort k.val).mwl)))

/-- The maximum read length. -/
def execGetmrl (k : Fin 2) (s : State) : Res State := s.go (s.emit (.bytes (bytesBE 2 (s.mgmtPort k.val).mrl)))

/-- A length is limited to 256 bytes. (PRESUMED, log entry 33.) -/
def execSetmwl (k : Fin 2) (n : BitVec 16) (s : State) : Res State :=
  s.go (s.modMgmt k.val fun m => { m with mwl := min n.toNat 256 })

def execSetmrl (k : Fin 2) (n : BitVec 16) (s : State) : Res State :=
  s.go (s.modMgmt k.val fun m => { m with mrl := min n.toNat 256 })

/-- RSTACT acts as SOURCE 0x07, at the fused level (R626). -/
def State.rstact (s : State) (k : Nat) : State :=
  if s.fld Reg.resetFuse F.RESET_FUSE_RSTACT_LEVEL = 6 then (if s.booting then s.absorb else s.resetPdie k 7)
  else s.levelSeven false 7 false false false

/-- (PRESUMED, log entry 33.) -/
def execRstact (k : Fin 2) (s : State) : Res State := s.go (s.rstact k.val)

/-! ### Register messages (R651, R652) -/

/-- Bytes `off` to `off + n - 1` of window 0 or a view as a read returns them: each register read whole (R681, R684). -/
def State.readBytes (s : State) (view : Option Nat) (off n : Nat) : List Byte :=
  (List.range n).map fun i =>
    BitVec.ofNat 8 (s.regView view (alignDown (off + i) 8) / 2 ^ (8 * ((off + i) % 8)))

/-- REG_READ on the management port of P-die `k`, held while a takeover runs (R687). Where both P-dies have stopped, only the
reset block answers. -/
def State.mgmtRead (s : State) (k off : Nat) : State :=
  if s.takingOver then s
  else if !s.serves (4 + k) off then s.emit (.value 0)
  else
    let t := if (regRow? (alignDown off 8)).isSome then s.wakeFor off else s
    t.emit (.value (numLE (t.readBytes none off 8)))

def execRegRead (k : Fin 2) (off : BitVec 26) (s : State) : Res State := s.go (s.mgmtRead k.val off.toNat)

/-- The path of a management port, as PATH of GLOBAL_ACCESS_ERR numbers it. -/
def mgmtPath (k : Fin 2) : RegPath := ⟨⟨4 + k.val, by omega⟩, none⟩

def execRegWrite (k : Fin 2) (off : BitVec 26) (v : Word) (s : State) : Res State :=
  s.go (s.writeAt (mgmtPath k) off.toNat 8 v)

/-! ### The TAP (R653) -/

/-- The TAP instructions as `Tap` numbers them. -/
def tapBypass : Nat := 0
def tapIdcode : Nat := 1
def tapSample : Nat := 2
def tapExtest : Nat := 3
def tapPulse : Nat := 4
def tapTrain : Nat := 5
def tapClamp : Nat := 6
def tapHighz : Nat := 7
def tapDebug : Nat := 8

/-- The instruction register takes an instruction. In approved mode every instruction but BYPASS and IDCODE acts as
BYPASS (R616); one that drives pins acts while RESET_N is low, and as BYPASS until it falls. (PRESUMED, log entry 34.) -/
def State.tapLoad (s : State) (inst : Nat) : State :=
  let load := fun (i l : Nat) => { s with tap := { s.tap with inst := i, loaded := l } }
  if s.approved && decide (2 ≤ inst) then load tapBypass tapBypass
  else if boundary inst then (if s.tap.low then (load inst inst).emit (.pins inst) else load tapBypass inst)
  else load inst inst

def execBypass (s : State) : Res State := s.go (s.tapLoad tapBypass)

/-- IDCODE: the identification register reads 0x10E6_A1F5. -/
def execIdcode (s : State) : Res State := s.go ((s.tapLoad tapIdcode).emit (.value 0x10E6A1F5))

def execSamplePreload (s : State) : Res State := s.go (s.tapLoad tapSample)

def execExtest (s : State) : Res State := s.go (s.tapLoad tapExtest)

def execExtestPulse (s : State) : Res State := s.go (s.tapLoad tapPulse)

def execExtestTrain (s : State) : Res State := s.go (s.tapLoad tapTrain)

def execClamp (s : State) : Res State := s.go (s.tapLoad tapClamp)

def execHighz (s : State) : Res State := s.go (s.tapLoad tapHighz)

/-- A Kwawiot debug instruction: with DEBUG_LOCK it acts as BYPASS and is recorded as tamper (R616, R617). Otherwise it
is in force; the manual does not say what it does. (PRESUMED, log entry 34.) -/
def execTapDebugInstruction (s : State) : Res State :=
  s.go (if s.debugLocked then (s.tapLoad tapBypass).tamper 6 else s.tapLoad tapDebug)

/-- TRST_N resets the TAP controller alone. (PRESUMED, log entry 34.) -/
def execTrstN (s : State) : Res State := s.go { s with tap := { s.tap with inst := tapIdcode, loaded := tapIdcode } }

end Sys2Proof.Machine
end

