-- ==== Sys2Proof/Machine/Links.lean ====
section
/-! DEFINITION. Ragar packets that arrive (R501, R502, R504 to R516): delivery, forwarding, answers at the source, the
timers of outstanding requests (R507, R508), register access over the fabric (R706) and the time service (R522). -/

namespace Sys2Proof.Machine

/-! ### Forwarding (R500, R502, R591) -/

/-- The link between the F-dies in the order of Table 1-2. -/
def fdieLink : Nat := 52

/-- The port by which a packet that arrived on F-die `f` leaves: PRIMARY, else ALTERNATE, each while its link is up and,
where the link between the F-dies is lost, on the same F-die. -/
def State.forwardPort (s : State) (f node : Nat) : Option Nat :=
  let w := s.routeWord node
  if bitOf w 15 then
    ([bitsOf w 4 0, bitsOf w 12 8].map fun k => if k < 18 then s.carrier k else k).find? fun k =>
      decide (k < 18) && s.portUp k && (k / 9 == f || !s.health.linksOut.contains fdieLink)
  else none

/-- Is a packet one that its destination answers: a request, a COLL or a MGMT packet? -/
def isRequest (p : Packet) : Bool := p.vc == 0 || p.ptype == Pt.coll || p.ptype == Pt.mgmt

/-- The NACK with which a router answers the source of a request. Its SRC names the node that the request addressed, by
which the source counts SEQ. (DEDUCED, log entry 35.) -/
def routerNack (p : Packet) (code : Nat) : Packet :=
  ⟨Pt.nack, 1, false, code, p.src, p.dst, p.seq, p.job, p.offset, p.ackUnit, 0, []⟩

/-- Answers a request that cannot be passed on. -/
def State.bounce (s : State) (p : Packet) (code : Nat) : State :=
  if isRequest p then s.emitPkt (routerNack p code) else s

/-- A packet for another node that arrived on port `k`. (DEDUCED, log entry 35.) -/
def State.forwardPkt (s : State) (k : Nat) (p : Packet) : State :=
  if s.mooredNode p.dst && isRequest p then s.bounce p 9
  else
    match s.forwardPort (k / 9) p.dst with
    | some o => s.putPkt o p
    | none => s.bounce p 8

/-! ### Register access over the fabric (R706) -/

/-- Does the line of a REG write carry a counter above the last one of its source, and the right HMAC, under the MK? -/
def State.regAuth (s : State) (p : Packet) : Bool :=
  match s.sec.mkey with
  | none => false
  | some secret =>
    let ctr := sliceB p.body 0 8
    let key := hkdf384 [] secret (("kwawiot mgmt v1".toList).map fun c => BitVec.ofNat 8 c.toNat) 48
    let newer := match s.fabric.regSeen.find? fun x => x.1 == p.src with
      | some x => decide (x.2 < numLE ctr)
      | none => true
    p.body.length == 128 && newer && fieldB p.body 15 8 == low64 (hmac384 key (p.header ++ ctr))

/-- Answers a REG packet: the operation in bits [31:30], REFUSED in bit 29. -/
def State.regReply (s : State) (p : Packet) (op refused v : Nat) : State :=
  s.sendMgmt .none p.job p.src 0x904 (p.offset % 2 ^ 26 + refused * 2 ^ 29 + op * 2 ^ 30) v []

/-- The path of the fabric management plane. -/
def fabricPath : RegPath := ⟨3, none⟩

/-- A REG packet in its turn, and its ACK. (DEDUCED, log entry 36.) -/
def State.regAct (p : Packet) (s : State) : State :=
  let off := p.offset % 2 ^ 26
  let t := match bitsOf p.offset 31 30 with
    | 0 => s.regReply p 2 0 (numLE (s.readBytes none off 8))
    | 1 =>
      if s.regAuth p then
        let u := s.modFab fun f => { f with regSeen := spPut p.src (fieldB p.body 7 0) f.regSeen }
        (u.writeAt fabricPath off 8 (BitVec.ofNat 64 p.data)).regReply p 3 0 p.data
      else s.regReply p 3 1 p.data
    | _ => s
  t.sendAck p p.seq

/-! ### Requests in their turn -/

/-- What a numbered packet does when it is performed. -/
def State.actOn (errs : List (Nat × Ecc)) (x : Contest) (p : Packet) (s : State) : State :=
  if p.vc = 0 then
    let (r, t) := s.landReq p errs x
    t.answerReq p r
  else if p.vc = 2 then s.collAct errs x p
  else if p.unit = 0x904 then s.regAct p
  else s.jobAct p

/-! ### Outstanding requests at the source (R97, R98, R507, R511) -/

/-- The channel whose count an answer covers. -/
def answerVc (p : Packet) : Nat := if p.unit = 0x800 then 2 else if p.unit = 0x900 then 3 else 0

/-- The outstanding requests of a list that an ACK covers: those of its channel with SEQ up to its own, reads apart. -/
def acked (l : List ReqOut) (p : Packet) : List ReqOut :=
  l.filter fun r => r.pkt.dst == p.src && r.pkt.vc == answerVc p && !r.pkt.reads &&
    (r.pkt.seq == p.seq || seqBelow r.pkt.seq p.seq)

/-- The outstanding request that an answer names. -/
def State.named (s : State) (p : Packet) : Option ReqOut :=
  s.fabric.sent.find? fun r => r.pkt.dst == p.src && r.pkt.vc == answerVc p && r.pkt.seq == p.seq

/-- An ACK arrives. -/
def State.ackIn (s : State) (p : Packet) : State :=
  let l := acked s.fabric.sent p
  l.foldl (fun t r => t.settleReq r none) (l.foldl State.unsend s)

/-- A NACK arrives. -/
def State.nackIn (s : State) (p : Packet) : State :=
  match s.named p with
  | some r => (s.unsend r).settleReq r (some p.code)
  | none => s

/-- A read is answered: x[rd] takes the value, or the poison traps (R516). A load whose answer comes while its cluster is paused
is executed again when the cluster resumes (R107). -/
def State.loadDone (s : State) (P : Nat) (q p : Packet) : State :=
  match (s.cl P).wait with
  | .remoteLoad rd _ _ =>
    if !s.awaitsAnswer P q then s
    else if (s.cl P).act ≠ .running then s.modCl P fun c => { c with wait := .none }
    else if p.poison then s.loadFailed P q Cause.dataPoison
    else s.atBoundary (s.modCl P fun c => ({ c with wait := .none }.setX rd (BitVec.ofNat 64 p.data)).retire) P
  | _ => s

/-- A READ_RESP arrives; one that names no outstanding read is a second answer, and is dropped. -/
def State.respIn (s : State) (p : Packet) : State :=
  match s.named p with
  | some r =>
    if !r.pkt.reads then s
    else
      match r.owner with
      | .cluster P _ => (s.unsend r).loadDone P r.pkt p
      | _ => s.unsend r
  | none => s

/-- A NOTICE arrives (R508): buffered requests below the base are discarded, and the counts of the pair go on from it. -/
def State.noticeIn (s : State) (p : Packet) (errs : List (Nat × Ecc)) (x : Contest) : State :=
  let base := p.data % 2 ^ 32
  let t := s.modFab fun f => { f with
    baseIn := spPut p.src base f.baseIn
    early := f.early.filter fun q => !(q.src == p.src && seqBelow q.seq base) }
  seqVcs.foldl (fun u vc =>
    if !seqBelow (u.seqExp p.src vc) base then u
    else
      let u := u.setSeqIn p.src vc base
      match u.fabric.early.find? fun q => q.src == p.src && q.vc == vc && q.seq == base with
      | some q => (u.modFab fun f => { f with early := f.early.filter (· != q) }).drainSeq (State.actOn errs x) q
          (u.fabric.early.length + 1)
      | none => u) t

/-! ### Delivery -/

/-- A packet for this node. -/
def State.accept (s : State) (p : Packet) (errs : List (Nat × Ecc)) (x : Contest) : State :=
  if isRequest p then s.receiveSeq p (State.actOn errs x)
  else if p.ptype = Pt.ack then s.ackIn p
  else if p.ptype = Pt.nack then s.nackIn p
  else if p.ptype = Pt.readResp then s.respIn p
  else if p.ptype = Pt.notice then s.noticeIn p errs x
  else s

/-- A packet that arrived on port `k`: one that breaks Table 17-3 or 17-4 is discarded and counted; one for this node is
delivered; the others are forwarded. Without a node id the package accepts TIME and MGMT traffic alone (R501). A TIME
packet goes no further than its link; TIME has a row of its own. (DEDUCED, log entry 35.) -/
def State.deliver (s : State) (k : Nat) (p : Packet) (errs : List (Nat × Ecc)) (x : Contest) : State :=
  if !p.ok then s.satAdd (Reg.portErrors k) F.PORT_ERRORS_DISCARDED 1
  else if p.ptype = Pt.time then s
  else if p.dst ≠ s.nodeId then s.forwardPkt k p
  else if !s.nodeValid && p.ptype != Pt.mgmt then s
  else s.accept p errs x

/-- A packet of one kind arrives on a port whose link is trained. -/
def State.arrive (s : State) (k : Nat) (p : Packet) (kind : Bool) (errs : List (Nat × Ecc)) (x : Contest) : State :=
  if kind && s.trained k then s.deliver k p errs x else s

/-! ### Packet rows -/

def execRead8 (k : Fin 18) (p : Packet) (errs : List (Nat × Ecc)) (x : Contest) (s : State) : Res State :=
  s.go (s.arrive k.val p (p.ptype == Pt.read8) errs x)

def execWrite8 (k : Fin 18) (p : Packet) (errs : List (Nat × Ecc)) (x : Contest) (s : State) : Res State :=
  s.go (s.arrive k.val p (p.ptype == Pt.write8) errs x)

def execFlag8 (k : Fin 18) (p : Packet) (errs : List (Nat × Ecc)) (x : Contest) (s : State) : Res State :=
  s.go (s.arrive k.val p (p.ptype == Pt.flag8) errs x)

def execReadLines (k : Fin 18) (p : Packet) (errs : List (Nat × Ecc)) (x : Contest) (s : State) : Res State :=
  s.go (s.arrive k.val p (p.ptype == Pt.readLines) errs x)

def execWriteLines (k : Fin 18) (p : Packet) (errs : List (Nat × Ecc)) (x : Contest) (s : State) : Res State :=
  s.go (s.arrive k.val p (p.ptype == Pt.writeLines) errs x)

def execAck (k : Fin 18) (p : Packet) (s : State) : Res State :=
  s.go (s.arrive k.val p (p.ptype == Pt.ack) [] .free)

def execNack (k : Fin 18) (p : Packet) (s : State) : Res State :=
  s.go (s.arrive k.val p (p.ptype == Pt.nack) [] .free)

def execReadResp (k : Fin 18) (p : Packet) (s : State) : Res State :=
  s.go (s.arrive k.val p (p.ptype == Pt.readResp) [] .free)

/-- A NOTICE with a new SEQ base. -/
def execLinkResync (k : Fin 18) (p : Packet) (errs : List (Nat × Ecc)) (x : Contest) (s : State) : Res State :=
  s.go (s.arrive k.val p (p.ptype == Pt.notice) errs x)

/-- A COLL packet of one kind (R537). (DESIGN CHOICE, log entry 8.) -/
def State.collRow (s : State) (k : Nat) (p : Packet) (unit : Nat) (errs : List (Nat × Ecc)) (x : Contest) : Res State :=
  s.go (s.arrive k p (p.ptype == Pt.coll && p.unit == unit) errs x)

def execCollData (k : Fin 18) (p : Packet) (errs : List (Nat × Ecc)) (x : Contest) (s : State) : Res State :=
  s.collRow k.val p 0x800 errs x

def execCollReady (k : Fin 18) (p : Packet) (errs : List (Nat × Ecc)) (x : Contest) (s : State) : Res State :=
  s.collRow k.val p 0x801 errs x

def execCollEnd (k : Fin 18) (p : Packet) (errs : List (Nat × Ecc)) (x : Contest) (s : State) : Res State :=
  s.collRow k.val p 0x802 errs x

def execCollAbort (k : Fin 18) (p : Packet) (errs : List (Nat × Ecc)) (x : Contest) (s : State) : Res State :=
  s.collRow k.val p 0x803 errs x

/-- A MGMT packet of one kind (R697). (DESIGN CHOICE, log entry 8.) -/
def State.mgmtRow (s : State) (k : Nat) (p : Packet) (unit : Nat) : Res State :=
  s.go (s.arrive k p (p.ptype == Pt.mgmt && p.unit == unit) [] .free)

def execJobLaunchPacket (k : Fin 18) (p : Packet) (s : State) : Res State := s.mgmtRow k.val p 0x900

def execJobReport (k : Fin 18) (p : Packet) (s : State) : Res State := s.mgmtRow k.val p 0x901

def execJobAbortPacket (k : Fin 18) (p : Packet) (s : State) : Res State := s.mgmtRow k.val p 0x902

def execJobTeardownPacket (k : Fin 18) (p : Packet) (s : State) : Res State := s.mgmtRow k.val p 0x903

def execRegPacket (k : Fin 18) (p : Packet) (s : State) : Res State := s.mgmtRow k.val p 0x904

/-- A packet for another node (R502). -/
def execPacketForward (k : Fin 18) (p : Packet) (s : State) : Res State :=
  s.go (s.arrive k.val p (p.dst != s.nodeId) [] .free)

/-! ### Timers (R507, R508) -/

/-- The outstanding request with a destination, channel and sequence number. -/
def State.outstanding (s : State) (node vc seq : Nat) : Option ReqOut :=
  s.fabric.sent.find? fun r => r.pkt.dst == node && r.pkt.vc == vc && r.pkt.seq == seq

/-- The barge that carries the notes of an outstanding request. -/
def State.reqBarge (s : State) (r : ReqOut) : Option (Nat × Nat) :=
  match r.owner with
  | .cluster P run => if (s.cl P).barge = run then run else none
  | .slot k => (s.collEnv k).map fun v => (v.b.canal, v.b.seq)
  | .job k _ => (s.job? k).bind (·.barge)
  | .none => none

/-- A request that nothing has covered for RETX_US is sent again by the route in force, and its barge carries RETRIED; none is
while no node id is assigned (R501). A
destination to which no path leads is reported as the package's own router would. -/
def execRetxTimeout (node : BitVec 16) (vc : Fin 4) (seq : BitVec 32) (s : State) : Res State :=
  s.go <| match s.outstanding node.toNat vc.val seq.toNat with
    | none => s
    | some r =>
      if !s.nodeValid || decide (s.now < r.lastAt + s.fld Reg.fabricTimers F.FABRIC_TIMERS_RETX_US * 1000) then s
      else
        match s.pathCode r.pkt.dst with
        | some c => (s.unsend r).settleReq r (some c)
        | none =>
          let t := s.modFab fun f => { f with sent := f.sent.map fun y => if y = r then { y with lastAt := s.now } else y }
          let t := match t.reqBarge r with
            | some (c, q) => t.addNote c q Note.retried
            | none => t
          t.emitPkt r.pkt

/-- A request that nothing has covered for REPLY_US is abandoned with every other outstanding one of its node pair.
(DEDUCED, log entry 36.) -/
def execReplyTimeout (node : BitVec 16) (vc : Fin 4) (seq : BitVec 32) (s : State) : Res State :=
  s.go <| match s.outstanding node.toNat vc.val seq.toNat with
    | none => s
    | some r =>
      if s.now < r.sentAt + s.fld Reg.fabricTimers F.FABRIC_TIMERS_REPLY_US * 1000 then s
      else s.abandonNode node.toNat

/-! ### The time service (R522) -/

/-- Is exchange `a` of a port followed before `b`: the master of lower node id, then the shorter path, then the lower port? -/
def timeBefore (a b : Nat × TimeRec) : Bool :=
  decide (a.2.master < b.2.master) || (a.2.master == b.2.master && (decide (a.2.hops < b.2.hops) ||
    (a.2.hops == b.2.hops && decide (a.1 ≤ b.1))))

/-- The exchange that the package follows: the best of the ports whose links are up. -/
def State.timeBest (s : State) : Option (Nat × TimeRec) :=
  let l := s.fabric.times.filter fun x => s.portUp x.1
  l.find? fun x => l.all fun y => timeBefore x y

/-- A TIME exchange on link `k` has measured the timebase against the master's, which lies `hops` links away: OFFSET is own minus
the master's. The package follows the shortest path. The master itself follows nobody, unless another master has a lower node
id. (DESIGN CHOICE, log entry 38.) -/
def execTimePacket (k : Fin 18) (master : BitVec 16) (hops : BitVec 6) (offset : BitVec 32) (s : State) : Res State :=
  let a := Reg.timeStatus
  let own := s.flag a F.TIME_STATUS_MASTER
  s.go <|
    if !s.portUp k.val || (own && decide (s.nodeId ≤ master.toNat)) then s
    else
      let s := s.modFab fun f => { f with times := spPut k.val ⟨master.toNat, hops.toNat, offset⟩ f.times }
      match s.timeBest with
      | none => s
      | some (port, x) =>
        if port ≠ k.val then s
        else
          let d := offset.toInt
          let leads := own && s.fld a F.TIME_STATUS_HOPS == 0
          let near := decide (d.natAbs ≤ 10 + 5 * hops.toNat)
          let t := s.setFlds a [(F.TIME_STATUS_LOCKED, b2n (near && !leads)), (F.TIME_STATUS_HOPS, x.hops),
            (F.TIME_STATUS_OFFSET, offset.toNat)]
          t.modFab fun f => { f with gain := (-d).toNat, lag := d.toNat }

end Sys2Proof.Machine
end

