-- ==== Sys2Proof/Machine/Flits.lean ====
section
/-! DEFINITION. Link flits, replays, notices, losses, training and lanes (R493 to R500, R606). -/

namespace Sys2Proof.Machine

/-! ### Acknowledgement (R496) -/

/-- How far flit sequence number `b` lies after `a`, modulo 2^16. -/
def flitAfter (a b : Nat) : Nat := (b + 65536 - a % 65536) % 65536

/-- The held flits that an ACK does not cover. -/
def notAcked (held : List HeldFlit) (ack : Nat) : List HeldFlit :=
  held.filter fun q => decide (0 < flitAfter ack q.fseq ∧ flitAfter ack q.fseq < 32768)

/-- The partner acknowledges data flits up to `ack`. (DEDUCED, log entry 37.) -/
def State.flitAck (s : State) (k ack : Nat) : State :=
  s.setLink k { s.link k with held := notAcked (s.link k).held ack }

/-- The receiver asks for the flits after the last one received in order. (DEDUCED, log entry 37.) -/
def State.askReplay (s : State) (k : Nat) : State :=
  (s.satAdd (Reg.portErrors k) F.PORT_ERRORS_REPLAYS 1).sendControl k Ft.replay 0

/-! ### Losses (R498, R578) -/

/-- A trained link is lost: the loss is recorded, and the sixteenth in an hour fails the port. A moored link is not lost
(R500). -/
def State.linkOut (s : State) (k kind : Nat) : State :=
  if !s.trained k then s
  else
    let t := s.linkLost k
    let t := t.errRecord (unitPort k) kind 3 6 none 0 0 0 t.now
    if 16 ≤ t.faultsIn (unitPort k) 7 hourNs then t.portFail k 3 kind else t

/-- A replay request: the held flits after its ACK are sent again, in their order; the sixteenth replay of one flit loses the
link. -/
def State.replay (s : State) (k ack : Nat) : State :=
  let t := s.flitAck k ack
  let again := (t.link k).held.map fun h => { h with tries := h.tries + 1 }
  let t := again.foldl (fun u h => u.emit (.flit k h.bytes)) (t.setLink k { t.link k with held := again })
  if again.any fun h => decide (16 ≤ h.tries) then t.linkOut k 5 else t

def execReplayRequest (k : Fin 18) (ack : BitVec 16) (s : State) : Res State :=
  s.go (if s.trained k.val then s.replay k.val ack.toNat else s)

/-- A link notice: 0x01 moor, 0x02 going down (R500). -/
def State.linkNotice (s : State) (k code : Nat) : State :=
  if !s.portUp k then s
  else if code = 1 then s.linkDown k 4
  else if code = 2 then s.linkDown k 3
  else s

def execLinkNotice (k : Fin 18) (code : BitVec 8) (s : State) : Res State := s.go (s.linkNotice k.val code.toNat)

/-- Every usable lane has lost lock for 1 ms, or (`replays`) one flit was replayed 16 times without an ACK. -/
def execLinkLoss (k : Fin 18) (replays : Bool) (s : State) : Res State :=
  s.go (s.linkOut k.val (if replays then 5 else 7))

/-! ### Flits that arrive (R493, R494, R496) -/

/-- Units of the receive buffer of a virtual channel are free again. -/
def State.freeUnits (s : State) (k vc n : Nat) : State :=
  s.setLink k { s.link k with owed := addVc (s.link k).owed vc n }

/-- Takes the packets out of the stream of port `k`: 32-byte units of zeros between packets are padding, a packet with reserved
bits of PFLAGS set is discarded and counted (R504), and what is not whole waits. (DESIGN CHOICE, log entry 37.) -/
def State.unpack (s : State) (k : Nat) (errs : List (Nat × Ecc)) (x : Contest) : Nat → List Byte → State
  | 0, bs => s.setLink k { s.link k with stream := bs }
  | n + 1, bs =>
    let len := 32 + 128 * fieldB bs 3 3
    if bs.length < 32 then s.setLink k { s.link k with stream := bs }
    else if (bs.take 32).all (· == 0) then s.unpack k errs x n (bs.drop 32)
    else if bs.length < len then s.setLink k { s.link k with stream := bs }
    else
      let t := s.freeUnits k (fieldB bs 1 1 % 4) (len / 32)
      match packetOf (sliceB bs 0 32) (sliceB bs 32 (len - 32)) with
      | some p => (t.deliver k p errs x).unpack k errs x n (bs.drop len)
      | none => (t.satAdd (Reg.portErrors k) F.PORT_ERRORS_DISCARDED 1).unpack k errs x n (bs.drop len)

/-- The body of the next data flit of port `k`. Where FIRST does not stand where the packet that is not whole ends, that packet is
dropped and the stream goes on from FIRST. (DESIGN CHOICE, log entry 37.) -/
def State.bodyIn (s : State) (k first : Nat) (body : List Byte) (errs : List (Nat × Ecc)) (x : Contest) : State :=
  let old := (s.link k).stream
  let due := if old.isEmpty then 0 else 32 + 128 * fieldB old 3 3 - old.length
  if first < 16 ∧ due ≠ 32 * first then
    let t := if old.isEmpty then s else s.satAdd (Reg.portErrors k) F.PORT_ERRORS_DISCARDED 1
    t.unpack k errs x 17 (body.drop (32 * first))
  else s.unpack k errs x ((old.length + 512) / 32 + 1) (old ++ body)

/-- Counts the codewords that begin in a flit, and keeps the last one that it touches (R493, R527). -/
def State.codewords (s : State) (k : Nat) (f : Flit) : State :=
  let e := Reg.portErrors k
  let t := f.fixed.foldl (fun t n => if 15 < n then t.satAdd e F.PORT_ERRORS_UNCORRECTED 1
    else t.satAdd e F.PORT_ERRORS_CORRECTED n) s
  t.setLink k { t.link k with lastCw := f.fixed.getLast?.getD (t.link k).lastCw }

/-- Does a flit touch a codeword with more than 15 symbol errors, which is not corrected (R493)? -/
def State.flitLost (s : State) (k : Nat) (f : Flit) : Bool :=
  f.fixed.any (fun n => decide (15 < n)) || (f.carry && decide (15 < (s.link k).lastCw))

/-- A flit arrives on port `k`. (DEDUCED, log entry 37.) -/
def State.flitIn (s : State) (k : Nat) (f : Flit) (errs : List (Nat × Ecc)) (x : Contest) : State :=
  let t := s.codewords k f
  if s.flitLost k f || !flitGood f.bytes then t.askReplay k
  else
    let t := t.flitAck k (fieldB f.bytes 3 2)
    let t := t.setLink k ((t.link k).creditIn (flitCredit f.bytes))
    let d := flitAfter (t.link k).recv (fieldB f.bytes 1 0)
    let kind := fieldB f.bytes 12 12
    if kind = Ft.data ∧ d = 1 then
      (t.setLink k { t.link k with recv := fieldB f.bytes 1 0, ackDue := true }).bodyIn k (fieldB f.bytes 13 13)
        (sliceB f.bytes 30 512) errs x
    else
      let t := if 0 < d ∧ d < 32768 then t.askReplay k else t
      if kind = Ft.replay then t.replay k (fieldB f.bytes 3 2)
      else if kind = Ft.notice then t.linkNotice k (fieldB f.bytes 14 14)
      else t

def execFlitReceive (k : Fin 18) (f : Flit) (errs : List (Nat × Ecc)) (x : Contest) (s : State) : Res State :=
  s.go (if s.trained k.val then s.flitIn k.val f errs x else s)

/-! ### Lanes (R497) -/

/-- WIDTH for a mask of failed lanes: x4, x2 on the pair without one; none where both pairs hold one. -/
def widthOf (failed : Nat) : Option Nat :=
  if failed % 16 = 0 then some 0 else if failed % 4 = 0 then some 1 else if failed / 4 % 4 = 0 then some 2 else none

/-- A port whose lanes of a mask have failed runs at the width that they leave, and carries the traffic of running collectives more
slowly (R547); none left, its link is lost and the port fails. -/
def State.setLanes (s : State) (k failed kind : Nat) : State :=
  let t := s.setLink k { s.link k with failed := failed }
  match widthOf failed with
  | some w => (t.setFld (Reg.portStatus k) F.PORT_STATUS_WIDTH w).throttleColls
  | none => (if t.linked k then t.linkLost k else t).portFail k 3 kind

/-! ### Training (R498, R606) -/

/-- May a port train: it is neither off nor disabled? -/
def State.mayTrain (s : State) (k : Nat) : Bool :=
  !bitOf (s.fld (Reg.portMap (k / 9)) F.PORT_MAP_DISABLED) (k % 9) && !s.portOff k &&
    s.fld (Reg.portMap (k / 9)) F.PORT_MAP_STATE != 2

/-- A link that is down or lost attempts training, once per second. (DEDUCED, log entry 37.) -/
def execLinkTraining (k : Fin 18) (s : State) : Res State :=
  let a := Reg.portStatus k.val
  let st := s.fld a F.PORT_STATUS_STATE
  let l := s.link k.val
  s.go <|
    if (st ≠ 0 ∧ st ≠ 3) ∨ !s.mayTrain k.val ∨ (l.lastTry ≠ 0 ∧ s.now < l.lastTry + 10 ^ 9) then s
    else (s.setFld a F.PORT_STATUS_STATE 1).setLink k.val { l with lastTry := s.now }

/-- Do the ends agree about encryption: both ask for it, this end holds an MK, and the check values agree, or neither
asks? -/
def State.keysAgree (s : State) (t : Training) : Bool :=
  let own := s.flag Reg.secCtrl F.SEC_CTRL_LINK_ENC
  own == t.enc && (!own || (s.sec.mkey.isSome && t.kcv))

/-- The lanes that the partner has declared failed count at this end too (R497). -/
def State.partnerLanes (s : State) (k : Nat) (t : Training) : State :=
  let failed := (s.link k).failed ||| t.lanes.toNat
  if failed = (s.link k).failed then s else s.setLanes k failed 6

/-- Training ends: the link is up with its partner's identity, or its keys do not agree and it retries as a lost one. A link that
is up trains again where the partner has declared a lane failed. -/
def execLinkTrainingComplete (k : Fin 18) (t : Training) (s : State) : Res State :=
  let a := Reg.portStatus k.val
  let st := s.fld a F.PORT_STATUS_STATE
  s.go <|
    if !s.mayTrain k.val then s
    else if st = 2 then s.partnerLanes k.val t
    else if st ≠ 1 ∧ st ≠ 4 then s
    else
      let u := s.setFlds a [(F.PORT_STATUS_PARTNER_NODE, t.node.toNat), (F.PORT_STATUS_PARTNER_F, b2n t.f),
        (F.PORT_STATUS_PARTNER_PORT, t.port.val)]
      if !s.keysAgree t then (u.satAdd Reg.secStatus F.SEC_STATUS_LINK_KEY_FAILS 1).setFld a F.PORT_STATUS_STATE 3
      else ((u.setFld a F.PORT_STATUS_STATE 2).setLink k.val { (u.link k.val).fresh with enc := t.enc }).partnerLanes k.val t

/-! ### A lane fails (R497) -/

/-- A lane of a port fails: by 10^5 corrected symbols per second for 10 s, or (`lock`) by its third loss of lock in an
hour. (DEDUCED, log entry 37.) -/
def execLaneFailure (k : Fin 18) (lane : Fin 4) (lock : Bool) (symbols : Word) (s : State) : Res State :=
  let l := s.link k.val
  let failed := l.failed ||| 2 ^ lane.val
  let kind := if lock then 7 else 6
  s.go <|
    if bitOf l.failed lane.val then s
    else
      let t := s.noteFault (unitLane (k.val / 9) (k.val % 9 * 4 + lane.val)) kind 0
      let t := t.errRecord (unitLane (k.val / 9) (k.val % 9 * 4 + lane.val)) kind 2 6 none 0 0
        (if lock then 0 else symbols.toNat) t.now
      t.setLanes k.val failed kind

end Sys2Proof.Machine
end

