-- ==== Sys2Proof/Machine/Deadline.lean ====
section
/-! DEFINITION. A barge whose deadline passes, and the COMPLETE of a barge whose work has ended (R366 to R371). -/

namespace Sys2Proof.Machine

/-! ### BARGE_DEADLINE (Table 12-7) -/

/-- Leaves a stop to the work row of a started barge. (DEDUCED, log entry 21.) -/
def State.askStop (s : State) (b : Barge) : State :=
  let t := s.logStop b 0x03 none
  t.setBarge { ((t.barge? b.canal b.seq).getD b) with stopBy := 1 }

/-- What a deadline that passes after the start of a barge does (Table 12-7, R264, R561, R571). (DEDUCED, log entry 21.) -/
def State.deadlineAfter (s : State) (b : Barge) : State :=
  let missed := fun (t : State) => t.endBarge b.canal b.seq St.deadlineMissed 0 0
  let op := b.native
  if op = 0x201 ∨ op = 0x202 then (s.stopNow b 0x03 none St.deadlineMissed).2
  else if [0x100, 0x101, 0x102, 0x601, 0x603].contains op ∨ op / 256 = 3 then
    if b.stopBy = 0 then s.askStop b else s
  else if 0x510 ≤ op ∧ op ≤ 0x513 then s.collDeadline b
  else if op = 0x520 then s.jobDeadline b
  else
    match b.phase, b.work with
    | .working, .wait _ => ((s.logStop b 0x03 none).unwatch (.barge b.canal b.seq)).finish b.canal b.seq St.deadlineMissed 0 0
    | .working, .unmap _ _ => missed (s.logStop b 0x03 none)
    | .working, .none =>
      if op = 0x703 then missed ((s.logStop b 0x03 none).setDomain (b.f 32 32) (b.f 39 36) 0) else s
    | _, _ => s

/-- BARGE_DEADLINE. A barge that waits completes with DEADLINE_MISSED and has no effect; one whose work has all
completed is not stopped (R368); a stop waits for a substitution that pauses the barge (R599). (DEDUCED, log entry 21.) -/
def execBargeDeadline (c : Fin 256) (q : Nat) (s : State) : Res State :=
  s.go <| match s.barge? c.val q with
    | none => s
    | some b =>
      if b.deadline = 0 ∨ s.now < b.deadline ∨ s.runPaused b then s
      else
        match b.phase with
        | .waiting => (s.logStop b 0x03 none).finish b.canal b.seq St.deadlineMissed 0 0
        | .ended _ _ _ => s
        | _ => s.deadlineAfter b

/-! ### BARGE_COMPLETION -/

/-- The add to FLAG_ADDR that precedes the tally of a collective that has started (R536); a poisoned word takes none
(R710). (DEDUCED, log entry 39.) -/
def State.collFlag (s : State) (b : Barge) (status : Nat) (ecc : Ecc) (x : Contest) : State :=
  let fl := b.f 95 88
  if b.native < 0x510 ∨ 0x513 < b.native ∨ fl = 0 then s
  else
    s.asHeld b fun s =>
      match s.execTranslate b.part true 8 fl with
      | .error _ => s
      | .ok pa =>
        let t := (s.execContest b [⟨pa, 8, true⟩] x).meetEcc ecc pa
        if t.poisonedAt pa then t else t.store8 pa ((t.numAt pa 8 + collFlagAdd (b.finalStatus status)) % 2 ^ 64)

/-- BARGE_COMPLETION: enters the COMPLETE of a barge whose work has ended and writes its tally, `fail` saying that the
write fails on PCIe; then what the completion decides for other barges. (DESIGN CHOICE, log entry 18.) -/
def execBargeCompletion (c : Fin 256) (q : Nat) (fail : Bool) (ecc : Ecc) (x : Contest) (s : State) : Res State :=
  s.go <| match if s.takingOver then none else s.barge? c.val q with
    | none => s
    | some b =>
      match b.phase with
      | .ended st r0 r1 =>
        let t := (s.collFlag b st ecc x).collBreaks b st
        let b' := (t.barge? b.canal b.seq).getD b
        ((t.complete1 b' fail st r0 r1).settle t.barges.length).heldLaunches
      | _ => s

end Sys2Proof.Machine
end

