-- ==== Sys2Proof/Machine/VectorMem.lean ====
section
/-! DEFINITION. The vector loads and stores (R131, R132, R134 to R138): every active element is checked before any is
moved, and poisoned data stops the cluster. -/

namespace Sys2Proof.Machine

/-- The registers of the index group of mode 0b10 (R131). -/
def idxRegs (vl : Nat) : Nat := max 1 (ceilDiv (4 * vl) 1024)

/-- The address of element `i` (Table 4-14), modulo 2^64. -/
def Cluster.vea (c : Cluster) (w i : Nat) : Nat :=
  let base := c.x (vmRs1 w)
  match vmMode w with
  | 0 => addr64 base (i * c.ew)
  | 1 => addr64 base (i * (c.x (vmRs2 w)).toInt)
  | _ => addr64 base (c.vnum (1024 * vmF w + 4 * i) 4)

/-- The elements that a memory instruction accesses: one for vldb, vl for the others. -/
def Cluster.vcount (c : Cluster) (w : Nat) : Nat := if vFunc w = 1 then min c.vl 1 else c.vl

/-- The check of one element: address checks, then the path to another C-die (R134, R137). (DEDUCED, log entry 13.) -/
def State.vcheck (t : State) (P : Nat) (write : Bool) (width ea : Nat) : Tr :=
  match t.clTranslate P write width ea with
  | .error c => .error c
  | .ok pa => if t.pathTo (P / 144) pa then .ok pa else .error Cause.fabricUnreachable

/-- A word whose configuration traps: an index group past v95, or one that overlaps the destination of a load.
(DEDUCED, log entry 13.) -/
def Cluster.vmConfigBad (c : Cluster) (w : Nat) (store : Bool) : Bool :=
  vmMode w == 2 && (decide (96 < vmF w + idxRegs c.vl) ||
    (!store && rangesMeet (vD w, 1) (vmF w, idxRegs c.vl)))

/-- The registers that a memory instruction reads besides a store's data. -/
def Cluster.vmReads (c : Cluster) (w : Nat) : List (Nat × Nat) :=
  if vmMode w = 2 then [(vmF w, idxRegs c.vl)] else []

/-- With a vl of 0 the instruction accesses nothing and takes no trap (R117). Checks every active element and then runs `k` on
the physical addresses. The lowest-numbered element that fails gives the trap, and VEC_FAULT its index (R134, R136). -/
def State.vmem (s t : State) (P : Nat) (env : CEnv) (w : Nat) (store : Bool) (k : List Nat → State → State) : State :=
  let c := t.cl P
  let width := c.ew
  if c.vl ≠ 0 && c.vmConfigBad w store then t.vecConfig P w
  else if (c.vmReads w).any c.regBusyR || (if store then c.regBusyR (vD w, 1) else c.regBusyW (vD w, 1)) then s
  else if let some k := (c.vreadPois (4 * c.vl) (c.vmReads w)).or
      (c.vreadPois (c.vl * width) (if store then [(vD w, 1)] else [])) then t.regPoison P (k / 128)
  else
    let eas := (List.range (c.vcount w)).map (c.vea w)
    let trs := eas.map (t.vcheck P store width)
    match trs.findIdx? (fun r => !r.isOk) with
    | some i =>
      let cause := match trs.getD i (.ok 0) with
        | .error e => e
        | .ok _ => 0
      (t.modCl P fun d => { d with vecFault := some i, checkStall := d.checkStall + env.stall }).trap P cause
        (eas.getD i 0)
    | none =>
      let pas := trs.map fun r => match r with
        | .ok pa => pa
        | .error _ => 0
      if pas.any (fun pa => if store then c.memBusyW (ownRange P pa width) else c.memBusyR (ownRange P pa width))
      then s
      else k pas ((t.modCl P fun d =>
        { d with checkStall := d.checkStall + env.stall }.touchRegs ((vD w, 1) :: c.vmReads w)).access P env
        (pas.map fun pa => ⟨pa, width, store⟩))

/-- Stops cluster `P` by poison that its load met at element `i`, or by the drop of that element's store (R138, R591).
(DEDUCED, log entry 13.) -/
def State.vecPoisonStop (t : State) (P i ea : Nat) : State :=
  (t.modCl P fun d => { d with vecFault := some i }).stopCluster P Cause.vecPoison ea (t.cl P).pc Cause.vecPoison

/-- The access of a load: the element groups that hold no poison are written; poison then stops the cluster. R138 lets later
instructions have issued by then; in the model the load accesses memory in its own step, so none has. (DESIGN CHOICE,
log entry 13.) -/
def State.vloadAccess (t : State) (P : Nat) (env : CEnv) (w : Nat) (pas : List Nat) : State :=
  let c := t.cl P
  let width := c.ew
  let t := match pas with
    | [] => t
    | pa :: _ => t.meetEcc env.ecc pa
  let bad := (List.range pas.length).filter fun i => t.poisonedAt (pas.getD i 0) || !t.reaches P env (pas.getD i 0)
  let vals := pas.map fun pa => t.numAt pa width
  let els := if vFunc w = 1 then (List.range c.vl).map fun i => (i, vals.headD 0)
    else (List.range c.vl).zip vals
  let kept := els.filter fun e =>
    if vFunc w = 1 then bad.isEmpty else !bad.any fun i => i * width / 128 == e.1 * width / 128
  let t := t.modCl P fun d => d.putSome width (vD w) kept
  match bad with
  | i :: _ => t.vecPoisonStop P i (c.vea w i)
  | [] => t.modCl P fun d => d.vretire .lsu env.busy

/-- Vector loads, opcode 0x21. -/
def execVectorLoad (p : Fin 576) (env : CEnv) (s : State) : Res State :=
  s.instr p.val .vectorLoad env fun w t =>
    s.vmem t p.val env w false fun pas u => u.vloadAccess p.val env w pas

/-- The element stores of a vector store, ascending (R132); one that does not arrive is dropped (R591).
(DEDUCED, log entry 13.) -/
def State.vstoreEls (t : State) (P : Nat) (env : CEnv) (width : Nat) : List (Nat × Nat) → State
  | [] => t
  | (pa, v) :: rest =>
    (if t.reaches P env pa then (t.markStale P pa width).store pa (bytesLE width v) else t).vstoreEls P env width rest

/-- The access of a store; where one of its elements was dropped, the cluster stops with the address of the lowest (R591). -/
def State.vstoreAccess (t : State) (P : Nat) (env : CEnv) (w : Nat) (pas : List Nat) : State :=
  let u := match pas with
    | [] => t
    | pa :: _ => t.mergeRead env.ecc pa (t.cl P).ew
  let c := u.cl P
  let v := u.vstoreEls P env c.ew (pas.zip (c.els c.ew (vD w) c.vl))
  match pas.findIdx? (fun pa => !u.reaches P env pa) with
  | some i => v.vecPoisonStop P i (c.vea w i)
  | none => v.modCl P fun d => d.vretire .lsu env.busy

/-- Vector stores, opcode 0x22. -/
def execVectorStore (p : Fin 576) (env : CEnv) (s : State) : Res State :=
  s.instr p.val .vectorStore env fun w t =>
    s.vmem t p.val env w true fun pas u => u.vstoreAccess p.val env w pas

/-- Poisoned data reaches the vector load at pc (R138). Without poison on its elements the state stays as it is. -/
def execVecPoison (p : Fin 576) (env : CEnv) (s : State) : Res State :=
  s.instr p.val .vectorLoad env fun w t =>
    s.vmem t p.val env w false fun pas u =>
      let v := match pas with
        | [] => u
        | pa :: _ => u.meetEcc env.ecc pa
      if pas.any (fun pa => v.poisonedAt pa || !v.reaches p.val env pa) then u.vloadAccess p.val env w pas else s

end Sys2Proof.Machine
end

