-- ==== Sys2Proof/Machine/Matrix.lean ====
section
/-! DEFINITION. The matrix instructions and the events of the array and its output unit (R146 to R178). -/

namespace Sys2Proof.Machine

/-- Puts a checked instruction into its queue (R164); it retires from the sequencer. (DEDUCED, log entry 14.) -/
def Cluster.enqueue (c : Cluster) (m : MatOp) : Cluster :=
  let c := (c.touchRegs (m.rdReg ++ m.wrReg))
  { c with
    mat := c.mat ++ [m]
    matNum := c.matNum + 1
    lastMma := if m.kind == MatKind.mma then c.lastMma ++ [(m.tile, m.deferred)] else c.lastMma }.retire

/-- Does an mma with ACC chain on the one before it: was an mma of the same queue the last instruction that touched the tile
(R168)? -/
def Cluster.chains (c : Cluster) (w : Nat) : Bool := maAcc w && c.lastMma.contains (mT w, maDefer w)

/-- mma: the check, then the main or the deferred queue (R153, R159, R164). -/
def execMma (p : Fin 576) (env : CEnv) (s : State) : Res State :=
  s.instr p.val .mma env fun w t =>
    let c := t.cl p.val
    let (xa, xb, xc) := ((c.x (fA w)).toNat, (c.x (fB w)).toNat, (c.x (fC w)).toNat)
    match mmaCheck w xa xb xc with
    | some (cause, tval) => t.trap p.val cause tval
    | none =>
      if 2 ≤ c.mmaQueued (maDefer w) then s
      else
        let o := mmaOps w xa xb xc
        let tile := tileRegs (mT w)
        t.setCl p.val (c.enqueue ⟨c.matNum, .mma, w, xa, xb, xc, c.pc, c.retired, c.fpctrl, c.chains w, [],
          [o.sa, o.sb, o.a, o.b], [], o.aReg.toList ++ o.bReg.toList ++ (if maAcc w then [tile] else []), [tile]⟩)

/-- Stops cluster `P` by poison that a matrix instruction met at a basin line or in a register (R162). -/
def State.matPoisonStop (t : State) (P epc at_ : Nat) : State :=
  t.stopCluster P Cause.matPoison at_ epc Cause.matPoison

/-- mout: the descriptor is read and checked, then the output-unit queue (R154, R159, R164). -/
def execMout (p : Fin 576) (env : CEnv) (s : State) : Res State :=
  s.instr p.val .mout env fun w t =>
    let c := t.cl p.val
    let (xa, xb, xc) := ((c.x (fA w)).toNat, (c.x (fB w)).toNat, (c.x (fC w)).toNat)
    let readable := !(moOreg w && moDual w) && !rangeBad 64 (xb, 64)
    let t := if readable then (t.access p.val env [⟨basinPA p.val + xb, 64, false⟩]).meetEcc env.ecc (basinPA p.val + xb) else t
    if readable && c.memBusyR (xb, 64) then s
    else if readable && ((List.range 8).any fun i => t.poisonedAt (basinPA p.val + xb + 8 * i)) then
      t.matPoisonStop p.val c.pc (alignDown xb 128)
    else
      let desc := t.bytesAt (basinPA p.val + xb) 64
      match moutCheck w xa xb xc (parseOut desc) with
      | some (cause, tval) => t.trap p.val cause tval
      | none =>
        if 4 ≤ c.outQueued then s
        else
          match parseOut desc with
          | none => s
          | some d =>
            let o := moutOps w xa xc d
            let tile := tileRegs (mT w)
            let bias := match d.bias with
              | some off => [(off, d.biasLen)]
              | none => []
            t.setCl p.val (c.enqueue ⟨c.matNum, .mout, w, xa, xb, xc, c.pc, c.retired, c.fpctrl, false, desc,
              (xb, 64) :: bias, [o.p, o.ps, o.d, o.ds], [tile],
              (if moOreg w then [regGroup xa o.len] else []) ++ (if moClear w then [tile] else [])⟩)

/-- A matrix instruction of cluster `P` ends: poison that it reads stops the cluster, else it takes effect. `t` is the state in
which it acts. -/
def State.matEnd (t : State) (P : Nat) (m : MatOp) (after : Cluster → Cluster) : State :=
  match t.matPoisoned P m with
  | some at_ => t.matPoisonStop P m.pc at_
  | none => (t.matFinish P m).modCl P after

/-- What the first basin line that an instruction reads meets (R285). -/
def State.matEcc (t : State) (P : Nat) (m : MatOp) (e : Ecc) : State :=
  match m.rdMem.find? (fun r => r.2 != 0) with
  | some r => t.meetEcc e (basinPA P + r.1)
  | none => t

/-- The basin accesses of a matrix instruction, the operand fetch among them (Table 2-4). -/
def MatOp.touches (m : MatOp) (P : Nat) : List Touch :=
  m.rdMem.map (fun r => ⟨basinPA P + r.1, r.2, false⟩) ++ m.wrMem.map fun r => ⟨basinPA P + r.1, r.2, true⟩

/-- The last k-step of an mma issues and its tile lands: the mma that the array serves (R166). Poison that it fetched stops the
cluster. `env.busy` counts the plane changes that the interleaving of its k-steps with those of the other plane added, which
is timing. A paused cluster completes nothing. -/
def execMmaComplete (p : Fin 576) (deferred : Bool) (env : CEnv) (s : State) : Res State :=
  s.goDie (p.val / 144) <|
    if (s.cl p.val).act ≠ .running then s
    else
      match (s.cl p.val).matHead false deferred with
      | none => s
      | some m => (((s.issueAt p.val env).access p.val env (m.touches p.val)).matEcc p.val m env.ecc).matEnd p.val m fun c =>
        { c with matSwitch := c.matSwitch + env.busy, fetchStall := c.fetchStall + env.stall }

/-- The output unit finishes the mout, mzero or mtrans that it serves (R166, R171). -/
def execMoutComplete (p : Fin 576) (deferred : Bool) (env : CEnv) (s : State) : Res State :=
  s.goDie (p.val / 144) <|
    if (s.cl p.val).act ≠ .running then s
    else
      match (s.cl p.val).matHead true deferred with
      | none => s
      | some m => (((s.issueAt p.val env).access p.val env (m.touches p.val)).matEcc p.val m env.ecc).matEnd p.val m id

/-- Issues a tile operation into the output-unit queue, which four others may fill (R164). -/
def State.tileOp (s t : State) (P : Nat) (kind : MatKind) (w : Nat) : State :=
  let c := t.cl P
  let tile := tileRegs (bitsOf w 1 0)
  if 4 ≤ c.outQueued then s
  else t.setCl P (c.enqueue ⟨c.matNum, kind, w, 0, 0, 0, c.pc, c.retired, c.fpctrl, false, [], [], [],
    if kind == MatKind.mtrans then [tile] else [], [tile]⟩)

/-- mzero: every byte of the tile becomes zero, once every earlier reader and writer of it is done (R155, R167).
(DEDUCED, log entry 14.) -/
def execMzero (p : Fin 576) (env : CEnv) (s : State) : Res State :=
  s.instr p.val .mzero env fun w t => s.tileOp t p.val .mzero w

/-- mtrans: elements (r, c) and (c, r) of the 32-bit view exchange, in the same order (R155). (DEDUCED, log entry 14.) -/
def execMtrans (p : Fin 576) (env : CEnv) (s : State) : Res State :=
  s.instr p.val .mtrans env fun w t => s.tileOp t p.val .mtrans w

/-- mdrain: completes once every earlier matrix instruction has completed (R155). (DEDUCED, log entry 14.) -/
def execMdrain (p : Fin 576) (env : CEnv) (s : State) : Res State :=
  s.instr p.val .mdrain env fun _ t =>
    if (t.cl p.val).mat.isEmpty then t.modCl p.val fun c => { c with matRetired := c.matRetired + 1 }.retire else s

/-- The instructions of cluster `P` that fetch or read now: those in the planes and in the output unit. -/
def Cluster.matServed (c : Cluster) : List MatOp :=
  [c.inPlane false, c.inPlane true, c.outReady false, c.outReady true].filterMap id

/-- A poisoned line or register reaches a matrix instruction that is in a plane or in the output unit (R162). Without poison
the state stays as it is. -/
def execMatPoison (p : Fin 576) (env : CEnv) (s : State) : Res State :=
  s.goDie (p.val / 144) <|
    let c := s.cl p.val
    let t := match c.matServed with
      | m :: _ => (s.issueAt p.val env).matEcc p.val m env.ecc
      | [] => s
    match if c.act = .running then c.matServed.findSome? fun m => (t.matPoisoned p.val m).map fun x => (m.pc, x) else none with
    | some (epc, x) => t.matPoisonStop p.val epc x
    | none => s

end Sys2Proof.Machine
end

