-- ==== Sys2Proof/Machine/SolverNum.lean ====
section
/-! DEFINITION. The arithmetic of the solver sequencers: LU and Cholesky with the pivot rules of Table 8-1, triangular
solves, dot products and norms (R213, R236, R244 to R249). Every operation rounds to nearest even in the form's
format. Values are codes of that format, and the flush flag is threaded through. -/

namespace Sys2Proof.Machine

/-- A computation that leaves the flags of its operations. -/
abbrev Ar := StateM Fx

/-- An operation with its flags. -/
def Ar.of (p : Nat × Fx) : Ar Nat := fun fx => (p.1, fx.or p.2)

/-- The format of a form's arithmetic, and its FTZ flag (R213). -/
structure Num where
  fmt : Fmt
  ftz : Bool

/-- The arithmetic of FMT 0x00 and 0x01. -/
def numOf (single ftz : Bool) : Num := ⟨if single then .binary32 else .binary64, ftz⟩

/-- The element size in bytes. -/
def Num.es (n : Num) : Nat := n.fmt.width / 8

def Num.add (n : Num) (a b : Nat) : Ar Nat := Ar.of (n.fmt.addC .rne n.ftz a b)
def Num.sub (n : Num) (a b : Nat) : Ar Nat := Ar.of (n.fmt.subC .rne n.ftz a b)
def Num.mul (n : Num) (a b : Nat) : Ar Nat := Ar.of (n.fmt.mulC .rne n.ftz a b)
def Num.div (n : Num) (a b : Nat) : Ar Nat := Ar.of (n.fmt.divC .rne n.ftz a b)
def Num.sqrt (n : Num) (a : Nat) : Ar Nat := Ar.of (n.fmt.sqrtC .rne n.ftz a)

/-- c + a·b with one rounding. -/
def Num.fma (n : Num) (c a b : Nat) : Ar Nat := Ar.of (n.fmt.fmaC false false .rne n.ftz a b c)

/-- c − a·b, and c + a·b; the manual does not say whether the product is rounded first. -/
def Num.mulSub (n : Num) (c a b : Nat) : Ar Nat :=
  if Config.solverFuses c a b then Ar.of (n.fmt.fmaC true false .rne n.ftz a b c)
  else do n.sub c (← n.mul a b)

/-- (PRESUMED, log entry 24.) -/
def Num.mulAdd (n : Num) (c a b : Nat) : Ar Nat :=
  if Config.solverFuses c a b then n.fma c a b
  else do n.add c (← n.mul a b)

/-- An element as arithmetic reads it: flushed under FTZ. -/
def Num.read (n : Num) (a : Nat) : Ar Nat :=
  let (v, fx) := n.fmt.operand n.ftz a
  Ar.of (if fx.flush then n.fmt.zero v.neg else a, fx)

/-- The magnitude of a code, as a code; magnitudes of finite codes order as their values. -/
def Num.mag (n : Num) (a : Nat) : Nat := a % 2 ^ (n.fmt.width - 1)

/-- Is a code finite? -/
def Num.finite (n : Num) (a : Nat) : Bool := decide (n.mag a < n.fmt.inf false)

/-- Is a denominator zero? -/
def Num.zero? (n : Num) (a : Nat) : Bool := n.mag a == 0

/-- The code with the other sign. -/
def Num.neg (n : Num) (a : Nat) : Nat := Nat.xor a (2 ^ (n.fmt.width - 1))

/-- The binary64 code of the same value. -/
def Num.wide (n : Num) (a : Nat) : Nat :=
  if n.fmt = .binary64 then a else (Fmt.convC n.fmt .binary64 false .rne false false a).1

/-- A binary64 value rounded to the format. -/
def Num.narrow (n : Num) (a : Nat) : Ar Nat :=
  if n.fmt = .binary64 then n.read a else Ar.of (Fmt.convC .binary64 n.fmt false .rne n.ftz n.ftz a)

/-- a < b and a ≤ b of two codes. -/
def Num.lt (n : Num) (a b : Nat) : Bool := (n.fmt.decode a).lt (n.fmt.decode b)

def Num.le (n : Num) (a b : Nat) : Bool := (n.fmt.decode a).le (n.fmt.decode b)

/-- binary64 constants. -/
def f64One : Nat := 0x3FF0000000000000
def f64Inf : Nat := 0x7FF0000000000000

/-! ### Matrices -/

/-- A matrix of codes, by rows. -/
abbrev Mat := Array (Array Nat)

/-- Element (i, j). -/
def Mat.el (a : Mat) (i j : Nat) : Nat := (a.getD i #[]).getD j 0

/-- A row. -/
def Mat.row (a : Mat) (i : Nat) : Array Nat := a.getD i #[]

/-- Sets element (i, j). -/
def Mat.put (a : Mat) (i j v : Nat) : Mat := a.setIfInBounds i ((a.row i).setIfInBounds j v)

/-- The matrix of `m` rows and `k` columns whose elements `f` gives. -/
def Mat.build (m k : Nat) (f : Nat → Nat → Nat) : Mat := Array.ofFn fun i : Fin m => Array.ofFn fun j : Fin k => f i j

/-- Exchanges rows i and k. -/
def swapAt {α : Type} (a : Array α) (d : α) (i k : Nat) : Array α :=
  (a.setIfInBounds i (a.getD k d)).setIfInBounds k (a.getD i d)

/-! ### Pivots (R244 to R249) -/

/-- A pivot event of the log (Table 8-2): the column, the cause, the pivot before regularisation in binary64. -/
structure PivEvent where
  col   : Nat
  cause : Nat
  pivot : Nat
  deriving DecidableEq, Repr

/-- A factorisation under way. -/
structure Fac where
  mat    : Mat
  perm   : Array Nat
  events : List PivEvent := []     -- in column order
  least  : Nat := f64Inf           -- smallest pivot magnitude used, binary64
  diag   : Nat := f64Inf           -- smallest diagonal entry of L, binary64
  reg    : Nat := 0                -- pivots regularised
  fail   : Option (Nat × Nat × Nat) := none   -- cause, column, magnitude of the pivot in binary64

/-- The thresholds of R247, in the format. -/
structure Thresh where
  tau   : Nat
  delta : Nat

/-- tau and delta of a scale. -/
def Num.thresh (n : Num) (tau64 delta64 s : Nat) : Ar Thresh := do
  let d : Num := ⟨.binary64, n.ftz⟩
  let t ← n.narrow (← d.mul tau64 (n.wide s))
  let e ← n.narrow (← d.mul delta64 (n.wide s))
  pure ⟨t, e⟩

/-- The scale of R244: the largest magnitude of a list, 1.0 where that is zero. -/
def Num.scale (n : Num) (l : List Nat) : Nat :=
  let m := l.foldl (fun m x => max m (n.mag x)) 0
  if m = 0 then (n.fmt.bias * 2 ^ n.fmt.manBits) else m

/-- The row of the LU pivot of column `k` among rows below `npiv` (R245). -/
def Num.pivotRow (n : Num) (a : Mat) (npiv k : Nat) : Nat :=
  (List.range npiv).foldl (fun best i => if k < i ∧ n.mag (a.el best k) < n.mag (a.el i k) then i else best) k

/-- Does an element of the rows below `k`, in the columns from `k` on, hold an infinity or NaN (R249)? -/
def Num.broken (n : Num) (a : Mat) (k : Nat) (lower : Bool) : Bool :=
  (List.range a.size).any fun i => decide (k < i) && (List.range a.size).any fun j =>
    decide (k ≤ j) && (!lower || decide (j ≤ i)) && !n.finite (a.el i j)

/-- Eliminates column `k` of LU below its pivot. -/
def Num.eliminate (n : Num) (a : Mat) (k : Nat) : Ar Mat := do
  let pr := a.row k
  (List.range a.size).foldlM (fun a i =>
    if i ≤ k then pure a
    else do
      let l ← n.div (a.el i k) (pr.getD k 0)
      let row ← (List.range pr.size).foldlM (fun (r : Array Nat) j =>
        if j < k then pure r
        else if j = k then pure (r.setIfInBounds k l)
        else do pure (r.setIfInBounds j (← n.mulSub (r.getD j 0) l (pr.getD j 0)))) (a.row i)
      pure (a.setIfInBounds i row)) a

/-- Eliminates column `k` of Cholesky, in the lower triangle. -/
def Num.eliminateChol (n : Num) (a : Mat) (k : Nat) : Ar Mat := do
  let d := a.el k k
  let a ← (List.range a.size).foldlM (fun (a : Mat) i =>
    if i ≤ k then pure a else do pure (a.put i k (← n.div (a.el i k) d))) a
  (List.range a.size).foldlM (fun (a : Mat) i =>
    if i ≤ k then pure a
    else (List.range (i + 1)).foldlM (fun (a : Mat) j =>
      if j ≤ k then pure a
      else do pure (a.put i j (← n.mulSub (a.el i j) (a.el i k) (a.el j k)))) a) a

/-- Notes a pivot event, the failing ones with what the result record reports. -/
def Fac.note (f : Fac) (n : Num) (col cause p : Nat) (fails : Bool) : Fac :=
  { f with
    events := (f.events.filter fun e => e.col != col) ++ [⟨col, cause, n.wide p⟩]
    fail := if fails then some (cause, col, n.wide (n.mag p)) else f.fail }

/-- One column of LU (Table 8-1): search, exchange, pivot, elimination. -/
def Num.luCol (n : Num) (th : Thresh) (npiv : Nat) (f : Fac) (k : Nat) : Ar Fac := do
  if f.fail.isSome then pure f
  else
    let r := n.pivotRow f.mat npiv k
    let f := { f with mat := swapAt f.mat #[] k r, perm := swapAt f.perm 0 k r }
    let p := f.mat.el k k
    let tiny := decide (n.mag p ≤ th.tau)
    if tiny && th.delta == 0 then pure (f.note n k 2 p true)
    else
      let used := if tiny then (if n.mag p ≠ 0 ∧ p ≠ n.mag p then n.neg th.delta else th.delta) else p
      let f := if tiny then { f.note n k 1 p false with mat := f.mat.put k k used, reg := f.reg + 1 } else f
      let m ← n.eliminate f.mat k
      let f := { f with mat := m, least := min f.least (n.wide (n.mag used)) }
      pure (if n.broken m k false then f.note n k 4 p true else f)

/-- One column of Cholesky (Table 8-1). -/
def Num.cholCol (n : Num) (th : Thresh) (f : Fac) (k : Nat) : Ar Fac := do
  if f.fail.isSome then pure f
  else
    let d := f.mat.el k k
    let ok := n.lt th.tau d
    let reg := !ok && n.le (n.neg th.delta) d && th.delta != 0
    if !ok && !reg then pure (f.note n k (if n.lt d 0 then 3 else 2) d true)
    else
      let used := if reg then th.delta else d
      let l ← n.sqrt used
      let f := if reg then { f.note n k 1 d false with reg := f.reg + 1 } else f
      let m ← n.eliminateChol (f.mat.put k k l) k
      let f := { f with mat := m, least := min f.least (n.wide (n.mag used)), diag := min f.diag (n.wide l) }
      pure (if n.broken m k true then f.note n k 4 d true else f)

/-- Columns `k0` to `k1` − 1 of a factorisation. -/
def Num.columns (n : Num) (chol : Bool) (th : Thresh) (npiv k0 k1 : Nat) (f : Fac) : Ar Fac :=
  (List.range k1).foldlM (fun f k =>
    if k < k0 then pure f else if chol then n.cholCol th f k else n.luCol th npiv f k) f

/-! ### Triangular solves -/

/-- A vector under solution, and the row of its first infinity or NaN (R249). -/
structure Tri where
  x    : Array Nat
  fail : Option Nat := none

/-- Forward substitution with the first `m` rows of a lower factor: unit diagonal in LU. -/
def Num.forward (n : Num) (a : Mat) (chol : Bool) (m : Nat) (b : Array Nat) : Ar Tri :=
  (List.range m).foldlM (fun (t : Tri) i => do
    let s ← (List.range i).foldlM (fun s j => n.mulSub s (a.el i j) (t.x.getD j 0)) (t.x.getD i 0)
    let x ← if chol then n.div s (a.el i i) else pure s
    pure { x := t.x.setIfInBounds i x
           fail := t.fail.or (if n.finite s && n.finite x then none else some i) }) ⟨b, none⟩

/-- Backward substitution with the first `m` rows of an upper factor U, or of Lᵀ; the columns from `m` on are known. -/
def Num.backward (n : Num) (a : Mat) (chol : Bool) (m : Nat) (y : Array Nat) : Ar Tri :=
  (List.range m).foldlM (fun (t : Tri) k => do
    let i := m - 1 - k
    let u := fun j => if chol then a.el j i else a.el i j
    let js := (List.range y.size).filter fun j => decide (i < j)
    let s ← (if Config.backAscends then js else js.reverse).foldlM (fun s j => n.mulSub s (u j) (t.x.getD j 0))
      (t.x.getD i 0)
    let x ← n.div s (u i)
    pure { x := t.x.setIfInBounds i x
           fail := t.fail.or (if n.finite s && n.finite x then none else some i) }) ⟨y, none⟩

/-- Solves for one right-hand side with a dense factor: the vector, or the row of the first infinity or NaN. -/
def Num.solveCol (n : Num) (chol : Bool) (f : Fac) (b : Array Nat) : Ar Tri := do
  let m := f.mat.size
  let pb : Array Nat := if chol then b else Array.ofFn fun i : Fin m => b.getD (f.perm.getD i 0) 0
  let y ← n.forward f.mat chol m pb
  match y.fail with
  | some i => pure ⟨y.x, some i⟩
  | none => n.backward f.mat chol m y.x

/-! ### Vectors (R236) -/

/-- One pass of the fixed tree of R126. -/
def Num.pairs (n : Num) : List Nat → Ar (List Nat)
  | a :: b :: rest => do pure ((← n.add a b) :: (← n.pairs rest))
  | l => pure l

/-- The sum of a list by the fixed tree; `fuel` bounds its passes. -/
def Num.tree (n : Num) : Nat → List Nat → Ar Nat
  | 0, l => pure (l.headD 0)
  | _, [] => pure 0
  | _, [a] => pure a
  | k + 1, l => do n.tree k (← n.pairs l)

/-- A global dot product: partial sums of blocks of 4,096 rows in row order, then the tree over the blocks. -/
def Num.dot (n : Num) (x y : Array Nat) : Ar Nat := do
  let blocks ← (List.range (ceilDiv x.size 4096)).mapM fun b =>
    (List.range (min 4096 (x.size - 4096 * b))).foldlM (fun s i =>
      n.mulAdd s (x.getD (4096 * b + i) 0) (y.getD (4096 * b + i) 0)) 0
  n.tree (bitLen blocks.length + 1) blocks

/-- The 2-norm. -/
def Num.norm (n : Num) (x : Array Nat) : Ar Nat := do n.sqrt (← n.dot x x)

/-- x + a·y and x − a·y, element by element. -/
def Num.axpy (n : Num) (x : Array Nat) (a : Nat) (y : Array Nat) : Ar (Array Nat) := do
  pure (← (List.range x.size).mapM fun i => n.mulAdd (x.getD i 0) a (y.getD i 0)).toArray

def Num.axmy (n : Num) (x : Array Nat) (a : Nat) (y : Array Nat) : Ar (Array Nat) := do
  pure (← (List.range x.size).mapM fun i => n.mulSub (x.getD i 0) a (y.getD i 0)).toArray

/-- x − y, and x / a, element by element. -/
def Num.vsub (n : Num) (x y : Array Nat) : Ar (Array Nat) := do
  pure (← (List.range x.size).mapM fun i => n.sub (x.getD i 0) (y.getD i 0)).toArray

def Num.vdiv (n : Num) (x : Array Nat) (a : Nat) : Ar (Array Nat) := do
  pure (← (List.range x.size).mapM fun i => n.div (x.getD i 0) a).toArray

/-- The largest magnitude of a vector: its ∞-norm. -/
def Num.maxNorm (n : Num) (x : Array Nat) : Nat := x.foldl (fun m a => max m (n.mag a)) 0

end Sys2Proof.Machine
end

