-- ==== Sys2Proof/Machine/SolverBatch.lean ====
section
/-! DEFINITION. What the solver forms share: their payload (Table 7-1), the checks of Table 7-2, the assembly front stage
(R223 to R225), result records (R217, R218), the pivot log (R254, R255), resume tokens (R265), statuses (R260 to R264);
and the batched dense form (R219 to R222, R250). -/

namespace Sys2Proof.Machine

/-! ### The job -/

/-- A solver barge's work: the barge that runs it, and the form and payload it runs, which for a SOLVE_RESUME come from
its token. -/
structure SolveJob where
  canal    : Nat
  seq      : Nat
  part     : Nat
  op       : Nat
  pay      : List Byte
  orig     : List Byte := []       -- bytes 32–127 of the barge that began the chain
  resume   : Bool := false
  progress : Nat := 0
  stops    : Nat := 0
  notes    : Nat := 0              -- tally notes of the chain so far (R270)
  stopBy   : Nat := 0
  lost     : List Nat := []        -- reaches lost since the barge's start (R587)

def SolveJob.f (j : SolveJob) (hi lo : Nat) : Nat := fieldB j.pay hi lo

def SolveJob.mask (j : SolveJob) : Nat := j.f 39 32
def SolveJob.reaches (j : SolveJob) : List Nat := setBits 64 j.mask
def SolveJob.basinOff (j : SolveJob) : Nat := j.f 43 40
def SolveJob.basinLen (j : SolveJob) : Nat := j.f 46 44
def SolveJob.ftz (j : SolveJob) : Bool := bitOf (j.f 47 47) 0
def SolveJob.asm (j : SolveJob) : Bool := bitOf (j.f 47 47) 1
def SolveJob.x0Zero (j : SolveJob) : Bool := bitOf (j.f 47 47) 2
def SolveJob.asmDesc (j : SolveJob) : Nat := j.f 119 112
def SolveJob.tokenBase (j : SolveJob) : Nat := j.f 127 120
def SolveJob.zeros (j : SolveJob) (l : List (Nat × Nat)) : Bool := l.all fun r => zeroB j.pay r.1 r.2

/-- Bytes, and a number, of the job's partition's memory. -/
def State.lread (s : State) (p la n : Nat) : List Byte := s.localBytes s.maps p la n

def State.lnum (s : State) (p la n : Nat) : Nat := numLE (s.lread p la n)

/-- The `k`-byte elements of a range. -/
def State.lelems (s : State) (p la es n : Nat) : List Nat := (List.range n).map fun i => s.lnum p (la + es * i) es

/-- Does no path lead from the C-die of one of some reaches to a line of a range (R17, R591)? -/
def State.noPath (s : State) (p : Nat) (rs : List Nat) (la n : Nat) : Bool :=
  n != 0 && rs.any fun r => (lineSteps n).any fun k => !s.pathTo (r / 16) (s.paOf s.maps p (la + k))

/-- Is a range poisoned for the reaches that use it: a poisoned line, or one that no path leads to (R580, R591)?
(DEDUCED, log entry 65.) -/
def State.solveBad (s : State) (p : Nat) (rs : List Nat) (la n : Nat) : Bool :=
  (s.localPoison s.maps p la n).isSome || s.noPath p rs la n

/-- A store of a reach: the lines that no path leads to are left (R591). -/
def State.solveStore (s : State) (p : Nat) (rs : List Nat) (la : Nat) (bs : List Byte) : State :=
  s.storeLocalIf s.maps p la bs fun a => !s.noPath p rs a 1

/-- A range of device memory that a barge uses: address, length, whether it writes it, alignment. -/
structure DevRange where
  la    : Nat
  len   : Nat
  write : Bool
  align : Nat := 128

/-- The first address at which a range of device memory fails: its alignment, its place, its pages. -/
def State.devFault (s : State) (p : Nat) (r : DevRange) : Option Nat :=
  if r.len = 0 then none
  else if r.la % r.align ≠ 0 ∨ r.la < 2 ^ 32 ∨ 2 ^ 48 ≤ r.la then some r.la
  else s.rangeFault s.maps p r.write r.la r.len

/-! ### Limits that the forms share -/

/-- The working range is within Table 7-1. -/
def SolveJob.rangeOk (j : SolveJob) : Bool :=
  j.basinLen % 128 == 0 && decide (0x80 ≤ j.basinLen) && j.basinOff % 128 == 0 &&
    decide (j.basinOff + j.basinLen ≤ basinSize)

/-- A binary64 limit field; −0 counts as 0 (R248). -/
def posZero (x : Nat) : Nat := if x = 2 ^ 63 then 0 else x

/-- PIVOT_TAU, PIVOT_DELTA and PIVLOG_BASE of Table 7-5. -/
def SolveJob.tau (j : SolveJob) : Nat := posZero (j.f 103 96)
def SolveJob.delta (j : SolveJob) : Nat := posZero (j.f 111 104)
def SolveJob.pivlog (j : SolveJob) : Nat := j.f 95 88

/-- The limits of R248. -/
def SolveJob.pivotOk (j : SolveJob) : Bool :=
  decide (j.tau < f64One) && decide (j.delta ≤ f64One) && (j.delta == 0 || decide (j.tau ≤ j.delta))

/-- CAPACITY of the pivot log as it stands (R254); a header that cannot be used fails check 7 later. -/
def State.pivCap (s : State) (j : SolveJob) : Nat :=
  if j.pivlog = 0 || (s.devFault j.part ⟨j.pivlog, 64, true, 128⟩).isSome then 0 else s.lnum j.part j.pivlog 4

/-- The pivot log's range. -/
def State.pivRange (s : State) (j : SolveJob) : List DevRange :=
  if j.pivlog = 0 then [] else [⟨j.pivlog, 64 + 16 * s.pivCap j, true, 128⟩]

/-- The range of a resume token. -/
def SolveJob.tokenRange (j : SolveJob) : List DevRange :=
  if j.tokenBase = 0 then [] else [⟨j.tokenBase, 128, true, 128⟩]

/-! ### Assembly (R223 to R225) -/

/-- An assembly descriptor (Table 7-7). -/
structure AsmDesc where
  termBase    : Nat
  nterm       : Nat
  nparam      : Nat
  nmeas       : Nat
  paramBase   : Nat
  paramStride : Nat
  measBase    : Nat
  measStride  : Nat
  mode        : Nat
  accum       : Bool
  zeros       : Bool

/-- The descriptor that 64 bytes spell. -/
def asmOf (d : List Byte) : AsmDesc :=
  ⟨fieldB d 7 0, fieldB d 11 8, fieldB d 13 12, fieldB d 15 14, fieldB d 23 16, fieldB d 31 24, fieldB d 39 32,
    fieldB d 47 40, fieldB d 48 48, bitOf (fieldB d 49 49) 0, zeroB d 63 50 && decide (fieldB d 49 49 < 2)⟩

/-- What a form offers as targets: its problem's shape (Table 7-8). -/
structure AsmShape where
  modes : List Nat
  n     : Nat
  nrhs  : Nat
  slots : Nat      -- MODE 0x01: slot count, and right-hand-side elements
  rhs   : Nat
  total : Nat      -- MODE 0x02: elements of the record

/-- The place of a target among the form's values: A or the slots first, the right-hand sides after them. -/
def AsmShape.place (x : AsmShape) (mode t : Nat) : Option Nat :=
  match mode with
  | 0 =>
    let (r, c) := (t / 65536, t % 65536)
    if x.n ≤ r then none
    else if c < x.n then some (r * x.n + c)
    else if 0xFF00 ≤ c ∧ c < 0xFF00 + x.nrhs then some (x.n * x.n + r * x.nrhs + (c - 0xFF00))
    else none
  | 1 =>
    if t < 2 ^ 31 then (if t < x.slots then some t else none)
    else if t - 2 ^ 31 < x.rhs then some (x.slots + (t - 2 ^ 31)) else none
  | _ => if t < x.total then some t else none

/-- A term (Table 7-8). -/
structure Term where
  target : Nat
  pidx   : Nat
  midx   : Nat
  coef   : Nat

/-- The terms of a descriptor. -/
def State.terms (s : State) (p : Nat) (a : AsmDesc) : List Term :=
  (List.range a.nterm).map fun i =>
    let d := s.lread p (a.termBase + 16 * i) 16
    ⟨fieldB d 3 0, fieldB d 5 4, fieldB d 7 6, fieldB d 15 8⟩

/-- Is a term within its descriptor and shape? -/
def Term.ok (t : Term) (a : AsmDesc) (x : AsmShape) : Bool :=
  (x.place a.mode t.target).isSome && (t.pidx == 0xFFFF || decide (t.pidx < a.nparam)) &&
    (t.midx == 0xFFFF || decide (t.midx < a.nmeas))

/-- The job's descriptor. -/
def State.asmDesc (s : State) (j : SolveJob) : AsmDesc := asmOf (s.lread j.part j.asmDesc 64)

/-- The check of the assembly descriptor: it must be readable to be checked. -/
def State.asmFault (s : State) (j : SolveJob) (x : AsmShape) : Option (Nat × Nat) :=
  if !j.asm then none
  else
    match s.devFault j.part ⟨j.asmDesc, 64, false, 64⟩ with
    | some a => some (0x0313, a)
    | none =>
      let d := s.asmDesc j
      if !d.zeros || !x.modes.contains d.mode || d.nterm == 0 || decide (2 ^ 24 < d.nterm) || d.measStride % 8 != 0 ||
          d.paramStride % 8 != 0 then some (0x0310, 0)
      else
        match s.devFault j.part ⟨d.termBase, 16 * d.nterm, false, 128⟩ with
        | some a => some (0x0313, a)
        | none => if (s.terms j.part d).all fun t => t.ok d x then none else some (0x0310, 0)

/-- The parameter and measurement vectors of problems 0 to `count` − 1. -/
def State.asmRanges (s : State) (j : SolveJob) (count : Nat) : List DevRange :=
  if !j.asm then []
  else
    let d := s.asmDesc j
    (List.range count).flatMap fun i =>
      [⟨d.paramBase + i * d.paramStride, 8 * d.nparam, false, if i = 0 then 128 else 8⟩,
        ⟨d.measBase + i * d.measStride, 8 * d.nmeas, false, if i = 0 then 128 else 8⟩]

/-- Is a line of the terms or of problem `i`'s vectors poisoned for the reaches that read it? -/
def State.asmPoisoned (s : State) (p : Nat) (rs : List Nat) (d : AsmDesc) (i : Nat) : Bool :=
  s.solveBad p rs d.termBase (16 * d.nterm) || s.solveBad p rs (d.paramBase + i * d.paramStride) (8 * d.nparam) ||
    s.solveBad p rs (d.measBase + i * d.measStride) (8 * d.nmeas)

/-- Parameter `k` and measurement `k` of problem `i`. -/
def State.param (s : State) (p : Nat) (d : AsmDesc) (i k : Nat) : Nat :=
  if k = 0xFFFF then f64One else s.lnum p (d.paramBase + i * d.paramStride + 8 * k) 8

def State.meas (s : State) (p : Nat) (d : AsmDesc) (i k : Nat) : Nat :=
  if k = 0xFFFF then f64One else s.lnum p (d.measBase + i * d.measStride + 8 * k) 8

/-- Does a term of problem `i` read a NaN or an infinity (R225)? -/
def State.asmNonfinite (s : State) (p : Nat) (d : AsmDesc) (ts : List Term) (i : Nat) : Bool :=
  let w : Num := ⟨.binary64, false⟩
  ts.any fun t => !w.finite (s.param p d i t.pidx) || !w.finite (s.meas p d i t.midx)

/-- Assembles problem `i`: `old` gives the values that ACCUM adds to, in the form's format. Named targets accumulate in
binary64 and are rounded once into the format; the others are +0, or keep their values with ACCUM (R225). -/
def State.assemble (s : State) (p : Nat) (n : Num) (d : AsmDesc) (x : AsmShape) (ts : List Term) (i : Nat)
    (old : Array Nat) : Ar (Array Nat) := do
  let w : Num := ⟨.binary64, n.ftz⟩
  let named := (ts.filterMap fun t => x.place d.mode t.target).eraseDups
  let acc0 ← if d.accum then named.foldlM (fun (acc : Array Nat) k => do
      pure (acc.setIfInBounds k (n.wide (← n.read (old.getD k 0))))) old
    else pure (old.map fun _ => 0)
  let acc ← ts.foldlM (fun (acc : Array Nat) t => do
    let rd := fun v => (Fmt.binary64.operand n.ftz v)
    let (a, fa) := rd t.coef
    let (b, fb) := rd (s.param p d i t.pidx)
    let (c, fc) := rd (s.meas p d i t.midx)
    let v ← Ar.of (Fmt.binary64.fin1 .rne n.ftz ((a.mul b).mul c) ((fa.or fb).or fc))
    let k := (x.place d.mode t.target).getD 0
    pure (acc.setIfInBounds k (← w.add (acc.getD k 0) v))) acc0
  let base : Array Nat := old.map fun v => if d.accum then v else 0
  named.foldlM (fun (r : Array Nat) k => do pure (r.setIfInBounds k (← n.narrow (acc.getD k 0)))) base

/-! ### Result records, the pivot log and the registers -/

/-- The 16 bytes of a result record (Table 7-3). -/
def recordBytes (code index count value : Nat) : List Byte :=
  [BitVec.ofNat 8 code, 0] ++ bytesLE 2 index ++ bytesLE 4 count ++ bytesLE 8 value

/-- What the work on one problem leaves. -/
structure ProbOut where
  code   : Nat
  index  : Nat := 0
  count  : Nat := 0
  value  : Nat := 0
  events : List PivEvent := []
  reg    : Nat := 0
  least  : Nat := f64Inf
  writes : List (Nat × List Byte) := []
  undef  : List (Nat × Nat) := []

/-- Puts a pivot event into a list in ascending order of (PROBLEM, COLUMN) (R255). -/
def putEvent (e : Nat × PivEvent) : List (Nat × PivEvent) → List (Nat × PivEvent)
  | [] => [e]
  | x :: rest => if e.1 < x.1 ∨ (e.1 = x.1 ∧ e.2.col < x.2.col) then e :: x :: rest else x :: putEvent e rest

/-- Writes the events of a barge into its pivot log in their order: after those present in a resumed chain (R255).
(DEDUCED, log entry 25.) -/
def State.writePivots (s : State) (j : SolveJob) (ev : List (Nat × PivEvent)) : State :=
  if j.pivlog = 0 then s
  else
    let ev := ev.foldl (fun l e => putEvent e l) []
    let rs := j.reaches
    let cap := s.pivCap j
    let count := if j.resume then s.lnum j.part (j.pivlog + 4) 4 else 0
    let dropped := if j.resume then s.lnum j.part (j.pivlog + 8) 8 else 0
    let fit := ev.take (cap - count)
    let body := fit.flatMap fun x =>
      bytesLE 4 x.1 ++ bytesLE 2 x.2.col ++ [BitVec.ofNat 8 x.2.cause, 0] ++ bytesLE 8 x.2.pivot
    let t := s.solveStore j.part rs (j.pivlog + 64 + 16 * count) body
    t.solveStore j.part rs (j.pivlog + 4)
      (bytesLE 4 (count + fit.length) ++ bytesLE 8 (dropped + (ev.length - fit.length)) ++ List.replicate 48 0)

/-- The pivot counters of a reach after some work (R271, R272). (DEDUCED, log entry 25.) -/
def State.pivotRegs (s : State) (r num : Nat) (events : List PivEvent) (reg least : Nat) (failed : Bool) : State :=
  let t := (s.count (Reg.solverPivotReg r) reg).count (Reg.solverPivotFail r) (b2n failed)
  let t := t.setReg (Reg.solverMinPivot r) (min (t.reg (Reg.solverMinPivot r)) least)
  match events.getLast? with
  | none => t
  | some e => t.setReg (Reg.solverLastPivot r) (num % 2 ^ 32 + e.col % 2 ^ 16 * 2 ^ 40 + e.cause * 2 ^ 60)

/-- The clusters of the held reaches that are still there, in the order in which work is dealt to them (R222, R587). -/
def State.dealt (s : State) (j : SolveJob) : List Nat := (j.reaches.filter fun r => !j.lost.contains r).flatMap s.backed

/-- The cluster that item `i` of a batch is dealt to, in groups of `g`, and its reach. -/
def State.itemCluster (s : State) (j : SolveJob) (g i : Nat) : Nat :=
  let cs := s.dealt j
  cs.getD (i / g % cs.length) (logOf (j.reaches.headD 0) 0)

def State.itemReach (s : State) (j : SolveJob) (g i : Nat) : Nat := reachOfLog (s.itemCluster j g i)

/-- The clusters of some reaches whose engines did the flushing work of a form that runs on whole reaches: which of them
did is free. (DESIGN CHOICE, log entry 22.) -/
def State.flushersOf (s : State) (j : SolveJob) (rs : List Nat) : List Nat :=
  (s.dealt j).filter fun L => rs.contains (reachOfLog L) && Config.flushesIn j.canal j.seq L

/-- The marks that two pieces of work leave, the second by some clusters. -/
def flushedBy (ls : List Nat) (fx : Fx) (l : List Nat) : List Nat := if fx.flush then ls.foldl (fun m k => setIns k m) l else l

/-! ### Statuses, tokens and the end (R260 to R270) -/

/-- The resume token of a stop (Table 8-4). (DEDUCED, log entry 25.) -/
def State.tokenBytes (s : State) (j : SolveJob) (progress : Nat) : List Byte :=
  let pay := patchB j.orig 88 (bytesLE 8 j.tokenBase)
  let head := bytesLE 4 0x4B546F6B ++ bytesLE 2 1 ++ bytesLE 2 j.op ++ bytesLE 4 (min (j.stops + 1) (2 ^ 32 - 1)) ++
    [BitVec.ofNat 8 j.part, 1, 0, 0] ++ bytesLE 8 progress
  let key := spGet (fun _ => (0 : Word)) s.tokenKey j.part
  head ++ bytesLE 8 (digest64 (head ++ pay ++ bytesLE 8 key.toNat)) ++ sliceB pay 0 96

/-- How the work of a solver barge ended. -/
structure SolveEnd where
  stopped  : Bool          -- its work is unfinished
  useful   : Bool          -- a usable result exists (R262)
  status   : Nat           -- the status where it was not stopped (R263)
  r0       : Nat
  progress : Nat := 0
  fx       : Fx
  flushed  : List Nat := []   -- the logical clusters whose engines flushed
  reg      : Bool          -- a pivot was regularised

/-- The working ranges that a solver barge leaves undefined (R208). (DESIGN CHOICE, log entry 22; DEDUCED, log entry 64.) -/
def State.spoilBasins (s : State) (j : SolveJob) : State :=
  ((s.dealt j).filterMap s.physOfLog).foldl (fun t P => t.undefine (basinPA P + j.basinOff) j.basinLen) s

/-- A solver barge that flushed a value leaves FLUSH_SEEN and the hidden flag set in the clusters that flushed it (R70,
R193, R213). The mirrors of those clusters, which pass no instruction boundary, keep their values (R109).
(DEDUCED, log entry 22.) -/
def State.solveFlush (s : State) (ls : List Nat) : State :=
  (ls.filterMap s.physOfLog).foldl (fun t P => t.modCl P fun c => c.note { flush := true }) s

/-- A solver barge uses its ranges: the C-dies of its memory are noted (R448). The solver sequencer makes no choice
(R214). -/
def State.solveUse (s : State) (j : SolveJob) (rs : List DevRange) : State :=
  rs.foldl (fun t r => if r.len = 0 then t else t.useRange (some (j.canal, j.seq)) t.maps j.part r.la r.len) s

/-- Ends the work of a solver barge: notes, token, registers, status. A barge that CANAL_DRAIN stopped completes with
CANCELLED, also where its work was done by then: the STOP was entered first (R264, R370). Where it lost a reach, R587
sets bit 63 of the 32-bit RESULT1: that word is left open. (DESIGN CHOICE, log entry 22.) -/
def State.solveEnd (s : State) (j : SolveJob) (e : SolveEnv) (x : SolveEnd) : State :=
  let notes := j.notes ||| (if x.fx.flush then Note.flushSeen else 0) |||
    (if x.reg then Note.pivotRegularised else 0)
  let t := ((s.addNote j.canal j.seq notes).spoilBasins j).solveFlush x.flushed
  let t := e.hc.foldl (fun u h =>
    if j.reaches.contains h.1 then (u.count (Reg.solverArrayHc h.1) h.2.1).count (Reg.solverWaitHc h.1) h.2.2 else u) t
  if x.stopped then
    let t := j.reaches.foldl (fun u r => u.setFlds (Reg.solverStop r)
      [(F.SOLVER_STOP_DEADLINE, b2n (j.stopBy == 1 || j.stopBy == 3)), (F.SOLVER_STOP_CANCELLED, b2n (j.stopBy == 2)),
        (F.SOLVER_STOP_STOP_HC, min (spGet (fun _ => 0) e.stopHc r) (2 ^ 32 - 1))]) t
    if j.stopBy = 2 then t.endBarge j.canal j.seq St.cancelled x.r0 0
    else
      let t := if j.tokenBase = 0 then t
        else
          let tok := t.tokenBytes j x.progress
          { (t.solveStore j.part j.reaches j.tokenBase tok) with
            chains := spSet (fun _ => 0) (fieldB tok 31 24) notes t.chains }
      let st := if x.useful then 0x0301 else 0x0302
      if j.stopBy = 3 then
        let (w, t) := t.draw
        t.endBarge j.canal j.seq st x.r0 (w.toNat % 2 ^ 32)
      else t.endBarge j.canal j.seq st x.r0 0
  else t.endBarge j.canal j.seq (if j.stopBy = 2 then St.cancelled else x.status) x.r0 0

/-! ### Batches of problems -/

/-- Is problem or output `i` complete at the stop? -/
def endsAt (e : SolveEnv) (i : Nat) : Bool := (decide (i < e.done) || e.late.contains i) && !e.cut.contains i

/-- The run of a batch so far. -/
structure BatchAcc where
  st     : State
  fx     : Fx := {}
  flushed : List Nat := []
  events : List (Nat × PivEvent) := []
  reg    : Bool := false
  left   : Bool := false      -- a problem was abandoned or not started

/-- A form whose problems run one by one: its result array and count, how many are dealt as a group, what an abandoned
problem leaves undefined, its solution area, and the work on one problem, whole or up to a number of pivots or
iterations. -/
structure BatchForm where
  results : Nat
  count   : Nat
  group   : Nat
  spoil   : Nat → List (Nat × Nat)
  answer  : Nat → List (Nat × Nat)
  work    : State → Nat → Option Nat → Ar ProbOut

/-- The STATUS of record `i`. -/
def State.recordCode (s : State) (p base i : Nat) : Nat := s.lnum p (base + 16 * i) 1

/-- Runs problem `i`, or leaves it where a stop fell before its end (R261). The pivots that an abandoned problem had
come to count, but enter no log (R253, R255, R271). A problem with no reach left ends with code 0x09, its solution area
undefined (R217, R587). (DEDUCED, log entry 25.) -/
def BatchForm.item (b : BatchForm) (j : SolveJob) (e : SolveEnv) (a : BatchAcc) (i : Nat) : BatchAcc :=
  let s := a.st
  let r := s.itemReach j b.group i
  let setRec := fun (u : State) bs => u.solveStore j.part [r] (b.results + 16 * i) bs
  let spoils := fun (u : State) l => (l : List (Nat × Nat)).foldl (fun v r => v.storeFree j.part r.1 r.2) u
  if j.stopBy ≠ 0 && !endsAt e i then
    if e.cut.contains i then
      let (o, fx) := b.work s i (some (spGet (fun _ => 0) e.came i)) {}
      let t := setRec (spoils s (b.spoil i)) (recordBytes 5 0 0 0)
      { a with
        st := t.pivotRegs r i o.events o.reg o.least false
        fx := a.fx.or fx
        flushed := flushedBy [s.itemCluster j b.group i] fx a.flushed
        reg := a.reg || o.reg != 0
        left := true }
    else { a with left := true }
  else if (s.dealt j).isEmpty && !endsAt e i then { a with st := setRec (spoils s (b.answer i)) (recordBytes 9 0 0 0) }
  else
    let (o, fx) := b.work s i none {}
    let t := o.writes.foldl (fun u w => u.solveStore j.part [r] w.1 w.2) (spoils s o.undef)
    let t := setRec t (recordBytes o.code o.index o.count o.value)
    let t := (t.count (Reg.solverDone r) 1).pivotRegs r i o.events o.reg o.least (o.code == 2)
    let t := if j.asm then t.count (Reg.solverAsmTerms r) (t.asmDesc j).nterm else t
    { st := t
      fx := a.fx.or fx
      flushed := flushedBy [s.itemCluster j b.group i] fx a.flushed
      events := a.events ++ o.events.map fun v => (i, v)
      reg := a.reg || o.reg != 0
      left := a.left }

/-- The status of R263 that the codes of the records give. -/
def batchStatus (codes : List Nat) : Nat :=
  if codes.contains 2 then 0x0304
  else if codes.contains 3 then 0x0303
  else if codes.any fun c => decide (6 ≤ c ∧ c ≤ 0xB) then 0x0315
  else St.done

/-- Runs a batch: every record first reads NOT_STARTED; a resume runs the problems whose records hold 0x04 or 0x05. -/
def BatchForm.run (b : BatchForm) (j : SolveJob) (e : SolveEnv) (pivots : Bool) (s : State) : State :=
  let t := if j.resume then s
    else s.solveStore j.part j.reaches b.results ((List.range b.count).flatMap fun _ => recordBytes 4 0 0 0)
  let items := (List.range b.count).filter fun i => !j.resume || [4, 5].contains (t.recordCode j.part b.results i)
  let a := items.foldl (b.item j e) { st := t }
  let u := if pivots then a.st.writePivots j a.events else a.st
  let codes := (List.range b.count).map (u.recordCode j.part b.results)
  let good := (codes.filter fun c => decide (c ≤ 1)).length
  u.solveEnd j e
    { stopped := a.left, useful := codes.any fun c => c != 4 && c != 5, status := batchStatus codes
      r0 := good + (b.count - good) * 2 ^ 21, fx := a.fx, flushed := a.flushed, reg := a.reg }

/-! ### SOLVE_BATCH (R219 to R222, R250) -/

/-- The fields of Table 7-5. -/
structure BatchShape where
  chol  : Bool
  num   : Num
  n     : Nat
  nrhs  : Nat
  count : Nat

def SolveJob.batch (j : SolveJob) : BatchShape :=
  ⟨j.f 72 72 == 1, numOf (j.f 73 73 == 1) j.ftz, j.f 69 68, j.f 71 70, j.f 67 64⟩

/-- Elements of A and B, and the size S of a problem (R220). -/
def BatchShape.elems (b : BatchShape) : Nat := b.n * b.n + b.n * b.nrhs

def BatchShape.size (b : BatchShape) : Nat := ceilDiv (b.elems * b.num.es + 2 * b.n) 128 * 128

/-- The shape that its assembly sees. -/
def BatchShape.asm (b : BatchShape) : AsmShape := ⟨[0, 2], b.n, b.nrhs, 0, 0, b.size / b.num.es⟩

/-- How many problems run as a group on one cluster (R222). -/
def BatchShape.group (b : BatchShape) : Nat := if b.n ≤ 32 then (if b.num.es = 8 then 16 else 32) else 1

/-- Is an element of A that the factorisation reads, or of B? A NaN or an infinity in the strict upper triangle, which
Cholesky does not read (R221), is not looked for. (DESIGN CHOICE, log entry 25.) -/
def BatchShape.reads (b : BatchShape) (k : Nat) : Bool :=
  if k < b.n * b.n then !b.chol || decide (k % b.n ≤ k / b.n) else true

/-- Factors a dense problem and solves for its right-hand sides; `came` is the number of columns that a problem which is
abandoned had come to. -/
def BatchShape.solve (b : BatchShape) (tau delta : Nat) (v : Array Nat) (came : Option Nat) :
    Ar (ProbOut × Mat × Array Nat × List (Array Nat)) := do
  let n := b.num
  let v ← (List.range b.elems).mapM fun k => if b.reads k then n.read (v.getD k 0) else pure (v.getD k 0)
  let v := v.toArray
  let a := Mat.build b.n b.n fun i k => v.getD (i * b.n + k) 0
  let th ← n.thresh tau delta (n.scale (((List.range (b.n * b.n)).filter b.reads).map fun k => v.getD k 0))
  let f ← n.columns b.chol th b.n 0 (min b.n (came.getD b.n)) ⟨a, Array.ofFn fun i : Fin b.n => i.val, [], f64Inf, f64Inf, 0, none⟩
  if came.isSome then pure ({ code := 5, events := f.events, reg := f.reg, least := f.least }, f.mat, f.perm, [])
  else match f.fail with
  | some (_, col, val) =>
    pure ({ code := 2, index := col, value := val, events := f.events, reg := f.reg, least := f.least }, f.mat,
      f.perm, [])
  | none =>
    let (xs, bad) ← (List.range b.nrhs).foldlM (fun (acc : List (Array Nat) × Option Nat) c => do
      if acc.2.isSome then pure acc
      else
        let t ← n.solveCol b.chol f (Array.ofFn fun i : Fin b.n => v.getD (b.n * b.n + i * b.nrhs + c) 0)
        pure (acc.1 ++ [t.x], t.fail)) ([], none)
    match bad with
    | some row =>
      pure ({ code := 2, index := row, value := 0, events := f.events ++ [⟨row, 5, 0⟩], reg := f.reg, least := f.least },
        f.mat, f.perm, [])
    | none =>
      pure ({ code := if f.reg = 0 then 0 else 1, value := if b.chol then f.diag else f.least, events := f.events
              reg := f.reg, least := f.least }, f.mat, f.perm, xs)

/-- The work on problem `i`. -/
def SolveJob.batchWork (j : SolveJob) (ts : List Term) (s : State) (i : Nat) (came : Option Nat) : Ar ProbOut := do
  let b := j.batch
  let es := b.num.es
  let at_ := j.f 55 48 + i * b.size
  let d := s.asmDesc j
  let keeps := !j.asm || d.accum
  let rs := [s.itemReach j b.group i]
  if (keeps && (s.localPoison s.maps j.part at_ (alignUp (b.elems * es) 8)).isSome) || s.noPath j.part rs at_ b.size ||
      (j.asm && s.asmPoisoned j.part rs d i) then pure { code := 9 }
  else if j.asm && s.asmNonfinite j.part d ts i then pure { code := 8 }
  else
    let total := if j.asm ∧ d.mode = 2 then b.size / es else b.elems
    let old := (if keeps then s.lelems j.part at_ es total else List.replicate total 0).toArray
    let v ← if j.asm then s.assemble j.part b.num d b.asm ts i old else pure old
    if (List.range b.elems).any fun k => b.reads k && !b.num.finite (v.getD k 0) then pure { code := 8 }
    else
      let (o, a, perm, xs) ← b.solve j.tau j.delta v came
      if o.code = 2 ∨ came.isSome then pure o
      else
        let A := (List.range (b.n * b.n)).flatMap fun k =>
          bytesLE es (if b.reads k then a.el (k / b.n) (k % b.n) else v.getD k 0)
        let B := (List.range (b.n * b.nrhs)).flatMap fun k =>
          bytesLE es ((xs.getD (k % b.nrhs) #[]).getD (k / b.nrhs) 0)
        let P := (List.range b.n).flatMap fun k => bytesLE 2 (perm.getD k 0)
        pure { o with writes := [(at_, A ++ B ++ P)] }

/-- SOLVE_BATCH as a form. -/
def State.batchForm (s : State) (j : SolveJob) : BatchForm :=
  let b := j.batch
  let ts := if j.asm then s.terms j.part (s.asmDesc j) else []
  { results := j.f 63 56, count := b.count, group := b.group
    spoil := fun _ => []
    answer := fun i => [(j.f 55 48 + i * b.size + b.n * b.n * b.num.es, b.n * b.nrhs * b.num.es)]
    work := j.batchWork ts }

/-- The ranges of SOLVE_BATCH. -/
def State.batchRanges (s : State) (j : SolveJob) : List DevRange :=
  let b := j.batch
  [⟨j.f 55 48, b.count * b.size, true, 128⟩, ⟨j.f 63 56, 16 * b.count, true, 128⟩] ++ s.pivRange j ++
    s.asmRanges j b.count ++ j.tokenRange

/-- The first failing check of Table 7-2 among those found, from check 5 on, in the order of the table (R216). -/
def firstOf (l : List (Option (Nat × Nat))) : Option (Nat × Nat) :=
  [0x0310, 0x0312, 0x0313, 0x0314].findSome? fun st => l.findSome? fun o => o.filter fun x => x.1 == st

/-- Checks 4 to 8 of Table 7-2 for SOLVE_BATCH. The manual orders no ranges: the first failing address is that of the first
failing range in the order problems, results, pivot log, vectors, token, and likewise in the other forms.
(DESIGN CHOICE, log entry 25.) -/
def State.batchChecks (s : State) (j : SolveJob) : Option (Nat × Nat) :=
  let b := j.batch
  let lim := decide (j.f 72 72 ≤ 1) && decide (j.f 73 73 ≤ 1) && decide (1 ≤ b.nrhs ∧ b.nrhs ≤ 64) &&
    decide (1 ≤ b.n ∧ b.n ≤ 512) && decide (1 ≤ b.count ∧ b.count ≤ 2 ^ 20) && decide (b.size ≤ j.basinLen) &&
    j.rangeOk && j.pivotOk && decide (s.pivCap j ≤ 2 ^ 24)
  if !lim then some (0x0311, 0)
  else
    match s.asmFault j b.asm with
    | some x => some x
    | none => ((s.batchRanges j).findSome? (s.devFault j.part)).map fun a => (0x0313, a)

end Sys2Proof.Machine
end

