-- ==== Sys2Proof/Machine/SolverSched.lean ====
section
/-! DEFINITION. SOLVE_SCHED: the schedule image and its validation (R227 to R231), the factor and progress records (R232,
R266), the steps of Table 7-13, and what a stop or a failing pivot leaves (R251, R260). -/

namespace Sys2Proof.Machine

/-! ### The image -/

/-- The header of a schedule image (Table 7-11). -/
structure Image where
  base      : Nat
  magic     : Nat
  version   : Nat
  fmt       : Nat
  kind      : Nat
  r         : Nat
  nfront    : Nat
  n         : Nat
  nnz       : Nat
  workBytes : Nat
  digest    : Nat
  reachOff  : Nat
  frontOff  : Nat
  stepOff   : Nat
  mapOff    : Nat
  bytes     : Nat

/-- The image at a local address. -/
def State.image (s : State) (p base : Nat) : Image :=
  let h := s.lread p base 128
  ⟨base, fieldB h 3 0, fieldB h 5 4, fieldB h 6 6, fieldB h 7 7, fieldB h 11 8, fieldB h 15 12, fieldB h 23 16,
    fieldB h 31 24, fieldB h 39 32, fieldB h 47 40, fieldB h 55 48, fieldB h 63 56, fieldB h 71 64, fieldB h 79 72,
    fieldB h 87 80⟩

/-- A front record (Table 7-12). -/
structure Front where
  npiv     : Nat
  nf       : Nat
  parent   : Nat
  sreach   : Nat
  nchild   : Nat
  workOff  : Nat
  mapIdx   : Nat
  mapCount : Nat

/-- Front `f` of an image. -/
def State.front (s : State) (p : Nat) (g : Image) (f : Nat) : Front :=
  let d := s.lread p (g.base + g.frontOff + 32 * f) 32
  ⟨fieldB d 3 0, fieldB d 7 4, fieldB d 11 8, fieldB d 13 12, fieldB d 15 14, fieldB d 23 16, fieldB d 27 24,
    fieldB d 31 28⟩

/-- The global row indices of a front, and its map entries: slot, local row, local column. -/
def State.frontRows (s : State) (p : Nat) (g : Image) (x : Front) : List Nat :=
  s.lelems p (g.base + g.mapOff + x.mapIdx) 4 x.nf

def State.frontMap (s : State) (p : Nat) (g : Image) (x : Front) : List (Nat × Nat × Nat) :=
  (List.range x.mapCount).map fun i =>
    let d := s.lread p (g.base + g.mapOff + x.mapIdx + 4 * x.nf + 8 * i) 8
    (fieldB d 3 0, fieldB d 5 4, fieldB d 7 6)

/-- A step: its operation and front, and whether its other bytes are zero. -/
structure SStep where
  op : Nat
  f  : Nat
  z  : Bool
  deriving DecidableEq

/-- Start and count of the step list of schedule reach `r`. -/
def State.stepSpan (s : State) (p : Nat) (g : Image) (r : Nat) : Nat × Nat :=
  (s.lnum p (g.base + g.reachOff + 16 * r) 8, s.lnum p (g.base + g.reachOff + 16 * r + 8) 4)

/-- The step list of schedule reach `r`. -/
def State.stepList (s : State) (p : Nat) (g : Image) (r : Nat) : List SStep :=
  let (o, n) := s.stepSpan p g r
  (List.range n).map fun i =>
    let d := s.lread p (g.base + g.stepOff + o + 16 * i) 16
    ⟨fieldB d 0 0, fieldB d 7 4, zeroB d 3 1 && zeroB d 15 8⟩

/-- The positions of a front's step of one kind in a list. -/
def stepsAt (l : List SStep) (op f : Nat) : List Nat :=
  (l.zipIdx.filter fun x => x.1.op == op && x.1.f == f).map (·.2)

/-- Do numbers strictly rise? -/
def risesN : List Nat → Bool
  | a :: b :: rest => decide (a < b) && risesN (b :: rest)
  | _ => true

/-- Is the step list of a reach well formed: END last and only last, fronts of each kind in order (R230, R231)? -/
def stepListOk (nfront : Nat) (l : List SStep) : Bool :=
  (match l.getLast? with
    | some x => x.op == 0
    | none => false) &&
  (l.dropLast.all fun x => x.op != 0 && decide (x.op ≤ 7 ∧ x.f < nfront)) && l.all (·.z) &&
  ([1, 2, 3, 4, 5, 6].all fun op => risesN ((l.filter (·.op == op)).map (·.f))) &&
  risesN ((l.filter (·.op == 7)).map (·.f)).reverse

/-- Is the header of an image valid for a mask of `pop` reaches (R231)? -/
def Image.headOk (g : Image) (pop : Nat) : Bool :=
  g.magic == 0x4B530E61 && g.version == 1 && decide (g.kind ≤ 1) && decide (g.fmt ≤ 1) && g.r == pop &&
  decide (1 ≤ g.r ∧ g.r ≤ 64 ∧ 1 ≤ g.nfront ∧ g.nfront ≤ 2 ^ 24 ∧ 1 ≤ g.n ∧ g.n < 2 ^ 31 ∧ 1 ≤ g.nnz ∧ g.nnz ≤ 2 ^ 34) &&
  decide (128 ≤ g.bytes ∧ g.reachOff + 16 * g.r ≤ g.bytes ∧ g.frontOff + 32 * g.nfront ≤ g.bytes)

/-- Is the image valid for a mask of `pop` reaches (R231)? -/
def State.imageOk (s : State) (p : Nat) (g : Image) (pop : Nat) : Bool :=
  g.headOk pop &&
  ((List.range g.r).all fun r =>
    let (o, n) := s.stepSpan p g r
    decide (g.stepOff + o + 16 * n ≤ g.bytes) && s.lnum p (g.base + g.reachOff + 16 * r + 12) 4 == 0) &&
  (let lists := (List.range g.r).map (s.stepList p g)
   let fronts := (List.range g.nfront).map (s.front p g)
   lists.all (stepListOk g.nfront) &&
   fronts.zipIdx.all fun x =>
    let (y, f) := x
    decide (1 ≤ y.npiv ∧ y.npiv ≤ y.nf ∧ y.nf ≤ 8192 ∧ y.sreach < g.r ∧ y.mapIdx % 8 = 0) &&
    (y.parent == 0xFFFFFFFF || decide (f < y.parent ∧ y.parent < g.nfront)) &&
    (fronts.filter fun z => z.parent == f).length == y.nchild &&
    decide (g.mapOff + y.mapIdx + 4 * y.nf + 8 * y.mapCount ≤ g.bytes) &&
    ((s.frontMap p g y).all fun e => decide (e.1 < g.nnz ∧ e.2.1 < y.nf ∧ e.2.2 < y.nf)) &&
    (let own := lists.getD y.sreach []
     let fac := [1, 2, 3, 4, 5].map fun op => stepsAt own op f
     let sol := [6, 7].map fun op => stepsAt own op f
     fac.all (fun l => l.length == 1) && sol.all (fun l => l.length == 1) && risesN fac.flatten && risesN sol.flatten &&
     lists.zipIdx.all fun l => l.2 == y.sreach || !(l.1.any fun z => z.op != 0 && z.f == f)))

/-! ### The fields and checks of the barge -/

def SolveJob.factors (j : SolveJob) : Bool := bitOf (j.f 82 82) 0
def SolveJob.solves (j : SolveJob) : Bool := bitOf (j.f 82 82) 1
def SolveJob.schedNrhs (j : SolveJob) : Nat := j.f 81 80
def SolveJob.workBase (j : SolveJob) : Nat := j.f 79 72

/-- The shape that the assembly of a sparse form sees. -/
def sparseShape (slots rhs : Nat) : AsmShape := ⟨[1], 0, 0, slots, rhs, 0⟩

/-- Does the factor record hold a completed FACTOR of the image (R232)? -/
def State.factorDone (s : State) (p work : Nat) (g : Image) : Bool :=
  s.lnum p work 8 == g.digest && s.lnum p (work + 8) 8 == g.base && s.lnum p (work + 16) 1 == 1

/-- Checks 6 and 7 of an image whose header can be read: the header, then that the rest can be read, then the rest. -/
def State.imageFault (s : State) (p : Nat) (g : Image) (pop : Nat) : Option (Nat × Nat) :=
  if !g.headOk pop then some (0x0312, 0)
  else
    match s.devFault p ⟨g.base, g.bytes, false, 128⟩ with
    | some a => some (0x0313, a)
    | none => if s.imageOk p g pop then none else some (0x0312, 0)

/-- The ranges of SOLVE_SCHED. -/
def State.schedRanges (s : State) (j : SolveJob) : List DevRange :=
  let g := s.image j.part (j.f 55 48)
  let es := if g.fmt = 1 then 4 else 8
  (if j.factors then [⟨j.f 63 56, es * g.nnz, false, 128⟩] else []) ++
    (if j.solves then [⟨j.f 71 64, es * g.n * j.schedNrhs, true, 128⟩] else []) ++
    [⟨j.workBase, g.workBytes, true, 128⟩] ++ s.pivRange j ++ s.asmRanges j 1 ++ j.tokenRange

/-- Checks 4 to 8 of Table 7-2 for SOLVE_SCHED: the descriptor first, against the image's counts where its header can be
read, then the image, then the other ranges. (DEDUCED, log entry 25.) -/
def State.schedChecks (s : State) (j : SolveJob) : Option (Nat × Nat) :=
  let p := j.part
  let nr := j.schedNrhs
  let lim := decide (1 ≤ j.f 82 82 ∧ j.f 82 82 ≤ 3) &&
    (if j.solves then decide (1 ≤ nr ∧ nr ≤ 64) else nr == 0) && j.rangeOk && j.pivotOk &&
    decide (s.pivCap j ≤ 2 ^ 24)
  if !lim then some (0x0311, 0)
  else
    let g := s.image p (j.f 55 48)
    match s.devFault p ⟨j.f 55 48, 128, false, 128⟩ with
    | some a => firstOf [s.asmFault j (sparseShape (2 ^ 31) (2 ^ 31)), some (0x0313, a)]
    | none =>
      let image := s.imageFault p g j.reaches.length
      let ranges := (s.schedRanges j).findSome? (s.devFault p)
      firstOf [s.asmFault j (sparseShape g.nnz (g.n * nr)), image,
        if image.isSome then none else ranges.map fun a => (0x0313, a),
        if image.isNone && ranges.isNone && j.solves && !j.factors && !s.factorDone p j.workBase g then some (0x0314, 0)
        else none]

/-! ### The run -/

/-- A run of a schedule: what does not change while it runs. -/
structure SchedRun where
  j     : SolveJob
  g     : Image
  num   : Num
  areas : List (Nat × Nat)          -- local address and length of each front's area of the workspace
  lists : List (List SStep)
  vals  : Array Nat                 -- the values that GATHER places
  th    : Thresh

/-- What changes. -/
structure SchedSt where
  st     : State
  fx     : Fx := {}
  flushed : List Nat := []          -- the reaches that flushed
  events : List (Nat × PivEvent) := []
  reg    : Bool := false
  start  : List (Nat × Nat)         -- per schedule reach: the step and panel at which this run goes on
  done   : List (Nat × Nat) := []   -- steps that have run: operation and front
  left   : List (Nat × Nat × Nat) := []   -- steps left at the stop: schedule reach, place, panel
  fail   : Option Nat := none       -- the front of a failing pivot
  again  : List (Nat × Nat × Nat) := []   -- the step in which it failed
  bad    : Bool := false            -- a failure of cause 0x5

/-- Work of a reach leaves its marks. -/
def SchedSt.noted (a : SchedSt) (k : Nat) (fx : Fx) : SchedSt :=
  { a with fx := a.fx.or fx, flushed := flushedBy [k] fx a.flushed }

/-- Have the steps of one operation run for every front of a list? -/
def SchedSt.all (a : SchedSt) (op : Nat) (l : List Nat) : Bool := l.all fun f => a.done.contains (op, f)

/-- Where a reach goes on after a stop: `rest` where it has no step of its phase left. -/
def SchedSt.next (a : SchedSt) (r rest : Nat) : Nat × Nat :=
  match (a.left ++ a.again).filter (·.1 == r) with
  | [] => (rest, 0)
  | x :: l => l.foldl (fun m y => if y.2.1 < m.1 then y.2 else m) x.2

/-- The areas of an image's fronts in a workspace: from WORK_OFF, after the records, to the next front's (R229).
(DESIGN CHOICE, log entry 26.) -/
def State.frontAreas (s : State) (p : Nat) (g : Image) (work : Nat) : List (Nat × Nat) :=
  let offs := (List.range g.nfront).map fun f => max (s.front p g f).workOff (64 + 16 * g.r)
  offs.map fun o => (work + o, (offs.filter fun x => decide (o < x)).foldl min g.workBytes - o)

/-- The front whose data an area holds: its bytes still stand for it, there or moved from elsewhere. -/
def State.frontHeld (s : State) (p : Nat) (area : Nat × Nat) (f : Nat) : Option FrontData :=
  let bs := s.lread p area.1 area.2
  let at_ := s.paOf s.maps p area.1
  (s.fronts.find? fun x => x.work == at_ && x.num == f && x.bytes == bs).or
    (s.fronts.find? fun x => x.num == f && x.bytes == bs)

/-- The front's data in the workspace; data that no FACTOR left there is free. -/
def State.frontData (s : State) (p : Nat) (area : Nat × Nat) (f nf : Nat) : FrontData :=
  (s.frontHeld p area f).getD ⟨s.paOf s.maps p area.1, [], f, (List.range nf).map fun i => (List.range nf).map fun k =>
    (Config.freeWord (s.freeCount + i * nf + k)).toNat, List.range nf, []⟩

/-- Keeps a front's data: the area's bytes stand for it. -/
def State.setFront (s : State) (p : Nat) (area : Nat × Nat) (x : FrontData) : State :=
  let y := { x with work := s.paOf s.maps p area.1, bytes := s.lread p area.1 area.2 }
  { s with fronts := s.fronts.filter (fun z => !(z.work == y.work && z.num == y.num)) ++ [y] }

/-- The children of a front, ascending. -/
def State.children (s : State) (p : Nat) (g : Image) (f : Nat) : List Nat :=
  (List.range g.nfront).filter fun c => (s.front p g c).parent == f

/-- The local position of a global row. -/
def rowAt (rows : List Nat) (g : Nat) : Option Nat := (rows.zipIdx.find? (·.1 == g)).map (·.2)

/-- A front's data in the run's workspace, and keeping it. -/
def SchedRun.data (r : SchedRun) (s : State) (f nf : Nat) : FrontData :=
  s.frontData r.j.part (r.areas.getD f (0, 0)) f nf

def SchedRun.keep (r : SchedRun) (s : State) (f : Nat) (x : FrontData) : State :=
  s.setFront r.j.part (r.areas.getD f (0, 0)) x

/-- Leaves the bytes of the workspace's areas free, but for what the fronts that they held decide (R214, R270), and lets
them stand for those fronts. (DESIGN CHOICE, log entry 26.) -/
def SchedRun.seal (r : SchedRun) (s : State) : State :=
  let p := r.j.part
  let held := r.areas.zipIdx.filterMap fun a => (s.frontHeld p a.1 a.2).map fun x => (a.1, x)
  let rest := 64 + 16 * r.g.r
  let what := held.flatMap fun x => [x.2.num] :: x.2.perm :: x.2.mat ++ x.2.vec
  held.foldl (fun t x => t.setFront p x.1 x.2) (s.storeTagged p (r.j.workBase + rest) (r.g.workBytes - rest) what)

/-- GATHER: clears the front and places its values. -/
def SchedRun.gather (r : SchedRun) (s : State) (f : Nat) (x : Front) : Ar FrontData := do
  let m := (s.frontMap r.j.part r.g x).foldl (fun (m : Mat) e => m.put e.2.1 e.2.2 (r.vals.getD e.1 0))
    (Mat.build x.nf x.nf fun _ _ => 0)
  pure ⟨0, [], f, m.toList.map Array.toList, List.range x.nf, []⟩

/-- The matrix of a front's data. -/
def FrontData.m (d : FrontData) : Mat := (d.mat.map List.toArray).toArray

/-- EXTEND_ADD: adds each child's contribution block, children and entries ascending. (DESIGN CHOICE, log entry 26.) -/
def SchedRun.extendAdd (r : SchedRun) (s : State) (f : Nat) (x : Front) : Ar FrontData := do
  let p := r.j.part
  let d := r.data s f x.nf
  let rows := s.frontRows p r.g x
  let chol := r.g.kind == 1
  let m ← (s.children p r.g f).foldlM (fun (m : Mat) c => do
    let y := s.front p r.g c
    let cd := (r.data s c y.nf).m
    let crows := s.frontRows p r.g y
    let cut := (List.range y.nf).filter fun i => decide (y.npiv ≤ i)
    cut.foldlM (fun (m : Mat) i => cut.foldlM (fun (m : Mat) k => do
      if chol ∧ i < k then pure m
      else
        match rowAt rows (crows.getD i 0), rowAt rows (crows.getD k 0) with
        | some a, some b =>
          let (a, b) := if chol ∧ a < b then (b, a) else (a, b)
          pure (m.put a b (← r.num.add (m.el a b) (cd.el i k)))
        | _, _ => pure m) m) m) d.m
  pure { d with mat := m.toList.map Array.toList }

/-- FACTOR of columns `k0` to `k1` − 1 of a front. (DESIGN CHOICE, log entry 26.) -/
def SchedRun.factor (r : SchedRun) (s : State) (f : Nat) (x : Front) (k0 k1 : Nat) : Ar (FrontData × Fac) := do
  let d := r.data s f x.nf
  let fac ← r.num.columns (r.g.kind == 1) r.th x.npiv k0 (min k1 x.npiv)
    ⟨d.m, d.perm.toArray, [], f64Inf, f64Inf, 0, none⟩
  pure ({ d with mat := fac.mat.toList.map Array.toList, perm := fac.perm.toList }, fac)

/-- The right-hand side value of global row `g`, column `c`. -/
def SchedRun.rhsAt (r : SchedRun) (g c : Nat) : Nat := r.j.f 71 64 + r.num.es * (g * r.j.schedNrhs + c)

/-- The reach that runs a front's steps. -/
def SchedRun.reach (r : SchedRun) (x : Front) : Nat := r.j.reaches.getD x.sreach 0

/-- FWD: the rows of the front with their children's contributions, forward substitution, and what it hands on. -/
def SchedRun.fwd (r : SchedRun) (s : State) (f : Nat) (x : Front) : Ar (State × Option Nat) := do
  let p := r.j.part
  let n := r.num
  let chol := r.g.kind == 1
  let d := r.data s f x.nf
  let a := d.m
  let rows := s.frontRows p r.g x
  let kids := (s.children p r.g f).map fun c =>
    let y := s.front p r.g c
    (y, s.frontRows p r.g y, r.data s c y.nf)
  let cols ← (List.range r.j.schedNrhs).mapM fun c => do
    let w0 : Array Nat := Array.ofFn fun i : Fin x.nf =>
      if i.val < x.npiv then s.lnum p (r.rhsAt (rows.getD i.val 0) c) n.es else 0
    let w ← kids.foldlM (fun (w : Array Nat) k => do
      let (y, crows, cd) := k
      ((List.range y.nf).filter fun i => decide (y.npiv ≤ i)).foldlM (fun (w : Array Nat) i => do
        match rowAt rows (crows.getD i 0) with
        | some q => pure (w.setIfInBounds q (← n.add (w.getD q 0) ((cd.vec.getD i []).getD c 0)))
        | none => pure w) w) w0
    let pb : Array Nat := Array.ofFn fun i : Fin x.nf =>
      if chol ∨ x.npiv ≤ i.val then w.getD i.val 0 else w.getD (d.perm.getD i.val 0) 0
    let y ← n.forward a chol x.npiv pb
    let z ← ((List.range x.nf).filter fun i => decide (x.npiv ≤ i)).foldlM (fun (z : Array Nat) i => do
      let v ← (List.range x.npiv).foldlM (fun v k => n.mulSub v (a.el i k) (z.getD k 0)) (z.getD i 0)
      pure (z.setIfInBounds i v)) y.x
    pure (z, y.fail)
  let t := r.keep s f { d with vec := (List.range x.nf).map fun i => cols.map fun z => z.1.getD i 0 }
  let t := (List.range x.npiv).foldl (fun u i => cols.zipIdx.foldl (fun v z =>
    v.solveStore p [r.reach x] (r.rhsAt (rows.getD i 0) z.2) (bytesLE n.es (z.1.1.getD i 0))) u) t
  pure (t, cols.findSome? (·.2))

/-- BWD: backward substitution through the front. -/
def SchedRun.bwd (r : SchedRun) (s : State) (f : Nat) (x : Front) : Ar (State × Option Nat) := do
  let p := r.j.part
  let n := r.num
  let d := r.data s f x.nf
  let rows := s.frontRows p r.g x
  let cols ← (List.range r.j.schedNrhs).mapM fun c =>
    n.backward d.m (r.g.kind == 1) x.npiv (Array.ofFn fun i : Fin x.nf =>
      s.lnum p (r.rhsAt (rows.getD i.val 0) c) n.es)
  let t := (List.range x.npiv).foldl (fun u i => cols.zipIdx.foldl (fun v z =>
    v.solveStore p [r.reach x] (r.rhsAt (rows.getD i 0) z.2) (bytesLE n.es (z.1.x.getD i 0))) u) s
  pure (t, cols.findSome? (·.fail))

/-- Notes a failure of cause 0x5 in a front's substitution. -/
def SchedRun.solved (r : SchedRun) (x : Front) (f op : Nat) (a : SchedSt) (o : (State × Option Nat) × Fx) : SchedSt :=
  let b := { a.noted (r.reach x) o.2 with st := o.1.1, done := a.done ++ [(op, f)] }
  match o.1.2 with
  | none => b
  | some row =>
    let ev : PivEvent := ⟨row, 5, 0⟩
    { b with
      bad := true
      events := b.events ++ [(f, ev)]
      st := b.st.pivotRegs (r.reach x) f [ev] 0 f64Inf true }

/-- Runs one step of front `f` where its reach has not stopped before it: `lim` holds the step and panel before which
each reach stops. After a failing pivot no step runs (R251), but a reach that the stop held stays held (R263). -/
def SchedRun.step (r : SchedRun) (lim : List (Nat × Nat)) (a : SchedSt) (f op : Nat) : SchedSt :=
  let p := r.j.part
  let x := a.st.front p r.g f
  let i := (stepsAt (r.lists.getD x.sreach []) op f).headD 0
  let (at_, panel) := a.start.getD x.sreach (0, 0)
  let (stop, stopPanel) := lim.getD x.sreach (2 ^ 64, 0)
  let kids := a.st.children p r.g f
  let waits := match op with
    | 2 => !a.all 5 kids
    | 6 => !a.all 6 kids
    | 7 => !a.all 6 [f] || (x.parent != 0xFFFFFFFF && !a.all 7 [x.parent])
    | _ => false
  let ran := fun (u : SchedSt) => { u with done := u.done ++ [(op, f)] }
  let k := r.reach x
  let stops := decide (stop < i) || (stop == i && (op != 4 || stopPanel == 0)) ||
    a.left.any fun y => y.1 == x.sreach && decide (y.2.1 < i)
  let leave := { a with left := a.left ++ [(x.sreach, i, if i = at_ then panel else 0)] }
  if i < at_ then ran a
  else if a.fail.isSome || a.bad then (if stops then leave else a)
  else if stops || waits then leave
  else
    match op with
    | 1 =>
      let (d, fx) := r.gather a.st f x {}
      { ran (a.noted k fx) with st := r.keep a.st f d }
    | 3 =>
      let (d, fx) := r.extendAdd a.st f x {}
      { ran (a.noted k fx) with st := r.keep a.st f d }
    | 4 =>
      let k0 := if i = at_ then 64 * panel else 0
      let whole := decide (i < stop ∨ x.npiv ≤ 64 * stopPanel)
      let ((d, fac), fx) := r.factor a.st f x k0 (if whole then x.npiv else 64 * stopPanel) {}
      let t := if fac.fail.isSome then a.st else r.keep a.st f d
      let t := t.pivotRegs k f fac.events fac.reg fac.least fac.fail.isSome
      let b := { a.noted k fx with
        st := if whole && fac.fail.isNone then t.count (Reg.solverDone k) 1 else t
        events := a.events ++ fac.events.map fun e => (f, e)
        reg := a.reg || fac.reg != 0
        fail := if fac.fail.isSome then some f else none
        again := if fac.fail.isSome then [(x.sreach, i, if i = at_ then panel else 0)] else [] }
      if fac.fail.isSome then b
      else if whole then { b with done := b.done ++ [(op, f)] }
      else { b with left := b.left ++ [(x.sreach, i, stopPanel)] }
    | 6 => r.solved x f op a (r.fwd a.st f x {})
    | 7 => r.solved x f op a (r.bwd a.st f x {})
    | _ => ran a

/-- Writes the progress records (R266). -/
def SchedRun.writeProgress (r : SchedRun) (s : State) (idx : List (Nat × Nat)) : State :=
  s.solveStore r.j.part r.j.reaches (r.j.workBase + 64)
    (idx.flatMap fun x => bytesLE 4 x.1 ++ bytesLE 2 x.2 ++ List.replicate 10 0)

/-- Writes the factor record (R232). -/
def SchedRun.writeFactor (r : SchedRun) (s : State) (state : Nat) : State :=
  s.solveStore r.j.part r.j.reaches r.j.workBase
    (bytesLE 8 r.g.digest ++ bytesLE 8 r.g.base ++ [BitVec.ofNat 8 state] ++ List.replicate 47 0)

/-- The index of the first step of the SOLVE phase in a list. -/
def firstSolve (l : List SStep) : Nat := (l.findIdx? fun x => x.op == 6 || x.op == 7).getD l.length

/-- The step at which a list goes on once the steps of a phase have run: its first FWD or BWD after the FACTOR phase of a
barge with both, else END (R266). -/
def restStep (l : List SStep) (solves : Bool) : Nat :=
  (l.findIdx? fun x => x.op == 0 || (solves && (x.op == 6 || x.op == 7))).getD l.length

/-- Runs SOLVE_SCHED. The FACTOR phase takes the fronts in ascending order, then FWD ascending and BWD descending; what
a step computes depends on its front and its children alone, so the order among reaches does not show (R214). A
failing pivot whose step a resume runs again enters the log then. A NaN or an infinity that a term reads ends the barge as
poison does (R225). (DEDUCED, log entry 25.) -/
def State.schedRun (s : State) (j : SolveJob) (e : SolveEnv) : State :=
  let p := j.part
  let g := s.image p (j.f 55 48)
  let num := numOf (g.fmt == 1) j.ftz
  let nr := j.schedNrhs
  let d := s.asmDesc j
  let shape := sparseShape g.nnz (g.n * nr)
  let es := num.es
  let poisoned := fun (la n : Nat) => s.solveBad p j.reaches la (alignUp n 8)
  let second := j.resume && (!j.factors || s.factorDone p j.workBase g)
  if poisoned g.base g.bytes || (j.factors && !second && poisoned (j.f 63 56) (es * g.nnz)) ||
      ((j.resume || !j.factors) && poisoned j.workBase g.workBytes) || s.noPath p j.reaches j.workBase g.workBytes ||
      (j.solves && poisoned (j.f 71 64) (es * g.n * nr)) ||
      (j.asm && (s.asmPoisoned p j.reaches d 0 || s.asmNonfinite p d (s.terms p d) 0)) then
    (s.writePivots j []).solveEnd j e { stopped := false, useful := false, status := 0x0315, r0 := 0, fx := {}, reg := false }
  else
    let memVals := (if j.factors then s.lelems p (j.f 63 56) es g.nnz else List.replicate g.nnz 0) ++
      s.lelems p (j.f 71 64) es (g.n * nr)
    let arith : Ar (Array Nat × Thresh) := do
      let v ← if j.asm then s.assemble p num d shape (s.terms p d) 0 memVals.toArray else pure memVals.toArray
      let v := (← v.toList.mapM num.read).toArray
      let th ← num.thresh j.tau j.delta (num.scale ((List.range g.nnz).map fun k => v.getD k 0))
      pure (v, th)
    let ((vals, th), fx) := arith {}
    let lists := (List.range g.r).map (s.stepList p g)
    let r : SchedRun := ⟨j, g, num, s.frontAreas p g j.workBase, lists, vals, th⟩
    let lim := if j.stopBy = 0 then [] else (List.range g.r).map fun k => e.steps.getD k (0, 0)
    let prog := fun (u : State) => (List.range g.r).map fun k =>
      (u.lnum p (j.workBase + 64 + 16 * k) 4, u.lnum p (j.workBase + 68 + 16 * k) 2)
    let zero := (List.range g.r).map fun _ => (0, 0)
    let fronts := List.range g.nfront
    let s := if j.asm then j.reaches.head?.elim s fun k => s.count (Reg.solverAsmTerms k) d.nterm else s
    -- the FACTOR phase
    let a0 : SchedSt :=
      if second then { st := s, fx := fx, start := zero }
      else if j.resume then { st := s, fx := fx, start := prog s }
      else if j.factors then { st := r.seal (r.writeProgress (r.writeFactor s 0) zero), fx := fx, start := zero }
      else { st := s, fx := fx, start := zero }
    let a1 := if second || !j.factors then a0
      else fronts.foldl (fun a f => [1, 2, 3, 4, 5].foldl (fun a op => r.step lim a f op) a) a0
    let posted := (a1.done.filter (·.1 == 5)).length
    let complete := second || !j.factors || decide (posted = g.nfront)
    let a1 := if complete && j.factors && !second then { a1 with st := r.writeFactor a1.st 1 } else a1
    -- the SOLVE phase
    let solving := complete && j.solves && a1.fail.isNone
    let a2 : SchedSt :=
      if !solving then a1
      else
        let b : SchedSt := { a1 with
          start := if second then prog a1.st else lists.map fun l => (firstSolve l, 0)
          st := if j.asm && !second then a1.st.solveStore p j.reaches (j.f 71 64)
              ((vals.toList.drop g.nnz).flatMap (bytesLE es))
            else a1.st }
        let b := fronts.foldl (fun a f => r.step lim a f 6) b
        fronts.reverse.foldl (fun a f => r.step lim a f 7) b
    let stopped := !a2.left.isEmpty
    let t := if stopped then r.writeProgress a2.st (lists.zipIdx.map fun l =>
        a2.next l.2 (restStep l.1 (j.solves && !solving)))
      else if j.resume then r.writeProgress a2.st zero else a2.st
    let t := if a2.bad then t.storeFree p (j.f 71 64) (es * g.n * nr) else t
    let again := stopped && j.stopBy != 2 && j.tokenBase != 0
    let t := r.seal (t.writePivots j (a2.events.filter fun x => !(again && a2.fail == some x.1)))
    let factored := if !j.factors then 0 else if second then g.nfront else (a1.done.filter (·.1 == 4)).length
    t.solveEnd j e
      { stopped := stopped, useful := complete
        status := if a2.fail.isSome || a2.bad then 0x0304 else St.done
        r0 := match a2.fail with
          | some f => if stopped then factored else posted + f * 2 ^ 32
          | none => factored
        fx := a2.fx, reg := a2.reg
        flushed := t.flushersOf j (if fx.flush then j.reaches else a2.flushed) }

end Sys2Proof.Machine
end

