-- ==== Sys2Proof/Machine/SolverIter.lean ====
section
/-! DEFINITION. SOLVE_ITER: the CSR matrix (R234), the preconditioners and methods of Table 7-15 as their recurrences
stand in the literature (the manual names them and gives no order of operations), the residual tests (R256 to R259) and
what a stop leaves (R261). -/

namespace Sys2Proof.Machine

/-! ### The fields -/

def SolveJob.iterCap (j : SolveJob) : Nat := j.f 83 80
def SolveJob.method (j : SolveJob) : Nat := j.f 84 84
def SolveJob.precond (j : SolveJob) : Nat := j.f 85 85
def SolveJob.restart (j : SolveJob) : Nat := j.f 86 86
def SolveJob.precBs (j : SolveJob) : Nat := j.f 87 87
def SolveJob.precBase (j : SolveJob) : Nat := j.f 111 104

/-- A CSR descriptor. -/
structure Csr where
  n      : Nat
  nnz    : Nat
  rowptr : Nat
  colidx : Nat
  val    : Nat
  zeros  : Bool

/-- The CSR descriptor of a job. -/
def State.csr (s : State) (j : SolveJob) : Csr :=
  let d := s.lread j.part (j.f 55 48) 64
  ⟨fieldB d 7 0, fieldB d 15 8, fieldB d 23 16, fieldB d 31 24, fieldB d 39 32, zeroB d 63 40⟩

/-- The workspace size of Table 7-15. -/
def SolveJob.iterWork (j : SolveJob) (n : Nat) : Nat :=
  let w := (match j.method with
    | 0 => 4
    | 1 => j.restart + 3
    | _ => 7) + (if j.precond = 1 ∨ j.precond = 3 then 1 else 0)
  let h := if j.method = 1 then (j.restart + 1) * (j.restart + 2) else 0
  16 + 8 * (w * n + h)

/-- Offset of PERM in a block of preconditioner 0x02, and its size: the SOLVE_BATCH layout of R220, with an NRHS that is
free. (DESIGN CHOICE, log entry 26.) -/
def blockPerm (k : Nat) : Nat := (k * k + k * (Config.precNrhs % 64 + 1)) * 8

def blockBytes (k : Nat) : Nat := ceilDiv (blockPerm k + 2 * k) 128 * 128

/-- The ranges of SOLVE_ITER, but for those of a schedule's factor. -/
def State.iterRanges (s : State) (j : SolveJob) : List DevRange :=
  let c := s.csr j
  [⟨c.colidx, 4 * c.nnz, false, 128⟩, ⟨c.val, 8 * c.nnz, false, 128⟩,
    ⟨j.f 63 56, 8 * c.n, false, 128⟩, ⟨j.f 71 64, 8 * c.n, true, 128⟩,
    ⟨j.workBase, j.iterWork c.n, true, 128⟩] ++
    (if j.precond = 2 then [⟨j.precBase, c.n / j.precBs * blockBytes j.precBs, false, 128⟩] else []) ++
    s.asmRanges j 1 ++ j.tokenRange

/-- The ranges that preconditioner 0x03 reads: its record, the image and the workspace of the factor. -/
def State.precRanges (s : State) (j : SolveJob) : List (Nat × Nat) :=
  let base := s.lnum j.part j.precBase 8
  let g := s.image j.part base
  [(j.precBase, 16), (base, g.bytes), (s.lnum j.part (j.precBase + 8) 8, g.workBytes)]

/-- Check 5 of a CSR descriptor that can be read (R234), and whether its row pointers can. -/
def State.csrFault (s : State) (j : SolveJob) : Option (Nat × Nat) :=
  let p := j.part
  match s.devFault p ⟨j.f 55 48, 64, false, 128⟩ with
  | some a => some (0x0313, a)
  | none =>
    let c := s.csr j
    if !c.zeros || !decide (1 ≤ c.n ∧ c.n < 2 ^ 31 ∧ 1 ≤ c.nnz ∧ c.nnz ≤ 2 ^ 34) then some (0x0310, 0)
    else
      match s.devFault p ⟨c.rowptr, 8 * (c.n + 1), false, 128⟩ with
      | some a => some (0x0313, a)
      | none =>
        let rowsOk := (List.range c.n).all fun i =>
          decide (s.lnum p (c.rowptr + 8 * i) 8 ≤ s.lnum p (c.rowptr + 8 * i + 8) 8)
        if s.lnum p c.rowptr 8 ≠ 0 ∨ s.lnum p (c.rowptr + 8 * c.n) 8 ≠ c.nnz ∨ !rowsOk then some (0x0310, 0) else none

/-- The checks of a preconditioner for a matrix of order `n` (R235), or of any order where the descriptor cannot be read. A
factor whose schedule is in binary32 mismatches. (DESIGN CHOICE, log entry 25.) -/
def State.precFault (s : State) (j : SolveJob) (n : Option Nat) : Option (Nat × Nat) :=
  let p := j.part
  if j.precond = 2 then (if n.any fun n => n % j.precBs != 0 then some (0x0310, 0) else none)
  else if j.precond = 3 then
    match s.devFault p ⟨j.precBase, 16, false, 128⟩ with
    | some a => some (0x0313, a)
    | none =>
      let base := s.lnum p j.precBase 8
      let work := s.lnum p (j.precBase + 8) 8
      let g := s.image p base
      match s.devFault p ⟨base, 128, false, 128⟩ with
      | some a => some (0x0313, a)
      | none =>
        let rec_ := s.devFault p ⟨work, 64, false, 128⟩
        firstOf [if (n.any fun n => g.n != n) || g.fmt != 0 || (rec_.isNone && !s.factorDone p work g) then some (0x0310, 0)
            else none,
          s.imageFault p g j.reaches.length, rec_.map fun a => (0x0313, a),
          (s.devFault p ⟨work, g.workBytes, false, 128⟩).map fun a => (0x0313, a)]
  else none

/-- Checks 4 to 7 of Table 7-2 for SOLVE_ITER. -/
def State.iterChecks (s : State) (j : SolveJob) : Option (Nat × Nat) :=
  let p := j.part
  let tol := fun x => decide (posZero x < f64Inf)
  let lim := decide (1 ≤ j.iterCap ∧ j.iterCap ≤ 2 ^ 24) && decide (j.method ≤ 2 ∧ j.precond ≤ 3) &&
    (if j.method = 1 then decide (1 ≤ j.restart ∧ j.restart ≤ 64) else j.restart == 0) &&
    (if j.precond = 2 then decide (1 ≤ j.precBs ∧ j.precBs ≤ 64) else j.precBs == 0) &&
    (decide (2 ≤ j.precond) || j.precBase == 0) && j.rangeOk && tol (j.f 95 88) && tol (j.f 103 96)
  if !lim then some (0x0311, 0)
  else
    let known := (s.devFault p ⟨j.f 55 48, 64, false, 128⟩).isNone
    let c := s.csr j
    let csr := s.csrFault j
    firstOf [csr, s.asmFault j (if known then sparseShape c.nnz c.n else sparseShape (2 ^ 31) (2 ^ 31)),
      s.precFault j (if known then some c.n else none),
      if csr.isSome then none else ((s.iterRanges j).findSome? (s.devFault p)).map fun a => (0x0313, a)]

/-! ### Products and preconditioners -/

/-- What a run of a method reads: the matrix by rows of (column, value), b, and the preconditioner's data. -/
structure IterIn where
  j    : SolveJob
  num  : Num
  n    : Nat
  rows : Array (List (Nat × Nat))
  b    : Array Nat
  st   : State            -- for the factors of preconditioner 0x03

/-- A·x: each row summed in storage order, one rounding per fused multiply-add. None on a bad column index. -/
def IterIn.product (q : IterIn) (x : Array Nat) : Ar (Option (Array Nat)) := do
  if q.rows.any fun r => r.any fun e => decide (q.n ≤ e.1) then pure none
  else
    let y ← q.rows.toList.mapM fun r => r.foldlM (fun a e => q.num.fma a e.2 (x.getD e.1 0)) 0
    pure (some y.toArray)

/-- The residual b − A·x. -/
def IterIn.residual (q : IterIn) (x : Array Nat) : Ar (Option (Array Nat)) := do
  match ← q.product x with
  | none => pure none
  | some y => pure (some (← q.num.vsub q.b y))

/-- The diagonal that preconditioner 0x01 divides by: repeated entries are summed, zero and absent ones read 1.0. -/
def IterIn.diagonal (q : IterIn) : Ar (Array Nat) := do
  let d ← q.rows.toList.zipIdx.mapM fun r =>
    (r.1.filter fun e => e.1 == r.2).foldlM (fun a e => q.num.add a e.2) 0
  pure (d.map fun v => if q.num.mag v = 0 then f64One else v).toArray

/-- M⁻¹·r for preconditioner 0x02: the blocks' LU factors and PERM at PREC_BASE. -/
def IterIn.blockSolve (q : IterIn) (r : Array Nat) : Ar (Array Nat) := do
  let k := q.j.precBs
  let p := q.j.part
  let out ← (List.range (q.n / k)).mapM fun i => do
    let at_ := q.j.precBase + i * blockBytes k
    let a := Mat.build k k fun u v => q.st.lnum p (at_ + 8 * (u * k + v)) 8
    let perm := (List.range k).map fun u => q.st.lnum p (at_ + blockPerm k + 2 * u) 2
    let t ← q.num.solveCol false ⟨a, perm.toArray, [], f64Inf, f64Inf, 0, none⟩
      (Array.ofFn fun u : Fin k => r.getD (i * k + u.val) 0)
    pure t.x.toList
  pure out.flatten.toArray

/-- M⁻¹·r for preconditioner 0x03: FWD and BWD with the factor of a sparse schedule. The vector stands where the
right-hand side of a SOLVE_SCHED stands, in a state of which nothing else is kept. -/
def IterIn.schedSolve (q : IterIn) (r : Array Nat) : Ar (Array Nat) := do
  let p := q.j.part
  let base := q.st.lnum p q.j.precBase 8
  let workLa := q.st.lnum p (q.j.precBase + 8) 8
  let g := q.st.image p base
  let rhs := q.j.f 71 64                       -- X_BASE's range serves as the vector's place
  let pay := patchB (patchB q.j.pay 64 (bytesLE 8 rhs)) 80 (bytesLE 2 1)
  let j' : SolveJob := { q.j with pay := pay }
  let lists := (List.range g.r).map (q.st.stepList p g)
  let run : SchedRun := ⟨j', g, q.num, q.st.frontAreas p g workLa, lists, #[], ⟨0, 0⟩⟩
  let s0 := q.st.storeLocal q.st.maps p rhs (r.toList.flatMap (bytesLE 8))
  let fronts := List.range g.nfront
  let s1 ← fronts.foldlM (fun (u : State) f => do pure (← run.fwd u f (u.front p g f)).1) s0
  let s2 ← fronts.reverse.foldlM (fun (u : State) f => do pure (← run.bwd u f (u.front p g f)).1) s1
  pure (s2.lelems p rhs 8 q.n).toArray

/-- M⁻¹·r. -/
def IterIn.precond (q : IterIn) (r : Array Nat) : Ar (Array Nat) := do
  match q.j.precond with
  | 0 => pure r
  | 1 =>
    let d ← q.diagonal
    pure (← (List.range q.n).mapM fun i => q.num.div (r.getD i 0) (d.getD i 0)).toArray
  | 2 => q.blockSolve r
  | _ => q.schedSolve r

/-! ### The methods -/

/-- The state of a method between iterations. `x` is the iterate; `v` holds its vectors, and `c` its scalars. -/
structure IterSt where
  x    : Array Nat
  r    : Array Nat                  -- the residual of the recurrence
  v    : List (Array Nat) := []
  c    : List Nat := []
  norm : Nat := 0                   -- the last residual norm tested
  base : Array Nat := #[]           -- GMRES: the iterate at the last restart

/-- One step of preconditioned CG. Vectors: p; scalar: (r, z). The first step of a run forms them.
(PRESUMED, log entry 24.) -/
def IterIn.cg (q : IterIn) (t : IterSt) : Ar (Option IterSt) := do
  let n := q.num
  let z ← q.precond t.r
  let rz ← n.dot t.r z
  let p ← match t.v.head?, t.c.head? with
    | some p, some old => do
      if n.zero? old then pure none
      else pure (some (← n.axpy z (← n.div rz old) p))
    | _, _ => pure (some z)
  match p with
  | none => pure none
  | some p =>
    match ← q.product p with
    | none => pure none
    | some ap =>
      let pq ← n.dot p ap
      if n.zero? pq then pure none
      else
        let α ← n.div rz pq
        let x ← n.axpy t.x α p
        let r ← n.axmy t.r α ap
        pure (some { t with x := x, r := r, v := [p], c := [rz] })

/-- One step of BiCGSTAB with right preconditioning. Vectors: r̂, p, v; scalars: ρ, α, ω. (PRESUMED, log entry 24.) -/
def IterIn.bicgstab (q : IterIn) (t : IterSt) : Ar (Option IterSt) := do
  let n := q.num
  let rh := t.v.headD t.r
  let ρ ← n.dot rh t.r
  let p : Option (Array Nat) ← match t.v, t.c with
    | [_, p, v], [ρ0, α, ω] => do
      if n.zero? ρ0 || n.zero? ω then pure none
      else
        let β ← n.mul (← n.div ρ ρ0) (← n.div α ω)
        pure (some (← n.axpy t.r β (← n.axmy p ω v)))
    | _, _ => pure (some t.r)
  match p with
  | none => pure none
  | some p =>
    let y ← q.precond p
    match ← q.product y with
    | none => pure none
    | some v =>
      let rv ← n.dot rh v
      if n.zero? rv then pure none
      else
        let α ← n.div ρ rv
        let s ← n.axmy t.r α v
        let z ← q.precond s
        match ← q.product z with
        | none => pure none
        | some u =>
          let uu ← n.dot u u
          if n.zero? uu then pure none
          else
            let ω ← n.div (← n.dot u s) uu
            let x ← n.axpy (← n.axpy t.x α y) ω z
            let r ← n.axmy s ω u
            pure (some { t with x := x, r := r, v := [rh, p, v], c := [ρ, α, ω] })

/-- The Givens rotation that turns (a, b) into (√(a² + b²), 0): cosine and sine. -/
def Num.givens (n : Num) (a b : Nat) : Ar (Option (Nat × Nat)) := do
  let h ← n.sqrt (← n.mulAdd (← n.mul a a) b b)
  if n.zero? h then pure none else pure (some (← n.div a h, ← n.div b h))

/-- One Arnoldi step of GMRES(M) with modified Gram–Schmidt and Givens rotations. Vectors: v₁ … v_k, then the columns
of R so far as rows of their own, then the rotations, then g; `c` holds k. -/
structure Gmres where
  basis : List (Array Nat)        -- v₁ … v_{k+1}
  cols  : List (Array Nat)        -- columns of R
  rot   : List (Nat × Nat)
  g     : Array Nat

/-- Unpacks and packs the vectors of GMRES. -/
def Gmres.pack (m : Gmres) : List (Array Nat) :=
  [#[m.cols.length], m.g, (m.rot.map (·.1)).toArray, (m.rot.map (·.2)).toArray] ++ m.cols ++ m.basis

def Gmres.unpack (v : List (Array Nat)) : Option Gmres :=
  match v with
  | k :: g :: c :: s :: rest =>
    let k := k.getD 0 0
    some ⟨rest.drop k, rest.take k, c.toList.zip s.toList, g⟩
  | _ => none

/-- The iterate that the columns so far give: x + M⁻¹ V y, with R y = g. -/
def IterIn.gmresX (q : IterIn) (base : Array Nat) (m : Gmres) : Ar (Option (Array Nat)) := do
  let n := q.num
  let k := m.cols.length
  let y ← (List.range k).foldlM (fun (y : Option (Array Nat)) i => do
    match y with
    | none => pure none
    | some y =>
      let row := k - 1 - i
      let d := (m.cols.getD row #[]).getD row 0
      if n.zero? d then pure none
      else
        let s ← ((List.range k).filter fun c => decide (row < c)).foldlM
          (fun s c => n.mulSub s ((m.cols.getD c #[]).getD row 0) (y.getD c 0)) (m.g.getD row 0)
        pure (some (y.setIfInBounds row (← n.div s d)))) (some (Array.ofFn fun _ : Fin k => 0))
  match y with
  | none => pure none
  | some y =>
    let v ← m.basis.zipIdx.foldlM (fun (a : Array Nat) b =>
      if k ≤ b.2 then pure a else n.axpy a (y.getD b.2 0) b.1) (Array.ofFn fun _ : Fin q.n => 0)
    pure (some (← (List.range q.n).zip (← q.precond v).toList |>.mapM fun e => n.add (base.getD e.1 0) e.2).toArray)

/-- One Arnoldi step. The residual estimate is the last element of g, and `r` is left alone. (PRESUMED, log entry 24.) -/
def IterIn.gmres (q : IterIn) (t : IterSt) : Ar (Option IterSt) := do
  let n := q.num
  let start ← match Gmres.unpack t.v with
    | some m =>
      if m.cols.length < q.j.restart then pure (some (t.base, m))
      else pure none
    | none => pure none
  let begun : Option (Array Nat × Gmres) ← match start with
    | some x => pure (some x)
    | none => do
      let β ← n.norm t.r
      if n.zero? β then pure none
      else pure (some (t.x, ⟨[← n.vdiv t.r β], [], [], #[β]⟩))
  match begun with
  | none => pure none
  | some (base, m) =>
    let vk := m.basis.getLastD #[]
    match ← q.product (← q.precond vk) with
    | none => pure none
    | some w0 =>
      let (w, h) ← m.basis.foldlM (fun (a : Array Nat × List Nat) v => do
        let h ← n.dot a.1 v
        pure (← n.axmy a.1 h v, a.2 ++ [h])) (w0, [])
      let hn ← n.norm w
      let col ← m.rot.zipIdx.foldlM (fun (c : Array Nat) e => do
        let (cs, sn) := e.1
        let (a, b) := (c.getD e.2 0, c.getD (e.2 + 1) 0)
        let u ← n.mulAdd (← n.mul cs a) sn b
        let l ← n.mulSub (← n.mul cs b) sn a
        pure ((c.setIfInBounds e.2 u).setIfInBounds (e.2 + 1) l)) h.toArray
      let k := m.cols.length
      match ← n.givens (col.getD k 0) hn with
      | none => pure none
      | some (cs, sn) =>
        let d ← n.mulAdd (← n.mul cs (col.getD k 0)) sn hn
        let gk := m.g.getD k 0
        let g := (m.g.setIfInBounds k (← n.mul cs gk)).push (n.neg (← n.mul sn gk))
        let next ← if n.zero? hn then pure [] else do pure [← n.vdiv w hn]
        let m' : Gmres := ⟨m.basis ++ next, m.cols ++ [col.setIfInBounds k d], m.rot ++ [(cs, sn)], g⟩
        match ← q.gmresX base m' with
        | none => pure none
        | some x =>
          pure (some { t with x := x, v := m'.pack, c := [n.mag (g.getD (k + 1) 0), b2n (n.zero? hn)], base := base })

/-- One iteration of the method, with the residual norm that its recurrence gives (R257). None: a zero denominator or
a bad column index. A GMRES step whose next basis vector would divide by zero ends so at the following step. -/
def IterIn.iterate (q : IterIn) (t : IterSt) : Ar (Option IterSt) := do
  match q.j.method with
  | 0 =>
    match ← q.cg t with
    | none => pure none
    | some u => pure (some { u with norm := ← q.num.norm u.r })
  | 1 =>
    if t.c.getD 1 0 = 1 then pure none
    else
      match ← q.gmres t with
      | none => pure none
      | some u =>
        -- a whole cycle restarts from the residual of its iterate
        let u := { u with norm := u.c.headD 0 }
        match Gmres.unpack u.v with
        | some m =>
          if m.cols.length < q.j.restart then pure (some u)
          else
            match ← q.residual u.x with
            | none => pure none
            | some r => pure (some { u with r := r, v := [], c := [u.norm] })
        | none => pure (some u)
  | _ =>
    match ← q.bicgstab t with
    | none => pure none
    | some u => pure (some { u with norm := ← q.num.norm u.r })

/-- How a run of a method ended: its code, the iterations of the chain, its state. -/
structure IterEnd where
  code  : Nat
  count : Nat
  st    : IterSt

/-- RTOL × ‖b‖ + ATOL, rounded once. -/
def IterIn.bound (q : IterIn) : Ar Nat := do q.num.fma (q.j.f 103 96) (q.j.f 95 88) (← q.num.norm q.b)

/-- The true residual's test after a passing recurrence test (R258): converged, or the method's state goes on from it. -/
def IterIn.confirm (q : IterIn) (bound : Nat) (t : IterSt) : Ar (Option (Bool × IterSt)) := do
  match ← q.residual t.x with
  | none => pure none
  | some r =>
    let nr ← q.num.norm r
    let t := { t with norm := nr }
    if q.num.le nr bound then pure (some (true, t))
    else if q.j.method = 1 then pure (some (false, { t with r := r, v := [], c := [] }))
    else pure (some (false, { t with r := r }))

/-- Runs iterations from number `k` on; `stop` is the number after which a stop falls. -/
def IterIn.loop (q : IterIn) (bound : Nat) (stop : Option Nat) : Nat → Nat → IterSt → Ar IterEnd
  | 0, k, t => pure ⟨3, k, t⟩
  | fuel + 1, k, t => do
    if stop = some k then pure ⟨5, k, t⟩
    else
      match ← q.iterate t with
      | none => pure ⟨0xB, k, t⟩
      | some u =>
        if q.num.le u.norm bound then
          match ← q.confirm bound u with
          | none => pure ⟨0xB, k + 1, u⟩
          | some (true, w) => pure ⟨0, k + 1, w⟩
          | some (false, w) => q.loop bound stop fuel (k + 1) w
        else q.loop bound stop fuel (k + 1) u

/-! ### The run -/

/-- Packs a method's state for the workspace, and reads it back. -/
def IterSt.pack (t : IterSt) : List (List Nat) :=
  [t.x.toList, t.r.toList, t.c, [t.norm], t.base.toList] ++ t.v.map Array.toList

def IterSt.unpack (l : List (List Nat)) : Option IterSt :=
  match l with
  | x :: r :: c :: n :: b :: v => some ⟨x.toArray, r.toArray, v.map List.toArray, c, n.headD 0, b.toArray⟩
  | _ => none

/-- The bytes of a workspace after its result record. -/
def State.krylovBytes (s : State) (j : SolveJob) (n : Nat) : List Byte :=
  s.lread j.part (j.workBase + 16) (j.iterWork n - 16)

/-- The state that a stopped chain left in the workspace, as long as its bytes stand there; the iterate is read from
X_BASE. What no run left is free. (DESIGN CHOICE, log entry 26.) -/
def State.krylovOf (s : State) (j : SolveJob) (n : Nat) (x : Array Nat) : IterSt :=
  let bs := s.krylovBytes j n
  let at_ := s.paOf s.maps j.part j.workBase
  match ((s.krylov.find? fun k => k.work == at_ && k.bytes == bs).or (s.krylov.find? fun k => k.bytes == bs)).bind
      fun k => IterSt.unpack k.vecs with
  | some t => { t with x := x }
  | none => ⟨x, Array.ofFn fun i : Fin n => (Config.freeWord (s.freeCount + i.val)).toNat, [], [], 0, #[]⟩

/-- Runs SOLVE_ITER. A run that ends with code 0x08 or 0x09 before it has tested a norm writes VALUE 0, a resumed one with
the COUNT of its chain; poison leaves X_BASE unchanged (R580), the other codes leave it undefined (R217).
(DESIGN CHOICE, log entry 25.) -/
def State.iterRun (s : State) (j : SolveJob) (e : SolveEnv) : State :=
  let p := j.part
  let c := s.csr j
  let num : Num := ⟨.binary64, j.ftz⟩
  let d := s.asmDesc j
  let (xb, bb) := (j.f 71 64, j.f 63 56)
  let work := s.paOf s.maps p j.workBase
  let poisoned := fun (la n : Nat) => s.solveBad p j.reaches la (alignUp n 8)
  let keeps := !j.asm || d.accum
  let record := fun (u : State) (code count value : Nat) =>
    u.solveStore p j.reaches j.workBase (recordBytes code 0 count value)
  let regs := fun (u : State) (count norm : Nat) => j.reaches.foldl (fun v r =>
    (v.setReg (Reg.solverIterCount r) count).setReg (Reg.solverResid r) norm) u
  let failed := fun (u : State) (code count norm : Nat) (fx : Fx) =>
    let u := regs (record u code count norm) count norm
    let u := if code = 9 then u else u.storeFree p xb (8 * c.n)
    u.solveEnd j e { stopped := false, useful := false, status := 0x0315, r0 := count, fx := fx
                     flushed := flushedBy (u.flushersOf j j.reaches) fx [], reg := false }
  if poisoned c.rowptr (8 * (c.n + 1)) || poisoned c.colidx (4 * c.nnz) || (keeps && poisoned c.val (8 * c.nnz)) ||
      (keeps && poisoned bb (8 * c.n)) || ((!j.x0Zero || j.resume) && poisoned xb (8 * c.n)) ||
      s.noPath p j.reaches xb (8 * c.n) || (j.resume && poisoned (j.workBase + 16) (j.iterWork c.n - 16)) ||
      (j.precond == 2 && poisoned j.precBase (c.n / j.precBs * blockBytes j.precBs)) ||
      (j.precond == 3 && (s.precRanges j).any fun r => poisoned r.1 r.2) ||
      (j.asm && s.asmPoisoned p j.reaches d 0) then
    failed s 9 j.progress 0 {}
  else if j.asm && s.asmNonfinite p d (s.terms p d) 0 then failed s 8 j.progress 0 {}
  else
    let mem := s.lelems p c.val 8 c.nnz ++ s.lelems p bb 8 c.n
    let (all, fx) := (if j.asm then s.assemble p num d (sparseShape c.nnz c.n) (s.terms p d) 0 mem.toArray
      else pure mem.toArray : Ar (Array Nat)) {}
    let x0 : Array Nat := if j.x0Zero && !j.resume then Array.ofFn fun _ : Fin c.n => 0
      else (s.lelems p xb 8 c.n).toArray
    let s := if j.asm then j.reaches.head?.elim s fun k => s.count (Reg.solverAsmTerms k) d.nterm else s
    if !j.resume && (all.any (fun v => !num.finite v) || x0.any (fun v => !num.finite v)) then failed s 8 0 0 fx
    else
      let rows := (Array.ofFn fun i : Fin c.n =>
        let a := s.lnum p (c.rowptr + 8 * i.val) 8
        let b := s.lnum p (c.rowptr + 8 * i.val + 8) 8
        (List.range (b - a)).map fun k => (s.lnum p (c.colidx + 4 * (a + k)) 4, all.getD (a + k) 0))
      let q : IterIn := ⟨j, num, c.n, rows, Array.ofFn fun i : Fin c.n => all.getD (c.nnz + i.val) 0, s⟩
      let start : Ar (Option (Nat × IterSt × Bool)) := do
        let bound ← q.bound
        if j.resume then pure (some (bound, s.krylovOf j c.n x0, false))
        else
          let r ← if j.x0Zero then pure (some q.b) else q.residual x0
          match r with
          | none => pure none
          | some r =>
            let nr ← num.norm r
            pure (some (bound, { x := x0, r := r, norm := nr }, num.le nr bound))
      let (st0, fx) := start fx
      match st0 with
      | none => failed s 0xB 0 0 fx
      | some (bound, t0, passed) =>
        let stop := if j.stopBy = 0 then none else some (j.progress + e.iters)
        let run : Ar IterEnd := do
          if passed then pure ⟨0, 0, t0⟩
          else
            let o ← q.loop bound stop (j.iterCap - j.progress) j.progress t0
            if o.code = 3 then
              match ← q.residual o.st.x with
              | none => pure { o with code := 0xB }
              | some r => do pure { o with st := { o.st with norm := ← num.norm r } }
            else pure o
        let (o, fx) := run fx
        if o.code = 0xB then failed s 0xB o.count o.st.norm fx
        else
          let t := s.solveStore p j.reaches xb (o.st.x.toList.flatMap (bytesLE 8))
          let t := regs (record t o.code o.count o.st.norm) o.count o.st.norm
          let t := t.storeTagged p (j.workBase + 16) (j.iterWork c.n - 16) o.st.pack
          let t : State := { t with krylov := (t.krylov.filter fun k => k.work != work) ++ [⟨work, t.krylovBytes j c.n, o.st.pack⟩] }
          t.solveEnd j e
            { stopped := o.code == 5, useful := decide (0 < o.count), status := if o.code = 3 then 0x0303 else St.done
              r0 := o.count, progress := o.count, fx := fx
              flushed := flushedBy (t.flushersOf j j.reaches) fx [], reg := false }

end Sys2Proof.Machine
end

