-- ==== Sys2Proof/Machine/SolverQp.lean ====
section
/-! DEFINITION. QP_BATCH: the records of a batched convex QP (R238, R239) and the primal-dual interior-point method with
Mehrotra's predictor and corrector (R240, R252). The manual fixes the start, the step length, the matrix that is
factored and the tests; the predictor's centring weight is the method's own (μ_aff / μ)³. -/

namespace Sys2Proof.Machine

/-- The fields of Table 7-16. -/
structure QpShape where
  num  : Num
  n    : Nat
  meq  : Nat
  nin  : Nat
  cap  : Nat
  tol  : Nat

def SolveJob.qp (j : SolveJob) : QpShape :=
  ⟨⟨.binary64, j.ftz⟩, j.f 68 68, j.f 69 69, j.f 71 70, j.f 80 80, j.f 95 88⟩

/-- Elements of a problem record, and its size Q; elements and size of a solution record. -/
def QpShape.elems (q : QpShape) : Nat := q.n * q.n + q.n + q.meq * q.n + q.meq + q.nin * q.n + q.nin
def QpShape.size (q : QpShape) : Nat := ceilDiv (8 * q.elems) 128 * 128
def QpShape.solElems (q : QpShape) : Nat := q.n + q.meq + q.nin
def QpShape.solSize (q : QpShape) : Nat := ceilDiv (8 * q.solElems) 128 * 128

/-- The shape that its assembly sees. -/
def QpShape.asm (q : QpShape) : AsmShape := ⟨[2], 0, 0, 0, 0, q.size / 8⟩

/-- A problem's data. -/
structure QpData where
  h : Mat
  g : Array Nat
  e : Mat
  eb : Array Nat
  c : Mat
  d : Array Nat

/-- Reads a problem record; only the lower triangle of H is read. -/
def QpShape.data (q : QpShape) (v : Array Nat) : QpData :=
  let (o1, o2) := (q.n * q.n, q.n * q.n + q.n)
  let o3 := o2 + q.meq * q.n
  let o4 := o3 + q.meq
  let o5 := o4 + q.nin * q.n
  let seg := fun (o k : Nat) => Array.ofFn fun i : Fin k => v.getD (o + i.val) 0
  ⟨Mat.build q.n q.n fun i k => v.getD (max i k * q.n + min i k) 0, seg o1 q.n,
    Mat.build q.meq q.n fun i k => v.getD (o2 + i * q.n + k) 0, seg o3 q.meq,
    Mat.build q.nin q.n fun i k => v.getD (o4 + i * q.n + k) 0, seg o5 q.nin⟩

/-- Is an element of the record read? -/
def QpShape.reads (q : QpShape) (k : Nat) : Bool := decide (q.n * q.n ≤ k ∨ k % q.n ≤ k / q.n)

/-- An iterate. -/
structure QpPt where
  x : Array Nat
  y : Array Nat
  z : Array Nat
  s : Array Nat

/-- M·x and Mᵀ·y. -/
def Num.matVec (n : Num) (m : Mat) (x : Array Nat) : Ar (Array Nat) := do
  pure (← m.toList.mapM fun r => n.dot r x).toArray

def Num.matTVec (n : Num) (m : Mat) (k : Nat) (y : Array Nat) : Ar (Array Nat) := do
  pure (← (List.range k).mapM fun c => n.dot (Array.ofFn fun i : Fin m.size => m.el i.val c) y).toArray

/-- Element by element. -/
def Num.zip (f : Nat → Nat → Ar Nat) (a b : Array Nat) : Ar (Array Nat) := do
  pure (← (List.range a.size).mapM fun i => f (a.getD i 0) (b.getD i 0)).toArray

/-- The residuals r_d, r_p, r_i and μ (R240). -/
structure QpRes where
  rd : Array Nat
  rp : Array Nat
  ri : Array Nat
  mu : Nat

def QpShape.residuals (q : QpShape) (p : QpData) (t : QpPt) : Ar QpRes := do
  let n := q.num
  let hx ← n.matVec p.h t.x
  let ey ← n.matTVec p.e q.n t.y
  let cz ← n.matTVec p.c q.n t.z
  let rd ← Num.zip n.add (← Num.zip n.add (← Num.zip n.add hx p.g) ey) cz
  let rp ← Num.zip n.sub (← n.matVec p.e t.x) p.eb
  let ri ← Num.zip n.sub (← Num.zip n.add (← n.matVec p.c t.x) t.s) p.d
  let mu ← if q.nin = 0 then pure 0
    else do n.div (← n.dot t.s t.z) (Fmt.binary64.round .rne false false (FVal.ofInt q.nin)).1
  pure ⟨rd, rp, ri, mu⟩

/-- The tests 1 to 3 of an iteration: the code of the one that holds. -/
def QpShape.test (q : QpShape) (p : QpData) (t : QpPt) (r : QpRes) : Ar (Option Nat) := do
  let n := q.num
  let big := (Fmt.binary64.round .rne false false (FVal.ofInt (10 ^ 12))).1
  let (ng, ne, nd) := (n.maxNorm p.g, n.maxNorm p.eb, n.maxNorm p.d)
  let lim := fun v => do n.mul q.tol (← n.add f64One v)
  if n.le (n.maxNorm r.rd) (← lim ng) && n.le (n.maxNorm r.rp) (← lim ne) && n.le (n.maxNorm r.ri) (← lim nd) &&
      n.le r.mu q.tol then pure (some 0)
  else if n.lt (← n.mul big (← n.add f64One ng)) (max (n.maxNorm t.y) (n.maxNorm t.z)) then pure (some 6)
  else if n.lt (← n.mul big (← n.add (← n.add f64One ne) nd)) (n.maxNorm t.x) then pure (some 0xA)
  else pure none

/-- PIVOT_TAU and PIVOT_DELTA of R252. -/
def qpTau : Nat := (1023 - 40) * 2 ^ 52
def qpDelta : Nat := (1023 - 26) * 2 ^ 52

/-- What the pivots of a problem's factorisations leave (R253, R271, R272). -/
structure PivSum where
  events : List PivEvent := []
  reg    : Nat := 0
  least  : Nat := f64Inf

/-- Adds those of one factorisation. -/
def PivSum.add (a : PivSum) (f : Fac) : PivSum := ⟨a.events ++ f.events, a.reg + f.reg, min a.least f.least⟩

/-- Adds the failure of a triangular solve, cause 0x5 with its row (R249, R272). -/
def PivSum.solveFail (a : PivSum) (row : Nat) : PivSum := { a with events := a.events ++ [⟨row, 5, 0⟩] }

/-- Cholesky of a matrix with the thresholds of R252. -/
def Num.chol (n : Num) (m : Mat) : Ar Fac := do
  let th ← n.thresh qpTau qpDelta (n.scale ((List.range m.size).map fun i => m.el i i))
  n.columns true th m.size 0 m.size ⟨m, Array.ofFn fun i : Fin m.size => i.val, [], f64Inf, f64Inf, 0, none⟩

/-- The factors of an iteration: of H + Cᵀ diag(z / s) C, and of its Schur complement in E, each with its own scale
(R244); none where a pivot or a triangular solve fails. (PRESUMED, log entry 24.) -/
def QpShape.factor (q : QpShape) (p : QpData) (t : QpPt) (a : PivSum) : Ar (Option (Fac × Option Fac) × PivSum) := do
  let n := q.num
  let w ← Num.zip n.div t.z t.s
  let k ← (List.range q.n).foldlM (fun (m : Mat) i => (List.range (i + 1)).foldlM (fun (m : Mat) c => do
    let v ← (List.range q.nin).foldlM (fun v r => do
      n.mulAdd v (← n.mul (w.getD r 0) (p.c.el r i)) (p.c.el r c)) (m.el i c)
    pure (m.put i c v)) m) p.h
  let f ← n.chol k
  let a := a.add f
  if f.fail.isSome then pure (none, a)
  else if q.meq = 0 then pure (some (f, none), a)
  else
    let ts ← (List.range q.meq).mapM fun r => n.solveCol true f (p.e.row r)
    match ts.findSome? (·.fail) with
    | some row => pure (none, a.solveFail row)
    | none =>
    let cols := ts.map (·.x)
    let s ← (List.range q.meq).foldlM (fun (m : Mat) i => (List.range q.meq).foldlM (fun (m : Mat) c => do
      pure (m.put i c (← n.dot (p.e.row i) (cols.getD c #[])))) m) (Mat.build q.meq q.meq fun _ _ => 0)
    let g ← n.chol s
    pure (if g.fail.isSome then none else some (f, some g), a.add g)

/-- Solves K Δx + Eᵀ Δy = a, E Δx = b; or the row at which a triangular solve fails (R249). (PRESUMED, log entry 24.) -/
def QpShape.direction (q : QpShape) (p : QpData) (f : Fac × Option Fac) (a b : Array Nat) :
    Ar (Except Nat (Array Nat × Array Nat)) := do
  let n := q.num
  let u ← n.solveCol true f.1 a
  match u.fail, f.2 with
  | some row, _ => pure (.error row)
  | none, none => pure (.ok (u.x, #[]))
  | none, some g =>
    let dy ← n.solveCol true g (← Num.zip n.sub (← n.matVec p.e u.x) b)
    match dy.fail with
    | some row => pure (.error row)
    | none =>
      let v ← n.solveCol true f.1 (← n.matTVec p.e q.n dy.x)
      match v.fail with
      | some row => pure (.error row)
      | none => pure (.ok (← Num.zip n.sub u.x v.x, dy.x))

/-- The direction for a complementarity residual: Δx, Δy, Δz, Δs; or the row at which a triangular solve fails. -/
def QpShape.newton (q : QpShape) (p : QpData) (t : QpPt) (r : QpRes) (f : Fac × Option Fac) (rc : Array Nat) :
    Ar (Except Nat QpPt) := do
  let n := q.num
  let neg := fun (v : Array Nat) => v.map n.neg
  let k ← Num.zip n.div (← Num.zip n.sub (← Num.zip n.mul t.z r.ri) rc) t.s
  let a ← Num.zip n.add r.rd (← n.matTVec p.c q.n k)
  match ← q.direction p f (neg a) (neg r.rp) with
  | .error row => pure (.error row)
  | .ok (dx, dy) =>
    let cdx ← n.matVec p.c dx
    let ds := neg (← Num.zip n.add r.ri cdx)
    let dz ← Num.zip n.div (neg (← Num.zip n.add rc (← Num.zip n.mul t.z ds))) t.s
    pure (.ok ⟨dx, dy, dz, ds⟩)

/-- 0.99 of the longest step that keeps s and z positive (R240), and 1 where no step ends their being so.
(PRESUMED, log entry 24.) -/
def QpShape.length (q : QpShape) (t d : QpPt) : Ar Nat := do
  let n := q.num
  let each := fun (m : Nat) (v dv : Nat) => do
    if n.lt dv 0 then do
      let k ← n.div v (n.neg dv)
      pure (if n.lt k m then k else m)
    else pure m
  let m ← (List.range q.nin).foldlM (fun m i => do
    each (← each m (t.s.getD i 0) (d.s.getD i 0)) (t.z.getD i 0) (d.z.getD i 0)) f64Inf
  if m = f64Inf then pure f64One else n.mul 0x3FEFAE147AE147AE m

/-- t + α·d. -/
def QpShape.move (q : QpShape) (t d : QpPt) (α : Nat) : Ar QpPt := do
  let n := q.num
  pure ⟨← n.axpy t.x α d.x, ← n.axpy t.y α d.y, ← n.axpy t.z α d.z, ← n.axpy t.s α d.s⟩

/-- One predictor–corrector step with the factors of the iteration. (PRESUMED, log entry 24.) -/
def QpShape.advance (q : QpShape) (p : QpData) (t : QpPt) (r : QpRes) (f : Fac × Option Fac) : Ar (Except Nat QpPt) := do
  let n := q.num
  let sz ← Num.zip n.mul t.s t.z
  match ← q.newton p t r f sz with
  | .error row => pure (.error row)
  | .ok aff =>
  if q.nin = 0 then pure (.ok (← q.move t aff (← q.length t aff)))
  else
    let ta ← q.move t aff (← q.length t aff)
    let muA ← n.div (← n.dot ta.s ta.z) (Fmt.binary64.round .rne false false (FVal.ofInt q.nin)).1
    let k ← if n.zero? r.mu then pure 0 else n.div muA r.mu
    let sm ← n.mul (← n.mul (← n.mul k k) k) r.mu
    let rc ← Num.zip n.add sz (← Num.zip n.mul aff.s aff.z)
    let rc ← Num.zip n.sub rc (rc.map fun _ => sm)
    match ← q.newton p t r f rc with
    | .error row => pure (.error row)
    | .ok d => pure (.ok (← q.move t d (← q.length t d)))

/-- How the iterations ended: the code, how many were performed, the last iterate, the pivots. -/
structure QpEnd where
  code  : Nat
  count : Nat
  pt    : QpPt
  piv   : PivSum

/-- The iterations from number `k` on. A triangular solve that fails ends the problem as a failing pivot does (R249,
R252). (DEDUCED, log entry 24.) -/
def QpShape.loop (q : QpShape) (p : QpData) : Nat → Nat → QpPt → PivSum → Ar QpEnd
  | 0, k, t, a => pure ⟨3, k, t, a⟩
  | fuel + 1, k, t, a => do
    let r ← q.residuals p t
    match ← q.test p t r with
    | some c => pure ⟨c, k, t, a⟩
    | none =>
      match ← q.factor p t a with
      | (none, a) => pure ⟨7, k, t, a⟩
      | (some f, a) =>
        match ← q.advance p t r f with
        | .error row => pure ⟨7, k, t, a.solveFail row⟩
        | .ok u => q.loop p fuel (k + 1) u a

/-- The objective ½ xᵀHx + gᵀx. -/
def QpShape.objective (q : QpShape) (p : QpData) (x : Array Nat) : Ar Nat := do
  let n := q.num
  n.add (← n.mul 0x3FE0000000000000 (← n.dot x (← n.matVec p.h x))) (← n.dot p.g x)

/-- The start of R240. -/
def QpShape.start (q : QpShape) (p : QpData) : QpPt :=
  ⟨Array.ofFn fun _ : Fin q.n => 0, Array.ofFn fun _ : Fin q.meq => 0, Array.ofFn fun _ : Fin q.nin => f64One,
    Array.ofFn fun i : Fin q.nin => max f64One (q.num.mag (p.d.getD i.val 0))⟩

/-- The work on problem `i`. -/
def SolveJob.qpWork (j : SolveJob) (ts : List Term) (s : State) (i : Nat) (came : Option Nat) : Ar ProbOut := do
  let q := j.qp
  let at_ := j.f 55 48 + i * q.size
  let sol := j.f 79 72 + i * q.solSize
  let d := s.asmDesc j
  let keeps := !j.asm || d.accum
  let rs := [s.itemReach j 1 i]
  if (keeps && s.solveBad j.part rs at_ (8 * q.elems)) || s.noPath j.part rs sol (8 * q.solElems) ||
      (j.asm && s.asmPoisoned j.part rs d i) then pure { code := 9 }
  else if j.asm && s.asmNonfinite j.part d ts i then pure { code := 8, undef := [(sol, 8 * q.solElems)] }
  else
    let total := if j.asm then q.size / 8 else q.elems
    let old := (if keeps then s.lelems j.part at_ 8 total else List.replicate total 0).toArray
    let v ← if j.asm then s.assemble j.part q.num d q.asm ts i old else pure old
    if (List.range q.elems).any fun k => q.reads k && !q.num.finite (v.getD k 0) then
      pure { code := 8, undef := [(sol, 8 * q.solElems)] }
    else
      let v := (← (List.range q.elems).mapM fun k => if q.reads k then q.num.read (v.getD k 0) else pure 0).toArray
      let p := q.data v
      let o ← q.loop p (min q.cap (came.getD q.cap)) 0 (q.start p) {}
      let t := o.pt
      let out : ProbOut := { code := o.code, count := o.count, value := ← q.objective p t.x
                             events := o.piv.events, reg := o.piv.reg, least := o.piv.least }
      if o.code = 0 ∨ o.code = 3 then
        pure { out with writes := [(sol, (t.x ++ t.y ++ t.z).toList.flatMap (bytesLE 8))] }
      else pure { out with undef := [(sol, 8 * q.solElems)] }

/-- QP_BATCH as a form. -/
def State.qpForm (s : State) (j : SolveJob) : BatchForm :=
  let q := j.qp
  let ts := if j.asm then s.terms j.part (s.asmDesc j) else []
  { results := j.f 63 56, count := j.f 67 64, group := 1
    spoil := fun i => [(j.f 79 72 + i * q.solSize, 8 * q.solElems)]
    answer := fun i => [(j.f 79 72 + i * q.solSize, 8 * q.solElems)]
    work := j.qpWork ts }

/-- The ranges of QP_BATCH. -/
def State.qpRanges (s : State) (j : SolveJob) : List DevRange :=
  let q := j.qp
  let count := j.f 67 64
  [⟨j.f 55 48, count * q.size, false, 128⟩, ⟨j.f 63 56, 16 * count, true, 128⟩,
    ⟨j.f 79 72, count * q.solSize, true, 128⟩] ++ s.asmRanges j count ++ j.tokenRange

/-- Checks 4 to 7 of Table 7-2 for QP_BATCH. -/
def State.qpChecks (s : State) (j : SolveJob) : Option (Nat × Nat) :=
  let q := j.qp
  let count := j.f 67 64
  let lim := decide (1 ≤ q.n ∧ q.n ≤ 128 ∧ q.meq ≤ q.n ∧ q.nin ≤ 256 ∧ 1 ≤ q.cap) &&
    decide (1 ≤ count ∧ count ≤ 2 ^ 20) && decide (q.size ≤ j.basinLen ∧ q.solSize ≤ j.basinLen) && j.rangeOk &&
    decide (0 < q.tol ∧ q.tol ≤ f64Inf)
  if !lim then some (0x0311, 0)
  else
    match s.asmFault j q.asm with
    | some x => some x
    | none => ((s.qpRanges j).findSome? (s.devFault j.part)).map fun a => (0x0313, a)

end Sys2Proof.Machine
end

