-- ==== Sys2Proof/Machine/Solver.lean ====
section
/-! DEFINITION. The solver barges: the checks that they share (Table 7-2), ASSEMBLE (R226), and SOLVE_RESUME with the
consumption of its token (R241, R265 to R269). -/

namespace Sys2Proof.Machine

/-! ### ASSEMBLE -/

/-- The fields of Table 7-9. -/
structure AsmOut where
  base   : Nat
  stride : Nat
  nslot  : Nat
  nrhs   : Nat
  num    : Num
  n      : Nat
  count  : Nat

def SolveJob.asmOut (j : SolveJob) : AsmOut :=
  ⟨Config.asmOutBase (patchB (sliceB j.orig 0 88) 0 (List.replicate 15 0)) % 2 ^ 64, j.f 79 72, j.f 71 64, j.f 63 62, numOf (j.f 61 61 == 1) j.ftz, j.f 59 58, j.f 55 52⟩

/-- Elements that an output holds in a mode. -/
def AsmOut.elems (o : AsmOut) (mode : Nat) : Nat :=
  match mode with
  | 0 => o.n * o.n + o.n * o.nrhs
  | 1 => o.nslot + o.n * o.nrhs
  | _ => o.stride / o.num.es

/-- The size of an output: in MODE 0x00 that of a SOLVE_BATCH problem. -/
def AsmOut.size (o : AsmOut) (mode : Nat) : Nat :=
  match mode with
  | 0 => ceilDiv (o.elems 0 * o.num.es + 2 * o.n) 128 * 128
  | 1 => o.elems 1 * o.num.es
  | _ => o.stride

/-- The shape that its assembly sees. -/
def AsmOut.asm (o : AsmOut) : AsmShape := ⟨[0, 1, 2], o.n, o.nrhs, o.nslot, o.n * o.nrhs, o.stride / o.num.es⟩

/-- The ranges of ASSEMBLE. -/
def State.asmOutRanges (s : State) (j : SolveJob) : List DevRange :=
  let o := j.asmOut
  [⟨o.base, (o.count - 1) * o.stride + o.size (s.asmDesc j).mode, true, 128⟩] ++ s.asmRanges j o.count ++ j.tokenRange

/-- The limits of Table 7-9 that depend on the MODE of a descriptor that can be read. -/
def State.asmModeOk (s : State) (j : SolveJob) : Bool :=
  let o := j.asmOut
  let mode := (s.asmDesc j).mode
  !j.asm || (s.devFault j.part ⟨j.asmDesc, 64, false, 64⟩).isSome || decide (2 < mode) ||
    !decide ((mode = 0 ∧ 512 < o.n) ∨ o.stride < o.size mode ∨ (mode ≠ 1 ∧ o.nslot ≠ 0))

/-- Checks 4 to 7 of Table 7-2 for ASSEMBLE. (DESIGN CHOICE, log entry 23.) -/
def State.asmChecks (s : State) (j : SolveJob) : Option (Nat × Nat) :=
  let o := j.asmOut
  let lim := decide (1 ≤ o.nrhs ∧ o.nrhs ≤ 64 ∧ 1 ≤ o.n ∧ o.n ≤ 2 ^ 15 ∧ 1 ≤ o.count ∧ o.count ≤ 2 ^ 20) &&
    decide (j.f 61 61 ≤ 1) && decide (o.nslot ≤ 2 ^ 34) && o.stride % 128 == 0 && o.stride != 0 && j.rangeOk &&
    s.asmModeOk j
  if !lim then some (0x0311, 0)
  else if !j.asm then some (0x0310, 0)
  else
    match s.asmFault j o.asm with
    | some x => some x
    | none => ((s.asmOutRanges j).findSome? (s.devFault j.part)).map fun a => (0x0313, a)

/-- Assembles output `i`. One that reads poison, a NaN or an infinity is left undefined (R217, R225); one that no path
leads to is left as it is (R591). Bytes that no value fills keep their values (R226). -/
def SolveJob.asmOne (j : SolveJob) (o : AsmOut) (d : AsmDesc) (ts : List Term) (a : State × List Nat × Fx × Bool) (i : Nat) :
    State × List Nat × Fx × Bool :=
  let p := j.part
  let (u, ls, fx, bad) := a
  let r := u.itemReach j 1 i
  let (n, es, at_) := (o.elems d.mode, o.num.es, o.base + i * o.stride)
  if u.noPath p [r] at_ (o.size d.mode) then (u, ls, fx, true)
  else if u.asmPoisoned p [r] d i || u.asmNonfinite p d ts i ||
      (d.accum && (u.localPoison u.maps p at_ (alignUp (n * es) 8)).isSome) then
    (u.storeFree p at_ (n * es), ls, fx, true)
  else
    let old := (if d.accum then u.lelems p at_ es n else List.replicate n 0).toArray
    let (v, f1) := u.assemble p o.num d o.asm ts i old {}
    let ls := flushedBy [u.itemCluster j 1 i] f1 ls
    let u := (u.count (Reg.solverDone r) 1).count (Reg.solverAsmTerms r) d.nterm
    (u.solveStore p [r] at_ (v.toList.flatMap (bytesLE es)), ls, fx.or f1, bad)

/-- Runs ASSEMBLE: outputs from the chain's progress on, those complete where a stop fell. With ACCUM there is no stop
point, so neither a deadline nor a cancellation stops it (R260, R264). (DESIGN CHOICE, log entry 23.) -/
def State.asmRun (s : State) (j : SolveJob) (e : SolveEnv) : State :=
  let o := j.asmOut
  let d := s.asmDesc j
  let gone := (s.dealt j).isEmpty
  let whole := !gone && (j.stopBy == 0 || (d.accum && (j.stopBy == 1 || j.stopBy == 2)))
  let (run, rest) := ((List.range o.count).filter fun i => decide (j.progress ≤ i)).partition fun i => whole || endsAt e i
  let stop := rest.headD o.count
  let (t, ls, fx, bad) := run.foldl (j.asmOne o d (s.terms j.part d)) (s, [], {}, false)
  let t := (rest.filter fun i => gone || e.cut.contains i).foldl
    (fun u i => u.storeFree j.part (o.base + i * o.stride) (o.elems d.mode * o.num.es)) t
  let cut := !rest.isEmpty && !gone
  t.solveEnd j e
    { stopped := cut, useful := decide (0 < stop), status := if bad || (gone && !rest.isEmpty) then 0x0315 else St.done
      r0 := stop, progress := stop, fx := fx, flushed := ls, reg := false }

/-! ### The checks of Table 7-2 -/

/-- The reserved bytes and flags of a form (check 1). A non-zero ASM_DESC with ASSEMBLE 0, and X0_ZERO outside SOLVE_ITER,
which Table 7-1 forbids without naming a status, are taken as reserved fields. (DESIGN CHOICE, log entry 25.) -/
def SolveJob.reservedOk (j : SolveJob) : Bool :=
  let flags := j.f 47 47
  decide (flags < 8) && (j.op == 0x302 || !j.x0Zero) && (j.asm || j.asmDesc == 0) &&
  match j.op with
  | 0x300 => j.zeros [(87, 74)]
  | 0x301 => j.zeros [(87, 83)] && decide (j.f 82 82 < 4)
  | 0x304 => j.zeros [(111, 80), (60, 60), (57, 56), (51, 48)]
  | 0x305 => j.zeros [(111, 96), (87, 81)]
  | _ => true

/-- Checks 2 and 3. -/
def State.solveMask (s : State) (j : SolveJob) : Option (Nat × Nat) :=
  if j.reaches.any fun r => !s.ownsReach j.part r then some (St.notPermitted, 0)
  else if j.reaches.any fun r => s.reachGone r && !j.lost.contains r then some (St.noResource, 0)
  else none

/-- Checks 4 to 8 of a form. An empty REACH_MASK, which Table 7-1 forbids, is taken as a field out of its limits.
(DESIGN CHOICE, log entry 25.) -/
def State.solveForm (s : State) (j : SolveJob) : Option (Nat × Nat) :=
  if j.mask = 0 then some (0x0311, 0)
  else match j.op with
  | 0x300 => s.batchChecks j
  | 0x301 => s.schedChecks j
  | 0x302 => s.iterChecks j
  | 0x304 => s.asmChecks j
  | _ => s.qpChecks j

/-- The ranges of a form. -/
def State.solveRanges (s : State) (j : SolveJob) : List DevRange :=
  match j.op with
  | 0x300 => s.batchRanges j
  | 0x301 => s.schedRanges j
  | 0x302 => s.iterRanges j
  | 0x304 => s.asmOutRanges j
  | _ => s.qpRanges j

/-- Checks 1 to 3 of a barge of one of the five forms. An E4 packet's own unnamed bytes count among the reserved ones
(R382). (DEDUCED, log entry 25.) -/
def State.solveChecks (s : State) (b : Barge) (j : SolveJob) : Option (Nat × Nat) :=
  if !j.reservedOk || !(b.packet.isEmpty || b.reservedZero []) then some (St.malformed, 0) else s.solveMask j

/-- Runs a form. -/
def State.solveRun (s : State) (j : SolveJob) (e : SolveEnv) : State :=
  match j.op with
  | 0x300 => (s.batchForm j).run j e true s
  | 0x301 => s.schedRun j e
  | 0x302 => s.iterRun j e
  | 0x304 => s.asmRun j e
  | _ => (s.qpForm j).run j e false s

/-- What a job whose checks have passed does before its form runs: it clears the flags of the clusters of its reaches (R70,
R190), and uses its ranges. -/
def State.solveBegin (s : State) (j : SolveJob) (rs : List DevRange) : State :=
  (j.reaches.foldl State.clearSeen s).solveUse j rs

/-- The job of a solver barge. -/
def solveJob (b : Barge) : SolveJob :=
  { canal := b.canal, seq := b.seq, part := b.part, op := b.native, pay := b.bytes, orig := sliceB b.bytes 32 96
    stopBy := b.stopBy, lost := b.lost }

/-- The work of a solver barge of one form. -/
def State.solver (s : State) (c q op : Nat) (e : SolveEnv) : Res State :=
  s.work c q [op] fun b t =>
    let j := solveJob b
    match t.solveChecks b j with
    | some (st, r0) => t.finish b.canal b.seq st r0 0
    | none =>
      let t := t.meetAll e.errs
      match t.solveForm j with
      | some (st, r0) => t.finish b.canal b.seq st r0 0
      | none => (t.solveBegin j (t.solveRanges j)).solveRun j e

/-- (DESIGN CHOICE, log entry 22.) -/
def execSolveBatch (c : Fin 256) (q : Nat) (e : SolveEnv) (s : State) : Res State := s.solver c.val q 0x300 e

/-- (DESIGN CHOICE, log entry 22.) -/
def execSolveSched (c : Fin 256) (q : Nat) (e : SolveEnv) (s : State) : Res State := s.solver c.val q 0x301 e

/-- (DESIGN CHOICE, log entry 22.) -/
def execSolveIter (c : Fin 256) (q : Nat) (e : SolveEnv) (s : State) : Res State := s.solver c.val q 0x302 e

/-- (DESIGN CHOICE, log entry 22.) -/
def execAssemble (c : Fin 256) (q : Nat) (e : SolveEnv) (s : State) : Res State := s.solver c.val q 0x304 e

/-- (DESIGN CHOICE, log entry 22.) -/
def execQpBatch (c : Fin 256) (q : Nat) (e : SolveEnv) (s : State) : Res State := s.solver c.val q 0x305 e

/-! ### SOLVE_RESUME (R267 to R269) -/

/-- The job that a resume continues: the token's form and payload with the resume's own mask, range and token base. -/
def resumeJob (b : Barge) (tok : List Byte) (notes : Nat) : SolveJob :=
  let orig := sliceB tok 32 96
  let pay := sliceB b.bytes 0 47 ++ sliceB orig 15 73 ++ sliceB b.bytes 120 8
  { canal := b.canal, seq := b.seq, part := b.part, op := fieldB tok 7 6, pay := pay, orig := orig, resume := true
    progress := fieldB tok 23 16, stops := fieldB tok 11 8, notes := notes, stopBy := b.stopBy, lost := b.lost }

/-- Does a token's CHECK match under the partition's key (check 5)? (DEDUCED, log entry 25.) -/
def State.tokenOk (s : State) (p : Nat) (tok : List Byte) : Bool :=
  let key := spGet (fun _ => (0 : Word)) s.tokenKey p
  fieldB tok 3 0 == 0x4B546F6B && fieldB tok 5 4 == 1 &&
    fieldB tok 31 24 == digest64 (patchB (sliceB tok 0 24) 13 [1] ++ sliceB tok 32 96 ++ bytesLE 8 key.toNat)

/-- Check 7 of Table 8-5: the schedule that a resumed form runs has as many reaches as the mask. -/
def State.resumeSched (s : State) (j : SolveJob) : Bool :=
  let pop := j.reaches.length
  let rOf := fun (base : Nat) => (s.devFault j.part ⟨base, 128, false, 128⟩).isSome || (s.image j.part base).r == pop
  match j.op with
  | 0x301 => rOf (j.f 55 48)
  | 0x302 => j.precond != 3 || (s.devFault j.part ⟨j.precBase, 16, false, 128⟩).isSome || rOf (s.lnum j.part j.precBase 8)
  | _ => true

/-- Checks 4 to 8 of Table 8-5. A token whose line is poisoned does not match. (DEDUCED, log entry 25.) -/
def State.resumeChecks (s : State) (b : Barge) (j : SolveJob) (tok : List Byte) : Option (Nat × Nat) :=
  let at_ := b.f 55 48
  match s.devFault b.part ⟨at_, 128, true, 128⟩ with
  | some a => some (0x0313, a)
  | none =>
    if !s.tokenOk b.part tok || s.solveBad b.part j.reaches at_ 128 then some (0x0316, 0)
    else if fieldB tok 13 13 ≠ 1 then some (0x0317, 0)
    else if !s.resumeSched j then some (0x0312, 0)
    else s.solveForm j

/-- SOLVE_RESUME. It waits while an earlier resume of the same token has neither consumed it nor been rejected (R268).
(DESIGN CHOICE, log entry 22.) -/
def execSolveResume (c : Fin 256) (q : Nat) (e : SolveEnv) (s : State) : Res State :=
  s.work c.val q [0x303] fun b t =>
    let at_ := b.f 55 48
    let j0 := solveJob b
    if t.barges.any fun x => x.native == 0x303 && x.part == b.part && decide (x.acc < b.acc) && x.f 55 48 == at_ &&
        (x.phase == .waiting || x.phase == .started) then t
    else
      match if !b.reservedZero [(111, 56), (47, 47), (119, 112)] then some (St.malformed, 0) else t.solveMask j0 with
      | some (st, r0) => t.finish b.canal b.seq st r0 0
      | none =>
        let t := t.meetAll e.errs
        let tok := t.lread b.part at_ 128
        let j := resumeJob b tok (spGet (fun _ => 0) t.chains (fieldB tok 31 24))
        match t.resumeChecks b j tok with
        | some (st, r0) => t.finish b.canal b.seq st r0 0
        | none =>
          let t := t.solveBegin j (⟨at_, 128, true, 128⟩ :: t.solveRanges j)
          (t.solveStore b.part j.reaches (at_ + 13) [2]).solveRun j e

end Sys2Proof.Machine
end

