-- ==== Sys2Proof/Machine/Dispatch.lean ====
section
/-! DEFINITION. The dispatch of a command to its meaning: one arm per constructor of `Instr`, each one direct call. -/

namespace Sys2Proof.Machine

/-- The effect of a command on everything but the queue of waiting commands. -/
def exec (i : Instr) (s : State) : Host.Outcome State Fault Refusal :=
  match i with
  | .integerRegOp p env => Sys2Proof.Machine.execIntegerRegOp p env s
  | .immediateOp p env => Sys2Proof.Machine.execImmediateOp p env s
  | .integerLoad p env => Sys2Proof.Machine.execIntegerLoad p env s
  | .integerStore p env => Sys2Proof.Machine.execIntegerStore p env s
  | .fpLoad p env => Sys2Proof.Machine.execFpLoad p env s
  | .fpStore p env => Sys2Proof.Machine.execFpStore p env s
  | .branch p env => Sys2Proof.Machine.execBranch p env s
  | .jal p env => Sys2Proof.Machine.execJal p env s
  | .jalr p env => Sys2Proof.Machine.execJalr p env s
  | .fpArithmetic p env => Sys2Proof.Machine.execFpArithmetic p env s
  | .fusedMultiplyAdd p env => Sys2Proof.Machine.execFusedMultiplyAdd p env s
  | .conversionMove p env => Sys2Proof.Machine.execConversionMove p env s
  | .atomic p env => Sys2Proof.Machine.execAtomic p env s
  | .stFlag p env => Sys2Proof.Machine.execStFlag p env s
  | .stFlagAdd p env => Sys2Proof.Machine.execStFlagAdd p env s
  | .waitFlag p env => Sys2Proof.Machine.execWaitFlag p env s
  | .waitFlagComplete p env => Sys2Proof.Machine.execWaitFlagComplete p env s
  | .waitFlagPoll p env => Sys2Proof.Machine.execWaitFlagPoll p env s
  | .waitFlagTimeout p env => Sys2Proof.Machine.execWaitFlagTimeout p env s
  | .nmPost p env => Sys2Proof.Machine.execNmPost p env s
  | .ldR p env => Sys2Proof.Machine.execLdR p env s
  | .stR p env => Sys2Proof.Machine.execStR p env s
  | .stRflag p env => Sys2Proof.Machine.execStRflag p env s
  | .fenceInstruction p env => Sys2Proof.Machine.execFenceInstruction p env s
  | .fenceR p env => Sys2Proof.Machine.execFenceR p env s
  | .fenceNm p env => Sys2Proof.Machine.execFenceNm p env s
  | .fenceI p env => Sys2Proof.Machine.execFenceI p env s
  | .fenceWaitEnd p env => Sys2Proof.Machine.execFenceWaitEnd p env s
  | .cwRd p env => Sys2Proof.Machine.execCwRd p env s
  | .cwWr p env => Sys2Proof.Machine.execCwWr p env s
  | .cwSet p env => Sys2Proof.Machine.execCwSet p env s
  | .cwClr p env => Sys2Proof.Machine.execCwClr p env s
  | .halt p env => Sys2Proof.Machine.execHalt p env s
  | .haltWaitEnd p env => Sys2Proof.Machine.execHaltWaitEnd p env s
  | .brk p env => Sys2Proof.Machine.execBrk p env s
  | .eret p env => Sys2Proof.Machine.execEret p env s
  | .setvl p env => Sys2Proof.Machine.execSetvl p env s
  | .setvli p env => Sys2Proof.Machine.execSetvli p env s
  | .setvlt p env => Sys2Proof.Machine.execSetvlt p env s
  | .vectorLoad p env => Sys2Proof.Machine.execVectorLoad p env s
  | .vectorStore p env => Sys2Proof.Machine.execVectorStore p env s
  | .vectorIntegerOp p env => Sys2Proof.Machine.execVectorIntegerOp p env s
  | .vectorFpOp p env => Sys2Proof.Machine.execVectorFpOp p env s
  | .vectorCompare p env => Sys2Proof.Machine.execVectorCompare p env s
  | .vectorSelectMove p env => Sys2Proof.Machine.execVectorSelectMove p env s
  | .vectorReduction p env => Sys2Proof.Machine.execVectorReduction p env s
  | .vectorScan p env => Sys2Proof.Machine.execVectorScan p env s
  | .vectorConversion p env => Sys2Proof.Machine.execVectorConversion p env s
  | .vectorPermute p env => Sys2Proof.Machine.execVectorPermute p env s
  | .vecPoison p env => Sys2Proof.Machine.execVecPoison p env s
  | .mma p env => Sys2Proof.Machine.execMma p env s
  | .mmaComplete p deferred env => Sys2Proof.Machine.execMmaComplete p deferred env s
  | .mout p env => Sys2Proof.Machine.execMout p env s
  | .moutComplete p deferred env => Sys2Proof.Machine.execMoutComplete p deferred env s
  | .mzero p env => Sys2Proof.Machine.execMzero p env s
  | .mtrans p env => Sys2Proof.Machine.execMtrans p env s
  | .mdrain p env => Sys2Proof.Machine.execMdrain p env s
  | .matPoison p env => Sys2Proof.Machine.execMatPoison p env s
  | .canalEnable c cfg rp => Sys2Proof.Machine.execCanalEnable c cfg rp s
  | .canalDisable c cfg rp => Sys2Proof.Machine.execCanalDisable c cfg rp s
  | .canalDoorbell c v rp => Sys2Proof.Machine.execCanalDoorbell c v rp s
  | .canalTallyHead c v rp => Sys2Proof.Machine.execCanalTallyHead c v rp s
  | .bargeAccept c ring => Sys2Proof.Machine.execBargeAccept c ring s
  | .bargeStart c q => Sys2Proof.Machine.execBargeStart c q s
  | .bargeDeadline c q => Sys2Proof.Machine.execBargeDeadline c q s
  | .e4Packet c ring => Sys2Proof.Machine.execE4Packet c ring s
  | .e4BatchWait c => Sys2Proof.Machine.execE4BatchWait c s
  | .nop c q => Sys2Proof.Machine.execNop c q s
  | .fence c q => Sys2Proof.Machine.execFence c q s
  | .signalStore c q x => Sys2Proof.Machine.execSignalStore c q x s
  | .signalAdd c q ecc x => Sys2Proof.Machine.execSignalAdd c q ecc x s
  | .wait c q ecc x => Sys2Proof.Machine.execWait c q ecc x s
  | .waitConditionMet c q ecc x => Sys2Proof.Machine.execWaitConditionMet c q ecc x s
  | .waitPoll c q ecc x => Sys2Proof.Machine.execWaitPoll c q ecc x s
  | .logQuery c q x => Sys2Proof.Machine.execLogQuery c q x s
  | .canalDrain c q => Sys2Proof.Machine.execCanalDrain c q s
  | .memCopy c q k errs x => Sys2Proof.Machine.execMemCopy c q k errs x s
  | .memFill c q k x => Sys2Proof.Machine.execMemFill c q k x s
  | .memScrub c q k errs x => Sys2Proof.Machine.execMemScrub c q k errs x s
  | .mapSet c q x => Sys2Proof.Machine.execMapSet c q x s
  | .mapClear c q => Sys2Proof.Machine.execMapClear c q s
  | .mapClearComplete c q => Sys2Proof.Machine.execMapClearComplete c q s
  | .cargoLoad c q errs x => Sys2Proof.Machine.execCargoLoad c q errs x s
  | .cargoRun c q => Sys2Proof.Machine.execCargoRun c q s
  | .cargoArm c q ecc => Sys2Proof.Machine.execCargoArm c q ecc s
  | .lockGateRelease c q ecc => Sys2Proof.Machine.execLockGateRelease c q ecc s
  | .lockGatePoll c q ecc => Sys2Proof.Machine.execLockGatePoll c q ecc s
  | .cargoAbort c q => Sys2Proof.Machine.execCargoAbort c q s
  | .cargoFree c q => Sys2Proof.Machine.execCargoFree c q s
  | .solveBatch c q e => Sys2Proof.Machine.execSolveBatch c q e s
  | .solveSched c q e => Sys2Proof.Machine.execSolveSched c q e s
  | .solveIter c q e => Sys2Proof.Machine.execSolveIter c q e s
  | .solveResume c q e => Sys2Proof.Machine.execSolveResume c q e s
  | .assemble c q e => Sys2Proof.Machine.execAssemble c q e s
  | .qpBatch c q e => Sys2Proof.Machine.execQpBatch c q e s
  | .axpby w errs x => Sys2Proof.Machine.execAxpby w errs x s
  | .mul w errs x => Sys2Proof.Machine.execMul w errs x s
  | .reduce w errs x => Sys2Proof.Machine.execReduce w errs x s
  | .scan w errs x => Sys2Proof.Machine.execScan w errs x s
  | .gather w errs x => Sys2Proof.Machine.execGather w errs x s
  | .scatter w errs x => Sys2Proof.Machine.execScatter w errs x s
  | .scatterAdd w errs x => Sys2Proof.Machine.execScatterAdd w errs x s
  | .bridgeNarrow w errs x => Sys2Proof.Machine.execBridgeNarrow w errs x s
  | .bridgeWiden w errs x => Sys2Proof.Machine.execBridgeWiden w errs x s
  | .dualOrderWrite w errs x => Sys2Proof.Machine.execDualOrderWrite w errs x s
  | .dirtyArm w errs x => Sys2Proof.Machine.execDirtyArm w errs x s
  | .dirtyCollect w errs x => Sys2Proof.Machine.execDirtyCollect w errs x s
  | .dirtyDisarm w errs x => Sys2Proof.Machine.execDirtyDisarm w errs x s
  | .hash w errs x => Sys2Proof.Machine.execHash w errs x s
  | .nmOpComplete n ecc x => Sys2Proof.Machine.execNmOpComplete n ecc x s
  | .landingSet c q => Sys2Proof.Machine.execLandingSet c q s
  | .landingRevokeIndex c q => Sys2Proof.Machine.execLandingRevokeIndex c q s
  | .landingRevokeJob c q => Sys2Proof.Machine.execLandingRevokeJob c q s
  | .landingRevokeJobId c q => Sys2Proof.Machine.execLandingRevokeJobId c q s
  | .collAlltoall c q errs x => Sys2Proof.Machine.execCollAlltoall c q errs x s
  | .collAlltoallv c q errs x => Sys2Proof.Machine.execCollAlltoallv c q errs x s
  | .collAllreduceSmall c q errs x => Sys2Proof.Machine.execCollAllreduceSmall c q errs x s
  | .collBcast c q errs x => Sys2Proof.Machine.execCollBcast c q errs x s
  | .commForm c q errs => Sys2Proof.Machine.execCommForm c q errs s
  | .commShrink c q errs => Sys2Proof.Machine.execCommShrink c q errs s
  | .collStallTimeout k j => Sys2Proof.Machine.execCollStallTimeout k j s
  | .jobLaunchRoot c q errs => Sys2Proof.Machine.execJobLaunchRoot c q errs s
  | .jobLaunchJoin c q errs => Sys2Proof.Machine.execJobLaunchJoin c q errs s
  | .jobTeardownRoot c q errs => Sys2Proof.Machine.execJobTeardownRoot c q errs s
  | .jobTeardownLocal c q => Sys2Proof.Machine.execJobTeardownLocal c q s
  | .ckptBegin c q e => Sys2Proof.Machine.execCkptBegin c q e s
  | .ckptDiff c q e => Sys2Proof.Machine.execCkptDiff c q e s
  | .ckptCommit c q e => Sys2Proof.Machine.execCkptCommit c q e s
  | .ckptAbandon c q => Sys2Proof.Machine.execCkptAbandon c q s
  | .ckptSurvey c q e => Sys2Proof.Machine.execCkptSurvey c q e s
  | .ckptLoad c q e => Sys2Proof.Machine.execCkptLoad c q e s
  | .weirSet c q => Sys2Proof.Machine.execWeirSet c q s
  | .sleep c q => Sys2Proof.Machine.execSleep c q s
  | .domainEnable c q => Sys2Proof.Machine.execDomainEnable c q s
  | .domainDisable c q => Sys2Proof.Machine.execDomainDisable c q s
  | .partCreate c q => Sys2Proof.Machine.execPartCreate c q s
  | .partDestroy c q => Sys2Proof.Machine.execPartDestroy c q s
  | .keyLoadMk c q => Sys2Proof.Machine.execKeyLoadMk c q s
  | .keyLoadCk c q => Sys2Proof.Machine.execKeyLoadCk c q s
  | .keyClearCk c q => Sys2Proof.Machine.execKeyClearCk c q s
  | .keyClearMk c q => Sys2Proof.Machine.execKeyClearMk c q s
  | .attest c q x => Sys2Proof.Machine.execAttest c q x s
  | .roastStage c q errs x => Sys2Proof.Machine.execRoastStage c q errs x s
  | .raiseFloor c q => Sys2Proof.Machine.execRaiseFloor c q s
  | .roastSwitchLoad c q => Sys2Proof.Machine.execRoastSwitchLoad c q s
  | .handover c q => Sys2Proof.Machine.execHandover c q s
  | .diagCupping c q cup => Sys2Proof.Machine.execDiagCupping c q cup s
  | .spareSubstitute c q => Sys2Proof.Machine.execSpareSubstitute c q s
  | .errQuery c q x => Sys2Proof.Machine.execErrQuery c q x s
  | .paceReq r v rp => Sys2Proof.Machine.execPaceReq r v rp s
  | .orderReq r v rp => Sys2Proof.Machine.execOrderReq r v rp s
  | .timingModeChange r => Sys2Proof.Machine.execTimingModeChange r s
  | .hcRateUpdate r rate => Sys2Proof.Machine.execHcRateUpdate r rate s
  | .pacingSlip r => Sys2Proof.Machine.execPacingSlip r s
  | .pacingLockLoss => Sys2Proof.Machine.execPacingLockLoss s
  | .pacingLockRegained => Sys2Proof.Machine.execPacingLockRegained s
  | .partCtrlWrite p v rp => Sys2Proof.Machine.execPartCtrlWrite p v rp s
  | .partClaimWrite p v rp => Sys2Proof.Machine.execPartClaimWrite p v rp s
  | .partChangeEffect p => Sys2Proof.Machine.execPartChangeEffect p s
  | .memInterleaveWrite k v rp => Sys2Proof.Machine.execMemInterleaveWrite k v rp s
  | .weirTick e => Sys2Proof.Machine.execWeirTick e s
  | .vmodeAdjust d => Sys2Proof.Machine.execVmodeAdjust d s
  | .issueGuard d => Sys2Proof.Machine.execIssueGuard d s
  | .idleDrop d => Sys2Proof.Machine.execIdleDrop d s
  | .reachRetain r => Sys2Proof.Machine.execReachRetain r s
  | .reachWake r => Sys2Proof.Machine.execReachWake r s
  | .latencyCeiling c q => Sys2Proof.Machine.execLatencyCeiling c q s
  | .thermalTrip => Sys2Proof.Machine.execThermalTrip s
  | .dramOver110 st => Sys2Proof.Machine.execDramOver110 st s
  | .dramOver105 st parts waiting => Sys2Proof.Machine.execDramOver105 st parts waiting s
  | .cdieOver105 d => Sys2Proof.Machine.execCdieOver105 d s
  | .fpdieOver105 k => Sys2Proof.Machine.execFpdieOver105 k s
  | .tjTargetExceeded d => Sys2Proof.Machine.execTjTargetExceeded d s
  | .thermalResponseEnd h => Sys2Proof.Machine.execThermalResponseEnd h s
  | .refreshBandChange st temp => Sys2Proof.Machine.execRefreshBandChange st temp s
  | .refresh st => Sys2Proof.Machine.execRefresh st s
  | .refreshManagement st => Sys2Proof.Machine.execRefreshManagement st s
  | .patrolScrub st half ecc => Sys2Proof.Machine.execPatrolScrub st half ecc s
  | .selfRefreshScrubBurst st lines => Sys2Proof.Machine.execSelfRefreshScrubBurst st lines s
  | .channelCopyComplete st => Sys2Proof.Machine.execChannelCopyComplete st s
  | .residueMismatch w again => Sys2Proof.Machine.execResidueMismatch w again s
  | .lockstepMismatch w => Sys2Proof.Machine.execLockstepMismatch w s
  | .substitutionResume p hc => Sys2Proof.Machine.execSubstitutionResume p hc s
  | .dieLinkLost l ops => Sys2Proof.Machine.execDieLinkLost l ops s
  | .towpathBreak g => Sys2Proof.Machine.execTowpathBreak g s
  | .heartbeatMiss => Sys2Proof.Machine.execHeartbeatMiss s
  | .railFault r => Sys2Proof.Machine.execRailFault r s
  | .vcoreUndervolt d => Sys2Proof.Machine.execVcoreUndervolt d s
  | .boardRailOutOfRange => Sys2Proof.Machine.execBoardRailOutOfRange s
  | .wakeEvent => Sys2Proof.Machine.execWakeEvent s
  | .weirWake v rp => Sys2Proof.Machine.execWeirWake v rp s
  | .flitReceive k f errs x => Sys2Proof.Machine.execFlitReceive k f errs x s
  | .replayRequest k ack => Sys2Proof.Machine.execReplayRequest k ack s
  | .linkNotice k code => Sys2Proof.Machine.execLinkNotice k code s
  | .linkLoss k replays => Sys2Proof.Machine.execLinkLoss k replays s
  | .linkTraining k => Sys2Proof.Machine.execLinkTraining k s
  | .linkTrainingComplete k t => Sys2Proof.Machine.execLinkTrainingComplete k t s
  | .laneFailure k lane lock symbols => Sys2Proof.Machine.execLaneFailure k lane lock symbols s
  | .packetForward k p => Sys2Proof.Machine.execPacketForward k p s
  | .read8 k p errs x => Sys2Proof.Machine.execRead8 k p errs x s
  | .write8 k p errs x => Sys2Proof.Machine.execWrite8 k p errs x s
  | .flag8 k p errs x => Sys2Proof.Machine.execFlag8 k p errs x s
  | .readLines k p errs x => Sys2Proof.Machine.execReadLines k p errs x s
  | .writeLines k p errs x => Sys2Proof.Machine.execWriteLines k p errs x s
  | .ack k p => Sys2Proof.Machine.execAck k p s
  | .nack k p => Sys2Proof.Machine.execNack k p s
  | .readResp k p => Sys2Proof.Machine.execReadResp k p s
  | .retxTimeout node vc seq => Sys2Proof.Machine.execRetxTimeout node vc seq s
  | .replyTimeout node vc seq => Sys2Proof.Machine.execReplyTimeout node vc seq s
  | .linkResync k p errs x => Sys2Proof.Machine.execLinkResync k p errs x s
  | .timePacket k master hops offset => Sys2Proof.Machine.execTimePacket k master hops offset s
  | .collData k p errs x => Sys2Proof.Machine.execCollData k p errs x s
  | .collReady k p errs x => Sys2Proof.Machine.execCollReady k p errs x s
  | .collEnd k p errs x => Sys2Proof.Machine.execCollEnd k p errs x s
  | .collAbort k p errs x => Sys2Proof.Machine.execCollAbort k p errs x s
  | .jobLaunchPacket k p => Sys2Proof.Machine.execJobLaunchPacket k p s
  | .jobReport k p => Sys2Proof.Machine.execJobReport k p s
  | .jobAbortPacket k p => Sys2Proof.Machine.execJobAbortPacket k p s
  | .jobTeardownPacket k p => Sys2Proof.Machine.execJobTeardownPacket k p s
  | .regPacket k p => Sys2Proof.Machine.execRegPacket k p s
  | .routeDataWrite v rp => Sys2Proof.Machine.execRouteDataWrite v rp s
  | .fabricNodeWrite v rp => Sys2Proof.Machine.execFabricNodeWrite v rp s
  | .fabricTimersWrite v rp => Sys2Proof.Machine.execFabricTimersWrite v rp s
  | .timeMaster on rp => Sys2Proof.Machine.execTimeMaster on rp s
  | .linkEnc on rp => Sys2Proof.Machine.execLinkEnc on rp s
  | .debugLock rp => Sys2Proof.Machine.execDebugLock rp s
  | .approvedReq rp => Sys2Proof.Machine.execApprovedReq rp s
  | .secZeroise v rp => Sys2Proof.Machine.execSecZeroise v rp s
  | .lidMeshOpen => Sys2Proof.Machine.execLidMeshOpen s
  | .zeroiseInput => Sys2Proof.Machine.execZeroiseInput s
  | .aonRailExcursion => Sys2Proof.Machine.execAonRailExcursion s
  | .pdieCold => Sys2Proof.Machine.execPdieCold s
  | .selftestFailure => Sys2Proof.Machine.execSelftestFailure s
  | .alwaysOnRailRise => Sys2Proof.Machine.execAlwaysOnRailRise s
  | .resetN pulse opt => Sys2Proof.Machine.execResetN pulse opt s
  | .boot e => Sys2Proof.Machine.execBoot e s
  | .perstAN => Sys2Proof.Machine.execPerstAN s
  | .perstBN => Sys2Proof.Machine.execPerstBN s
  | .pcieHotReset k => Sys2Proof.Machine.execPcieHotReset k s
  | .vfFlr k p => Sys2Proof.Machine.execVfFlr k p s
  | .resetCtrl v rp => Sys2Proof.Machine.execResetCtrl v rp s
  | .recoveryGo k bytes => Sys2Proof.Machine.execRecoveryGo k bytes s
  | .recoveryTimeout k => Sys2Proof.Machine.execRecoveryTimeout k s
  | .pcieRetrain k link => Sys2Proof.Machine.execPcieRetrain k link s
  | .pcieCompletionError c tally => Sys2Proof.Machine.execPcieCompletionError c tally s
  | .window4Access k w errs x => Sys2Proof.Machine.execWindow4Access k w errs x s
  | .refclkLoss k => Sys2Proof.Machine.execRefclkLoss k s
  | .srefclkLoss f => Sys2Proof.Machine.execSrefclkLoss f s
  | .aonClkLoss k => Sys2Proof.Machine.execAonClkLoss k s
  | .entdaa k addr => Sys2Proof.Machine.execEntdaa k addr s
  | .setdasa k addr => Sys2Proof.Machine.execSetdasa k addr s
  | .rstdaa k => Sys2Proof.Machine.execRstdaa k s
  | .enec k => Sys2Proof.Machine.execEnec k s
  | .disec k => Sys2Proof.Machine.execDisec k s
  | .getpid k => Sys2Proof.Machine.execGetpid k s
  | .getbcr k => Sys2Proof.Machine.execGetbcr k s
  | .getdcr k => Sys2Proof.Machine.execGetdcr k s
  | .getstatus k => Sys2Proof.Machine.execGetstatus k s
  | .getmwl k => Sys2Proof.Machine.execGetmwl k s
  | .getmrl k => Sys2Proof.Machine.execGetmrl k s
  | .setmwl k n => Sys2Proof.Machine.execSetmwl k n s
  | .setmrl k n => Sys2Proof.Machine.execSetmrl k n s
  | .rstact k => Sys2Proof.Machine.execRstact k s
  | .regRead k off => Sys2Proof.Machine.execRegRead k off s
  | .regWrite k off v => Sys2Proof.Machine.execRegWrite k off v s
  | .getVersion k => Sys2Proof.Machine.execGetVersion k s
  | .getCapabilities k => Sys2Proof.Machine.execGetCapabilities k s
  | .negotiateAlgorithms k => Sys2Proof.Machine.execNegotiateAlgorithms k s
  | .getDigests k => Sys2Proof.Machine.execGetDigests k s
  | .getCertificate k slot => Sys2Proof.Machine.execGetCertificate k slot s
  | .challenge k => Sys2Proof.Machine.execChallenge k s
  | .getMeasurements k index signed => Sys2Proof.Machine.execGetMeasurements k index signed s
  | .keyExchange k id both => Sys2Proof.Machine.execKeyExchange k id both s
  | .finish k id ok => Sys2Proof.Machine.execFinish k id ok s
  | .heartbeat k id => Sys2Proof.Machine.execHeartbeat k id s
  | .keyUpdate k id => Sys2Proof.Machine.execKeyUpdate k id s
  | .endSession k id => Sys2Proof.Machine.execEndSession k id s
  | .bypass => Sys2Proof.Machine.execBypass s
  | .idcode => Sys2Proof.Machine.execIdcode s
  | .samplePreload => Sys2Proof.Machine.execSamplePreload s
  | .extest => Sys2Proof.Machine.execExtest s
  | .extestPulse => Sys2Proof.Machine.execExtestPulse s
  | .extestTrain => Sys2Proof.Machine.execExtestTrain s
  | .clamp => Sys2Proof.Machine.execClamp s
  | .highz => Sys2Proof.Machine.execHighz s
  | .tapDebugInstruction => Sys2Proof.Machine.execTapDebugInstruction s
  | .trstN => Sys2Proof.Machine.execTrstN s
  | .registerWrite w => Sys2Proof.Machine.execRegisterWrite w s
  | .bargeCompletion c q fail ecc x => Sys2Proof.Machine.execBargeCompletion c q fail ecc x s
  | .issueGuardEnd d => Sys2Proof.Machine.execIssueGuardEnd d s
  | .watchdogExpiry => Sys2Proof.Machine.execWatchdogExpiry s

end Sys2Proof.Machine
end

