-- ==== Sys2Proof/WellFormed.lean ====
section
/-! DEFINITION. Which commands are well formed: every operand within the range that the manual gives the thing it
stands for. A meaning does not ask for it; statements and tests do. -/

namespace Sys2Proof

/-- A sequence number has 32 bits (R356). -/
def seqOk (q : Nat) : Bool := decide (q < 2 ^ 32)

/-- The hc of one instruction fit CW_HC (R69), and the word that it finds in error is one of the register file's. -/
def envOk (e : CEnv) : Bool := decide (e.hc < 2 ^ 64 ∧ e.busy < 2 ^ 64 ∧ e.stall < 2 ^ 64 ∧ e.reg.1 < 12288)

/-- Keys below a bound. -/
def keysBelow {α : Type} (l : List (Nat × α)) (n : Nat) : Bool := l.all fun x => decide (x.1 < n)

/-- Memory errors fall at physical addresses (R277). -/
def errsOk (l : List (Nat × Ecc)) : Bool := keysBelow l (2 ^ 48)

/-- What happens to a solver barge names reaches of the package. -/
def solveEnvOk (e : SolveEnv) : Bool := keysBelow e.hc 64 && keysBelow e.stopHc 64 && errsOk e.errs

/-- What another node answers lies at global addresses. -/
def ckptEnvOk (e : CkptEnv) : Bool :=
  keysBelow e.far.bytes (2 ^ 64) && keysBelow e.far.fails (2 ^ 64) && decide (e.far.again < 256) && errsOk e.errs

/-- A barge that a near-memory command names has a sequence number. -/
def whoOk : NmWho → Bool
  | .op _ => true
  | .barge _ q => seqOk q

/-- Every field of a packet fits Table 17-3, and its body whole lines. -/
def packetFits (p : Packet) : Bool :=
  decide (p.ptype < 256 ∧ p.vc < 4 ∧ p.code < 256 ∧ p.dst < 2 ^ 16 ∧ p.src < 2 ^ 16 ∧ p.seq < 2 ^ 32 ∧ p.job < 2 ^ 32 ∧
    p.offset < 2 ^ 48 ∧ p.unit < 2 ^ 16 ∧ p.data < 2 ^ 64 ∧ p.body.length % 128 = 0 ∧ p.body.length ≤ 4096)

/-- What the weir measures names sensors of the package. -/
def weirEnvOk (e : WeirEnv) : Bool := keysBelow e.dies 4 && keysBelow e.reach 64 && keysBelow e.die 8

/-- What a boot finds names units of the package. -/
def bootEnvOk (e : BootEnv) : Bool :=
  (e.badFuse ++ e.noFlash ++ e.badTest ++ e.badCore).all (fun k => decide (k < 2)) && keysBelow e.flash 2 &&
    keysBelow e.spare 64 && keysBelow e.channels 32 && keysBelow e.cup 64 && e.badStack.all fun k => decide (k < 32)

/-- A flit has 542 bytes (Table 17-1), and a codeword 544 symbols. -/
def flitOk (f : Flit) : Bool := decide (f.bytes.length = 542) && f.fixed.all fun n => decide (n ≤ 544)

/-- An access of window 4 has a length, and a write as many bytes (R643). -/
def win4Ok (w : Win4) : Bool := decide (0 < w.len) && w.write.all fun b => decide (b.length = w.len)

/-- A register write of window 0 or a view has an offset in the window and a size of at most 8, and a request of any length
comes through PCIe, has bytes and stays in the window (R681); a write of the recovery buffer has bytes. -/
def writeAtOk : WriteAt → Bool
  | .reg _ off size _ => decide (off < 2 ^ 26 ∧ (size = 1 ∨ size = 2 ∨ size = 4 ∨ size = 8))
  | .span rp off b => decide (rp.path.val < 2 ∧ off + b.length ≤ 2 ^ 26) && !b.isEmpty
  | .buffer _ _ b => !b.isEmpty
  | _ => true

/-- A near-memory engine has uncompleted units of each operation once. -/
def residueOk : ResidueAt → Bool
  | .near _ ops => decide ops.Nodup
  | _ => true

/-- A well-formed command. (DESIGN CHOICE, log entry 9.) -/
def Instr.wf : Instr → Bool
  | .integerRegOp _ env => envOk env
  | .immediateOp _ env => envOk env
  | .integerLoad _ env => envOk env
  | .integerStore _ env => envOk env
  | .fpLoad _ env => envOk env
  | .fpStore _ env => envOk env
  | .branch _ env => envOk env
  | .jal _ env => envOk env
  | .jalr _ env => envOk env
  | .fpArithmetic _ env => envOk env
  | .fusedMultiplyAdd _ env => envOk env
  | .conversionMove _ env => envOk env
  | .atomic _ env => envOk env
  | .stFlag _ env => envOk env
  | .stFlagAdd _ env => envOk env
  | .waitFlag _ env => envOk env
  | .waitFlagComplete _ env => envOk env
  | .waitFlagPoll _ env => envOk env
  | .waitFlagTimeout _ env => envOk env
  | .nmPost _ env => envOk env
  | .ldR _ env => envOk env
  | .stR _ env => envOk env
  | .stRflag _ env => envOk env
  | .fenceInstruction _ env => envOk env
  | .fenceR _ env => envOk env
  | .fenceNm _ env => envOk env
  | .fenceI _ env => envOk env
  | .fenceWaitEnd _ env => envOk env
  | .cwRd _ env => envOk env
  | .cwWr _ env => envOk env
  | .cwSet _ env => envOk env
  | .cwClr _ env => envOk env
  | .halt _ env => envOk env
  | .haltWaitEnd _ env => envOk env
  | .brk _ env => envOk env
  | .eret _ env => envOk env
  | .setvl _ env => envOk env
  | .setvli _ env => envOk env
  | .setvlt _ env => envOk env
  | .vectorLoad _ env => envOk env
  | .vectorStore _ env => envOk env
  | .vectorIntegerOp _ env => envOk env
  | .vectorFpOp _ env => envOk env
  | .vectorCompare _ env => envOk env
  | .vectorSelectMove _ env => envOk env
  | .vectorReduction _ env => envOk env
  | .vectorScan _ env => envOk env
  | .vectorConversion _ env => envOk env
  | .vectorPermute _ env => envOk env
  | .vecPoison _ env => envOk env
  | .mma _ env => envOk env
  | .mmaComplete _ _ env => envOk env
  | .mout _ env => envOk env
  | .moutComplete _ _ env => envOk env
  | .mzero _ env => envOk env
  | .mtrans _ env => envOk env
  | .mdrain _ env => envOk env
  | .matPoison _ env => envOk env
  | .canalEnable _ _ _ => true
  | .canalDisable _ _ _ => true
  | .canalDoorbell _ _ _ => true
  | .canalTallyHead _ _ _ => true
  | .bargeAccept _ ring => decide (ring.length = 128)
  | .bargeStart _ q => seqOk q
  | .bargeDeadline _ q => seqOk q
  | .e4Packet _ ring => decide (ring.length = 64)
  | .e4BatchWait _ => true
  | .nop _ q => seqOk q
  | .fence _ q => seqOk q
  | .signalStore _ q _ => seqOk q
  | .signalAdd _ q _ _ => seqOk q
  | .wait _ q _ _ => seqOk q
  | .waitConditionMet _ q _ _ => seqOk q
  | .waitPoll _ q _ _ => seqOk q
  | .logQuery _ q _ => seqOk q
  | .canalDrain _ q => seqOk q
  | .memCopy _ q k errs _ => seqOk q && decide (k < 2 ^ 32) && errsOk errs
  | .memFill _ q k _ => seqOk q && decide (k < 2 ^ 32)
  | .memScrub _ q k errs _ => seqOk q && decide (k < 2 ^ 32) && errsOk errs
  | .mapSet _ q _ => seqOk q
  | .mapClear _ q => seqOk q
  | .mapClearComplete _ q => seqOk q
  | .cargoLoad _ q errs _ => seqOk q && errsOk errs
  | .cargoRun _ q => seqOk q
  | .cargoArm _ q _ => seqOk q
  | .lockGateRelease _ q _ => seqOk q
  | .lockGatePoll _ q _ => seqOk q
  | .cargoAbort _ q => seqOk q
  | .cargoFree _ q => seqOk q
  | .solveBatch _ q e => seqOk q && solveEnvOk e
  | .solveSched _ q e => seqOk q && solveEnvOk e
  | .solveIter _ q e => seqOk q && solveEnvOk e
  | .solveResume _ q e => seqOk q && solveEnvOk e
  | .assemble _ q e => seqOk q && solveEnvOk e
  | .qpBatch _ q e => seqOk q && solveEnvOk e
  | .axpby w errs _ => whoOk w && errsOk errs
  | .mul w errs _ => whoOk w && errsOk errs
  | .reduce w errs _ => whoOk w && errsOk errs
  | .scan w errs _ => whoOk w && errsOk errs
  | .gather w errs _ => whoOk w && errsOk errs
  | .scatter w errs _ => whoOk w && errsOk errs
  | .scatterAdd w errs _ => whoOk w && errsOk errs
  | .bridgeNarrow w errs _ => whoOk w && errsOk errs
  | .bridgeWiden w errs _ => whoOk w && errsOk errs
  | .dualOrderWrite w errs _ => whoOk w && errsOk errs
  | .dirtyArm w errs _ => whoOk w && errsOk errs
  | .dirtyCollect w errs _ => whoOk w && errsOk errs
  | .dirtyDisarm w errs _ => whoOk w && errsOk errs
  | .hash w errs _ => whoOk w && errsOk errs
  | .nmOpComplete _ _ _ => true
  | .landingSet _ q => seqOk q
  | .landingRevokeIndex _ q => seqOk q
  | .landingRevokeJob _ q => seqOk q
  | .landingRevokeJobId _ q => seqOk q
  | .collAlltoall _ q errs _ => seqOk q && errsOk errs
  | .collAlltoallv _ q errs _ => seqOk q && errsOk errs
  | .collAllreduceSmall _ q errs _ => seqOk q && errsOk errs
  | .collBcast _ q errs _ => seqOk q && errsOk errs
  | .commForm _ q errs => seqOk q && errsOk errs
  | .commShrink _ q errs => seqOk q && errsOk errs
  | .collStallTimeout _ j => decide (j < 65536)
  | .jobLaunchRoot _ q errs => seqOk q && errsOk errs
  | .jobLaunchJoin _ q errs => seqOk q && errsOk errs
  | .jobTeardownRoot _ q errs => seqOk q && errsOk errs
  | .jobTeardownLocal _ q => seqOk q
  | .ckptBegin _ q e => seqOk q && ckptEnvOk e
  | .ckptDiff _ q e => seqOk q && ckptEnvOk e
  | .ckptCommit _ q e => seqOk q && ckptEnvOk e
  | .ckptAbandon _ q => seqOk q
  | .ckptSurvey _ q e => seqOk q && ckptEnvOk e
  | .ckptLoad _ q e => seqOk q && ckptEnvOk e
  | .weirSet _ q => seqOk q
  | .sleep _ q => seqOk q
  | .domainEnable _ q => seqOk q
  | .domainDisable _ q => seqOk q
  | .partCreate _ q => seqOk q
  | .partDestroy _ q => seqOk q
  | .keyLoadMk _ q => seqOk q
  | .keyLoadCk _ q => seqOk q
  | .keyClearCk _ q => seqOk q
  | .keyClearMk _ q => seqOk q
  | .attest _ q _ => seqOk q
  | .roastStage _ q errs _ => seqOk q && errsOk errs
  | .raiseFloor _ q => seqOk q
  | .roastSwitchLoad _ q => seqOk q
  | .handover _ q => seqOk q
  | .diagCupping _ q cup => seqOk q && keysBelow cup 64 && cup.all fun x => decide (x.2.slots < 512) && keysBelow x.2.parts 9
  | .spareSubstitute _ q => seqOk q
  | .errQuery _ q _ => seqOk q
  | .paceReq _ _ _ => true
  | .orderReq _ _ _ => true
  | .timingModeChange _ => true
  | .hcRateUpdate _ _ => true
  | .pacingSlip _ => true
  | .pacingLockLoss => true
  | .pacingLockRegained => true
  | .partCtrlWrite _ _ _ => true
  | .partClaimWrite _ _ _ => true
  | .partChangeEffect _ => true
  | .memInterleaveWrite _ _ _ => true
  | .weirTick e => weirEnvOk e
  | .vmodeAdjust _ => true
  | .issueGuard _ => true
  | .idleDrop _ => true
  | .reachRetain _ => true
  | .reachWake _ => true
  | .latencyCeiling _ q => seqOk q
  | .thermalTrip => true
  | .dramOver110 _ => true
  | .dramOver105 _ _ waiting => keysBelow waiting 256
  | .cdieOver105 _ => true
  | .fpdieOver105 _ => true
  | .tjTargetExceeded _ => true
  | .thermalResponseEnd _ => true
  | .refreshBandChange _ _ => true
  | .refresh _ => true
  | .refreshManagement _ => true
  | .patrolScrub _ _ _ => true
  | .selfRefreshScrubBurst _ _ => true
  | .channelCopyComplete _ => true
  | .residueMismatch w _ => residueOk w
  | .lockstepMismatch _ => true
  | .substitutionResume _ hc => decide (hc < 2 ^ 64)
  | .dieLinkLost _ _ => true
  | .towpathBreak _ => true
  | .heartbeatMiss => true
  | .railFault _ => true
  | .vcoreUndervolt _ => true
  | .boardRailOutOfRange => true
  | .wakeEvent => true
  | .weirWake _ _ => true
  | .flitReceive _ f errs _ => flitOk f && errsOk errs
  | .replayRequest _ _ => true
  | .linkNotice _ _ => true
  | .linkLoss _ _ => true
  | .linkTraining _ => true
  | .linkTrainingComplete _ _ => true
  | .laneFailure _ _ _ _ => true
  | .packetForward _ p => packetFits p
  | .read8 _ p errs _ => packetFits p && errsOk errs
  | .write8 _ p errs _ => packetFits p && errsOk errs
  | .flag8 _ p errs _ => packetFits p && errsOk errs
  | .readLines _ p errs _ => packetFits p && errsOk errs
  | .writeLines _ p errs _ => packetFits p && errsOk errs
  | .ack _ p => packetFits p
  | .nack _ p => packetFits p
  | .readResp _ p => packetFits p
  | .retxTimeout _ _ _ => true
  | .replyTimeout _ _ _ => true
  | .linkResync _ p errs _ => packetFits p && errsOk errs
  | .timePacket _ _ _ _ => true
  | .collData _ p errs _ => packetFits p && errsOk errs
  | .collReady _ p errs _ => packetFits p && errsOk errs
  | .collEnd _ p errs _ => packetFits p && errsOk errs
  | .collAbort _ p errs _ => packetFits p && errsOk errs
  | .jobLaunchPacket _ p => packetFits p
  | .jobReport _ p => packetFits p
  | .jobAbortPacket _ p => packetFits p
  | .jobTeardownPacket _ p => packetFits p
  | .regPacket _ p => packetFits p
  | .routeDataWrite _ _ => true
  | .fabricNodeWrite _ _ => true
  | .fabricTimersWrite _ _ => true
  | .timeMaster _ _ => true
  | .linkEnc _ _ => true
  | .debugLock _ => true
  | .approvedReq _ => true
  | .secZeroise _ _ => true
  | .lidMeshOpen => true
  | .zeroiseInput => true
  | .aonRailExcursion => true
  | .pdieCold => true
  | .selftestFailure => true
  | .alwaysOnRailRise => true
  | .resetN _ _ => true
  | .boot e => bootEnvOk e
  | .perstAN => true
  | .perstBN => true
  | .pcieHotReset _ => true
  | .vfFlr _ _ => true
  | .resetCtrl _ _ => true
  | .recoveryGo _ _ => true
  | .recoveryTimeout _ => true
  | .pcieRetrain _ _ => true
  | .pcieCompletionError _ _ => true
  | .window4Access _ w errs _ => win4Ok w && errsOk errs
  | .refclkLoss _ => true
  | .srefclkLoss _ => true
  | .aonClkLoss _ => true
  | .entdaa _ _ => true
  | .setdasa _ _ => true
  | .rstdaa _ => true
  | .enec _ => true
  | .disec _ => true
  | .getpid _ => true
  | .getbcr _ => true
  | .getdcr _ => true
  | .getstatus _ => true
  | .getmwl _ => true
  | .getmrl _ => true
  | .setmwl _ _ => true
  | .setmrl _ _ => true
  | .rstact _ => true
  | .regRead _ _ => true
  | .regWrite _ _ _ => true
  | .getVersion _ => true
  | .getCapabilities _ => true
  | .negotiateAlgorithms _ => true
  | .getDigests _ => true
  | .getCertificate _ slot => decide (slot < 8)
  | .challenge _ => true
  | .getMeasurements _ _ _ => true
  | .keyExchange _ _ _ => true
  | .finish _ _ _ => true
  | .heartbeat _ _ => true
  | .keyUpdate _ _ => true
  | .endSession _ _ => true
  | .bypass => true
  | .idcode => true
  | .samplePreload => true
  | .extest => true
  | .extestPulse => true
  | .extestTrain => true
  | .clamp => true
  | .highz => true
  | .tapDebugInstruction => true
  | .trstN => true
  | .registerWrite w => writeAtOk w
  | .bargeCompletion _ q _ _ _ => seqOk q
  | .issueGuardEnd _ => true
  | .watchdogExpiry => true

end Sys2Proof
end

