-- ==== Sys2Proof/Safety.lean ====
section
/-! DEFINITION. The terms in which claims speak of a run: a package that nothing voids, a cluster that fetches a word, a
barge whose work is to begin, a register access that is served, and what an instruction leaves alone. -/

namespace Sys2Proof.Machine

/-- Nothing that the manual voids, and nothing at which accesses wait: every board rail within its range, no C-die undervolted
(R663, R665), no stack at 110 °C (R451), and no basin that is being moved (R582). -/
abbrev State.Sound (s : State) : Prop :=
  s.health.railOut = false ∧ s.health.voidDies = [] ∧ s.health.stackOut = [] ∧ s.heat.s110 = [] ∧ s.subs = []

/-- Physical cluster `P` issues, and the word `w` that it fetches is an instruction of group `g`: the pc is aligned and in
the basin, the word is not poisoned, no store without fence.i leaves its value open (R76), and no other cluster of its run
has stopped by trap (R106). -/
abbrev State.Fetches (s : State) (P w : Nat) (g : Group) : Prop :=
  s.Sound ∧ (s.cl P).issues = true ∧ (s.cl P).pc % 4 = 0 ∧ (s.cl P).pc < basinSize ∧
    s.poisonedAt (basinPA P + (s.cl P).pc) = false ∧ (s.cl P).staleAt (s.cl P).pc = false ∧
    s.fetchWord P (s.cl P).pc = w ∧ classify w = some g ∧ s.runFaulted P = false

/-- Barge `b` of canal `c` with sequence number `q` has started, runs as native opcode `op`, and its work has not begun. -/
abbrev State.Begun (s : State) (c : Fin 256) (q : Nat) (b : Barge) (op : Nat) : Prop :=
  s.Sound ∧ s.barge? c.val q = some b ∧ b.phase = .started ∧ b.native = op

/-- A list of checks passes. -/
abbrev Passes (l : List (Bool × Nat × Nat)) : Prop := firstFail l = none

/-- The checks that LAUNCH and TEARDOWN share pass (R696). -/
abbrev State.JobOk (s : State) (b : Barge) (tear : Bool) (errs : List (Nat × Ecc)) : Prop :=
  b.reservedZero [(127, 68), (39, 39)] = true ∧ b.f 37 37 < 4 ∧ b.jobField tear = none ∧
    (s.meetAll errs).readFault b.part (b.f 55 48) (4 * b.f 43 40) = none ∧ (s.meetAll errs).memberFault b = none ∧
    (s.meetAll errs).nodeValid = true

/-- A write to the register at `a` that arrives by `rp` is served and shown to the writer as writable (R680, R688). -/
abbrev State.Reaches (s : State) (rp : RegPath) (a : Nat) : Prop :=
  s.Sound ∧ s.serves rp.path.val a = true ∧ (rp.view.all fun p => s.live p.val && s.shown p.val a && viewRw a) = true

/-- The record of a cluster with the hc of one instruction counted. -/
def Cluster.after (c : Cluster) (hc : Nat) : Cluster := { c with hc := c.hc + hc }

/-- The record of cluster `P` as an instruction of it finds it: its hc counted, and the word that its operand reads find in
error poisoned (R284). -/
abbrev State.issued (s : State) (P : Nat) (env : CEnv) : Cluster := (s.issueAt P env).cl P

/-- `t` is `s` but for the record of physical cluster `P`. -/
def State.OnlyCl (s t : State) (P : Nat) : Prop :=
  (∀ Q, Q ≠ P → t.cl Q = s.cl Q) ∧ t = { s with clusters := t.clusters }

/-- No unfinished matrix instruction holds the listed f registers, and none that is read is poisoned (R108, R142, R285). -/
abbrev Cluster.FreeF (c : Cluster) (rd wr : List Nat) : Prop :=
  rd.any (fun n => c.regBusyR (n, 1)) = false ∧ wr.any (fun n => c.regBusyW (n, 1)) = false ∧
    rd.find? (fun n => (c.vpoisIn (1024 * n) 8).isSome) = none

/-- No unfinished matrix instruction holds the listed register ranges, and no byte that is read, the given ones or else the elements
of each register, is poisoned (R142, R285). -/
abbrev Cluster.FreeV (c : Cluster) (rd wr : List (Nat × Nat)) (at_ : Option (List (Nat × Nat)) := none) : Prop :=
  rd.any c.regBusyR = false ∧ wr.any c.regBusyW = false ∧ c.readPois rd at_ = none

/-- Every byte of memory reads in `t` as in `s`. -/
def State.SameBytes (s t : State) : Prop := ∀ a, t.byteAt a = s.byteAt a

/-- Every byte of memory outside the `n` bytes at `pa` reads in `t` as in `s`. -/
def State.SameBytesBut (s t : State) (pa n : Nat) : Prop := ∀ a, a < pa ∨ pa + n ≤ a → t.byteAt a = s.byteAt a

end Sys2Proof.Machine
end

