-- ==== Sys2Proof/Certificates/Slice0/Obligations.lean ====
section
/-! DEFINITION. The statements for the provers. A statement that gives a command's next state gives its frame with it: the
state is named whole, as the operations of Machine/ build it, or as the state before but for what is named. -/

open Sys2Proof Sys2Proof.Machine


/-! ### The machine -/

/-- A step takes the command at the front of the queue and runs it on the state with the queue's rest. -/
def Obligations.StepRunsFrontCommand : Prop :=
  ∀ (s : State) (c : Instr) (rest : List Instr),
    step { s with pending := c :: rest } = exec c { s with pending := rest }

/-- With no command waiting the package idles: runs that a trap stopped end, thresholds that are due act, an entry to sleep goes
on, and the timebase advances by one ns, by at most one more or less under a slew (R6, R522; that an empty queue lets time
pass is the model's choice, log entry 2). -/
def Obligations.IdleAdvancesTime : Prop :=
  ∀ s : State, (s.pending = [] → step s = .next s.endFaults.retireDue.sleepDue.markReady.idle) ∧
    (s.now + 2 < 2 ^ 64 → s.now ≤ s.idle.now ∧ s.idle.now ≤ s.now + 2) ∧
    (s.now + 1 < 2 ^ 64 → s.fabric.gain = 0 → s.fabric.lag = 0 → s.idle.now = s.now + 1)

/-- Memory keeps its canonical form through every step. -/
def Obligations.MemoryStaysCanonical : Prop :=
  ∀ s t : State, s.memWf = true → step s = .next t → t.memWf = true

/-- Memory has the canonical form at reset. -/
def Obligations.ResetMemoryCanonical : Prop := State.reset.memWf = true

/-- A command never touches the commands that wait behind it. -/
def Obligations.CommandsLeaveTheQueue : Prop :=
  ∀ (c : Instr) (s t : State), exec c s = .next t → t.pending = s.pending

/-- Once a board rail other than a stack rail has left its range with RESET_N high, nothing is known of the package after any
command but the rise of the always-on rail: every field is free, the queue and the rails apart (R665, R668; that the state is
free is how the model says undefined, log entry 6). -/
def Obligations.VoidPackageIsUndefined : Prop :=
  ∀ (c : Instr) (s : State), s.health.railOut = true → c ≠ .alwaysOnRailRise → exec c s = .next s.voided

/-- At the rise of the always-on rail everything starts anew: a level-7 reset from source 1, with the package in its boot, no
barge outstanding, every cluster idle and memory with nothing listed (R627). -/
def Obligations.AlwaysOnRailRiseIsColdReset : Prop :=
  ∀ s : State, ∃ t, exec .alwaysOnRailRise s = .next t ∧ t.booting = true ∧ t.barges = [] ∧ t.clusters = [] ∧ t.maps = [] ∧
    t.mem = [] ∧ t.health.railOut = false ∧ t.health.voidDies = [] ∧ t.pending = s.pending ∧
    t.fld Reg.resetCause F.RESET_CAUSE_SOURCE = 1 ∧ t.fld Reg.resetCause F.RESET_CAUSE_LEVEL = 7

/-! ### Cluster instructions -/

/-- Integer register operations and immediates write x[rd] alone, count one retired instruction and go on to the next word;
every other cluster, register and byte stays (R80 to R82). -/
def Obligations.IntegerOperations : Prop :=
  ∀ (s : State) (p : Fin 576) (env : CEnv) (w : Nat),
    (s.Fetches p w .integerRegOp → ∃ t, exec (.integerRegOp p env) s = .next t ∧ (s.issueAt p env).OnlyCl t p ∧
      t.cl p = ((s.issued p env).setX (fA w)
        (intFn (bitsOf w 5 0) ((s.cl p).x (fB w)) ((s.cl p).x (fC w)))).retire) ∧
    (s.Fetches p w .immediateOp → ∃ t, exec (.immediateOp p env) s = .next t ∧ (s.issueAt p env).OnlyCl t p ∧
      t.cl p = ((s.issued p env).setX (fA w) (immFn w ((s.cl p).x (fB w)) ((s.cl p).x (fA w)))).retire)

/-- What an operand read finds in the register file changes nothing but the error records and the poison of one word: without
an error the instruction acts in the state in which its hc have passed and its die has left an idle drop, and with one every
register of the cluster, the pc, the control words, every other cluster and every byte of memory are as they were (R284, R285).
Poison of an f register that an FP instruction reads is a DATA_POISON trap with the register's number (the trap and its value
are the model's choice, log entry 66). -/
def Obligations.OperandReads : Prop :=
  ∀ (s : State) (p : Fin 576) (env : CEnv) (w n : Nat),
    let t := s.issueAt p env
    (env.reg.2 = .clean → env.ecc ≠ .cache → t = (s.firstIssue (p.val / 144)).tick p env.hc) ∧
    (s.flag (Reg.vcoreStatus (p.val / 144)) F.VCORE_STATUS_LENT = false → s.firstIssue (p.val / 144) = s) ∧
    (env.reg.2 = .corrected → t.cl p = (s.cl p).after env.hc) ∧
    (env.reg.2 = .uncorrectable →
      t.cl p = { (s.cl p).after env.hc with vpois := setIns (env.reg.1 % 12288) (s.cl p).vpois }) ∧
    (∀ q, q ≠ p.val → t.cl q = s.cl q) ∧ s.SameBytes t ∧ t.barges = s.barges ∧ t.fabric = s.fabric ∧
    (s.Fetches p w .fpArithmetic → (t.cl p).mat = [] → bitsOf w 5 0 < 0x0A →
      ([fB w, fC w].find? fun i => ((t.cl p).vpoisIn (1024 * i) 8).isSome) = some n →
      exec (.fpArithmetic p env) s = .next (t.trap p Cause.dataPoison n))

/-- Register g0 reads as zero whatever is written to it, and a write to it changes nothing; a write to another register puts its
64-bit value there and leaves every other as it was (R64). -/
def Obligations.RegisterZeroIsHardwired : Prop :=
  ∀ (s : State) (p : Fin 576) (env : CEnv) (w : Nat) (v : Word),
    (∀ (c : Cluster) (r q : Nat), c.x 0 = 0 ∧ c.setX 0 v = c ∧ (r ≠ 0 → (c.setX r v).x q = if q = r then v else c.x q)) ∧
    (s.Fetches p w .integerRegOp → fA w = 0 → env.reg.2 = .clean → ∃ t, exec (.integerRegOp p env) s = .next t ∧
      t.cl p = { s.cl p with
        hc := (s.cl p).hc + env.hc, pc := ((s.cl p).pc + 4) % 2 ^ 64, retired := (s.cl p).retired + 1 }.mark)

/-- Division traps nowhere: a divisor of zero gives all ones as the quotient and the dividend as the remainder, and the most
negative number divided by −1 gives itself and the remainder zero (R81). -/
def Obligations.DivisionNeverTraps : Prop :=
  ∀ (s : State) (p : Fin 576) (env : CEnv) (w : Nat),
    let a := (s.cl p).x (fB w)
    let d := (s.cl p).x (fC w)
    let f := bitsOf w 5 0
    s.Fetches p w .integerRegOp → f = 0x14 ∨ f = 0x15 ∨ f = 0x16 ∨ f = 0x17 →
    ∃ t, exec (.integerRegOp p env) s = .next t ∧ (t.cl p).pc = ((s.cl p).pc + 4) % 2 ^ 64 ∧
      (fA w ≠ 0 → (d = 0 → f = 0x14 ∨ f = 0x15 → (t.cl p).x (fA w) = 0xFFFF_FFFF_FFFF_FFFF) ∧
        (d = 0 → f = 0x16 ∨ f = 0x17 → (t.cl p).x (fA w) = a) ∧
        (a = 0x8000_0000_0000_0000 → d = -1 → f = 0x14 → (t.cl p).x (fA w) = 0x8000_0000_0000_0000) ∧
        (a = 0x8000_0000_0000_0000 → d = -1 → f = 0x16 → (t.cl p).x (fA w) = 0))

/-- Branches compare two registers and jump by words from themselves; jal and jalr write the address behind them first; a
jalr target off a word boundary traps at the jump, and the link is not written (R85). -/
def Obligations.BranchesAndJumps : Prop :=
  ∀ (s : State) (p : Fin 576) (env : CEnv) (w : Nat),
    let c := s.cl p
    let i := s.issueAt p env
    let d := i.cl p
    let link : Word := BitVec.ofNat 64 (c.pc + 4)
    (s.Fetches p w .branch → ∃ t, exec (.branch p env) s = .next t ∧ i.OnlyCl t p ∧
      t.cl p = if branchHolds (fW w) (c.x (fA w)) (c.x (fB w)) then
          d.jump (addr64 (BitVec.ofNat 64 c.pc) (4 * fOff13 w))
        else d.retire) ∧
    (s.Fetches p w .jal → ∃ t, exec (.jal p env) s = .next t ∧ i.OnlyCl t p ∧
      t.cl p = (d.setX (fA w) link).jump (addr64 (BitVec.ofNat 64 c.pc) (4 * fOff21 w))) ∧
    (s.Fetches p w .jalr → addr64 (c.x (fB w)) (fImm16 w) % 4 = 0 → ∃ t, exec (.jalr p env) s = .next t ∧ i.OnlyCl t p ∧
      t.cl p = (d.setX (fA w) link).jump (addr64 (c.x (fB w)) (fImm16 w))) ∧
    (s.Fetches p w .jalr → addr64 (c.x (fB w)) (fImm16 w) % 4 ≠ 0 →
      exec (.jalr p env) s = .next (i.trap p Cause.fetchFault (addr64 (c.x (fB w)) (fImm16 w))))

/-- FP arithmetic, fused operations and conversions write one register and the flags they raise, where no unfinished matrix
instruction holds an f register they use (R86 to R89, R108). -/
def Obligations.FpOperations : Prop :=
  ∀ (s : State) (p : Fin 576) (env : CEnv) (w : Nat),
    let i := s.issueAt p env
    let d := i.cl p
    let f := bitsOf w 5 0
    let ftz := ftzOf d.fpctrl
    let one := bitOf w 10
    let a := d.fOf one (fB w)
    let b := d.fOf one (fC w)
    (s.Fetches p w .fpArithmetic → d.FreeF (if f = 0x0D then [fB w] else [fB w, fC w]) (if f < 0x0A then [fA w] else []) →
      ∃ t, exec (.fpArithmetic p env) s = .next t ∧ i.OnlyCl t p ∧ t.cl p =
        if f = 0x0D then (d.setX (fA w) (BitVec.ofNat 64 ((scalarFmt one).classC a))).retire
        else if 0x0A ≤ f then
          ((d.setX (fA w) (boolWord (fpCmp f (scalarFmt one) ftz a b).1)).note (fpCmp f (scalarFmt one) ftz a b).2).retire
        else
          ((d.setF (fA w) (fpFn f (scalarFmt one) (i.rnd p 0) ftz a b).1).note
            (fpFn f (scalarFmt one) (i.rnd p 0) ftz a b).2).retire) ∧
    (s.Fetches p w .fusedMultiplyAdd → d.FreeF [fB w, fC w, bitsOf w 10 6] [fA w] →
      ∃ t, exec (.fusedMultiplyAdd p env) s = .next t ∧ i.OnlyCl t p ∧
        let r := (scalarFmt (bitOf w 3)).fmaC (decide (2 ≤ bitsOf w 5 4)) (bitsOf w 5 4 == 1 || bitsOf w 5 4 == 2) (i.rnd p 0)
          ftz (d.fOf (bitOf w 3) (fB w)) (d.fOf (bitOf w 3) (fC w)) (d.fOf (bitOf w 3) (bitsOf w 10 6))
        t.cl p = ((d.setF (fA w) r.1).note r.2).retire) ∧
    (s.Fetches p w .conversionMove →
      d.FreeF (if [0x02, 0x03, 0x04, 0x05, 0x06, 0x09].contains f then [fB w] else [])
        (if [0x02, 0x03, 0x06, 0x09].contains f then [] else [fA w]) →
      ∃ t, exec (.conversionMove p env) s = .next t ∧ i.OnlyCl t p ∧ t.cl p =
        if [0x02, 0x03, 0x06, 0x09].contains f then
          let r := cvtToX f (i.rnd p 0) ftz (d.f64 (fB w)) (d.f32 (fB w))
          ((d.setX (fA w) (BitVec.ofNat 64 r.1)).note r.2).retire
        else
          let r := cvtToF f (i.rnd p 0) ftz (d.x (fB w)).toNat (d.f64 (fB w)) (d.f32 (fB w))
          ((d.setF (fA w) r.1).note r.2).retire)

/-- cw.rd writes a listed control word to x[rd]; cw.wr, cw.set and cw.clr write the RW fields of CW_FPCTRL, CW_TVEC, CW_EPC and
CW_TSCRATCH, and clear FLUSH_SEEN where cw.wr or cw.set carries a 1; an unlisted number, a write form on a word that is RO as
a whole, an RM of 0b11 and an offset with bits [1:0] set take a CW_ACCESS trap with the instruction word (R67 to R69, R100;
that cw.wr, cw.set and cw.clr trap by the value that they would leave is the model's reading, log entry 12). -/
def Obligations.ControlWordAccess : Prop :=
  ∀ (s : State) (p : Fin 576) (env : CEnv) (w : Nat),
    let t := s.issueAt p env
    let c := t.cl p
    let n := fCw w
    let x := (c.x (fB w)).toNat
    let listed := n ≤ 0xE ∨ n = 0x20 ∨ n = 0x21
    let forms : List (Instr × Group × (Nat → Nat)) := [(.cwWr p env, .cwWr, fun _ => x), (.cwSet p env, .cwSet, fun old => old ||| x),
      (.cwClr p env, .cwClr, fun old => old &&& (2 ^ 64 - 1 - x))]
    (s.Fetches p w .cwRd → listed → ∃ u v, exec (.cwRd p env) s = .next u ∧ t.OnlyCl u p ∧ t.cwRead p n = some v ∧
      u.cl p = (c.setX (fA w) (BitVec.ofNat 64 v)).retire) ∧
    (s.Fetches p w .cwRd → ¬ listed → exec (.cwRd p env) s = .next (t.trap p Cause.cwAccess w)) ∧
    (c.epc < 2 ^ 64 → c.tvec < 2 ^ 64 → c.tscratch < 2 ^ 64 → c.fpctrl < 2 ^ 64 → ∀ f ∈ forms, s.Fetches p w f.2.1 →
      (n = 3 → f.2.2 c.tvec % 4 = 0 → exec f.1 s = .next (t.setCl p { c with tvec := f.2.2 c.tvec }.retire)) ∧
      (n = 3 → f.2.2 c.tvec % 4 ≠ 0 → exec f.1 s = .next (t.trap p Cause.cwAccess w)) ∧
      (n = 4 → f.2.2 c.epc % 4 = 0 → exec f.1 s = .next (t.setCl p { c with epc := f.2.2 c.epc }.retire)) ∧
      (n = 4 → f.2.2 c.epc % 4 ≠ 0 → exec f.1 s = .next (t.trap p Cause.cwAccess w)) ∧
      (n = 7 → exec f.1 s = .next (t.setCl p { c with tscratch := f.2.2 c.tscratch }.retire)) ∧
      (n = 1 → bitsOf (f.2.2 c.fpctrl) 3 2 ≠ 3 → ∃ u, exec f.1 s = .next u ∧ t.OnlyCl u p ∧
        u.cl p = { c with fpctrl := (u.cl p).fpctrl }.retire ∧
        bitsOf (u.cl p).fpctrl 0 0 = bitsOf (f.2.2 c.fpctrl) 0 0 ∧ bitsOf (u.cl p).fpctrl 3 2 = bitsOf (f.2.2 c.fpctrl) 3 2 ∧
        bitOf (u.cl p).fpctrl 8 = (bitOf c.fpctrl 8 && (f.2.1 == .cwClr || !bitOf x 8)) ∧
        bitOf (u.cl p).fpctrl 1 = bitOf c.fpctrl 1 ∧ bitsOf (u.cl p).fpctrl 7 4 = bitsOf c.fpctrl 7 4 ∧
        bitsOf (u.cl p).fpctrl 63 9 = bitsOf c.fpctrl 63 9) ∧
      (n = 1 → bitsOf (f.2.2 c.fpctrl) 3 2 = 3 → exec f.1 s = .next (t.trap p Cause.cwAccess w)) ∧
      (n ≠ 1 → n ≠ 3 → n ≠ 4 → n ≠ 7 → exec f.1 s = .next (t.trap p Cause.cwAccess w)))

/-- A checked load reads the translated bytes into its register; a checked store writes the register's low bytes there and
leaves every other byte alone (R83, R709). -/
def Obligations.LoadsAndStores : Prop :=
  ∀ (s : State) (p : Fin 576) (env : CEnv) (w pa : Nat),
    let t := s.issueAt p env
    let c := t.cl p
    let la := c.mAddr w
    let n := mWidth w
    let u := (t.access p env [⟨pa, n, false⟩]).meetEcc env.ecc pa
    let a := (t.access p env [⟨pa, n, true⟩]).mergeRead env.ecc pa n
    let v := a.markStale p pa n
    (s.Fetches p w .integerLoad → t.clTranslate p false n la = .ok pa → c.memBusyR (ownRange p pa n) = false →
      t.reaches p env pa = true → u.poisonedAt pa = false →
      exec (.integerLoad p env) s = .next (u.modCl p fun c => (c.setX (fA w) (loadExt (fW w) (u.numAt pa n))).retire) ∧
        s.SameBytes u) ∧
    (s.Fetches p w .fpLoad → c.FreeF [] [fA w] → t.clTranslate p false n la = .ok pa →
      c.memBusyR (ownRange p pa n) = false → t.reaches p env pa = true → u.poisonedAt pa = false →
      exec (.fpLoad p env) s = .next (u.modCl p fun c => (c.setF (fA w) (u.numAt pa n)).retire)) ∧
    (s.Fetches p w .integerStore → t.clTranslate p true n la = .ok pa → c.memBusyW (ownRange p pa n) = false →
      a.reaches p env pa = true →
      exec (.integerStore p env) s =
        .next ((v.store pa (bytesLE n (c.x (fA w)).toNat)).modCl p Cluster.retire) ∧
        s.SameBytesBut (v.store pa (bytesLE n (c.x (fA w)).toNat)) pa n) ∧
    (s.Fetches p w .fpStore → c.FreeF [fA w] [] → t.clTranslate p true n la = .ok pa →
      c.memBusyW (ownRange p pa n) = false → a.reaches p env pa = true →
      exec (.fpStore p env) s = .next ((v.store pa (bytesLE n (c.f64 (fA w)))).modCl p Cluster.retire))

/-- An atomic, a flagged store and a flagged add act on one 8-byte word; x[rd] takes the old value of the word. Under deal order
an amoadd to a claim word acts in its turn alone, and counts as a claim of its run; until then the cluster waits (R84, R90,
R91, R485; what the turn is counted by is the model's choice, log entry 53). -/
def Obligations.AtomicsAndFlags : Prop :=
  ∀ (s : State) (p : Fin 576) (env : CEnv) (w pa word : Nat) (r : RunWork),
    let t := s.issueAt p env
    let c := t.cl p
    let la := (c.x (fB w)).toNat
    let a := t.access p env [⟨pa, 8, true⟩]
    let m := a.mergeRead env.ecc pa 8
    let u := a.meetEcc env.ecc pa
    let old : Word := BitVec.ofNat 64 (u.numAt pa 8)
    let put := fun (v : State) (x : Word) => (v.markStale p pa 8).store pa (bytesLE 8 x.toNat)
    let op := match atomicFn (bitsOf w 2 0) old (c.x (fC w)) (c.x (fA w)) with
      | some x => put u x
      | none => u
    let end_ := fun (v : State) => v.modCl p fun d => (d.setX (fA w) old).retire
    let checked := t.clTranslate p true 8 la = .ok pa ∧ c.memBusyW (ownRange p pa 8) = false ∧ t.reaches p env pa = true ∧
      u.reaches p env pa = true ∧ u.poisonedAt pa = false
    (s.Fetches p w .atomic → (bitsOf w 2 0 = 0 → t.dealClaim p la = none) → checked →
      exec (.atomic p env) s = .next (end_ op)) ∧
    (s.Fetches p w .atomic → bitsOf w 2 0 = 0 → t.dealClaim p la = some (r, word) → t.claimTurn r word p = true → checked →
      exec (.atomic p env) s = .next (end_ (op.claimed p word))) ∧
    (s.Fetches p w .atomic → bitsOf w 2 0 = 0 → t.dealClaim p la = some (r, word) → t.claimTurn r word p = false →
      exec (.atomic p env) s = .next s) ∧
    (s.Fetches p w .stFlag → c.moutOpen = false → t.clTranslate p true 8 la = .ok pa →
      c.memBusyW (ownRange p pa 8) = false → m.reaches p env pa = true →
      exec (.stFlag p env) s = .next ((put m (c.x (fC w))).modCl p Cluster.retire)) ∧
    (s.Fetches p w .stFlagAdd → c.moutOpen = false → checked →
      exec (.stFlagAdd p env) s = .next (end_ (put u (old + c.x (fC w)))))

/-- wait.flag ends at once where its condition holds; where a later read of the word, or a poll of an unwatched one, finds it,
the wait ends with that value, and at the limit with the last value read (R92, R93). -/
def Obligations.FlagWaits : Prop :=
  ∀ (s : State) (p : Fin 576) (env : CEnv) (w pa : Nat) (f : FlagWait),
    let i := s.issueAt p env
    let d := i.cl p
    let u := (i.access p env [⟨pa, 8, false⟩]).meetEcc env.ecc pa
    let v : Word := BitVec.ofNat 64 (u.numAt pa 8)
    let t := s.tick p env.hc
    let c := s.cl p
    let r := (t.access p env [⟨f.pa, 8, false⟩]).meetEcc env.ecc f.pa
    let x : Word := BitVec.ofNat 64 (r.numAt f.pa 8)
    let waits := s.Sound ∧ c.act = .running ∧ c.wait = .flag f ∧ s.runFaulted p = false
    let reads := t.reaches p env f.pa = true ∧ r.poisonedAt f.pa = false
    (s.Fetches p w .waitFlag → i.clTranslate p false 8 (d.x (fB w)).toNat = .ok pa → d.memBusyR (ownRange p pa 8) = false →
      i.reaches p env pa = true → u.poisonedAt pa = false → condHolds (bitsOf w 7 5) v (d.x (fC w)) = true →
      exec (.waitFlag p env) s = .next (u.modCl p fun d => (d.setX (fA w) v).retire)) ∧
    (waits → f.watched = true → reads → condHolds f.cond x f.ref = true →
      exec (.waitFlagComplete p env) s = .next (r.endWait p f x)) ∧
    (waits → f.watched = false → reads → condHolds f.cond x f.ref = true →
      exec (.waitFlagPoll p env) s = .next (r.endWait p f x)) ∧
    (waits → f.due (c.hc + env.hc) = true →
      exec (.waitFlagTimeout p env) s = .next (t.endWait p f f.last)) ∧
    (c.act ≠ .running → s.Sound → exec (.waitFlagComplete p env) s = .next s ∧ exec (.waitFlagPoll p env) s = .next s ∧
      exec (.waitFlagTimeout p env) s = .next s)

/-- The fences retire at once where there is nothing to wait for, and at the end of their wait; halt of a drained cluster ends
its cargo (R98, R99, R101, R102). -/
def Obligations.FencesAndHalt : Prop :=
  ∀ (s : State) (p : Fin 576) (env : CEnv) (w : Nat) (exit : BitVec 32),
    let c := s.cl p
    let i := s.issueAt p env
    let d := i.cl p
    let after := c.after env.hc
    let runs := s.Sound ∧ c.act = .running ∧ s.runFaulted p = false
    (s.Fetches p w .fence → c.mat = [] → exec (.fenceInstruction p env) s = .next (i.modCl p Cluster.retire)) ∧
    (s.Fetches p w .fenceR → c.deferred = false → c.remoteOut = 0 →
      exec (.fenceR p env) s = .next (i.modCl p Cluster.retire)) ∧
    (s.Fetches p w .fenceNm → c.nmOut = 0 → exec (.fenceNm p env) s = .next (i.modCl p Cluster.retire)) ∧
    (s.Fetches p w .fenceI → c.moutOpen = false →
      exec (.fenceI p env) s = .next (i.modCl p fun e => { e with stale := [] }.retire)) ∧
    (runs → (c.wait = .fence ∧ c.mat = [] ∨ c.wait = .fenceR ∧ c.remoteOut = 0 ∧ c.deferred = false ∨
        c.wait = .fenceNm ∧ c.nmOut = 0) →
      ∃ t, exec (.fenceWaitEnd p env) s = .next t ∧ s.OnlyCl t p ∧ t.cl p = { after with wait := .none }.retire) ∧
    (s.Fetches p w .halt → c.deferred = false → c.drained = true →
      exec (.halt p env) s = .next (i.endCargo p ((d.x (fA w)).toNat % 2 ^ 32))) ∧
    (runs → c.wait = .halt exit → c.deferred = false → c.drained = true →
      exec (.haltWaitEnd p env) s =
        .next (((s.tick p env.hc).modCl p fun e => { e with wait := .none }).endCargo p exit.toNat))

/-- A trap outside the handler, with CW_TVEC not zero, saves the pc in CW_EPC, the cause and its value, and goes on at CW_TVEC
with HMODE 1; brk takes one, and eret returns from it (R101, R105). -/
def Obligations.TrapEntryAndReturn : Prop :=
  ∀ (s : State) (p : Fin 576) (env : CEnv) (w cause tval : Nat),
    let c := s.cl p
    let i := s.issueAt p env
    let d := i.cl p
    (c.hmode = false → c.tvec ≠ 0 → s.OnlyCl (s.trap p cause tval) p ∧
      (s.trap p cause tval).cl p =
        { c with wait := .none, epc := c.pc, cause := cause, tval := tval, hmode := true, pc := c.tvec }.mark) ∧
    (s.Fetches p w .brk → c.hmode = false → c.tvec ≠ 0 → ∃ t, exec (.brk p env) s = .next t ∧ i.OnlyCl t p ∧
      t.cl p = { d with wait := .none, epc := c.pc, cause := 0x000F, tval := 0, hmode := true, pc := c.tvec }.mark) ∧
    (s.Fetches p w .eret → c.hmode = true → ∃ t, exec (.eret p env) s = .next t ∧ i.OnlyCl t p ∧
      t.cl p = { d with pc := c.epc, hmode := false, retired := c.retired + 1 }.mark) ∧
    (s.Fetches p w .eret → c.hmode = false → exec (.eret p env) s = .next (i.trap p Cause.illegal w))

/-- With a node id, a job and a path, a remote load of another node sends its READ8 with the sequence number that the node is
due, and waits for the answer; a remote store sends its request, counts in CW_REMOTE_OUT and goes on; an address off its word
takes MISALIGNED, one for the package's own node passes its landing table, and one from a C-die with no link to an F-die finds
poison or stops its cluster (R591). nm.post of a sound descriptor takes the next
number among the operations of its stack, writes 1 into the STATUS field, counts in CW_NM_OUT and goes on (R95 to R97, R515).
What keeps a remote instruction from being sent is the model's reading, log entry 35. -/
def Obligations.RemoteAndPostedAccesses : Prop :=
  ∀ (s : State) (p : Fin 576) (env : CEnv) (w part job k : Nat) (d : NmDesc) (flag : Option Nat),
    let t := s.issueAt p env
    let c := t.cl p
    let P := p.val
    let a := (c.x (fB w)).toNat
    let node := a / 2 ^ 48
    let away := t.nodeValid = true ∧ t.clPart P = some part ∧ t.jobTag part = some job ∧ node ≠ t.nodeId ∧
      t.mooredNode node = false ∧ t.routePort node = some k ∧ t.offFabric P = false
    let home := t.offFabric P = false ∧ t.nodeValid = true ∧ t.clPart P = some part ∧ t.jobTag part = some job ∧ node = t.nodeId
    let pkt := fun (type data : Nat) =>
      (⟨type, 0, false, 0, node, t.nodeId, 0, job, a % 2 ^ 48, (t.logOfPhys P).getD 0, data, []⟩ : Packet)
    let post := fun (type : Nat) => (t.sendReq (.cluster p c.barge) (pkt type (c.x (fC w)).toNat)).modCl p fun e =>
      { e with remoteOut := e.remoteOut + 1 }.retire
    let base := basinPA P + a
    let m := (t.access p env [⟨base, 64, false⟩]).meetEcc env.ecc base
    let pt := (t.clPart P).getD 8
    let lead := m.nmLead pt d (((m.logOfPhys P).getD 0) % 8)
    (s.Fetches p w .ldR → a % 8 = 0 → away →
      exec (.ldR p env) s = .next (((t.resyncTo node).sendReq (.cluster p ((t.resyncTo node).cl p).barge) (pkt Pt.read8 0)).modCl
        p fun e => { e with wait := .remoteLoad (fA w) (BitVec.ofNat 64 a) ((t.resyncTo node).seqNext node 0) })) ∧
    (s.Fetches p w .ldR → a % 8 = 0 → home → ∀ r u, t.landReq (pkt Pt.read8 0) [] env.contest = (r, u) → r.code = none →
      r.poison = false →
      exec (.ldR p env) s = .next (u.modCl p fun e => (e.setX (fA w) (BitVec.ofNat 64 (numLE r.data))).retire)) ∧
    (s.Fetches p w .ldR → a % 8 ≠ 0 → exec (.ldR p env) s = .next (t.trap p Cause.misaligned a)) ∧
    (s.Fetches p w .ldR → a % 8 = 0 → t.offFabric P = true → exec (.ldR p env) s = .next (t.trap p Cause.dataPoison a)) ∧
    (s.Fetches p w .stR → a % 8 = 0 → t.offFabric P = true →
      exec (.stR p env) s = .next (t.stopCluster p Cause.dataPoison a c.pc Cause.dataPoison)) ∧
    (s.Fetches p w .stR → a % 8 = 0 → away → exec (.stR p env) s = .next (post Pt.write8)) ∧
    (s.Fetches p w .stR → a % 8 ≠ 0 → exec (.stR p env) s = .next (t.trap p Cause.misaligned a)) ∧
    (s.Fetches p w .stRflag → c.deferred = false → a % 8 = 0 → c.moutOpen = false → away →
      exec (.stRflag p env) s = .next (post Pt.flag8)) ∧
    (s.Fetches p w .stRflag → c.deferred = false → a % 8 ≠ 0 →
      exec (.stRflag p env) s = .next (t.trap p Cause.misaligned a)) ∧
    (s.Fetches p w .nmPost → c.moutOpen = false → a % 64 ≠ 0 →
      exec (.nmPost p env) s = .next (t.trap p Cause.misaligned a)) ∧
    (s.Fetches p w .nmPost → c.moutOpen = false → a % 64 = 0 → basinSize < a + 64 →
      exec (.nmPost p env) s = .next (t.trap p Cause.addrReserved a)) ∧
    (s.Fetches p w .nmPost → c.moutOpen = false → a % 64 = 0 → a + 64 ≤ basinSize → m.poisonIn base 64 = none →
      m.nmWell pt (m.bytesAt base 64) = some d → m.nmFault pt d = none → m.nmWord P (c.x (fC w)).toNat = .ok flag →
      m.nmQueued lead none < 16 → m.linksTo (P / 144) (lead / 64) = true →
      ∃ u o, exec (.nmPost p env) s = .next u ∧ u.cl p = { m.cl p with nmOut := (m.cl p).nmOut + 1 }.retire ∧
        u.nmNum = m.nmNum + 1 ∧ u.nmOps = m.nmOps ++ [o] ∧ o.num = m.nmNum ∧ o.lead = lead ∧ o.desc = m.bytesAt base 64 ∧
        o.part = pt ∧ o.status = some (base + 56) ∧ o.flag = flag ∧ o.done = false ∧ u.numAt (base + 56) 8 = 1 ∧
        m.SameBytesBut u (base + 56) 8)

/-- setvl, setvli and setvlt set CW_VTYPE and CW_VL and write the length taken to x[rd]: the one asked for, at most VLMAX of
the element width (R114 to R116). -/
def Obligations.VectorLength : Prop :=
  ∀ (s : State) (p : Fin 576) (env : CEnv) (w : Nat),
    let d := s.issued p env
    let x := ((s.cl p).x (fB w)).toNat
    let set := fun (r : Host.Outcome State Fault Refusal) (vtype avl : Nat) => ∃ t, r = .next t ∧ (s.issueAt p env).OnlyCl t p ∧
      (t.cl p).vtype = vtype ∧ (t.cl p).vl = min avl (vlMax (bitsOf vtype 1 0)) ∧
      t.cl p = d.setVl (fA w) vtype avl
    (s.Fetches p w .setvl → set (exec (.setvl p env) s) (vcType w) x) ∧
    (s.Fetches p w .setvli → set (exec (.setvli p env) s) (vcType w) (bitsOf w 15 5)) ∧
    (s.Fetches p w .setvlt → (bitOf x 2 = true → bitsOf x 1 0 = 1) →
      set (exec (.setvlt p env) s) (bitsOf x 2 0) (bitsOf x 26 16))

/-- A vector instruction on registers computes every element below CW_VL from the registers as they were, writes its
destination alone, raises the flags of its elements, and retires (R121 to R130). -/
def Obligations.VectorRegisterOperations : Prop :=
  ∀ (s : State) (p : Fin 576) (env : CEnv) (w : Nat) (m : Fmt),
    let at_ := s.issueAt p env
    let c := at_.cl p
    let vd := vD w
    let done := fun (r : Host.Outcome State Fault Refusal) (rd wr : List (Nat × Nat)) (e : Cluster) =>
      ∃ t, r = .next t ∧ at_.OnlyCl t p ∧ t.cl p = e.touchRegs (rd ++ wr)
    let els := fun (f : Nat → Nat) => (List.range c.vl).map f
    let elx := fun (f : Nat → Nat × Fx) => (List.range c.vl).map f
    (s.Fetches p w .vectorIntegerOp → c.FreeV (vvReads w (opOf w == 0x23)) [(vd, 1)] →
      done (exec (.vectorIntegerOp p env) s) (vvReads w (opOf w == 0x23)) [(vd, 1)]
        ((c.putAll c.ew vd (els fun i => vIntFn (vFunc w) c.eb (c.el c.ew (vS1 w) i) (c.intB w (opOf w - 0x23) i))).vretire
          (if 3 ≤ vFunc w ∧ vFunc w ≤ 5 then .fma else .alu) env.busy)) ∧
    (s.Fetches p w .vectorFpOp → c.vfmt = some m → c.FreeV (vFpReads w) [(vd, 1)] (c.fpAt w (opOf w == 0x26) (vFpReads w)) →
      let r := elx fun i => vFpFn (vFunc w) m (at_.rnd p i) (ftzOf c.fpctrl) (c.el c.ew (vS1 w) i) (c.fpB w (opOf w == 0x26) i)
        (c.el c.ew vd i)
      done (exec (.vectorFpOp p env) s) (vFpReads w) [(vd, 1)]
        (((c.putAll c.ew vd (r.map (·.1))).note (fxAll r)).vretire
        (if (5 ≤ vFunc w ∧ vFunc w ≤ 9) ∨ vFunc w = 0x10 then .alu else .fma) env.busy)) ∧
    (s.Fetches p w .vectorCompare → vFunc w ≤ 7 → c.FreeV (vvReads w (opOf w == 0x28)) [(vd, 1)] →
      done (exec (.vectorCompare p env) s) (vvReads w (opOf w == 0x28)) [(vd, 1)]
        ((c.putAll c.ew vd (els fun i => maskEl c.eb (vCmpInt (vFunc w) c.eb (c.el c.ew (vS1 w) i)
          (c.intB w (if opOf w == 0x28 then 0 else 1) i)))).vretire .alu env.busy)) ∧
    (s.Fetches p w .vectorCompare → 7 < vFunc w → c.vfmt = some m → c.FreeV (fpReads w (opOf w == 0x28)) [(vd, 1)]
        (c.fpAt w (opOf w == 0x28) (fpReads w (opOf w == 0x28))) →
      let r := elx fun i =>
        let x := vCmpFp (vFunc w) m (ftzOf c.fpctrl) (c.el c.ew (vS1 w) i) (c.fpB w (opOf w == 0x28) i)
        (maskEl c.eb x.1, x.2)
      done (exec (.vectorCompare p env) s) (fpReads w (opOf w == 0x28)) [(vd, 1)]
        (((c.putAll c.ew vd (r.map (·.1))).note (fxAll r)).vretire .alu env.busy)) ∧
    (s.Fetches p w .vectorSelectMove → opOf w = 0x2A → c.FreeV (selReads w) [(vd, 1)] →
      done (exec (.vectorSelectMove p env) s) (selReads w) [(vd, 1)]
        ((c.putAll c.ew vd (els fun i =>
          match vFunc w with
          | 0 => if c.el c.ew (vS1 w) i ≠ 0 then c.el c.ew (vS2 w) i else c.el c.ew vd i
          | 1 => if c.el c.ew (vS1 w) i = 0 then c.el c.ew (vS2 w) i else c.el c.ew vd i
          | 2 => c.el c.ew (vS1 w) i
          | _ => i)).vretire .alu env.busy)) ∧
    (s.Fetches p w .vectorSelectMove → opOf w ≠ 0x2A → vFunc w = 3 → c.FreeV (selReads w) [] (c.selAt w) →
      done (exec (.vectorSelectMove p env) s) (selReads w) []
        ((c.setX (bitsOf w 23 19) (sext64 c.eb (c.el c.ew (vS1 w) 0))).vretire .alu env.busy)) ∧
    (s.Fetches p w .vectorSelectMove → opOf w ≠ 0x2A → vFunc w ≠ 3 → c.FreeV (selReads w) [(vd, 1)] (c.selAt w) →
      let x := (c.x (vX2 w)).toNat % 2 ^ c.eb
      done (exec (.vectorSelectMove p env) s) (selReads w) [(vd, 1)]
        ((c.putAll c.ew vd ((List.range (if vFunc w = 2 then min c.vl 1 else c.vl)).map fun i =>
          match vFunc w with
          | 1 => if c.el c.ew (vS1 w) i ≠ 0 then x else c.el c.ew vd i
          | 4 => c.el c.ew (vX2 w) 0
          | _ => x)).vretire .alu env.busy)) ∧
    (s.Fetches p w .vectorReduction → vFunc w ≤ 7 → c.FreeV (redReads w) [(vd, 1)] (c.redAt w) →
      done (exec (.vectorReduction p env) s) (redReads w) [(vd, 1)]
        ((c.putEls c.ew vd 0 [(c.els c.ew (vS2 w) c.vl).foldl (redInt (vFunc w) c.eb) (c.el c.ew (vS1 w) 0)]).vretire .alu
          env.busy)) ∧
    (s.Fetches p w .vectorReduction → 0x0C ≤ vFunc w → c.FreeV (redReads w) [(vd, 1)] (c.redAt w) →
      let l := c.els c.ew (vS2 w) c.vl
      let ow := if c.ew = 1 then 2 else c.ew
      done (exec (.vectorReduction p env) s) (redReads w) [(vd, 1)]
        ((c.setV (1024 * vd) ow (if vFunc w = 0x0C then (l.filter (· != 0)).length
          else (l.findIdx? (· != 0)).getD (2 ^ (8 * ow) - 1))).vretire .alu env.busy)) ∧
    (s.Fetches p w .vectorReduction → 7 < vFunc w → vFunc w < 0x0C → c.vfmt = some m →
      c.FreeV (redReads w) [(vd, 1)] (c.redAt w) →
      let r := redFp (vFunc w) m c.rndRed (ftzOf c.fpctrl) (c.el c.ew (vS1 w) 0) (c.els c.ew (vS2 w) c.vl)
      done (exec (.vectorReduction p env) s) (redReads w) [(vd, 1)]
        (((c.putEls c.ew vd 0 [r.1]).note r.2).vretire (if vFunc w ≤ 9 then .fma else .alu) env.busy)) ∧
    (s.Fetches p w .vectorScan → (bitsOf w 2 0 < 5 ∧ m = .binary64 ∨ 5 ≤ bitsOf w 2 0 ∧ c.vfmt = some m) →
      c.FreeV ((vS2 w, 1) :: if bitOf w 4 then [(vS1 w, 1)] else []) [(vd, 1)] →
      let h := (List.range c.vl).map fun i => i == 0 || (bitOf w 4 && c.el c.ew (vS1 w) i != 0)
      let x := (c.els c.ew (vS2 w) c.vl).map (scanIn (bitsOf w 2 0) m (ftzOf c.fpctrl))
      let r := scanRun (scanFn (bitsOf w 2 0) c.eb m c.rndRed (ftzOf c.fpctrl)) 11 1 ((x.map (·.1)).zip h) (fxAll x)
      done (exec (.vectorScan p env) s) ((vS2 w, 1) :: if bitOf w 4 then [(vS1 w, 1)] else []) [(vd, 1)]
        (((c.putAll c.ew vd (if bitOf w 3 then
            els fun i => if h.getD i true then scanId (bitsOf w 2 0) c.eb m else (r.1.map (·.1)).getD (i - 1) 0
          else r.1.map (·.1))).note r.2).vretire .alu env.busy)) ∧
    (s.Fetches p w .vectorConversion → cvBytes (cvSrc w) = c.ew → vd + cvRegs w ≤ 96 →
      c.FreeV [(vS1 w, 1)] [(vd, cvRegs w)] →
      let r := elx fun i => cvOne (cvFmt (cvSrc w)) (cvFmt (cvDst w)) (at_.rnd p i) (ftzOf c.fpctrl)
        (c.el (cvBytes (cvSrc w)) (vS1 w) i)
      done (exec (.vectorConversion p env) s) [(vS1 w, 1)] [(vd, cvRegs w)]
        (((c.putAll (cvBytes (cvDst w)) vd (r.map (·.1))).note (fxAll r)).vretire .cvt env.busy)) ∧
    (s.Fetches p w .vectorPermute → c.FreeV (vvReads w (vFunc w ≤ 1)) [(vd, 1)] (some (c.permAt (vFunc w) w)) →
      done (exec (.vectorPermute p env) s) (vvReads w (vFunc w ≤ 1)) [(vd, 1)]
        ((c.putSome c.ew vd (c.permute (vFunc w) w)).vretire .cvt env.busy))

/-- A vector integer operation puts the function of its operands into each element below CW_VL and leaves the bytes of every
other register as they were (R117, R121). -/
def Obligations.VectorIntegerElements : Prop :=
  ∀ (s : State) (p : Fin 576) (env : CEnv) (w : Nat),
    let c := s.issued p env
    s.Fetches p w .vectorIntegerOp → c.FreeV (vvReads w (opOf w == 0x23)) [(vD w, 1)] → c.vl * c.ew ≤ 1024 →
    ∃ t, exec (.vectorIntegerOp p env) s = .next t ∧
      (∀ i, i < c.vl → (t.cl p).el c.ew (vD w) i =
        vIntFn (vFunc w) c.eb (c.el c.ew (vS1 w) i) (c.intB w (opOf w - 0x23) i) % 2 ^ (8 * c.ew)) ∧
      (∀ k, k < 1024 * vD w ∨ 1024 * vD w + c.vl * c.ew ≤ k → (t.cl p).vbyte k = c.vbyte k) ∧
      (t.cl p).g = c.g ∧ (t.cl p).pc = (c.pc + 4) % 2 ^ 64

/-- A vector load or store whose checks all pass reads or writes its elements; a load that meets poison, or whose last path
fails in flight, stops the cluster, and so does a store of which the failure drops an element (R591); with a CW_VL of 0 it
accesses nothing, takes no trap and retires (R117, R131 to R138). -/
def Obligations.VectorMemoryAccess : Prop :=
  ∀ (s : State) (p : Fin 576) (env : CEnv) (w : Nat) (pas : List Nat),
    let t := s.issueAt p env
    let c := t.cl p
    let idx := c.vmReads w
    let u := fun (store : Bool) => (t.modCl p fun d =>
      { d with checkStall := d.checkStall + env.stall }.touchRegs ((vD w, 1) :: idx)).access p env
        (pas.map fun pa => ⟨pa, c.ew, store⟩)
    let met := match pas with
      | [] => u false
      | pa :: _ => (u false).meetEcc env.ecc pa
    let m := match pas with
      | [] => u true
      | pa :: _ => (u true).mergeRead env.ecc pa ((u true).cl p).ew
    let v := m.vstoreEls p env (m.cl p).ew (pas.zip ((m.cl p).els (m.cl p).ew (vD w) (m.cl p).vl))
    let fails := fun pa => met.poisonedAt pa || !met.reaches p env pa
    let checks := fun (store : Bool) => (c.vl = 0 ∨ c.vmConfigBad w store = false) ∧ idx.any c.regBusyR = false ∧
      c.vreadPois (4 * c.vl) idx = none ∧
      ((List.range (c.vcount w)).map fun i => t.vcheck p store c.ew (c.vea w i)) = pas.map Except.ok
    let stores := checks true ∧ c.regBusyR (vD w, 1) = false ∧ c.vreadPois (c.vl * c.ew) [(vD w, 1)] = none ∧
      (pas.any fun pa => c.memBusyW (ownRange p pa c.ew)) = false
    let loads := checks false ∧ c.regBusyW (vD w, 1) = false ∧ (pas.any fun pa => c.memBusyR (ownRange p pa c.ew)) = false
    (s.Fetches p w .vectorLoad → loads → exec (.vectorLoad p env) s = .next ((u false).vloadAccess p env w pas)) ∧
    (s.Fetches p w .vectorLoad → loads → pas.any fails = false → ∃ r, exec (.vectorLoad p env) s = .next r ∧
      (r.cl p).pc = (c.pc + 4) % 2 ^ 64 ∧ met.SameBytes r ∧
      ∀ i, i < c.vl → vFunc w = 0 → c.vl * c.ew ≤ 1024 → (r.cl p).el c.ew (vD w) i = met.numAt (pas.getD i 0) c.ew) ∧
    (s.Fetches p w .vectorStore → stores → pas.all (m.reaches p env) = true →
      exec (.vectorStore p env) s = .next (v.modCl p fun d => d.vretire .lsu env.busy)) ∧
    (s.Fetches p w .vectorStore → stores → ∀ i, pas.findIdx? (fun pa => !m.reaches p env pa) = some i →
      exec (.vectorStore p env) s = .next (v.vecPoisonStop p i ((m.cl p).vea w i))) ∧
    (s.Fetches p w .vectorLoad → loads → pas.any fails = true →
      exec (.vecPoison p env) s = .next ((u false).vloadAccess p env w pas)) ∧
    (s.Fetches p w .vectorLoad → loads → pas.any fails = false → exec (.vecPoison p env) s = .next s)

/-- mma passes its check and takes its place in the main or the deferred queue, and mout, mzero and mtrans in the output unit's;
mdrain retires once nothing is unfinished (R153 to R164). -/
def Obligations.MatrixIssue : Prop :=
  ∀ (s : State) (p : Fin 576) (env : CEnv) (w : Nat) (d : OutDesc),
    let t := s.issueAt p env
    let c := t.cl p
    let P := p.val
    let xa := (c.x (fA w)).toNat
    let xb := (c.x (fB w)).toNat
    let xc := (c.x (fC w)).toNat
    let n := bitsOf w 1 0
    let queued := fun (r : Host.Outcome State Fault Refusal) (k : MatKind) (good : MatOp → Prop) =>
      ∃ u m, r = .next u ∧ t.OnlyCl u p ∧ (u.cl p).mat = c.mat ++ [m] ∧ m.kind = k ∧ m.word = w ∧ m.num = c.matNum ∧
        m.pc = c.pc ∧ (u.cl p).matNum = c.matNum + 1 ∧ (u.cl p).pc = (c.pc + 4) % 2 ^ 64 ∧
        (u.cl p).retired = c.retired + 1 ∧ (u.cl p).v = c.v ∧ (u.cl p).g = c.g ∧ good m
    (s.Fetches p w .mma → mmaCheck w xa xb xc = none → c.mmaQueued (maDefer w) < 2 →
      queued (exec (.mma p env) s) .mma fun m => m.xa = xa ∧ m.xb = xb ∧ m.xc = xc ∧ m.fpctrl = c.fpctrl) ∧
    (s.Fetches p w .mma → mmaCheck w xa xb xc = none → 2 ≤ c.mmaQueued (maDefer w) → exec (.mma p env) s = .next s) ∧
    (s.Fetches p w .mout → (moOreg w && moDual w) = false → rangeBad 64 (xb, 64) = false → c.memBusyR (xb, 64) = false →
      ((List.range 8).any fun i => t.poisonedAt (basinPA P + xb + 8 * i)) = false →
      parseOut (t.bytesAt (basinPA P + xb) 64) = some d → moutCheck w xa xb xc (some d) = none → c.outQueued < 4 →
      queued (exec (.mout p env) s) .mout fun m => m.desc = t.bytesAt (basinPA P + xb) 64 ∧ m.xa = xa ∧ m.xc = xc) ∧
    (s.Fetches p w .mzero → c.outQueued < 4 → queued (exec (.mzero p env) s) .mzero fun m => m.wrReg = [tileRegs n]) ∧
    (s.Fetches p w .mtrans → c.outQueued < 4 →
      queued (exec (.mtrans p env) s) .mtrans fun m => m.rdReg = [tileRegs n] ∧ m.wrReg = [tileRegs n]) ∧
    (s.Fetches p w .mzero → 4 ≤ c.outQueued → exec (.mzero p env) s = .next s) ∧
    (s.Fetches p w .mtrans → 4 ≤ c.outQueued → exec (.mtrans p env) s = .next s) ∧
    (s.Fetches p w .mdrain → c.mat = [] → exec (.mdrain p env) s =
      .next (t.modCl p fun d => { d with matRetired := d.matRetired + 1 }.retire)) ∧
    (s.Fetches p w .mdrain → c.mat ≠ [] → exec (.mdrain p env) s = .next s)

/-- The matrix instruction that a plane or the output unit serves takes effect and leaves its queue: the tile takes the sums, the
outputs are stored, the tile is cleared or transposed; poison that it reads stops the cluster instead, and poison that a
served instruction meets stops it at once (R155, R156, R162, R165, R166). -/
def Obligations.MatrixCompletion : Prop :=
  ∀ (s : State) (p : Fin 576) (deferred : Bool) (env : CEnv) (m : MatOp) (epc at_ : Nat), s.Sound → (s.cl p).act = .running →
    let t := s.issueAt p env
    let c := s.cl p
    let P := p.val
    let u := (t.access P env (m.touches P)).matEcc P m env.ecc
    let v := match c.matServed with
      | x :: _ => t.matEcc P x env.ecc
      | [] => s
    let stall := fun (d : Cluster) => { d with matSwitch := d.matSwitch + env.busy, fetchStall := d.fetchStall + env.stall }
    (c.matHead false deferred = some m → u.matPoisoned P m = none →
      exec (.mmaComplete p deferred env) s = .next ((u.matFinish P m).modCl P stall)) ∧
    (c.matHead false deferred = some m → u.matPoisoned P m = some at_ →
      exec (.mmaComplete p deferred env) s = .next (u.matPoisonStop P m.pc at_)) ∧
    (c.matHead true deferred = some m → u.matPoisoned P m = none →
      exec (.moutComplete p deferred env) s = .next ((u.matFinish P m).modCl P id)) ∧
    (c.matHead true deferred = some m → u.matPoisoned P m = some at_ →
      exec (.moutComplete p deferred env) s = .next (u.matPoisonStop P m.pc at_)) ∧
    ((c.matServed.findSome? fun x => (v.matPoisoned P x).map fun o => (x.pc, o)) = some (epc, at_) →
      exec (.matPoison p env) s = .next (v.matPoisonStop P epc at_)) ∧
    (∀ x : State, m ∈ (x.cl P).mat → (((x.matFinish P m).cl P).mat.any fun o => o.num == m.num) = false ∧
      (m.kind = .mzero → ∀ k, ((x.matFinish P m).cl P).vbyte k =
        if 1024 * (tileRegs m.tile).1 ≤ k ∧ k < 1024 * ((tileRegs m.tile).1 + 16) then 0 else (x.cl P).vbyte k))

/-! ### Canals and the life of a barge -/

/-- A served write of a canal's registers takes effect once the package is booted: the configuration and ENABLE, the tail that
a doorbell gives, the tally head; a doorbell beyond the ring faults the canal with cause 0x01 (R351 to R354, R359). -/
def Obligations.CanalRegisterWrites : Prop :=
  ∀ (s : State) (c : Fin 256) (v : Word) (rp : RegPath),
    let n := c.val
    let tail := v.toNat % 2 ^ 32
    let old := fun (t : State) => t.reg (Reg.canalTallyHead n)
    (s.Reaches rp (Reg.canalCtrl n) →
      exec (.canalEnable c v rp) s =
        .next ((s.wakeFor (Reg.canalCtrl n)).writeCanalCtrl n (withBits v.toNat 0 0 1) rp.view.isNone)) ∧
    (s.Reaches rp (Reg.canalCtrl n) →
      exec (.canalDisable c v rp) s =
        .next ((s.wakeFor (Reg.canalCtrl n)).writeCanalCtrl n (withBits v.toNat 0 0 0) rp.view.isNone)) ∧
    (∀ t, t = s.wakeFor (Reg.canalDoorbell n) → s.Reaches rp (Reg.canalDoorbell n) → t.booted = true →
      t.flag (Reg.canalCtrl n) F.CANAL_CTRL_ENABLE = true →
      (tail + 2 ^ 32 - t.reg (Reg.canalHead n)) % 2 ^ 32 ≤ t.canalSlots n →
      exec (.canalDoorbell c v rp) s = .next (if (t.setReg (Reg.canalTail n) tail).canalActive n
        then (t.setReg (Reg.canalTail n) tail).wakeUp else t.setReg (Reg.canalTail n) tail)) ∧
    (∀ t, t = s.wakeFor (Reg.canalDoorbell n) → s.Reaches rp (Reg.canalDoorbell n) → t.booted = true →
      t.flag (Reg.canalCtrl n) F.CANAL_CTRL_ENABLE = true →
      t.canalSlots n < (tail + 2 ^ 32 - t.reg (Reg.canalHead n)) % 2 ^ 32 →
      exec (.canalDoorbell c v rp) s = .next (t.canalFault n 0x01)) ∧
    (∀ t, t = s.wakeFor (Reg.canalTallyHead n) → s.Reaches rp (Reg.canalTallyHead n) → t.booted = true →
      (tail + 2 ^ 32 - old t) % 2 ^ 32 ≤ (t.reg (Reg.canalTallyTail n) + 2 ^ 32 - old t) % 2 ^ 32 →
      exec (.canalTallyHead c v rp) s = .next (t.setReg (Reg.canalTallyHead n) tail)) ∧
    (∀ t, t = s.wakeFor (Reg.canalTallyHead n) → s.Reaches rp (Reg.canalTallyHead n) → t.booted = true →
      (t.reg (Reg.canalTallyTail n) + 2 ^ 32 - old t) % 2 ^ 32 < (tail + 2 ^ 32 - old t) % 2 ^ 32 →
      exec (.canalTallyHead c v rp) s =
        .next (t.setFld (Reg.canalStatus n) F.CANAL_STATUS_TALLY_HEAD_BAD 1)) ∧
    (∀ t, t = s.wakeFor (Reg.canalDoorbell n) → s.Reaches rp (Reg.canalDoorbell n) → t.booted = true →
      t.flag (Reg.canalCtrl n) F.CANAL_CTRL_ENABLE = false →
      exec (.canalDoorbell c v rp) s =
        .next (t.setFld (Reg.canalStatus n) F.CANAL_STATUS_DOORBELL_IGNORED 1))

/-- A canal fault sets FAULT and its cause, and leaves every barge of the package accepted (R354). -/
def Obligations.CanalFaultKeepsBarges : Prop :=
  ∀ (s : State) (c : Fin 256) (cause : Nat), cause < 256 →
    let t := s.canalFault c.val cause
    t.flag (Reg.canalStatus c.val) F.CANAL_STATUS_FAULT = true ∧
      t.fld (Reg.canalStatus c.val) F.CANAL_STATUS_FAULT_CAUSE = cause ∧
      t.barges.map (fun b => (b.canal, b.seq)) = s.barges.map fun b => (b.canal, b.seq)

/-- An active canal with a barge to fetch and a free tally slot accepts it from its ring, in host memory or in device memory; the
end of a batch's wait closes the batch; a waiting barge starts once it is in order, its checks pass, its resources are free
and the weir admits it, or a PART_DESTROY with FORCE asks nothing of it (R359 to R361, R385, R477). -/
def Obligations.BargesAreAcceptedAndStart : Prop :=
  (∀ (s : State) (c : Fin 256) (ring : List Byte) (p pa : Nat),
    let n := c.val
    let at_ := fun (size : Nat) => s.ringSlot n (s.reg (Reg.canalRing n)) size (s.reg (Reg.canalHead n))
    let host := s.fld (Reg.canalCtrl n) F.CANAL_CTRL_RING_LOC ≠ 2 ∧ s.canMaster n (s.canalPort n) = true
    let device := fun (size : Nat) => s.fld (Reg.canalCtrl n) F.CANAL_CTRL_RING_LOC = 2 ∧ s.canalPart n = some p ∧
      s.execTranslate p false 1 (at_ size) = .ok pa ∧ s.poisonIn pa size = none
    let join := fun (k : List Byte) =>
      let b := s.e4Join n (bitOf (k.getD 1 0).toNat 0)
      let b := if s.fld (Reg.canalE4Ctrl n) F.CANAL_E4_CTRL_BATCH_WAIT == 0 then { b with openB := false } else b
      (({ s with e4 := spSet (fun _ => ({} : E4Batch)) n b s.e4 }).acceptBarge n (s.e4Translate n k) k b.num).wakeUp
    (s.Sound → s.mayFetch n false = true → host →
      exec (.bargeAccept c ring) s = .next ((s.acceptBarge n (sliceB ring 0 128) [] 0).wakeUp)) ∧
    (s.Sound → s.mayFetch n false = true → device 128 →
      exec (.bargeAccept c ring) s = .next ((s.acceptBarge n (s.bytesAt pa 128) [] 0).wakeUp)) ∧
    (s.Sound → s.mayFetch n true = true → host → exec (.e4Packet c ring) s = .next (join (sliceB ring 0 64))) ∧
    (s.Sound → s.mayFetch n true = true → device 64 → exec (.e4Packet c ring) s = .next (join (s.bytesAt pa 64))) ∧
    (s.Sound → exec (.e4BatchWait c) s = .next { s with
      e4 := spSet (fun _ => ({} : E4Batch)) n { spGet (fun _ => ({} : E4Batch)) s.e4 n with openB := false } s.e4 })) ∧
  (∀ (s : State) (c : Fin 256) (q : Nat) (b : Barge), s.Sound → s.barge? c.val q = some b → s.ready b = true →
    (b.native = 0x800 ∨ b.native = 0x801 ∨ (b.actsFor.all fun p => s.live p) = true) →
    (b.native = 0x201 ∨ b.native = 0x202 → Passes (s.cargoChecks b)) → (s.admits b = true ∨ b.forced = true) →
    (b.deadline = 0 ∨ s.now < b.deadline) → exec (.bargeStart c q) s = .next (s.startBarge b))

/-- The deadline of a barge that waits completes it with DEADLINE_MISSED, and an attempt to start it after its deadline does the
same (R366). -/
def Obligations.DeadlineOfAWaitingBarge : Prop :=
  ∀ (s : State) (c : Fin 256) (q : Nat) (b : Barge), s.Sound → s.barge? c.val q = some b → b.phase = .waiting →
    b.work = .none → b.deadline ≠ 0 → b.deadline ≤ s.now →
    exec (.bargeDeadline c q) s = .next ((s.logStop b 0x03 none).finish b.canal b.seq St.deadlineMissed 0 0) ∧
    exec (.bargeStart c q) s = .next ((s.logStop b 0x03 none).finish b.canal b.seq St.deadlineMissed 0 0)

/-- A barge whose work has all completed is never stopped by its deadline, whether its writes are yet to become visible or its
tally to be written (R368). -/
def Obligations.EndedBargeKeepsItsStatus : Prop :=
  ∀ (s : State) (c : Fin 256) (q : Nat) (b : Barge) (st r0 r1 : Nat), s.Sound → s.barge? c.val q = some b →
    b.phase = .ended st r0 r1 → exec (.bargeDeadline c q) s = .next s

/-- A barge whose work has ended is completed, outside a takeover, with the status and result words that its work left, after the
add to FLAG_ADDR of a collective; what that decides for other barges follows (R364, R369, R371, R536). -/
def Obligations.BargesComplete : Prop :=
  ∀ (s : State) (c : Fin 256) (q : Nat) (b : Barge) (st r0 r1 : Nat) (fail : Bool) (ecc : Ecc) (x : Contest), s.Sound →
    s.takingOver = false → s.barge? c.val q = some b → b.phase = .ended st r0 r1 →
    (b.native < 0x510 ∨ 0x513 < b.native →
      exec (.bargeCompletion c q fail ecc x) s =
        .next (((s.complete1 b fail st r0 r1).settle s.barges.length).heldLaunches)) ∧
    (∀ t, t = (s.collFlag b st ecc x).collBreaks b st → exec (.bargeCompletion c q fail ecc x) s = .next
      (((t.complete1 ((t.barge? b.canal b.seq).getD b) fail st r0 r1).settle t.barges.length).heldLaunches))

/-! ### Barges of every partition -/

/-- NOP and FENCE complete with DONE; SIGNAL stores VALUE, or adds it and reports the old value, at an address that can be written;
WAIT completes with DONE and the value read once its condition holds, at its first read, at a change of a watched word or at
a poll of an unwatched one (R362, R392 to R394). -/
def Obligations.NopFenceSignalAndWait : Prop :=
  (∀ (s : State) (c : Fin 256) (q : Nat) (b : Barge) (pa : Nat) (ecc : Ecc) (x : Contest),
    let own := (s.rouse [pa]).usePas (some (b.canal, b.seq)) [pa]
    let asked := own.execContest b [⟨pa, 8, true⟩] x
    let u := asked.meetEcc ecc pa
    let shape := b.reservedZero [(127, 49)] = true ∧ s.execTranslate b.part true 8 (b.f 39 32) = .ok pa
    (s.Begun c q b 0x000 → b.reservedZero [(127, 32)] = true →
      exec (.nop c q) s = .next (s.finish b.canal b.seq St.done 0 0)) ∧
    (s.Begun c q b 0x001 → b.reservedZero [(127, 32)] = true →
      exec (.fence c q) s = .next (s.finish b.canal b.seq St.done 0 0)) ∧
    (s.Begun c q b 0x002 → shape → b.f 48 48 = 0 →
      exec (.signalStore c q x) s =
        .next (((asked.meetAll x.errs).store8 pa (b.f 47 40)).finish b.canal b.seq St.done 0 0)) ∧
    (s.Begun c q b 0x002 → shape → b.f 48 48 = 1 → u.poisonedAt pa = false →
      exec (.signalAdd c q ecc x) s = .next
        ((u.store8 pa ((u.numAt pa 8 + b.f 47 40) % 2 ^ 64)).finish b.canal b.seq St.done (u.numAt pa 8) 0))) ∧
  (∀ (s : State) (c : Fin 256) (q : Nat) (b : Barge) (pa : Nat) (w : WaitWork) (ecc : Ecc) (x : Contest),
    let first := (s.rouse [pa]).usePas (some (b.canal, b.seq)) [pa]
    let u := fun (t : State) (a : Nat) => (t.execContest b [⟨a, 8, false⟩] x).meetEcc ecc a
    let holds := fun (t : State) (a : Nat) => (u t a).poisonedAt a = false ∧
      condHolds (b.f 48 48 % 8) (BitVec.ofNat 64 ((u t a).numAt a 8)) (BitVec.ofNat 64 (b.f 47 40)) = true
    let done := fun (t : State) (a : Nat) => (u t a).finish b.canal b.seq St.done ((u t a).numAt a 8) 0
    (s.Begun c q b 0x003 → b.reservedZero [(127, 49)] = true → b.f 48 48 < 8 →
      s.execTranslate b.part false 8 (b.f 39 32) = .ok pa → holds first pa →
      exec (.wait c q ecc x) s = .next (done first pa)) ∧
    (s.Sound → s.barge? c.val q = some b → b.work = .wait w → w.watched = true → holds s w.pa →
      exec (.waitConditionMet c q ecc x) s = .next (done s w.pa)) ∧
    (s.Sound → s.barge? c.val q = some b → b.work = .wait w → w.watched = false → holds s w.pa →
      exec (.waitPoll c q ecc x) s = .next (done s w.pa)))

/-- LOG_QUERY writes the entries that its filter selects and reports where it stopped, and ERR_QUERY writes error records
likewise; CANAL_DRAIN acts on every earlier barge of its target and waits for them; CARGO_ABORT stops a running cargo, leaves
one that a trap has stopped to its own outcome, cancels one that waits, refuses another target, and completes at once where its
target has completed (R107, R367, R369, R396, R415, R430 to R432, R419). -/
def Obligations.QueriesDrainAndAbort : Prop :=
  (∀ (s : State) (c : Fin 256) (q : Nat) (b : Barge) (x : Contest),
    let cp := s.canalPart b.canal
    let bp := b.f 54 54
    let filt := bitOf (b.f 53 53) 0
    let lf := s.bufferFault bp (b.f 47 40) (b.f 51 48 * 256) 256
    let sel := fun (e : LogEntry) => bitOf (b.f 57 56) e.kind && (!filt || e.canal == b.f 52 52) &&
      match cp with
      | some p => e.seenBy p
      | none => true
    let found := queryLog sel (s.log.entries.filter fun e =>
      decide (max (b.f 39 32) s.logOldest ≤ e.number ∧ e.number ≤ b.startNo)) (b.f 51 48) (max (b.f 39 32) s.logOldest) []
    let ef := s.bufferFault b.part (b.f 39 32) (64 * b.f 43 40) 128
    let recs := (s.errs.recs.filter fun r => decide (b.f 55 48 ≤ r.number) &&
      (b.f 44 44 == 1 || r.part == some b.part)).take (b.f 43 40)
    let own := some (b.canal, b.seq)
    let logs := s.contest { b.asExec with part := some bp } (s.touches bp (b.f 47 40) (256 * b.f 51 48) true) x
    let t := logs.useRange own s.maps bp (b.f 47 40) (256 * b.f 51 48)
    let errs := s.execContest b (s.touches b.part (b.f 39 32) (64 * b.f 43 40) true) x
    let u := errs.useRange own s.maps b.part (b.f 39 32) (64 * b.f 43 40)
    (s.Begun c q b 0x004 → Passes [
        (!b.reservedZero [(127, 58), (55, 55)] || decide (2 ≤ b.f 53 53) || b.f 57 56 == 0 || decide (2 ^ 12 ≤ b.f 57 56) ||
          b.f 51 48 == 0 || decide (65536 < b.f 51 48) || decide (8 ≤ bp) || (!filt && b.f 52 52 != 0), St.malformed, 0),
        (cp.any fun p => bp != p || (filt && (s.canalPart (b.f 52 52)).any (· != p)), St.notPermitted, 0),
        (s.partSt bp == 0, 0x0010, b.f 47 40), (lf.isSome, 0x0010, lf.getD 0)] →
      exec (.logQuery c q x) s = .next ((t.storeLocal t.maps bp (b.f 47 40) (found.1.flatMap LogEntry.bytes)).finish b.canal
        b.seq St.done found.2 found.1.length)) ∧
    (s.Begun c q b 0x902 → Passes [(!b.reservedZero [(47, 45), (127, 56)], St.malformed, 0),
        (b.f 44 44 == 1 && !cp.isNone, St.notPermitted, 0),
        (decide (2 ≤ b.f 44 44 ∨ b.f 43 40 = 0 ∨ 65536 < b.f 43 40), St.malformed, 0), (ef.isSome, 0x0912, ef.getD 0)] →
      exec (.errQuery c q x) s = .next ((u.storeLocal s.maps b.part (b.f 39 32) (recs.flatMap ErrRec.bytes)).finish b.canal
        b.seq St.done (((recs.getLast?).map (·.number + 1)).getD (b.f 55 48)) recs.length))) ∧
  (∀ (s : State) (c : Fin 256) (q : Nat) (b : Barge) (x : Barge),
    let k := b.f 32 32
    let old := (s.canalBarges k).filter fun y => decide (y.acc < b.acc)
    let set := old.map fun y => (y.canal, y.seq)
    let asked := (old.filter fun y => y.executing && y.native / 256 == 3 && y.stopBy == 0).map fun y => (y.canal, y.seq)
    let cp := s.canalPart b.canal
    let tok := b.f 35 32
    let d := tokenOf tok (((b.headAt.find? fun y => y.1 == tok / 2 ^ 24).map (·.2)).getD (s.reg (Reg.canalHead (tok / 2 ^ 24))))
    let target := s.barge? d.canal d.seq
    let cargo := x.native = 0x201 ∨ x.native = 0x202
    let ok := Passes [(!b.reservedZero [(127, 36)], St.malformed, 0),
      (cp.isSome && s.canalPart (tok / 2 ^ 24) != cp, St.notPermitted, 0)]
    let u := s.working b.canal b.seq fun e => { e with work := .abort x.canal x.seq }
    (s.Begun c q b 0x005 → Passes [(!b.reservedZero [(127, 33)], St.malformed, 0),
        (cp.isSome && s.canalPart k != cp, St.notPermitted, 0)] → old.any s.runPaused = false →
      ∀ n t, s.drainAll (b.canal, b.seq) set = (n, t) →
        exec (.canalDrain c q) s = .next ((t.working b.canal b.seq fun e => { e with work := .drain set n asked }).settle
          (t.working b.canal b.seq fun e => { e with work := .drain set n asked }).barges.length)) ∧
    (s.Begun c q b 0x203 → ok → target = none →
      exec (.cargoAbort c q) s = .next (s.finish b.canal b.seq St.done 0 0)) ∧
    (s.Begun c q b 0x203 → ok → target = some x → ¬ cargo →
      exec (.cargoAbort c q) s = .next (s.finish b.canal b.seq 0x0219 0 0)) ∧
    (s.Begun c q b 0x203 → ok → target = some x → cargo → s.runPaused x = false → x.phase = .waiting →
      exec (.cargoAbort c q) s = .next ((u.logStop x 0x02 (some (b.canal, b.seq))).finish x.canal x.seq St.cancelled 0 0)) ∧
    (s.Begun c q b 0x203 → ok → target = some x → cargo → s.runPaused x = false → x.phase = .working → x.fault? = none →
      exec (.cargoAbort c q) s = .next ((u.logStop x 0x02 (some (b.canal, b.seq))).stopCargo x St.cancelled)) ∧
    (s.Begun c q b 0x203 → ok → target = some x → cargo → s.runPaused x = false → x.phase = .working → x.fault? ≠ none →
      exec (.cargoAbort c q) s = .next (u.endFault x.canal x.seq)))

/-- The memory barges write their whole destination and complete with DONE, or with the status that says how many poisoned
sectors they copied or lines they found changed (R397 to R401). -/
def Obligations.MemoryBarges : Prop :=
  ∀ (s : State) (c : Fin 256) (q k : Nat) (b : Barge) (errs : List (Nat × Ecc)) (x : Contest),
    let dst := b.f 39 32
    let len := b.f 47 40
    let t := (s.execContest b (s.touches b.part dst len true) x).meetAll x.errs
    let scrubbed := (t.storeLocal t.maps b.part dst (List.replicate len 0)).meetAll errs
    let bad := (List.range (len / 128)).filter fun i =>
      let pa := scrubbed.paOf scrubbed.maps b.part (dst + 128 * i)
      (scrubbed.poisonIn pa 128).isSome || (scrubbed.bytesAt pa 128).any (· != 0)
    let copied := ((s.execContest b (s.touches b.part len (b.f 55 48) false ++ s.touches b.part dst (b.f 55 48) true) x).meetAll
      errs).copyRange b.part dst len (b.f 55 48)
    (s.Begun c q b 0x100 → Passes (s.memChecks b) → b.stopBy = 0 →
      exec (.memCopy c q k errs x) s = .next (copied.2.endBarge b.canal b.seq (if copied.1 = 0 then St.done else 0x0116)
        (b.f 55 48) copied.1)) ∧
    (s.Begun c q b 0x101 → Passes (s.memChecks b) → b.stopBy = 0 →
      exec (.memFill c q k x) s = .next ((t.storeLocal t.maps b.part dst
        ((List.range len).map fun i => (bytesLE 8 (b.f 55 48)).getD (i % 8) 0)).endBarge b.canal b.seq St.done len 0)) ∧
    (s.Begun c q b 0x102 → Passes (s.memChecks b) → b.stopBy = 0 →
      exec (.memScrub c q k errs x) s = .next (scrubbed.endBarge b.canal b.seq (if bad.isEmpty then St.done else 0x0117) len
        bad.length))

/-- MAP_SET adds its records to the partition's map, MAP_CLEAR removes those inside its range and waits until no access uses
their pages, and then completes with how many it removed (R282, R403 to R406). -/
def Obligations.MapBarges : Prop :=
  ∀ (s : State) (c : Fin 256) (q : Nat) (b : Barge) (x : Contest) (recs : List (Nat × MapRec)) (n : Nat),
    let p := b.part
    let first := s.startedBefore b [0x103, 0x104] (fun _ => true) = false
    let m := b.f 35 32
    let src := b.f 36 36
    let lf := s.listFault b
    let t := if src = 1 then (s.execContest b (s.touches p (b.f 47 40) (16 * m) false) x).meetAll x.errs else s
    let raw := t.mapRecs b
    let new := raw.map (recOf p)
    let held := (t.maps.filter fun r => r.part == p).length
    let base := b.f 39 32
    let len := b.f 47 40
    let mine := s.maps.filter fun r => r.part == p
    let gone := mine.filter fun r => recInside r base len
    let cleared := { (s.setMaps p (s.maps.filter fun r => !(r.part == p && recInside r base len))) with
      unmapped := s.unmapped ++ gone.map fun r => (b.startNo, r) }
    (s.Begun c q b 0x103 → first → b.reservedZero [(39, 37)] = true → m ≠ 0 →
      (src = 0 ∧ m ≤ 5 ∧ zeroB b.bytes 47 40 = true ∧ zeroB b.bytes 127 (48 + 16 * m) = true ∨
        src = 1 ∧ m ≤ 65536 ∧ zeroB b.bytes 127 48 = true) → lf = none → t.listFault b = none →
      (∀ r ∈ raw, recReserved r = true) → (∀ r ∈ new, recValid r = true) →
      (firstIdx (fun i r => (t.maps.any fun y => y.part == p && recsMeetVA y r) ||
        (new.take i).any fun y => recsMeetVA y r) new) = none →
      (∀ r ∈ new, ∀ y ∈ t.maps, y.part ≠ p → recsMeetPA y r = false) → held + new.length ≤ 1048576 →
      exec (.mapSet c q x) s = .next ((t.setMaps p (t.maps ++ new)).finish b.canal b.seq St.done m 0)) ∧
    (s.Begun c q b 0x104 → first → b.reservedZero [(127, 48)] = true → base % 65536 = 0 → len % 65536 = 0 → len ≠ 0 → 2 ^ 32 ≤ base →
      base + len ≤ 2 ^ 48 →
      (mine.any fun r => spansMeet r.va (pageBytes r.size) base len && !recInside r base len) = false → gone ≠ [] →
      exec (.mapClear c q) s = .next (cleared.working b.canal b.seq fun d => { d with
        work := .unmap (cleared.unmapped.filter fun r => r.2.part == p && recInside r.2 base len) gone.length })) ∧
    (s.Sound → s.barge? c.val q = some b → b.work = .unmap recs n → recs.any s.pageInUse = false →
      exec (.mapClearComplete c q) s = .next
        (({ s with unmapped := s.unmapped.filter fun r => !recs.contains r }).finish b.canal b.seq St.done n 0))

/-- CARGO_LOAD stores a valid image in the lowest free slot and reports its handle; CARGO_RUN places a cargo and starts its
clusters; CARGO_ARM places it behind its gate, which a change of the word or a poll releases; CARGO_FREE raises the slot's
generation (R377 to R381, R407 to R416). -/
def Obligations.CargoBarges : Prop :=
  ∀ (s : State) (c : Fin 256) (q : Nat) (b : Barge) (errs : List (Nat × Ecc)) (x : Contest) (ecc : Ecc) (slot : CargoSlot)
    (pa : Nat) (w : RunWork) (g : Gate),
    let p := b.part
    let base := b.f 39 32
    let n := b.f 47 40
    let asked := s.execContest b (s.touches p base n false) x
    let t := (asked.useRange (some (b.canal, b.seq)) asked.maps p base n).meetAll errs
    let img := t.localBytes t.maps p base n
    let k := (t.freeSlot p).getD 0
    let h := b.f 35 32
    let gate := fun (watched : Bool) =>
      (⟨b.f 55 48, pa, b.f 39 36 % 8, BitVec.ofNat 64 (b.f 63 56), watched, false, false⟩ : Gate)
    let opens := s.Sound ∧ s.barge? c.val q = some b ∧ b.work = .run w ∧ w.gate = some g ∧ g.released = false ∧
      g.tripped = false ∧ (s.meetEcc ecc g.pa).poisonedAt g.pa = false ∧
      condHolds g.cond (BitVec.ofNat 64 ((s.meetEcc ecc g.pa).numAt g.pa 8)) g.ref = true
    (s.Begun c q b 0x200 → s.startedBefore b [0x200] (fun y => y.part == p) = false → b.reservedZero [(127, 48)] = true →
      base % 128 = 0 → 2 ^ 32 ≤ base → n % 128 = 0 → n ≠ 0 →
      n ≤ 8 * 2 ^ 20 → s.rangeFault s.maps p false base n = none → t.localPoison t.maps p base n = none →
      imageFault img n = none →
      (match passBytes img with
        | some y => passBad y
        | none => usesDefer img) = false → t.tied p img = none → (t.freeSlot p).isSome = true →
      t.storeUsed p + n ≤ 64 * 2 ^ 20 →
      exec (.cargoLoad c q errs x) s = .next ((t.setCargoSlot ⟨p, k, (t.cargoSlot p k).gen, true, img, t.mapVersion p⟩).finish
        b.canal b.seq St.done (k + (t.cargoSlot p k).gen * 256) 0)) ∧
    (s.Begun c q b 0x201 → Passes (s.cargoChecks b) → s.cargoOf p h = some slot →
      exec (.cargoRun c q) s = .next ((s.placeCargo b slot .running none).finishRun b.canal b.seq)) ∧
    (s.Begun c q b 0x202 → Passes (s.cargoChecks b) → s.cargoOf p h = some slot →
      s.execTranslate p true 8 (b.f 55 48) = .ok pa →
      exec (.cargoArm c q ecc) s = .next
        (((s.takeWatch pa (.barge b.canal b.seq)).2.placeCargo b slot .armed
          (some (gate (s.takeWatch pa (.barge b.canal b.seq)).1))).readGate b.canal b.seq ecc)) ∧
    (opens → exec (.lockGateRelease c q ecc) s = .next ((s.meetEcc ecc g.pa).release b w g)) ∧
    (opens → g.watched = false → exec (.lockGatePoll c q ecc) s = .next ((s.meetEcc ecc g.pa).release b w g)) ∧
    (s.Begun c q b 0x204 → b.reservedZero [(127, 36)] = true → (s.cargoOf p h).isSome = true → s.cargoNamed b h = false →
      exec (.cargoFree c q) s = .next
        ((s.setCargoSlot ⟨p, h % 256, (h / 256 + 1) % 2 ^ 24, false, [], 0⟩).finish b.canal b.seq St.done 0 0))

/-- A solver barge whose checks pass clears the flush flags of its clusters, marks what its ranges use and solves its problems;
the first check that fails of checks 1 to 3, then of its form, is its status; one resumed from a token consumes the token and
goes on with the barge that the token names, under that barge's own fields (R209 to R213, R219 to R240, R265 to R269). -/
def Obligations.SolverBarges : Prop :=
  ∀ (s : State) (c : Fin 256) (q : Nat) (b : Barge) (e : SolveEnv) (st r0 : Nat),
    let t := s.meetAll e.errs
    let j := solveJob b
    let u := t.solveBegin j (t.solveRanges j)
    let at_ := b.f 55 48
    let tok := t.lread b.part at_ 128
    let r := resumeJob b tok (spGet (fun _ => 0) t.chains (fieldB tok 31 24))
    let v := t.solveBegin r (⟨at_, 128, true, 128⟩ :: t.solveRanges r)
    let pass := s.solveChecks b j = none ∧ t.solveForm j = none
    let first := (s.barges.any fun x => x.native == 0x303 && x.part == b.part && decide (x.acc < b.acc) && x.f 55 48 == at_ &&
        (x.phase == .waiting || x.phase == .started)) = false
    (s.Begun c q b 0x300 → pass → exec (.solveBatch c q e) s = .next ((u.batchForm j).run j e true u)) ∧
    (s.Begun c q b 0x301 → pass → exec (.solveSched c q e) s = .next (u.schedRun j e)) ∧
    (s.Begun c q b 0x302 → pass → exec (.solveIter c q e) s = .next (u.iterRun j e)) ∧
    (s.Begun c q b 0x304 → pass → exec (.assemble c q e) s = .next (u.asmRun j e)) ∧
    (s.Begun c q b 0x305 → pass → exec (.qpBatch c q e) s = .next ((u.qpForm j).run j e false u)) ∧
    (∀ x ∈ [(0x300, Instr.solveBatch c q e), (0x301, .solveSched c q e), (0x302, .solveIter c q e), (0x304, .assemble c q e),
        (0x305, .qpBatch c q e)], s.Begun c q b x.1 →
      (s.solveChecks b j = some (st, r0) → exec x.2 s = .next (s.finish b.canal b.seq st r0 0)) ∧
      (s.solveChecks b j = none → t.solveForm j = some (st, r0) → exec x.2 s = .next (t.finish b.canal b.seq st r0 0))) ∧
    (s.Begun c q b 0x303 → first → b.reservedZero [(111, 56), (47, 47), (119, 112)] = true → s.solveMask j = none →
      t.devFault b.part ⟨at_, 128, true, 128⟩ = none → t.tokenOk b.part tok = true →
      t.solveBad b.part r.reaches at_ 128 = false → fieldB tok 13 13 = 1 → t.resumeSched r = true → t.solveForm r = none →
      exec (.solveResume c q e) s = .next ((v.solveStore b.part r.reaches (at_ + 13) [2]).solveRun r e)) ∧
    (s.Begun c q b 0x303 → first → b.reservedZero [(111, 56), (47, 47), (119, 112)] = true → s.solveMask j = none →
      t.resumeChecks b r tok = some (st, r0) →
      exec (.solveResume c q e) s = .next (t.finish b.canal b.seq st r0 0))

/-- A near-memory operation whose engines have no earlier one to run reads, computes and writes what its descriptor says, whether
a cluster posted it or a barge carries it; a barge's first row makes its checks and hands the operation to its engines. The
report of an operation that has run stores the STATUS field, adds to its flag word, and leaves the list (R306 to R334). -/
def Obligations.NearMemory : Prop :=
  ∀ (s : State) (c : Fin 256) (q n op native : Nat) (row : NmWho → List (Nat × Ecc) → Contest → Instr) (b : Barge)
    (d : NmDesc) (o : NmOp) (errs : List (Nat × Ecc)) (x : Contest) (ecc : Ecc),
    (op, native, row) ∈ [(Nm.axpby, 0x400, Instr.axpby), (Nm.mul, 0x400, .mul), (Nm.reduce, 0x400, .reduce),
      (Nm.scan, 0x400, .scan), (Nm.gather, 0x400, .gather), (Nm.scatter, 0x400, .scatter),
      (Nm.scatterAdd, 0x400, .scatterAdd), (Nm.narrow, 0x401, .bridgeNarrow), (Nm.widen, 0x402, .bridgeWiden),
      (Nm.dual, 0x403, .dualOrderWrite), (Nm.dirtyArm, 0x400, .dirtyArm), (Nm.dirtyCollect, 0x400, .dirtyCollect),
      (Nm.dirtyDisarm, 0x400, .dirtyDisarm), (Nm.hash, 0x400, .hash)] →
    (s.Sound → s.nmOp? n = some o → fieldB o.desc 1 0 = op → s.nmBlocked o = false →
      exec (row (.op n) errs x) s = .next (((s.nmContest o (s.nmEnv o).touches x).meetAll errs).nmRun o)) ∧
    (s.Sound → s.barge? c.val q = some b → b.work = .near n → s.nmOp? n = some o → fieldB o.desc 1 0 = op →
      s.nmBlocked o = false →
      exec (row (.barge c q) errs x) s = .next (((s.nmContest o (s.nmEnv o).touches x).meetAll errs).nmRun o)) ∧
    (s.Sound → s.nmOp? n = some o → s.nmBlocked o = true → exec (row (.op n) errs x) s = .next s) ∧
    (s.Begun c q b native → b.work = .none → Passes (s.nmChecks b) → s.nmWell b.part b.nmDesc = some d → d.op = op →
      exec (row (.barge c q) errs x) s = .next (s.nmBegin b d)) ∧
    (s.Sound → (s.nmOps.find? fun y => y.num == n && y.done) = some o →
      let t := s.nmContest o ((o.status.toList ++ o.flag.toList).map fun pa => ⟨pa, 8, true⟩) x
      let t := match o.status with
        | some pa => t.storeFrom (o.lead / 64) pa (bytesLE 8 o.statusWord)
        | none => t
      let t := match o.flag with
        | some pa => t.flagAdd (o.lead / 64) pa ecc
        | none => t
      exec (.nmOpComplete n ecc x) s = .next (({ t with nmOps := t.nmOps.filter fun y => y.num != n }).nmReport o))

/-! ### The fabric's barges -/

/-- LANDING_SET takes the lowest free index and reports it; LANDING_REVOKE removes the partition's entries that it names, and
reports how many (R519, R520). -/
def Obligations.LandingBarges : Prop :=
  ∀ (s : State) (c : Fin 256) (q i : Nat) (b : Barge),
    let mine := fun (sel : Landing → Bool) => s.fabric.landing.filter fun e => e.part == b.part && sel e
    let left := fun (sel : Landing → Bool) =>
      s.modFab fun f => { f with landing := f.landing.filter fun e => !(e.part == b.part && sel e) }
    let gone := fun (sel : Landing → Bool) => (left sel).finish b.canal b.seq St.done (mine sel).length 0
    let byIndex := fun (e : Landing) => e.index == b.f 37 36
    let byTag := fun (e : Landing) => e.job == b.f 43 40
    let byJob := fun (e : Landing) => jobId e.job == jobId (b.f 43 40)
    let shape := b.reservedZero [(127, 44), (39, 38), (35, 33)] = true
    let clash := s.fabric.landing.find? fun e => e.job == b.f 55 52 && windowsMeet e.wbase e.wlen (b.f 39 32) (b.f 51 48)
    let free := (List.range 4096).find? fun i => s.fabric.landing.all fun e => e.index != i
    let checks := [(!b.reservedZero [(127, 61)] || decide (8 ≤ b.f 60 60), St.malformed, 0),
      (b.landingField.isSome, 0x0530, b.landingField.getD 0), ((s.landingFault b).isSome, 0x0530, (s.landingFault b).getD 0),
      (clash.isSome, 0x0531, (clash.map (·.index)).getD 0), (free.isNone, St.noResource, 0)]
    (∀ st r0, s.Begun c q b 0x500 → firstFail checks = some (st, r0) →
      exec (.landingSet c q) s = .next (s.finish b.canal b.seq st r0 0)) ∧
    (s.Begun c q b 0x500 → Passes checks → free = some i →
      exec (.landingSet c q) s = .next ((s.modFab fun f => { f with landing := f.landing ++ [b.landing i] }).finish b.canal
        b.seq St.done i 0)) ∧
    (s.Begun c q b 0x501 → shape → b.f 32 32 = 0 → mine byIndex ≠ [] →
      exec (.landingRevokeIndex c q) s = .next (gone byIndex)) ∧
    (s.Begun c q b 0x501 → shape → b.f 32 32 = 1 → exec (.landingRevokeJob c q) s = .next (gone byTag)) ∧
    (s.Begun c q b 0x501 → shape → b.f 32 32 = 2 → exec (.landingRevokeJobId c q) s = .next (gone byJob))

/-- COMM_FORM fills the lowest free slot from its member list; COMM_SHRINK drops the members that its bit table names, or releases
the slot; a collective whose checks pass takes the next number of its slot, copies its own part, tells its peers that it is
ready, and goes on as far as what it has heard allows; a peer that is silent for STALL_MS fails it (R529 to R547). -/
def Obligations.CommunicatorsAndCollectives : Prop :=
  (∀ (s : State) (c : Fin 256) (q k : Nat) (b : Barge) (errs : List (Nat × Ecc)) (sl : CommSlot),
    let p := b.part
    let t := s.meetAll errs
    let size := b.f 39 36
    let rank := b.f 41 40
    let scr := b.f 63 56
    let tag := (s.jobTag p).getD 0
    let members := t.localNums p (b.f 55 48) 2 size
    let drop := b.f 55 48
    let n := sl.members.length
    let gone := fun r => bitOf (numLE (t.localBytes t.maps p (drop + r / 8) 1)) (r % 8)
    let r0 := t.slotRank k
    let kept := (List.range n).filter fun r => !gone r
    let new := kept.map fun r => sl.members.getD r 0
    let r1 := (kept.findIdx? (· == r0)).getD 0
    (s.Begun c q b 0x518 → b.reservedZero [(127, 64), (43, 43)] = true → (s.jobTag p).isSome = true → b.commField = none →
      t.readFault p (b.f 55 48) (2 * size) = none → (t.windowEntry p tag scr 65536).isSome = true →
      members.getD rank 0 = t.nodeId → members.eraseDups.length = size → t.findSlot p (b.f 35 32) = none →
      ((List.range 64).find? fun i => t.slotState i == 0) = some k →
      exec (.commForm c q errs) s = .next (((t.setSlot k
        { job := tag, members := members, stall := b.f 47 44, scr := scr, digest := memberDigest members }).showSlot k p
          (b.f 35 32) rank size (b.f 42 42)).finish b.canal b.seq St.done k 0)) ∧
    (s.Begun c q b 0x519 → b.reservedZero [(127, 56), (47, 41)] = true → b.f 40 40 = 1 → b.f 39 36 = 0 → drop = 0 →
      s.findSlot p (b.f 35 32) = some k →
      exec (.commShrink c q errs) s = .next ((s.freeSlot' k).finish b.canal b.seq St.done 0 0)) ∧
    (s.Begun c q b 0x519 → b.reservedZero [(127, 56), (47, 41)] = true → b.f 40 40 = 0 → b.f 39 36 ≠ 0 →
      s.findSlot p (b.f 35 32) = some k → s.slot? k = some sl → drop % 128 = 0 →
      t.readFault p drop (ceilDiv n 1024 * 128) = none → gone r0 = false →
      (∀ j, t.findSlot p (b.f 39 36) = some j → j = k) →
      exec (.commShrink c q errs) s = .next (((t.setSlot k
        { job := t.reg (Reg.fabricJob p) % 2 ^ 32, members := new, stall := sl.stall, scr := sl.scr
          digest := memberDigest new }).showSlot k p (b.f 39 36) r1 kept.length (t.slotRadix k)).finish b.canal b.seq
            St.done (r1 + kept.length * 2 ^ 16) 0))) ∧
  (∀ (s : State) (c : Fin 256) (q op k : Nat) (row : Fin 256 → Nat → List (Nat × Ecc) → Contest → Instr) (b : Barge)
    (sl : CommSlot) (errs : List (Nat × Ecc)) (x : Contest) (v : CollEnv) (u : State) (k' : Fin 64) (j : Nat),
    (op, row) ∈ [(0x510, Instr.collAlltoall), (0x511, .collAlltoallv), (0x512, .collAllreduceSmall), (0x513, .collBcast)] →
    let p := b.part
    let n := sl.members.length
    let me := s.slotRank k
    let t := ((s.execContest b (s.collTouches b sl n me) x).meetAll errs).collUse b sl n me
    let num := t.fld (Reg.commId k) F.COMM_ID_COLL_SEQ
    let sig := sigOf b num sl.job n (t.slotRadix k) sl.digest
    let es := dtypeBytes (b.f 37 37)
    let acc := if b.isReduce then (t.localNums p b.send es b.size).map (canonOf (b.f 37 37)) else []
    let bad := if b.isReduce then (List.range (b.partBytes / 128)).filter fun l =>
      t.anyPoison p (b.send + 128 * l) (min 128 (alignUp (b.size * es - 128 * l) 8)) else []
    let r : CollRun := { canal := c, seq := q, op := op, num := num, sig := sig, sendT := t.sendTab b n, recvT := t.recvTab b n
                         acc := acc, accBad := bad, poison := !bad.isEmpty, from_ := t.now }
    let w := (((t.setSlot k { sl with run := some r, early := none }).setSlotState k 2).setFld (Reg.commId k)
      F.COMM_ID_COLL_SEQ (num + 1)).working b.canal b.seq id
    (s.Begun c q b op → b.reservedZero [(127, 96), (87, 82), (39, 39)] = true → b.f 36 36 < 4 → b.collUnused = true →
      s.findSlot p (b.f 35 32) = some k → s.slotState k ≠ 3 → s.slot? k = some sl →
      b.collField n me = none → s.tabFault b n = none → s.collFault b sl me = none → sl.early = none →
      w.collEnv k = some v → w.selfCopy v = some u →
      exec (row c q errs x) s = .next ((v.peers.foldl (fun a j =>
        a.sendColl k (b.f 35 32) (a.jobOf p) sl j 0x801 sl.scr sig false []) u.throttleColls).collGo k collFuel)) ∧
    (s.Sound → s.collEnv k'.val = some v → v.waitsOn j = true →
      max v.r.from_ (spGet (fun _ => 0) v.r.heard j) + v.sl.stall * 1000000 ≤ s.now →
      exec (.collStallTimeout k' j) s = .next (s.collFail v 0x0512 3 j v.peers)))

/-- A job barge whose checks pass launches or joins the partition's job over its tree of members, or tears it down, on every
node or here alone (R695 to R702). -/
def Obligations.JobBarges : Prop :=
  ∀ (s : State) (c : Fin 256) (q : Nat) (b : Barge) (errs : List (Nat × Ecc)),
    let t := s.meetAll errs
    let j := t.jobRecord b false
    let d := { t.jobRecord b true with started := true, applied := 1 }
    let k := jobKey j.tag b.part false
    let w := t.working b.canal b.seq id
    let kt := jobKey d.tag b.part true
    let named := s.jobTag b.part = some (b.f 35 32)
    (s.Begun c q b 0x520 → s.JobOk b false errs → b.f 36 36 ≠ 2 → Passes (t.launchBars b) →
      exec (.jobLaunchRoot c q errs) s =
        .next ((((t.dropJobs b.part j.tag).working b.canal b.seq id).applyJob k j).forwardJob k .launch)) ∧
    (s.Begun c q b 0x520 → s.JobOk b false errs → b.f 36 36 = 2 → Passes (t.launchBars b) →
      exec (.jobLaunchJoin c q errs) s = .next (w.setJob k j).heldLaunches) ∧
    (s.Begun c q b 0x521 → s.JobOk b true errs → b.f 36 36 ≠ 3 → t.jobTag b.part = some (b.f 35 32) →
      exec (.jobTeardownRoot c q errs) s =
        .next (((w.tearHere b.part d.tag).setJob kt d).forwardJob kt .teardown)) ∧
    (s.Begun c q b 0x521 → b.f 36 36 = 3 → b.reservedZero [(127, 68), (39, 39)] = true → b.f 37 37 = 0 → named →
      exec (.jobTeardownLocal c q) s = .next ((s.tearHere b.part (b.f 35 32)).finish b.canal b.seq St.done 0 0))

/-- The checkpoint barges: BEGIN opens a stream, DIFF stages granules, a COMMIT that starts shows its stream committing, COMMIT
makes the staged version the chamber's current one where no granule is missing, ABANDON drops it, SURVEY reads what the
chambers hold, LOAD restores a version (R557 to R571). -/
def Obligations.CheckpointBarges : Prop :=
  ∀ (s : State) (c : Fin 256) (q k : Nat) (b : Barge) (e : CkptEnv) (x : Stream) (u v : State) (ch : Chamber) (m : Man)
    (d : DiffSt) (h : List Byte) (bad : Bool),
    let p := b.part
    let asks := fun (ts : List Touch) => (s.execContest b ts e.contest).meetAll e.errs
    let tb := asks (s.touches p (b.f 71 64) (16 * b.f 36 36) false ++ s.touches p (b.f 87 80) (8 * b.f 37 37) false)
    let td := asks (x.ranges.flatMap fun r => s.touches p r.1 r.2 false)
    let ts := asks (s.touches p (b.f 55 48) (8 * b.f 75 72) false ++ s.touches p (b.f 63 56) (16 * b.f 75 72) true)
    let t := s.meetAll e.errs
    let free : CkptEnv := { e with contest := .free }
    let format := bitOf (b.f 39 39) 1
    let mine := s.slotFor p (b.f 35 32)
    let num := b.f 55 48
    let has := s.slotFor p (b.f 35 32) = some k ∧ s.stream? k = some x
    let form := (s.jobTag p).isSome = true ∧ b.reservedZero [(127, 76), (39, 39), (35, 33)] = true
    let own := some (b.canal, b.seq)
    let t1 := ts.useRange own ts.maps p (b.f 55 48) (8 * b.f 75 72)
    let tr := t1.useRange own t1.maps p (b.f 63 56) (16 * b.f 75 72)
    let tab := tr.localNums p (b.f 55 48) 8 (b.f 75 72)
    let sv := tr.surveyAll e b tab []
    let out := sv.2.storeLocal sv.2.maps p (b.f 63 56) (sv.1.flatMap fun r => bytesLE 8 r.1 ++ bytesLE 8 r.2)
    let step := (sv.1.getD 0 (0, 0)).1
    let l := t.rangeList p (b.f 63 56) (b.f 36 36)
    (s.Begun c q b 0x600 → b.reservedZero [(127, 96)] = true → b.f 39 39 = 1 ∨ b.f 39 39 = 3 → (s.jobTag p).isSome = true →
      s.flag Reg.secStatus F.SEC_STATUS_APPROVED = false → mine = none → b.f 35 32 ≠ 0 →
      (s.streams.any fun y => y.2.id == b.f 35 32 && y.2.part != p) = false → b.beginField = none →
      tb.rangesFault p (b.f 71 64) (b.f 36 36) false = none → (1 < b.f 37 37 → tb.readFault p (b.f 87 80) (8 * b.f 37 37) = none) →
      x = tb.beginStream b none → x.repl.getD x.rank 0 = x.chamber →
      ((List.range 16).find? fun i => (tb.stream? i).isNone) = some k →
      (tb.streams.map fun y => granules y.2.ranges).sum + granules x.ranges ≤ 2 ^ 25 →
      tb.chBytes e b x.chamber 128 = (.ok (h, bad), v) → (format = true → poolBlocks x.blocks (granules x.ranges) ≠ 0) →
      (format = false → bad = false ∧ headerValid h = true ∧ fieldB h 23 16 = x.blocks ∧ fieldB h 39 32 = granules x.ranges ∧
        fieldB h 40 40 = x.rc ∧ fieldB h 41 41 = x.rank) →
      (if bad || !headerValid h then (.ok ⟨[], none, none⟩, v) else v.manifests e b x.chamber h) = (.ok ch, u) →
      heldBy ch.cur < x.step → (x.keep = 0 ∨ x.keep = heldBy ch.cur ∨ x.keep = heldBy ch.prev) →
      exec (.ckptBegin c q e) s = .next (u.openStream e b k x ch)) ∧
    (s.Begun c q b 0x601 → b.reservedZero [(127, 56), (39, 36)] = true → has → s.ckptSt k = 2 → num ≠ 0 →
      b.f 47 40 + num ≤ granules x.ranges → b.stopBy = 0 → (s.unmapped.any fun r => decide (b.startNo < r.1)) = false →
      td.diffAll e b k ((List.range num).map (b.f 47 40 + ·)) {} = (d, u) → d.stop = none → d.torn = [] →
      ∀ y, u.stream? k = some y → exec (.ckptDiff c q e) s = .next ((u.showStream k 2 y).endBarge b.canal b.seq St.done d.copied d.carried)) ∧
    (s.Begun c q b 0x602 → b.reservedZero [(127, 48), (39, 36)] = true → has → s.ckptSt k = 2 ∨ s.ckptSt k = 3 →
      x.step = b.f 47 40 → x.missing = [] → exec (.ckptCommit c q e) s = .next (t.commitStream e b k x)) ∧
    (s.Begun c q b 0x604 → b.reservedZero [(127, 37)] = true → b.f 36 36 < 2 → s.slotFor p (b.f 35 32) = some k →
      exec (.ckptAbandon c q) s = .next ((s.abandon k (bitOf (b.f 36 36) 0)).finish b.canal b.seq St.done 0 0)) ∧
    (s.Begun c q b 0x603 → b.f 32 32 = 1 → form → 1 ≤ b.f 75 72 → b.f 75 72 ≤ 65536 → b.f 71 64 = 0 → b.f 47 40 = 0 →
      b.f 38 36 = 0 → ts.readFault p (b.f 55 48) (8 * b.f 75 72) = none → b.f 63 56 % 128 = 0 →
      ts.rangeFault ts.maps p true (b.f 63 56) (16 * b.f 75 72) = none → commonStep sv.1 ≠ 0 →
      (sv.1.all fun r => r.1 == step) = true →
      exec (.ckptSurvey c q e) s = .next (out.endBarge b.canal b.seq St.done step 0)) ∧
    (s.Begun c q b 0x603 → b.f 32 32 = 0 → form → b.f 75 72 = 0 → b.f 38 38 = 0 → b.f 37 37 = 1 → 1 ≤ b.f 36 36 →
      b.f 36 36 ≤ 16 → b.f 55 48 % 65536 = 0 → b.f 63 56 % 128 = 0 → b.f 71 64 = 0 →
      t.rangesFault p (b.f 63 56) (b.f 36 36) true = none → t.chamber free b (b.f 55 48) = (.ok ch, u) →
      ch.manOf (b.f 47 40) = some m →
      exec (.ckptLoad c q e) s = .next (u.loadMan free b l [b.f 55 48] m)) ∧
    (b.opcode = 0x602 → b.reservedZero [(127, 48), (39, 36)] = true → has → s.ckptSt k = 2 → x.step = b.f 47 40 → x.missing = [] →
      s.commitBegins b = s.showStream k 3 x)

/-! ### Power, heat and time -/

/-- WEIR_SET stores the settings it selects; SLEEP enters the state it names once every partition can bear it; DOMAIN_ENABLE and
DOMAIN_DISABLE switch a domain whose checks pass, an enable that waited for its power says so, and a disable waits for the
reaches of a domain that is busy (R456, R462 to R466). -/
def Obligations.PowerBarges : Prop :=
  ∀ (s : State) (c : Fin 256) (q : Nat) (b : Barge),
    let target := b.f 32 32
    let kind := b.f 32 32
    let u := b.f 39 36
    let off := if kind = 3 then s.portOff u else s.domainOf kind u == 2
    let w := (s.working b.canal b.seq id).setDomain kind u 1
    let rs := if kind = 1 then [u] else reachesOfDie u
    (s.Begun c q b 0x700 → b.reservedZero [(127, 50), (39, 39)] = true → b.f 48 48 < 16 → b.f 49 49 < 16 →
      s.weirSetBad b = none → exec (.weirSet c q) s = .next ((s.weirApply b).finish b.canal b.seq St.done 0 0)) ∧
    (s.Begun c q b 0x701 → b.reservedZero [(127, 34)] = true → b.f 33 33 < 2 → 1 ≤ target → target ≤ 4 →
      (s.intolerant target = none ∨ b.f 33 33 = 1) →
      exec (.sleep c q) s = .next ((s.finish b.canal b.seq St.done target 0).sleep target (b.f 33 33 == 1))) ∧
    (s.Begun c q b 0x702 → Passes (s.domainChecks b) → b.waitFrom = none →
      exec (.domainEnable c q) s =
        .next ((if off then s.powerOn kind u else s).endBarge b.canal b.seq St.done 0 0)) ∧
    (∀ w, s.Begun c q b 0x702 → Passes (s.domainChecks b) → b.waitFrom = some w →
      exec (.domainEnable c q) s =
        .next ((if off then s.powerOn kind u else s).endBarge b.canal b.seq 0x0701 (b.startAt - w) 0)) ∧
    (s.Begun c q b 0x703 → Passes (s.domainChecks b) → kind = 3 →
      exec (.domainDisable c q) s = .next ((if off then s else s.portDown u).endBarge b.canal b.seq St.done 0 0)) ∧
    (s.Begun c q b 0x703 → Passes (s.domainChecks b) → kind ≠ 3 → off = true →
      exec (.domainDisable c q) s = .next (s.endBarge b.canal b.seq St.done 0 0)) ∧
    (s.Begun c q b 0x703 → Passes (s.domainChecks b) → kind ≠ 3 → off = false → rs.all w.atRest = true →
      exec (.domainDisable c q) s =
        .next ((w.shutDown kind u (bitOf (b.f 33 33) 1)).endBarge b.canal b.seq St.done 0 0)) ∧
    (s.Begun c q b 0x703 → Passes (s.domainChecks b) → kind ≠ 3 → off = false → rs.all w.atRest = false →
      exec (.domainDisable c q) s = .next w)

/-- The weir's own events: a tick lowers the cores while the package draws more than it is allowed and raises them where 300 W
are free, or, in the model's reading (log entry 46), ends a takeover; a guard throttles a die; an idle core drops to VIDLE and lends its power; a resting reach retains and wakes; a barge
near its ceiling has its cores raised; a wake leaves sleep (R440 to R448, R454 to R463). -/
def Obligations.WeirEvents : Prop :=
  ∀ (s : State) (e : WeirEnv) (d : Fin 4) (r : Fin 64) (c : Fin 256) (q p : Nat) (b : Barge) (v : Word) (rp : RegPath),
    let t := (List.range 4).foldl (fun u d => (if u.dieIssues d then u.firstIssue d else u).holdFloor d)
      ((s.measure e).showBucket (s.measure e).bucketNext)
    let allowed := t.fld Reg.weirStatus F.WEIR_STATUS_ALLOWED
    let drawn := t.fld Reg.weirPower F.WEIR_POWER_P100
    let ctrl := Reg.vcoreCtrl d.val
    let lim := (s.fld Reg.weirLimits F.WEIR_LIMITS_TJ_TARGET - 5) * 4
    let cool := (∀ x ∈ reachesOfDie d.val, s.fld (Reg.sensorReach x) F.SENSOR_REACH_TJ ≤ lim) ∧
      s.fld (Reg.sensorDie d.val) F.SENSOR_DIE_TJ ≤ lim ∧
      s.fld Reg.weirPower F.WEIR_POWER_P100 + 300 ≤ s.fld Reg.weirStatus F.WEIR_STATUS_ALLOWED
    let aim := fun (x : Nat) => ({ s with weir := { s.weir with target := spPut d.val x s.weir.target } } : State).follow d.val
    let idle := s.fld ctrl F.VCORE_CTRL_VIDLE
    let depth := Reg.reachDepth r.val
    (s.Sound → s.takingOver = false → allowed < drawn → exec (.weirTick e) s = .next t.lowerTick.excessEnds) ∧
    (s.Sound → s.takingOver = false → drawn + 300 ≤ allowed → exec (.weirTick e) s = .next t.raiseTick.excessEnds) ∧
    (s.Sound → s.takingOver = false → drawn ≤ allowed → allowed < drawn + 300 →
      exec (.weirTick e) s = .next t.excessEnds) ∧
    (s.Sound → s.takingOver = true → exec (.weirTick e) s = .next s.endTakeover) ∧
    (s.Sound → s.fld ctrl F.VCORE_CTRL_VMODE = 1 → cool →
      exec (.vmodeAdjust d) s = .next (aim (min (s.fld ctrl F.VCORE_CTRL_VMAX) (s.vTarget d.val + 5)))) ∧
    (s.Sound → s.fld ctrl F.VCORE_CTRL_VMODE = 1 → ¬ cool →
      exec (.vmodeAdjust d) s = .next (aim (max (s.fld ctrl F.VCORE_CTRL_VSET) (s.vTarget d.val - 5)))) ∧
    (s.Sound → exec (.issueGuard d) s =
      .next (({ s with weir := { s.weir with guard := setIns d.val s.weir.guard } } : State).throttleDie d.val)) ∧
    (s.Sound → exec (.issueGuardEnd d) s = .next { s with weir := { s.weir with guard := setDel d.val s.weir.guard } }) ∧
    (s.Sound → s.fld ctrl F.VCORE_CTRL_IDLE_DROP_US ≠ 0 → s.dieIssues d.val = false → s.coreOn d.val = true →
      exec (.idleDrop d) s = .next ((s.placeVcore d.val (min (s.vcore d.val) idle)).setFld (Reg.vcoreStatus d.val)
        F.VCORE_STATUS_LENT 1)) ∧
    (s.Sound → s.mayRetain r.val = true → exec (.reachRetain r) s =
      .next ((s.setFlds depth [(F.REACH_DEPTH_DEPTH, 2), (F.REACH_DEPTH_DOMAIN, 2)]).satAdd depth F.REACH_DEPTH_RETAINS 1)) ∧
    (s.Sound → s.fld Reg.weirStatus F.WEIR_STATUS_STATE = 0 → s.fld depth F.REACH_DEPTH_DEPTH = 2 →
      exec (.reachWake r) s = .next (s.setFlds depth
        [(F.REACH_DEPTH_DEPTH, 1), (F.REACH_DEPTH_DOMAIN, 0), (F.REACH_DEPTH_WAKING, 0)])) ∧
    (s.Sound → s.barge? c.val q = some b → b.actsFor = some p → s.ceilingMet b p = true →
      exec (.latencyCeiling c q) s = .next (s.ceiling b p)) ∧
    (s.Sound → exec .wakeEvent s = .next s.wakeUp) ∧
    (s.Reaches rp Reg.weirWake → bitOf v.toNat 0 = true →
      exec (.weirWake v rp) s = .next (s.wakeFor Reg.weirWake).wakeUp)

/-- Heat: the trip takes every core's voltage away and stops every cluster; a hot stack, C-die or F-die shows in THERMAL_STATUS
and acts on its die; a response ends where it began; refresh leaves what the manual shows (R286, R336, R451). -/
def Obligations.HeatAndRefresh : Prop :=
  ∀ (s : State) (d k : Fin 4) (st : Fin 32) (parts : BitVec 8) (l : List (Nat × Nat)) (temp : BitVec 8),
    let off := (List.range 4).foldl (fun u d => ((u.throttleDie d).setVcore d 0).dropPace d Ca.thermal)
      (s.modHeat fun h => { h with trip := true })
    let a := Reg.stackStatus st.val
    let band := refreshBand (s.fld a F.STACK_STATUS_REFRESH_BAND) temp.toNat
    let seen := s.setFlds a [(F.STACK_STATUS_DRAM_TEMP, temp.toNat), (F.STACK_STATUS_REFRESH_BAND, band)]
    let warm := (s.modHeat fun h => { h with s105 := setIns st.val h.s105 }).showHot
    let cold := (s.modHeat fun h => { h with s105 := setDel st.val h.s105 }).showHot
    let hot := s.modHeat fun h => { h with tj := setIns d.val h.tj }
    (s.Sound → exec .thermalTrip s = .next ((({ off with clusters := off.clusters.map fun c =>
      if c.2.act = .idle then c else (c.1, { c.2 with act := .stopped, wait := .none, mat := [] }) } :
        State).showHot).emit .thermTrip)) ∧
    (s.Sound → exec (.dramOver110 st) s = .next (s.modHeat fun h => { h with s110 := setIns st.val h.s110 }).showHot) ∧
    (s.Sound → s.heat.s105.contains st.val = true → exec (.dramOver105 st parts l) s = .next warm) ∧
    (s.Sound → s.heat.s105.contains st.val = false → exec (.dramOver105 st parts l) s =
      .next ((setBits 8 parts.toNat).foldl (fun u p =>
        if u.live p && u.fld (Reg.partGuarantee p) F.PART_GUARANTEE_BW_FLOOR != 0 then
          u.yieldG p Gu.bandwidth Ca.thermal st.val 0 fun b => l.contains (b.canal, b.seq)
        else u) warm)) ∧
    (s.Sound → exec (.cdieOver105 d) s = .next (((s.modHeat fun h => { h with cdie := setIns d.val h.cdie }).lowerVcore d.val
      600 Ca.thermal F.VCORE_STATUS_THERMAL).showHot)) ∧
    (s.Sound → exec (.fpdieOver105 k) s = .next (s.modHeat fun h => { h with fpdie := setIns k.val h.fpdie }).showHot.throttleColls) ∧
    (s.Sound → hot.coreOn d.val = true → exec (.tjTargetExceeded d) s =
      .next (hot.lowerVcore d.val (max 600 (hot.vcore d.val - 5)) Ca.thermal F.VCORE_STATUS_THERMAL)) ∧
    (s.health.railOut = false → s.health.stackOut = [] → s.heat.waits = false →
      (s.modHeat fun h => { h with s110 := setDel st.val h.s110 }).showHot.heat.waits = false ∧
      exec (.thermalResponseEnd (.dram110 st)) s =
        .next (s.modHeat fun h => { h with s110 := setDel st.val h.s110 }).showHot) ∧
    (s.Sound → exec (.thermalResponseEnd (.dram105 st)) s =
      .next (cold.yieldEnd fun y => y.guar == Gu.bandwidth && y.site == st.val)) ∧
    (∀ (me : Requester) (ts : List Touch) (g : List Grant) (u : State), s.health.railOut = false → s.heat.s110 ≠ [] →
      (ts.any fun r => s.hotAt r.pa r.len) = true → (s.contest me ts ⟨g, []⟩).heat.waits = true ∧
      (u.heat.waits = true → s.go u = .next { s with heat := { s.heat with waits := false } })) ∧
    (s.Sound → exec (.thermalResponseEnd (.cdie d)) s =
      .next (((s.modHeat fun h => { h with cdie := setDel d.val h.cdie }).coolDie d.val).showHot)) ∧
    (s.Sound → exec (.thermalResponseEnd (.fpdie k)) s =
      .next (s.modHeat fun h => { h with fpdie := setDel k.val h.fpdie }).showHot) ∧
    (s.Sound → exec (.thermalResponseEnd (.target d)) s =
      .next ((s.modHeat fun h => { h with tj := setDel d.val h.tj }).coolDie d.val)) ∧
    (s.Sound → seen.fld Reg.weirStatus F.WEIR_STATUS_STATE ≠ 4 → exec (.refreshBandChange st temp) s = .next seen) ∧
    (s.Sound → seen.fld Reg.weirStatus F.WEIR_STATUS_STATE = 4 → exec (.refreshBandChange st temp) s =
      .next (seen.setFld a F.STACK_STATUS_SELF_REFRESH (b2n (band == 0)))) ∧
    (s.Sound → exec (.refresh st) s = .next s ∧ exec (.refreshManagement st) s = .next s)

/-- PART_CREATE builds and opens a partition whose checks pass; PART_DESTROY stops one, drains its barges and scrubs it; the
control words of a partition and the interleave take their writes, and a pending change takes effect at rest (R472 to R486,
R280). -/
def Obligations.Partitions : Prop :=
  ∀ (s : State) (c : Fin 256) (q : Nat) (b : Barge) (p : Fin 8) (k : Fin 16) (v : Word) (rp : RegPath),
    let t := (s.partBuild b).partLive b.part
    let inc := t.fld (Reg.partState b.part) F.PART_STATE_INCARNATION
    let old := s.partBarges b
    let w := (s.working b.canal b.seq id).partStop b.part
    let gone := fun (u : State) => u.partBarges b = [] ∧
      (u.maps.any fun m => m.part == b.part && u.pageInUse (b.startNo, m)) = false
    (s.Begun c q b 0x800 → Passes (s.createChecks b) → b.waitFrom = none →
      exec (.partCreate c q) s = .next (t.finish b.canal b.seq St.done 0 inc)) ∧
    (s.Begun c q b 0x801 → b.reservedZero [(127, 33)] = true → b.f 32 32 < 2 → s.live b.part = true →
      old.any s.runPaused = false →
      exec (.partDestroy c q) s =
        .next ((w.drainAll (b.canal, b.seq) (old.map fun x => (x.canal, x.seq))).2.destroyOn b)) ∧
    (s.Sound → s.barge? c.val q = some b → b.native = 0x801 → b.phase = .working → gone s →
      exec (.partDestroy c q) s =
        .next ((s.partScrub b.part).2.endBarge b.canal b.seq St.done (s.partScrub b.part).1 0)) ∧
    (s.Reaches rp (Reg.partCtrl p.val) →
      exec (.partCtrlWrite p v rp) s = .next ((s.wakeFor (Reg.partCtrl p.val)).writePartCtrl p.val v.toNat)) ∧
    (s.Reaches rp (Reg.partClaim p.val) →
      exec (.partClaimWrite p v rp) s = .next ((s.wakeFor (Reg.partClaim p.val)).writePartClaim p.val v.toNat)) ∧
    (s.Sound → exec (.partChangeEffect p) s = .next (s.partChange p.val)) ∧
    (s.Reaches rp (Reg.memInterleave k.val) → exec (.memInterleaveWrite k v rp) s =
      .next ((s.wakeFor (Reg.memInterleave k.val)).writeInterleave k.val v.toNat))

/-- PACE_REQ and ORDER_REQ take a write where their lock is clear, and keep their value where it is set; a mode changes only at
rest; a slip counts; the loss of the lock ends pacing on every reach (R46 to R53). -/
def Obligations.TimingModes : Prop :=
  ∀ (s : State) (r : Fin 64) (v : Bool) (rp : RegPath) (rate : BitVec 16),
    let a := Reg.timingCtrl r.val
    let t := s.wakeFor a
    let free := s.setFld (Reg.hcRate r.val) F.HC_RATE_FREE_RATE rate.toNat
    (s.Reaches rp a → t.flag a F.TIMING_CTRL_PACE_LOCK = false →
      exec (.paceReq r v rp) s = .next ((t.setFld a F.TIMING_CTRL_PACE_REQ (b2n v)).follow (r.val / 16))) ∧
    (s.Reaches rp a → t.flag a F.TIMING_CTRL_PACE_LOCK = true → exec (.paceReq r v rp) s = .next t) ∧
    (s.Reaches rp a → t.flag a F.TIMING_CTRL_ORDER_LOCK = false →
      exec (.orderReq r v rp) s = .next (t.setFld a F.TIMING_CTRL_ORDER_REQ (b2n v))) ∧
    (s.Reaches rp a → t.flag a F.TIMING_CTRL_ORDER_LOCK = true → exec (.orderReq r v rp) s = .next t) ∧
    (s.Sound → s.modePending r.val = true → exec (.timingModeChange r) s = .next (s.changeMode r.val)) ∧
    (s.quiescent r.val = false → s.changeMode r.val = s) ∧
    (s.Sound → free.paced r.val = true → exec (.hcRateUpdate r rate) s = .next free) ∧
    (s.Sound → free.paced r.val = false → exec (.hcRateUpdate r rate) s = .next (free.setRate r.val rate.toNat)) ∧
    (s.Sound → s.paced r.val = true → (s.countSat (Reg.paceSlipCount r.val) 1).class2 r.val = none →
      exec (.pacingSlip r) s = .next (s.countSat (Reg.paceSlipCount r.val) 1)) ∧
    (s.Sound → exec .pacingLockLoss s = .next s.lockLoss) ∧
    (s.Sound → exec .pacingLockRegained s = .next ((List.range 64).foldl
      (fun t r => if t.flag (Reg.timingCtrl r) F.TIMING_CTRL_PACE_REQ then t.changeMode r else t)
      { s with health := { s.health with lockLost := false, clkOut := s.health.clkOut.filter (2 ≤ ·) } }))

/-! ### Keys and roasts -/

/-- A key is loaded or cleared where its checks pass and its wrapping verifies; ATTEST writes its report; ROAST_STAGE takes an
image or raises the floor, and ROAST_SWITCH loads or hands over to the standby (R597, R610 to R614). -/
def Obligations.KeysAndRoasts : Prop :=
  ∀ (s : State) (c : Fin 256) (q kind : Nat) (row : Fin 256 → Nat → Instr) (b : Barge) (key : List Byte) (x : Contest)
    (errs : List (Nat × Ecc)),
    (kind, row) ∈ [(1, Instr.keyLoadMk), (2, .keyLoadCk), (3, .keyClearCk), (4, .keyClearMk)] →
    let base := b.f 39 32
    let t := s.takeNonce b
    let u := s.setStaged (1 - s.activePdie) none
    let w := (u.execContest b (u.touches (b.f 33 33) (b.f 47 40) (b.f 55 48) false) x).meetAll errs
    let k := 1 - s.activePdie
    let f := s.flashOf k
    let e := (s.setFlash k { f with sel := 1 - f.sel }).clearPdie k
    let v := b.f 56 56
    (s.Begun c q b 0x802 → b.f 32 32 = kind → Passes (s.keyChecks b) → s.keyOf b = some key →
      (kind = 2 ∨ kind = 3 → t.slotInUse b.part = none) →
      exec (row c q) s = .next ((t.keySet b key).finish b.canal b.seq St.done 0 0)) ∧
    (s.Begun c q b 0x803 → b.reservedZero [(127, 96), (63, 45)] = true → 1 ≤ b.f 44 44 → b.f 44 44 ≤ 3 → 4992 ≤ b.f 43 40 →
      s.bufferFault b.part base (b.f 43 40) 128 = none → s.secError = false → s.sec.dusShut = false →
      exec (.attest c q x) s = .next (((s.execContest b (s.touches b.part base 4992 true) x).storeLocal s.maps b.part base (s.attestReport b)).finish b.canal
        b.seq St.done 4992 0)) ∧
    (s.Begun c q b 0x804 → b.f 32 32 = 1 → Passes ((u.stageChecks b).take 2) → Passes (w.stageChecks b) →
      exec (.roastStage c q errs x) s = .next (w.stageImage b)) ∧
    (s.Begun c q b 0x804 → b.f 32 32 = 2 → b.stageShape = true → s.svnFloor < v → (∀ r ∈ s.sec.running, v ≤ r.2.svn) →
      b.f 33 33 = 0 → zeroB b.bytes 55 40 = true → s.secError = false →
      exec (.raiseFloor c q) s = .next ((s.setFld Reg.secFuse F.SEC_FUSE_SVN_FLOOR v).finish b.canal b.seq St.done 0 0)) ∧
    (s.Begun c q b 0x805 → b.f 32 32 = 1 → Passes (s.switchChecks b false (s.staged k)) →
      exec (.roastSwitchLoad c q) s =
        .next ((e.bootStandby k (e.fld (Reg.pdieStatus k) F.PDIE_STATUS_CHANGE)).finish b.canal b.seq St.done 0 0)) ∧
    (s.Begun c q b 0x805 → b.f 32 32 = 2 → Passes (s.switchChecks b true (s.runs? k)) →
      exec (.handover c q) s = .next (s.handover.finish b.canal b.seq St.done 0 0))

/-! ### Failures -/

/-- What a check finds takes its unit out of service or has the work done again: residue checks, lockstep checks, lost die
links and broken towpath segments, with the stations that they cut off, rail faults and heartbeats; a rail out of its range
frees what it feeds, which rail being the model's free value (log entry 6); accesses to a basin that is being moved wait; a
substitution that is under way ends, and the map changes that waited for it are made; an asked-for one starts or is made; a cupping begins with the lowest named reach of each
C-die, shows STATUS 4 for a reach while it runs, goes on to the next one, and ends the barge with the last; patrol reads
correct or poison one line and act on thresholds that are met; a finished channel copy notes the barges that it delayed (R285,
R335, R417, R418, R577 to R595, R599, R664, R665). -/
def Obligations.FailuresAndScrubbing : Prop :=
  (∀ (s : State) (p : Fin 576) (r : Fin 64) (f : Fin 2) (st : Fin 32) (d : Fin 4) (e : Fin 256) (l : Fin 54) (g : Fin 40)
    (c : Fin 256) (q hc : Nat) (ops : List Nat) (again : Bool) (x : Subst) (b : Barge) (cup : List (Nat × Cupping)) (i : Nat),
    let u := b.f 39 36
    let rs := setBits 64 (b.f 39 32)
    let near := (s.recompute (unitNme e.val) 0).retryOps fun o => ops.contains o.num
    let out := (({ s with health := { s.health with linksOut := s.health.linksOut ++ [l.val] } } : State).errRecord
      (unitDieLink l.val) 5 7 7 none 0 0 0 s.now).cutStations s 5
    let rail := (Config.freeWord s.freeCount).toNat % 6
    let brk := ({ s with health := { s.health with towOut := setIns g.val s.health.towOut } } : State)
    let cores := fun (t : State) => (reachesOfDie d.val).foldl (fun u r => u.reachDown r 4 3 0) t
    let cupped := s.cupOn rs cup
    let bad := rs.filter fun r => cupped.fld (Reg.cuppingResult r) F.CUPPING_RESULT_STATUS != 1
    let still := (rs.any fun r => !s.reachStill r || s.subs.any fun x => reachOfPhys x.failed == r) = false
    let spare := b.reservedZero [(35, 33), (127, 40)] = true ∧ s.subs = []
    (s.health.railOut = false → s.health.voidDies = [] → s.health.stackOut = [] →
      (s.subs.find? fun y => y.failed == p.val) = some x → exec (.substitutionResume p hc) s =
        .next (((s.endSubst x hc).spareDone 1 x.failed x.spare).meetWaiting (s.mapWait.length + 1))) ∧
    (∀ (me : Requester) (ts : List Touch) (w : List Grant) (t : State), s.health.railOut = false → s.subs ≠ [] →
      (ts.any fun r => s.movedAt r.pa r.len) = true → (s.contest me ts ⟨w, []⟩).heat.waits = true ∧
      (t.heat.waits = true → s.go t = .next { s with heat := { s.heat with waits := false } })) ∧
    (s.Sound → exec .heartbeatMiss s = .next (s.takeover 8) ∧ exec .watchdogExpiry s = .next (s.takeover 8)) ∧
    (s.Sound → exec (.residueMismatch (.matrix p) again) s = .next (s.clusterResidue p.val 3 again) ∧
      exec (.residueMismatch (.vector p) again) s = .next (s.clusterResidue p.val 2 again) ∧
      exec (.residueMismatch (.near e ops) again) s =
        .next (if again || near.recomputedOften (unitNme e.val) 0 then near.nmeFail e.val ops else near)) ∧
    (s.Sound → exec (.lockstepMismatch (.sequencer p)) s = .next (s.clusterFail p.val 2 3 4) ∧
      exec (.lockstepMismatch (.solver r)) s = .next (s.reachDown r.val 4 3 1) ∧
      exec (.lockstepMismatch (.crossbar r)) s = .next (s.reachDown r.val 4 3 2) ∧
      exec (.lockstepMismatch (.fdie f)) s = .next (s.fdieFail f.val) ∧
      exec (.lockstepMismatch (.base st)) s = .next (s.stackDown st.val 4 3) ∧
      (f.val = s.activePdie → exec (.lockstepMismatch (.pdie f)) s = .next (s.takeover 4)) ∧
      (f.val ≠ s.activePdie → exec (.lockstepMismatch (.pdie f)) s = .next (s.standbyFail f.val 4))) ∧
    (s.Sound → s.health.linksOut.contains l.val = false →
      (l.val < 32 → exec (.dieLinkLost l ops) s = .next (out.stackDown l.val 5 3)) ∧
      (32 ≤ l.val → l.val < 40 → exec (.dieLinkLost l ops) s = .next (out.retryOps fun o => ops.contains o.num)) ∧
      (40 ≤ l.val → l.val < 53 → exec (.dieLinkLost l ops) s = .next out) ∧
      (l.val = 53 → exec (.dieLinkLost l ops) s =
        .next ((out.setFld Reg.failopStatus F.FAILOP_STATUS_STANDBY 2).setFld Reg.logStatus F.LOG_STATUS_SINGLE 1))) ∧
    (s.Sound → s.health.towOut.contains g.val = false →
      exec (.towpathBreak g) s = .next (((brk.setFld Reg.failopStatus F.FAILOP_STATUS_TOWPATH_BREAKS
        (min brk.health.towOut.length 3)).errRecord (unitTowpath g.val) 0x0A 7 6 none 0 0 0 s.now).cutStations s 0x0A)) ∧
    (∀ (was : State) (kind : Nat), s.health.towOut.length < 2 → s.cutStations was kind = s) ∧
    (s.Sound → exec (.railFault (.vcore d)) s = .next (cores s) ∧
      exec (.railFault (.vunc d)) s = .next ((List.range 8).foldl (fun u i => u.stackDown (8 * d.val + i) 5 3) (cores s)) ∧
      exec (.railFault (.vfab f)) s = .next (s.fdieDown f.val 4) ∧
      exec (.railFault (.vser f)) s = .next (s.fdieDown f.val 4) ∧
      exec (.railFault (.vserh f)) s = .next (s.fdieDown f.val 4)) ∧
    (s.Sound → exec (.vcoreUndervolt d) s =
      .next { s with health := { s.health with voidDies := setIns d.val s.health.voidDies } }) ∧
    (s.Sound → exec .boardRailOutOfRange s =
      .next { s with
        freeCount := s.freeCount + 1
        health := if rail < 5 ∧ s.tap.low = true then s.health
          else if rail < 4 then { s.health with stackOut := setIns rail s.health.stackOut }
          else { s.health with railOut := true } }) ∧
    (s.Begun c q b 0x901 → spare → b.f 32 32 = 1 → u < 576 →
      s.fld (Reg.clusterUnitMap u) F.CLUSTER_UNIT_MAP_STATE = 0 → s.reachOut (reachOfPhys u) = false →
      (s.idleSpare (reachOfPhys u)).isSome = true →
      exec (.spareSubstitute c q) s = .next ((s.working b.canal b.seq id).clusterFail u 0 4 0x0B)) ∧
    (s.Begun c q b 0x901 → spare → b.f 32 32 = 2 → u < 1024 → s.fld (Reg.stackMap (u / 32)) F.STACK_MAP_STATE ≠ 2 →
      s.channelOut (u / 32) (u % 32) = false → s.idleChannel (u / 32) = some i →
      exec (.spareSubstitute c q) s = .next ((s.channelFail (u / 32) (u % 32) 4 0x0B).endBarge b.canal b.seq St.done
        (u / 32 * 34 + 32 + i) 0)) ∧
    (s.Begun c q b 0x901 → spare → b.f 32 32 = 3 → u < 18 → u % 9 < 8 → s.fld (Reg.portMap (u / 9)) F.PORT_MAP_STATE ≠ 2 →
      bitOf (s.fld (Reg.portMap (u / 9)) F.PORT_MAP_DISABLED) (u % 9) = false →
      bitOf (s.fld (Reg.portMap (u / 9)) F.PORT_MAP_DISABLED) 8 = false →
      s.fld (Reg.portMap (u / 9)) F.PORT_MAP_SPARE_FOR = 0xF →
      exec (.spareSubstitute c q) s =
        .next ((s.portFail u 4 0x0B).endBarge b.canal b.seq St.done (u / 9 * 9 + 8) 0)) ∧
    (s.Begun c q b 0x900 → b.reservedZero [(127, 40)] = true → rs ≠ [] →
      (∀ cp, s.canalPart b.canal = some cp → ∀ r ∈ rs, s.reachPart r = some cp) →
      (rs.any fun r => s.reachGone r || s.reachRuns r || s.reachArmed r) = false → still →
      exec (.diagCupping c q cup) s =
        .next ((firstOnDies rs).foldl State.cupBegin (s.working b.canal b.seq id))) ∧
    (s.Sound → s.barge? c.val q = some b → b.native = 0x900 → b.phase = .working → rs.any cupped.cupRuns = true →
      exec (.diagCupping c q cup) s = .next cupped) ∧
    (s.Sound → s.barge? c.val q = some b → b.native = 0x900 → b.phase = .working → rs.any cupped.cupRuns = false →
      exec (.diagCupping c q cup) s = .next (cupped.endBarge b.canal b.seq (if bad.isEmpty then St.done else 0x0910) (maskOf bad) 0))) ∧
  (∀ (s : State) (st : Fin 32) (half : Fin 2) (ecc : Ecc) (lines : List (Fin 2 × Ecc)) (x : Nat × Nat),
    let burst := s.fld Reg.weirStatus F.WEIR_STATUS_STATE = 4 ∧
      s.flag (Reg.stackStatus st.val) F.STACK_STATUS_SELF_REFRESH = true
    (s.Sound → exec (.patrolScrub st half ecc) s = .next (s.scrubLine st.val half.val ecc).retireDue) ∧
    (s.Sound → burst → exec (.selfRefreshScrubBurst st lines) s =
      .next (lines.foldl (fun t e => t.scrubLine st.val e.1.val e.2) s).retireDue) ∧
    (s.Sound → ¬ burst → exec (.selfRefreshScrubBurst st lines) s = .next s) ∧
    (s.Sound → (s.copies.find? fun y => y.1 == st.val) = some x → exec (.channelCopyComplete st) s =
      .next (({ s with barges := s.barges.map s.copyNote, copies := s.copies.filter (· != x) } : State).showCopy
        st.val).retireDue))

/-! ### Links and packets -/

/-- A flit whose codewords are good and whose CRC agrees acknowledges the flits that its ACK covers and returns credits; a data
flit in turn adds its body to the packet stream, one that was received before adds nothing, and one out of turn, like one
with an uncorrected codeword or a bad CRC, asks for a replay. A replay request has the held flits sent again, and the sixteenth
time for one of them loses the link. A notice moors a link or takes it down; a loss is recorded, and the sixteenth in an hour
fails the port. Training is tried once per second and ends with the link up, or lost where the keys do not agree; a lane that
either end declares failed leaves the lanes of a pair, or fails the port (R493, R494, R496 to R498, R500, R524, R606). -/
def Obligations.LinkEvents : Prop :=
  ∀ (s : State) (k : Fin 18) (f : Flit) (errs : List (Nat × Ecc)) (x : Contest) (ack : BitVec 16) (code : BitVec 8)
    (replays : Bool) (t : Training) (lane : Fin 4) (lock : Bool) (symbols : Word) (w : Nat), s.Sound →
    let e := Reg.portErrors k.val
    let a := Reg.portStatus k.val
    let kind := if lock then 7 else 6
    let l := s.link k.val
    let up := s.trained k.val = true
    let read := s.codewords k.val f
    let bad := (∃ n ∈ f.fixed, 15 < n) ∨ (f.carry = true ∧ 15 < l.lastCw) ∨ flitGood f.bytes = false
    let acks := read.flitAck k.val (fieldB f.bytes 3 2)
    let h := acks.setLink k.val ((acks.link k.val).creditIn (flitCredit f.bytes))
    let seq := fieldB f.bytes 1 0
    let ftype := fieldB f.bytes 12 12
    let gap := flitAfter (h.link k.val).recv seq
    let inTurn := ftype = Ft.data ∧ gap = 1
    let late := if 0 < gap ∧ gap < 32768 then h.askReplay k.val else h
    let asked := s.flitAck k.val ack.toNat
    let again := (asked.link k.val).held.map fun y => { y with tries := y.tries + 1 }
    let sent := again.foldl (fun u y => u.emit (.flit k.val y.bytes)) (asked.setLink k.val { asked.link k.val with held := again })
    let loss := if replays then 5 else 7
    let lost := (s.linkLost k.val).errRecord (unitPort k.val) loss 3 6 none 0 0 0 (s.linkLost k.val).now
    let rests := s.fld a F.PORT_STATUS_STATE = 0 ∨ s.fld a F.PORT_STATUS_STATE = 3
    let tries := s.fld a F.PORT_STATUS_STATE = 1 ∨ s.fld a F.PORT_STATUS_STATE = 4
    let u := s.setFlds a [(F.PORT_STATUS_PARTNER_NODE, t.node.toNat), (F.PORT_STATUS_PARTNER_F, b2n t.f),
      (F.PORT_STATUS_PARTNER_PORT, t.port.val)]
    let upAgain := (u.setFld a F.PORT_STATUS_STATE 2).setLink k.val { (u.link k.val).fresh with enc := t.enc }
    let unit := unitLane (k.val / 9) (k.val % 9 * 4 + lane.val)
    let noted := s.noteFault unit kind 0
    let rec_ := noted.errRecord unit kind 2 6 none 0 0 (if lock then 0 else symbols.toNat) noted.now
    let marked := rec_.setLink k.val { rec_.link k.val with failed := l.failed ||| 2 ^ lane.val }
    (∀ n, f.fixed = [n] → read = (if 15 < n then s.satAdd e F.PORT_ERRORS_UNCORRECTED 1
      else s.satAdd e F.PORT_ERRORS_CORRECTED n).setLink k.val { l with lastCw := n }) ∧
    (up → bad → exec (.flitReceive k f errs x) s = .next (read.askReplay k.val)) ∧
    (up → ¬ bad → inTurn → exec (.flitReceive k f errs x) s =
      .next ((h.setLink k.val { h.link k.val with recv := seq, ackDue := true }).bodyIn k.val (fieldB f.bytes 13 13)
        (sliceB f.bytes 30 512) errs x)) ∧
    (up → ¬ bad → ¬ inTurn → ftype ≠ Ft.replay → ftype ≠ Ft.notice → exec (.flitReceive k f errs x) s = .next late) ∧
    (up → ¬ bad → ftype = Ft.replay → exec (.flitReceive k f errs x) s =
      .next (late.replay k.val (fieldB f.bytes 3 2))) ∧
    (up → ¬ bad → ftype = Ft.notice → exec (.flitReceive k f errs x) s =
      .next (late.linkNotice k.val (fieldB f.bytes 14 14))) ∧
    (s.trained k.val = false → exec (.flitReceive k f errs x) s = .next s ∧ exec (.replayRequest k ack) s = .next s ∧
      exec (.linkLoss k replays) s = .next s) ∧
    (up → (∀ y ∈ (asked.link k.val).held, y.tries < 15) → exec (.replayRequest k ack) s = .next sent) ∧
    (up → (∃ y ∈ (asked.link k.val).held, 15 ≤ y.tries) → exec (.replayRequest k ack) s = .next (sent.linkOut k.val 5)) ∧
    (s.portUp k.val = true → code = 2 → exec (.linkNotice k code) s = .next (s.linkDown k.val 3)) ∧
    (s.portUp k.val = true → code = 1 → exec (.linkNotice k code) s = .next (s.linkDown k.val 4)) ∧
    (s.portUp k.val = true → code ≠ 1 → code ≠ 2 → exec (.linkNotice k code) s = .next s) ∧
    (up → lost.faultsIn (unitPort k.val) 7 hourNs < 16 → exec (.linkLoss k replays) s = .next lost) ∧
    (up → 16 ≤ lost.faultsIn (unitPort k.val) 7 hourNs →
      exec (.linkLoss k replays) s = .next (lost.portFail k.val 3 loss)) ∧
    (rests → s.mayTrain k.val = true → (l.lastTry = 0 ∨ l.lastTry + 10 ^ 9 ≤ s.now) →
      exec (.linkTraining k) s = .next ((s.setFld a F.PORT_STATUS_STATE 1).setLink k.val { l with lastTry := s.now })) ∧
    (rests → l.lastTry ≠ 0 → s.now < l.lastTry + 10 ^ 9 → exec (.linkTraining k) s = .next s) ∧
    (tries → s.mayTrain k.val = true → s.keysAgree t = true → (upAgain.link k.val).failed ||| t.lanes.toNat =
      (upAgain.link k.val).failed → exec (.linkTrainingComplete k t) s = .next upAgain) ∧
    (tries → s.mayTrain k.val = true → s.keysAgree t = true → (upAgain.link k.val).failed ||| t.lanes.toNat ≠
      (upAgain.link k.val).failed → exec (.linkTrainingComplete k t) s =
        .next (upAgain.setLanes k.val ((upAgain.link k.val).failed ||| t.lanes.toNat) 6)) ∧
    (tries → s.mayTrain k.val = true → s.keysAgree t = false →
      exec (.linkTrainingComplete k t) s =
        .next ((u.satAdd Reg.secStatus F.SEC_STATUS_LINK_KEY_FAILS 1).setFld a F.PORT_STATUS_STATE 3)) ∧
    (s.mayTrain k.val = true → s.fld a F.PORT_STATUS_STATE = 2 → l.failed ||| t.lanes.toNat ≠ l.failed →
      exec (.linkTrainingComplete k t) s = .next (s.setLanes k.val (l.failed ||| t.lanes.toNat) 6)) ∧
    (bitOf l.failed lane.val = true → exec (.laneFailure k lane lock symbols) s = .next s) ∧
    (bitOf l.failed lane.val = false → widthOf (l.failed ||| 2 ^ lane.val) = some w →
      exec (.laneFailure k lane lock symbols) s = .next (marked.setFld a F.PORT_STATUS_WIDTH w).throttleColls) ∧
    (bitOf l.failed lane.val = false → widthOf (l.failed ||| 2 ^ lane.val) = none →
      exec (.laneFailure k lane lock symbols) s =
        .next ((if marked.linked k.val then marked.linkLost k.val else marked).portFail k.val 3 kind))

/-- A packet that a trained link brings is delivered. One that breaks Table 17-3 or 17-4 is only counted; a TIME packet goes
no further; one for another node is forwarded by its route, or a request without one is answered with a NACK, and the package's
memory, clusters and barges stay as they were; without a node id only MGMT is accepted; a request of this node is performed
in its turn, an ACK, a NACK or a READ_RESP settles what is outstanding, and a NOTICE sets the base of its pair. A packet that
comes while its link is not trained does nothing (R500 to R502, R504, R507, R508). -/
def Obligations.PacketDelivery : Prop :=
  ∀ (s : State) (k : Fin 18) (p : Packet) (errs : List (Nat × Ecc)) (x : Contest) (o : Nat), s.Sound →
    let up := s.trained k.val = true
    let d := s.deliver k.val p errs x
    let d' := s.deliver k.val p [] .free
    let away := p.ok = true ∧ p.ptype ≠ Pt.time ∧ p.dst ≠ s.nodeId
    let here := p.ok = true ∧ p.dst = s.nodeId ∧ s.nodeValid = true
    (up → p.ptype = Pt.read8 → exec (.read8 k p errs x) s = .next d) ∧
    (up → p.ptype = Pt.write8 → exec (.write8 k p errs x) s = .next d) ∧
    (up → p.ptype = Pt.flag8 → exec (.flag8 k p errs x) s = .next d) ∧
    (up → p.ptype = Pt.readLines → exec (.readLines k p errs x) s = .next d) ∧
    (up → p.ptype = Pt.writeLines → exec (.writeLines k p errs x) s = .next d) ∧
    (up → p.ptype = Pt.notice → exec (.linkResync k p errs x) s = .next d) ∧
    (up → p.ptype = Pt.ack → exec (.ack k p) s = .next d') ∧
    (up → p.ptype = Pt.nack → exec (.nack k p) s = .next d') ∧
    (up → p.ptype = Pt.readResp → exec (.readResp k p) s = .next d') ∧
    (up → p.ptype = Pt.coll → (p.unit = 0x800 → exec (.collData k p errs x) s = .next d) ∧
      (p.unit = 0x801 → exec (.collReady k p errs x) s = .next d) ∧
      (p.unit = 0x802 → exec (.collEnd k p errs x) s = .next d) ∧
      (p.unit = 0x803 → exec (.collAbort k p errs x) s = .next d)) ∧
    (up → p.ptype = Pt.mgmt → (p.unit = 0x900 → exec (.jobLaunchPacket k p) s = .next d') ∧
      (p.unit = 0x901 → exec (.jobReport k p) s = .next d') ∧
      (p.unit = 0x902 → exec (.jobAbortPacket k p) s = .next d') ∧
      (p.unit = 0x903 → exec (.jobTeardownPacket k p) s = .next d') ∧
      (p.unit = 0x904 → exec (.regPacket k p) s = .next d')) ∧
    (up → p.dst ≠ s.nodeId → exec (.packetForward k p) s = .next d') ∧
    (s.trained k.val = false →
      exec (.read8 k p errs x) s = .next s ∧ exec (.write8 k p errs x) s = .next s ∧ exec (.flag8 k p errs x) s = .next s ∧
      exec (.readLines k p errs x) s = .next s ∧ exec (.writeLines k p errs x) s = .next s ∧
      exec (.linkResync k p errs x) s = .next s ∧ exec (.ack k p) s = .next s ∧ exec (.nack k p) s = .next s ∧
      exec (.readResp k p) s = .next s ∧ exec (.collData k p errs x) s = .next s ∧
      exec (.collReady k p errs x) s = .next s ∧ exec (.collEnd k p errs x) s = .next s ∧
      exec (.collAbort k p errs x) s = .next s ∧ exec (.jobLaunchPacket k p) s = .next s ∧
      exec (.jobReport k p) s = .next s ∧ exec (.jobAbortPacket k p) s = .next s ∧
      exec (.jobTeardownPacket k p) s = .next s ∧ exec (.regPacket k p) s = .next s ∧
      exec (.packetForward k p) s = .next s) ∧
    (p.ok = false → d = s.satAdd (Reg.portErrors k.val) F.PORT_ERRORS_DISCARDED 1) ∧
    (p.ok = true → p.ptype = Pt.time → d = s) ∧
    (away → d.mem = s.mem ∧ d.fills = s.fills ∧ d.poison = s.poison ∧ d.clusters = s.clusters ∧ d.barges = s.barges ∧
      d.maps = s.maps ∧ d.fabric.landing = s.fabric.landing ∧ d.fabric.sent = s.fabric.sent) ∧
    (away → isRequest p = true → s.mooredNode p.dst = true → d = s.emitPkt (routerNack p 9)) ∧
    (away → (isRequest p = false ∨ s.mooredNode p.dst = false) → s.forwardPort (k.val / 9) p.dst = some o →
      d = s.putPkt o p) ∧
    (away → isRequest p = true → s.mooredNode p.dst = false → s.forwardPort (k.val / 9) p.dst = none →
      d = s.emitPkt (routerNack p 8)) ∧
    (away → isRequest p = false → s.forwardPort (k.val / 9) p.dst = none → d = s) ∧
    (p.ok = true → p.dst = s.nodeId → s.nodeValid = false → p.ptype ≠ Pt.mgmt → d = s) ∧
    (p.ok = true → p.dst = s.nodeId → p.ptype = Pt.mgmt → d = s.receiveSeq p (State.actOn errs x)) ∧
    (here → isRequest p = true → d = s.receiveSeq p (State.actOn errs x)) ∧
    (here → p.ptype = Pt.ack →
      d = (acked s.fabric.sent p).foldl (fun t r => t.settleReq r none) ((acked s.fabric.sent p).foldl State.unsend s)) ∧
    (here → p.ptype = Pt.nack → ∀ r, s.named p = some r → d = (s.unsend r).settleReq r (some p.code)) ∧
    (here → (p.ptype = Pt.nack ∨ p.ptype = Pt.readResp) → s.named p = none → d = s) ∧
    (here → p.ptype = Pt.readResp → ∀ r P run, s.named p = some r → r.pkt.reads = true → r.owner = .cluster P run →
      d = (s.unsend r).loadDone P r.pkt p) ∧
    (here → p.ptype = Pt.notice → d = s.noticeIn p errs x)

/-- A request that nothing covers within RETX_US is sent again, and the barge that issued it carries RETRIED; one that is still
uncovered after REPLY_US is abandoned with every other outstanding request of its node pair, each is reported unreachable, and
a NOTICE is due before the next request to that node (R507, R508). -/
def Obligations.UncoveredRequests : Prop :=
  (∀ (s : State) (node : BitVec 16) (vc : Fin 4) (seq : BitVec 32) (r : ReqOut), s.Sound →
    s.outstanding node.toNat vc.val seq.toNat = some r →
    let due := r.lastAt + s.fld Reg.fabricTimers F.FABRIC_TIMERS_RETX_US * 1000
    let t := s.modFab fun f => { f with sent := f.sent.map fun y => if y = r then { y with lastAt := s.now } else y }
    (s.now < due ∨ s.nodeValid = false → exec (.retxTimeout node vc seq) s = .next s) ∧
    (s.nodeValid = true → due ≤ s.now → s.pathCode r.pkt.dst = none → t.reqBarge r = none →
      exec (.retxTimeout node vc seq) s = .next (t.emitPkt r.pkt)) ∧
    (∀ c q, s.nodeValid = true → due ≤ s.now → s.pathCode r.pkt.dst = none → t.reqBarge r = some (c, q) →
      exec (.retxTimeout node vc seq) s = .next ((t.addNote c q Note.retried).emitPkt r.pkt))) ∧
  (∀ (s : State) (node : BitVec 16) (vc : Fin 4) (seq : BitVec 32) (r : ReqOut), s.Sound →
    s.outstanding node.toNat vc.val seq.toNat = some r →
    let due := r.sentAt + s.fld Reg.fabricTimers F.FABRIC_TIMERS_REPLY_US * 1000
    let l := s.fabric.sent.filter fun y => y.pkt.dst == node.toNat
    let t := s.modFab fun f => { f with
      sent := f.sent.filter fun y => y.pkt.dst != node.toNat
      resync := if f.resync.contains node.toNat then f.resync else f.resync ++ [node.toNat] }
    (s.now < due → exec (.replyTimeout node vc seq) s = .next s) ∧
    (due ≤ s.now →
      exec (.replyTimeout node vc seq) s = .next (l.foldl (fun u y => u.settleReq y (some 8)) t) ∧
      (∀ y ∈ t.fabric.sent, y.pkt.dst ≠ node.toNat) ∧ node.toNat ∈ t.fabric.resync))

/-- ROUTE_DATA writes the entry of the node in ROUTE_INDEX; FABRIC_NODE takes no write while a partition has a job; a wrong
FABRIC_TIMERS leaves both fields; MASTER makes the package the time master, and a TIME packet by the shortest path gives a
follower, or a master that another one of a lower node id outranks, its offset (R502, R522, R525, R526). -/
def Obligations.FabricRegisters : Prop :=
  ∀ (s : State) (v : Word) (rp : RegPath) (k : Fin 18) (m : BitVec 16) (hops : BitVec 6) (off : BitVec 32),
    let n := v.toNat
    let rd := s.wakeFor Reg.routeData
    let entry := withBits (withBits (bitsOf n 4 0) 12 8 (bitsOf n 12 8)) 15 15 (bitsOf n 15 15)
    let fn := s.wakeFor Reg.fabricNode
    let ft := s.wakeFor Reg.fabricTimers
    let ts := s.wakeFor Reg.timeStatus
    let a := Reg.timeStatus
    let d := off.toInt
    let leads := s.flag a F.TIME_STATUS_MASTER && s.fld a F.TIME_STATUS_HOPS == 0
    let heard := s.modFab fun f => { f with times := spPut k.val ⟨m.toNat, hops.toNat, off⟩ f.times }
    let job := (List.range 8).any fun p => fn.flag (Reg.fabricJob p) F.FABRIC_JOB_VALID
    (s.Reaches rp Reg.routeData → exec (.routeDataWrite v rp) s = .next (rd.modFab fun f => { f with
      routes := spSet (fun _ => 0x1F1F) (rd.fld Reg.routeIndex F.ROUTE_INDEX_NODE) entry f.routes })) ∧
    (s.Reaches rp Reg.fabricNode → job = true →
      exec (.fabricNodeWrite v rp) s = .next (fn.setFld Reg.fabricNode F.FABRIC_NODE_WRITE_IGNORED 1)) ∧
    (s.Reaches rp Reg.fabricNode → job = false →
      exec (.fabricNodeWrite v rp) s = .next (fn.writeFields Reg.fabricNode n)) ∧
    (s.Reaches rp Reg.fabricTimers → bitsOf n 15 0 ≠ 0 → 2 * bitsOf n 15 0 ≤ bitsOf n 47 32 →
      exec (.fabricTimersWrite v rp) s = .next (ft.writeFields Reg.fabricTimers n)) ∧
    (s.Reaches rp Reg.fabricTimers → (bitsOf n 15 0 = 0 ∨ bitsOf n 47 32 < 2 * bitsOf n 15 0) →
      exec (.fabricTimersWrite v rp) s = .next ft) ∧
    (s.Reaches rp a → ts.flag a F.TIME_STATUS_MASTER = false →
      exec (.timeMaster true rp) s =
        .next ((ts.setReg a 0).setFlds a [(F.TIME_STATUS_MASTER, 1), (F.TIME_STATUS_LOCKED, 1)])) ∧
    (s.Reaches rp a → ts.flag a F.TIME_STATUS_MASTER = true → exec (.timeMaster false rp) s =
      .next (ts.setFlds a [(F.TIME_STATUS_MASTER, 0), (F.TIME_STATUS_LOCKED, 0)])) ∧
    (s.Sound → s.portUp k.val = true → (s.flag a F.TIME_STATUS_MASTER = false ∨ m.toNat < s.nodeId) →
      (∀ x, heard.timeBest = some (k.val, x) → exec (.timePacket k m hops off) s = .next ((heard.setFlds a
        [(F.TIME_STATUS_LOCKED, b2n (decide (d.natAbs ≤ 10 + 5 * hops.toNat) && !leads)), (F.TIME_STATUS_HOPS, x.hops),
          (F.TIME_STATUS_OFFSET, off.toNat)]).modFab fun f => { f with gain := (-d).toNat, lag := d.toNat })) ∧
      (∀ o x, heard.timeBest = some (o, x) → o ≠ k.val → exec (.timePacket k m hops off) s = .next heard)) ∧
    (s.Sound → s.flag a F.TIME_STATUS_MASTER = true → s.nodeId ≤ m.toNat →
      exec (.timePacket k m hops off) s = .next s)

/-! ### Security, reset and the world outside -/

/-- LINK_ENC and DEBUG_LOCK take no write in approved mode; APPROVED_REQ is set for good and the mode follows where nothing
refuses it; 0x5EC0 followed within 10 µs by 0x0ED5 zeroises, as the lid mesh and the ZEROISE input do; the events of Table 21-8
that are only recorded outside approved mode zeroise in it (R616, R617, R620). -/
def Obligations.SecurityInputs : Prop :=
  ∀ (s : State) (on : Bool) (v : Word) (rp : RegPath) (at_ : Nat),
    let c := s.wakeFor Reg.secCtrl
    let z := s.wakeFor Reg.secZeroise
    let q := c.setFld Reg.secCtrl F.SEC_CTRL_APPROVED_REQ 1
    (s.Reaches rp Reg.secCtrl → c.approved = true →
      exec (.linkEnc on rp) s = .next c ∧ exec (.debugLock rp) s = .next c) ∧
    (s.Reaches rp Reg.secCtrl → c.approved = false →
      exec (.linkEnc on rp) s = .next (c.setFld Reg.secCtrl F.SEC_CTRL_LINK_ENC (b2n on)) ∧
        exec (.debugLock rp) s = .next (c.setFld Reg.secCtrl F.SEC_CTRL_DEBUG_LOCK 1)) ∧
    (s.Reaches rp Reg.secCtrl → c.flag Reg.secCtrl F.SEC_CTRL_APPROVED_REQ = true →
      exec (.approvedReq rp) s = .next c) ∧
    (s.Reaches rp Reg.secCtrl → c.flag Reg.secCtrl F.SEC_CTRL_APPROVED_REQ = false → q.refuseReason = none →
      exec (.approvedReq rp) s =
        .next (((q.setFld Reg.secStatus F.SEC_STATUS_APPROVED 1).dropStaged 0).dropStaged 1)) ∧
    (∀ r, s.Reaches rp Reg.secCtrl → c.flag Reg.secCtrl F.SEC_CTRL_APPROVED_REQ = false → q.refuseReason = some r →
      exec (.approvedReq rp) s = .next (q.setFlds Reg.secStatus
        [(F.SEC_STATUS_APPROVED_REFUSED, 1), (F.SEC_STATUS_REFUSE_REASON, r)])) ∧
    (s.Reaches rp Reg.secZeroise → v.toNat % 65536 = 0x5EC0 →
      exec (.secZeroise v rp) s = .next (z.modSec fun x => { x with armedAt := some z.now })) ∧
    (s.Reaches rp Reg.secZeroise → v.toNat % 65536 = 0x0ED5 → z.sec.armedAt = some at_ → z.now ≤ at_ + 10000 →
      exec (.secZeroise v rp) s = .next (z.zeroise 3)) ∧
    (s.Reaches rp Reg.secZeroise → v.toNat % 65536 ≠ 0x5EC0 →
      (v.toNat % 65536 = 0x0ED5 → ∀ a, z.sec.armedAt = some a → a + 10000 < z.now) →
      exec (.secZeroise v rp) s = .next (z.modSec fun x => { x with armedAt := none })) ∧
    (s.Sound → exec .lidMeshOpen s = .next (s.zeroise 1) ∧ exec .zeroiseInput s = .next (s.zeroise 2)) ∧
    (s.Sound → s.approved = true → exec .aonRailExcursion s = .next (s.zeroise 4) ∧ exec .pdieCold s = .next (s.zeroise 5)) ∧
    (s.Sound → s.approved = false → exec .aonRailExcursion s = .next (s.tamper 4) ∧ exec .pdieCold s = .next (s.tamper 5)) ∧
    (s.Sound → s.debugLocked = true → exec .tapDebugInstruction s =
      .next (({ s with tap := { s.tap with inst := tapBypass, loaded := tapBypass } } : State).tamper 6)) ∧
    (∀ k, k < 16 → (s.tamper k).fld Reg.secTamper F.SEC_TAMPER_LAST_CAUSE = k ∧
      (s.tamper k).fld Reg.secTamper F.SEC_TAMPER_TIME = s.now % 2 ^ 48) ∧
    (s.Sound → exec .selftestFailure s = .next (s.setFld Reg.secStatus F.SEC_STATUS_MODULE_ERROR 1))

/-- Resets: RESET_N and the PERST_N inputs at their fused levels, the hot reset of a host port, the reset of one virtual
function, RESET_CTRL; BOOT runs the package's boot; recovery takes an image, or times out (R625 to R640, R647). -/
def Obligations.Resets : Prop :=
  ∀ (s : State) (k : Fin 2) (p : Fin 8) (opt : Bool) (n : Nat) (v : Word) (rp : RegPath) (e : BootEnv) (bytes : BitVec 32),
    let low := fun (t : State) => ({ t with tap := { t.tap with low := true, inst := t.tap.loaded } } : State)
    let fell := low (s.levelSeven false 2 false opt false)
    let t := ((s.setFld Reg.recoveryCtrl F.RECOVERY_CTRL_STATE 0).endRecovery k.val).bootStop k.val 4
    let u := t.setFld (Reg.hostPortStatus k.val) F.HOST_PORT_STATUS_STATE 0
    let fn := p.val + 1
    let h := s.host k.val
    (s.Sound → s.tap.low = false → boundary fell.tap.inst = false → exec (.resetN none opt) s = .next fell) ∧
    (s.Sound → s.tap.low = true → exec (.resetN none opt) s = .next s) ∧
    (s.Sound → s.tap.low = false → n < 50 → exec (.resetN (some n) opt) s = .next s) ∧
    (s.Sound → s.tap.low = false → 50 ≤ n →
      exec (.resetN (some n) opt) s = .next (s.levelSeven false 2 (decide (n < 10000)) opt false)) ∧
    (s.Sound → exec .perstAN s = .next (s.perst 0 F.RESET_FUSE_PERST_A_LEVEL)) ∧
    (s.Sound → exec .perstBN s = .next (s.perst 1 F.RESET_FUSE_PERST_B_LEVEL)) ∧
    (s.Sound → s.booting = false → exec (.pcieHotReset k) s = .next (s.portReset k.val 5)) ∧
    (s.Sound → s.vfExists k.val p.val = true → exec (.vfFlr k p) s = .next ((s.setHost k.val { h with
        window := h.window.filter fun x => x.1 / 8 != fn
        master := h.master.filter (· != fn)
        msixOn := h.msixOn.filter (· != fn)
        unmasked := h.unmasked.filter fun x => x / 512 != fn
        waiting := h.waiting.filter fun x => x / 512 != fn }).faultCanals
      (((s.setHost k.val { h with
        window := h.window.filter fun x => x.1 / 8 != fn
        master := h.master.filter (· != fn)
        msixOn := h.msixOn.filter (· != fn)
        unmasked := h.unmasked.filter fun x => x / 512 != fn
        waiting := h.waiting.filter fun x => x / 512 != fn }).canalsBehind k.val).filter fun c =>
          s.canalPart c == some p.val) 0x02)) ∧
    (s.Reaches rp Reg.resetCtrl → exec (.resetCtrl v rp) s = .next ((s.wakeFor Reg.resetCtrl).writeResetCtrl v.toNat)) ∧
    (bitsOf v.toNat 63 48 ≠ 0xB0E7 → s.writeResetCtrl v.toNat = s) ∧
    (s.Sound → exec (.boot e) s = .next (s.boot e)) ∧
    (s.Sound → exec (.recoveryGo k bytes) s = .next (s.recoveryGo k.val bytes.toNat)) ∧
    (s.Sound → s.recovering k.val = true → s.fld Reg.recoveryCtrl F.RECOVERY_CTRL_STATE ≠ 4 → u.booting = true →
      exec (.recoveryTimeout k) s = .next u.stoppedAlert)

/-- Host ports: a retrained link, an error on a ring read or a tally write, an access of window 4, a register write; clocks that
fail (R641 to R649, R669, R670, R681). -/
def Obligations.HostPorts : Prop :=
  ∀ (s : State) (k f : Fin 2) (x16 g64 : Bool) (c : Fin 256) (w : Win4) (errs : List (Nat × Ecc)) (x : Contest)
    (p la : Nat) (at_ : WriteAt),
    let a := Reg.hostPortStatus k.val
    let t := s.setFlds a [(F.HOST_PORT_STATUS_WIDTH, if x16 then 2 else 1), (F.HOST_PORT_STATUS_RATE, b2n g64)]
    let awake := s.fld Reg.weirStatus F.WEIR_STATUS_STATE ≠ 4
    (s.Sound → s.fld a F.HOST_PORT_STATUS_STATE ≠ 2 → s.fld (Reg.bootStatus k.val) F.BOOT_STATUS_STAGE ≠ 0xF →
      t.recovering k.val = false →
      exec (.pcieRetrain k (some (x16, g64))) s = .next (t.setFld a F.HOST_PORT_STATUS_STATE 2)) ∧
    (s.Sound → s.canalActive c.val = true → s.fld (Reg.canalCtrl c.val) F.CANAL_CTRL_RING_LOC ≠ 2 →
      exec (.pcieCompletionError c false) s = .next (s.canalFault c.val 0x02)) ∧
    (s.Sound → s.booted = true → s.fld a F.HOST_PORT_STATUS_STATE = 2 → awake →
      (w.vf.any fun p => !s.vfExists k.val p.val) = false → s.win4Fault k.val w = none → s.win4Addr k.val w = some (p, la) →
      exec (.window4Access k w errs x) s = .next (s.win4 k.val p la w errs x)) ∧
    (s.Sound → s.health.clkOut.contains (2 + f.val) = false → exec (.srefclkLoss f) s =
      .next ((List.range 9).foldl (fun t p => if t.linked (9 * f.val + p) then t.linkLost (9 * f.val + p) else t)
        (s.clockOut (2 + f.val)))) ∧
    (s.Sound → s.health.clkOut.contains k.val = true → exec (.refclkLoss k) s = .next s) ∧
    (s.Sound → s.health.clkOut.contains k.val = false → (s.clockOut k.val).health.clkOut.contains (1 - k.val) = false →
      k.val ≠ s.activePdie → s.booting = false →
      exec (.refclkLoss k) s = .next ((s.clockOut k.val).portReset k.val 5)) ∧
    (s.Sound → exec (.aonClkLoss k) s = .next (s.clockOut (4 + k.val))) ∧
    (s.Sound → exec (.registerWrite at_) s = .next (s.hostWriteAt at_))

/-- The management port of P-die k answers the listed CCCs: the first ENTDAA or SETDASA takes it to I3C SDR, RSTDAA back to SMBus,
and the two limits take at most 256 bytes; registers are read and written over it (R650, R651). -/
def Obligations.ManagementPort : Prop :=
  ∀ (s : State) (k : Fin 2) (addr : BitVec 7) (n : BitVec 16) (off : BitVec 26) (v : Word), s.Sound →
    let m := s.mgmtPort k.val
    let set := fun (x : MgmtPort) => s.setMgmt k.val x
    (m.i3c = false → exec (.entdaa k addr) s = .next (set { m with i3c := true, addr := addr.toNat }) ∧
      exec (.setdasa k addr) s = .next (set { m with i3c := true, addr := addr.toNat })) ∧
    exec (.rstdaa k) s = .next (set { m with i3c := false, addr := 0 }) ∧
    exec (.enec k) s = .next (set { m with ibiOn := true }) ∧
    exec (.disec k) s = .next (set { m with ibiOn := false }) ∧
    exec (.setmwl k n) s = .next (set { m with mwl := min n.toNat 256 }) ∧
    exec (.setmrl k n) s = .next (set { m with mrl := min n.toNat 256 }) ∧
    exec (.getmwl k) s = .next (s.emit (.bytes (bytesBE 2 m.mwl))) ∧
    exec (.getmrl k) s = .next (s.emit (.bytes (bytesBE 2 m.mrl))) ∧
    exec (.getpid k) s = .next (s.emitFixed k.val 0 6) ∧ exec (.getbcr k) s = .next (s.emitFixed k.val 1 1) ∧
    exec (.getdcr k) s = .next (s.emitFixed k.val 2 1) ∧ exec (.getstatus k) s = .next (s.emitFree 2) ∧
    (s.fld Reg.resetFuse F.RESET_FUSE_RSTACT_LEVEL = 6 → s.booting = false →
      exec (.rstact k) s = .next (s.resetPdie k.val 7)) ∧
    (s.fld Reg.resetFuse F.RESET_FUSE_RSTACT_LEVEL ≠ 6 →
      exec (.rstact k) s = .next (s.levelSeven false 7 false false false)) ∧
    exec (.regRead k off) s = .next (s.mgmtRead k.val off.toNat) ∧
    exec (.regWrite k off v) s = .next (s.writeAt (mgmtPath k) off.toNat 8 v)

/-- A P-die that has booted answers each SPDM request in its place, and moves the session along; one out of place, or in the
module's error state, is answered with ERROR and changes nothing else; a P-die that has not booted answers none (R613). -/
def Obligations.SpdmRequests : Prop :=
  ∀ (s : State) (k : Fin 2) (slot : Nat) (index : Fin 6) (signed both : Bool) (id : BitVec 32), s.Sound →
    s.secError = false →
    let n := k.val
    let ok := fun (t : State) (req : Nat) => (.next (t.emit (.spdm n req false)) : Host.Outcome State Fault Refusal)
    let bad := fun (req : Nat) => (.next (s.emit (.spdm n req true)) : Host.Outcome State Fault Refusal)
    let room := (s.sec.sessions.filter fun v => v.pdie == n).length < 4 ∧ ∀ v ∈ s.sec.sessions, v.id ≠ id.toNat
    (s.fld (Reg.bootStatus n) F.BOOT_STATUS_STAGE ≠ 8 → exec (.getVersion k) s = .next s) ∧
    (s.fld (Reg.bootStatus n) F.BOOT_STATUS_STAGE = 8 →
      exec (.getVersion k) s = ok (s.setStage n 1) 0 ∧
      (s.stage n = 1 → exec (.getCapabilities k) s = ok (s.setStage n 2) 1) ∧
      (s.stage n ≠ 1 → exec (.getCapabilities k) s = bad 1) ∧
      (s.stage n = 2 → exec (.negotiateAlgorithms k) s = ok (s.setStage n 3) 2) ∧
      (s.stage n = 3 →
        exec (.getDigests k) s = ok s 3 ∧
        (slot < 2 → exec (.getCertificate k slot) s = ok s 4) ∧
        (2 ≤ slot → exec (.getCertificate k slot) s = bad 4) ∧
        (s.sec.dusShut = false → exec (.challenge k) s = ok s 5) ∧
        (s.sec.dusShut = false → index.val ≠ 0 →
          exec (.getMeasurements k index signed) s = ok (s.measurement index.val) 6) ∧
        (s.sec.dusShut = false → room → exec (.keyExchange k id both) s = ok (s.modSec fun x => { x with
          sessions := x.sessions ++ [⟨n, id.toNat, x.drawn, both, false, none⟩]
          drawn := x.drawn + 1 }) 7)) ∧
      (s.session? n id.toNat false = true → exec (.finish k id true) s = ok ((s.modSec fun x => { x with
        sessions := x.sessions.map fun v =>
          if v.pdie == n && v.id == id.toNat then { v with open_ := true } else v }).showSessions) 8) ∧
      (s.session? n id.toNat true = true →
        exec (.heartbeat k id) s = ok s 9 ∧ exec (.keyUpdate k id) s = ok s 10 ∧
        exec (.endSession k id) s = ok ((s.modSec fun x => { x with
          sessions := x.sessions.filter fun v => !(v.pdie == n && v.id == id.toNat) }).showSessions) 11))

/-- The TAP takes an instruction: outside approved mode the boundary-scan instructions act only while RESET_N is low, and as BYPASS
until then; in approved mode all but BYPASS and IDCODE act as BYPASS; a debug instruction while debug is locked is recorded as
tamper event 6; TRST_N selects IDCODE (R653, R616, R617). -/
def Obligations.TestPort : Prop :=
  ∀ (s : State) (i : Nat) (row : Instr), s.Sound →
    let load := fun (t : State) (inst loaded : Nat) => { t with tap := { t.tap with inst := inst, loaded := loaded } }
    (exec .bypass s = .next (s.tapLoad tapBypass)) ∧
    (exec .idcode s = .next ((s.tapLoad tapIdcode).emit (.value 0x10E6A1F5))) ∧
    (exec .trstN s = .next (load s tapIdcode tapIdcode)) ∧
    (exec .samplePreload s = .next (if s.approved then load s tapBypass tapBypass else load s tapSample tapSample)) ∧
    ((i, row) ∈ [(tapExtest, Instr.extest), (tapPulse, .extestPulse), (tapTrain, .extestTrain), (tapClamp, .clamp),
        (tapHighz, .highz)] →
      (s.approved = true → exec row s = .next (load s tapBypass tapBypass)) ∧
      (s.approved = false → s.tap.low = false → exec row s = .next (load s tapBypass i)) ∧
      (s.approved = false → s.tap.low = true → exec row s = .next ((load s i i).emit (.pins i)))) ∧
    (s.debugLocked = true → exec .tapDebugInstruction s = .next ((load s tapBypass tapBypass).tamper 6)) ∧
    (s.debugLocked = false → s.approved = false →
      exec .tapDebugInstruction s = .next (load s tapDebug tapDebug))
end

