-- ==== Sys2Proof/Laws/Flits.lean ====
section
/-! SUPPORT. What a flit's bytes give back: a flit built from its fields has its length and a good CRC (R493, R494). -/

namespace Sys2Proof.Machine

@[simp] theorem length_bytesLE (k n : Nat) : (bytesLE k n).length = k := by
  induction k generalizing n with
  | zero => rfl
  | succ k ih => simp [bytesLE, ih]

theorem numLE_bytesLE (k n : Nat) : numLE (bytesLE k n) = n % 256 ^ k := by
  induction k generalizing n with
  | zero => simp [bytesLE, numLE, Nat.mod_one]
  | succ k ih =>
    have h := (Nat.mod_mul (x := n) (a := 256) (b := 256 ^ k)).symm
    rw [← Nat.pow_succ'] at h
    rw [bytesLE, numLE, ih, BitVec.toNat_ofNat]
    exact h

theorem length_sliceB (bs : List Byte) (lo k : Nat) : (sliceB bs lo k).length = k := by
  simp [sliceB]

theorem crc32c_lt (bs : List Byte) : crc32c bs < 2 ^ 32 := BitVec.isLt _

theorem flitGood_flitBytes (fseq ack : Nat) (credit : List Nat) (ftype first notice : Nat) (body : List Byte) :
    flitGood (flitBytes fseq ack credit ftype first notice body) = true := by
  unfold flitBytes
  generalize hh : bytesLE 2 fseq ++ bytesLE 2 ack ++ (List.range 4).flatMap (fun v => bytesLE 2 (credit.getD v 0)) ++
      bytesLE 1 ftype ++ bytesLE 1 first ++ bytesLE 1 notice ++ List.replicate 11 0 = head
  have h1 : head.length = 26 := by rw [← hh]; simp [List.range, List.range.loop]
  have h2 := length_sliceB body 0 512
  generalize sliceB body 0 512 = full at h2
  have s1 : sliceB (head ++ bytesLE 4 (crc32c (head ++ full)) ++ full) 0 26 = head := by
    simp [sliceB, h1]
  have s2 : sliceB (head ++ bytesLE 4 (crc32c (head ++ full)) ++ full) 30 512 = full := by
    simp [sliceB, h1, h2, List.drop_append, List.drop_of_length_le]
  have s3 : sliceB (head ++ bytesLE 4 (crc32c (head ++ full)) ++ full) 26 4 = bytesLE 4 (crc32c (head ++ full)) := by
    simp [sliceB, h1]
  have c : crc32c (head ++ full) % 256 ^ 4 = crc32c (head ++ full) := Nat.mod_eq_of_lt (crc32c_lt _)
  simp only [flitGood, flitCrc, fieldB, s1, s2]
  rw [s3, numLE_bytesLE, c]
  simp [h1, h2]

end Sys2Proof.Machine
end

