-- ==== Sys2Proof/Laws/Sparse.lean ====
section
/-! SUPPORT. Laws of the sparse stores: what a key reads as after a write, and that the canonical form is kept. -/

-- One declaration after the other: elaborated side by side, they ask for more threads than the check allows.
set_option Elab.async false

namespace Sys2Proof.Machine

variable {α : Type}

theorem spGet_spPut_same (d : Nat → α) (k : Nat) (v : α) (m : List (Nat × α)) : spGet d (spPut k v m) k = v := by
  induction m with
  | nil => simp [spPut, spGet]
  | cons a rest ih =>
    obtain ⟨j, w⟩ := a
    unfold spPut
    split_ifs with h1 h2
    · simp [spGet]
    · simp [spGet]
    · simp [spGet, Ne.symm h2, ih]

theorem spGet_spPut_other (d : Nat → α) {k j : Nat} (h : k ≠ j) (v : α) (m : List (Nat × α)) :
    spGet d (spPut k v m) j = spGet d m j := by
  induction m with
  | nil => simp [spPut, spGet, h]
  | cons a rest ih =>
    obtain ⟨i, w⟩ := a
    unfold spPut
    split_ifs with h1 h2
    · simp [spGet, h]
    · subst h2; simp [spGet, h]
    · simp [spGet, ih]

theorem spGet_filter_keep (d : Nat → α) (p : Nat → Bool) {j : Nat} (h : p j = true) (m : List (Nat × α)) :
    spGet d (m.filter fun c => p c.1) j = spGet d m j := by
  induction m with
  | nil => rfl
  | cons a rest ih =>
    obtain ⟨i, w⟩ := a
    by_cases hi : i = j
    · subst hi; simp [h, spGet]
    · by_cases hp : p i = true
      · simp [hp, spGet, hi, ih]
      · simp [hp, spGet, hi, ih]

theorem spGet_filter_drop (d : Nat → α) (p : Nat → Bool) {j : Nat} (h : p j = false) (m : List (Nat × α)) :
    spGet d (m.filter fun c => p c.1) j = d j := by
  induction m with
  | nil => rfl
  | cons a rest ih =>
    obtain ⟨i, w⟩ := a
    by_cases hi : i = j
    · subst hi; simp [h, ih]
    · by_cases hp : p i = true
      · simp [hp, spGet, hi, ih]
      · simp [hp, ih]

theorem spGet_spDel_same (d : Nat → α) (k : Nat) (m : List (Nat × α)) : spGet d (spDel k m) k = d k :=
  spGet_filter_drop d (fun i => i != k) (by simp) m

theorem spGet_spDel_other (d : Nat → α) {k j : Nat} (h : k ≠ j) (m : List (Nat × α)) :
    spGet d (spDel k m) j = spGet d m j :=
  spGet_filter_keep d (fun i => i != k) (by simpa using Ne.symm h) m

/-- A key reads as what was last written to it. -/
@[simp] theorem spGet_spSet_same [DecidableEq α] (d : Nat → α) (k : Nat) (v : α) (m : List (Nat × α)) :
    spGet d (spSet d k v m) k = v := by
  unfold spSet
  split_ifs with h
  · rw [spGet_spDel_same, h]
  · exact spGet_spPut_same d k v m

/-- A write leaves every other key alone. -/
theorem spGet_spSet_other [DecidableEq α] (d : Nat → α) {k j : Nat} (h : k ≠ j) (v : α) (m : List (Nat × α)) :
    spGet d (spSet d k v m) j = spGet d m j := by
  unfold spSet
  split_ifs
  · exact spGet_spDel_other d h m
  · exact spGet_spPut_other d h v m

theorem spRising_cons (a : Nat × α) (m : List (Nat × α)) :
    spRising (a :: m) = true ↔ (∀ b ∈ m, a.1 < b.1) ∧ spRising m = true := by
  induction m generalizing a with
  | nil => simp [spRising]
  | cons b rest ih =>
    simp only [spRising, Bool.and_eq_true, decide_eq_true_eq, List.mem_cons, forall_eq_or_imp]
    constructor
    · rintro ⟨h, hr⟩
      exact ⟨⟨h, fun c hc => Nat.lt_trans h (((ih b).mp hr).1 c hc)⟩, hr⟩
    · rintro ⟨⟨h, -⟩, hr⟩
      exact ⟨h, hr⟩

theorem mem_spPut {k : Nat} {v : α} {m : List (Nat × α)} {c : Nat × α} (h : c ∈ spPut k v m) : c = (k, v) ∨ c ∈ m := by
  induction m with
  | nil => simpa [spPut] using h
  | cons a rest ih =>
    obtain ⟨j, w⟩ := a
    unfold spPut at h
    split_ifs at h with h1 h2
    · simpa using h
    · rcases List.mem_cons.mp h with h | h
      · exact .inl h
      · exact .inr (List.mem_cons_of_mem _ h)
    · rcases List.mem_cons.mp h with h | h
      · exact .inr (h ▸ List.mem_cons_self)
      · exact (ih h).imp id (List.mem_cons_of_mem _)

theorem spRising_spPut (k : Nat) (v : α) (m : List (Nat × α)) (h : spRising m = true) : spRising (spPut k v m) = true := by
  induction m with
  | nil => rfl
  | cons a rest ih =>
    obtain ⟨j, w⟩ := a
    have hr := (spRising_cons (j, w) rest).mp h
    unfold spPut
    split_ifs with h1 h2
    · refine (spRising_cons _ _).mpr ⟨fun b hb => ?_, h⟩
      rcases List.mem_cons.mp hb with rfl | hb
      · exact h1
      · exact Nat.lt_trans h1 (hr.1 b hb)
    · subst h2
      exact (spRising_cons _ _).mpr hr
    · refine (spRising_cons _ _).mpr ⟨fun b hb => ?_, ih hr.2⟩
      rcases mem_spPut hb with rfl | hb
      · show j < k
        omega
      · exact hr.1 b hb

theorem spRising_filter (p : Nat × α → Bool) (m : List (Nat × α)) (h : spRising m = true) :
    spRising (m.filter p) = true := by
  induction m with
  | nil => rfl
  | cons a rest ih =>
    have hr := (spRising_cons a rest).mp h
    rw [List.filter_cons]
    split_ifs
    · exact (spRising_cons _ _).mpr ⟨fun b hb => hr.1 b (List.mem_filter.mp hb).1, ih hr.2⟩
    · exact ih hr.2

theorem spWf_iff [DecidableEq α] (d : Nat → α) (m : List (Nat × α)) :
    spWf d m = true ↔ spRising m = true ∧ ∀ c ∈ m, c.2 ≠ d c.1 := by
  simp [spWf, List.all_eq_true]

/-- A write keeps the canonical form. -/
theorem spWf_spSet [DecidableEq α] (d : Nat → α) (k : Nat) (v : α) (m : List (Nat × α)) (h : spWf d m = true) :
    spWf d (spSet d k v m) = true := by
  rw [spWf_iff] at h ⊢
  unfold spSet
  split_ifs with hv
  · exact ⟨spRising_filter _ m h.1, fun c hc => h.2 c (List.mem_filter.mp hc).1⟩
  · refine ⟨spRising_spPut k v m h.1, fun c hc => ?_⟩
    rcases mem_spPut hc with rfl | hc
    · exact hv
    · exact h.2 c hc

/-- A listed key reads as its value. -/
theorem spGet_of_mem [DecidableEq α] (d : Nat → α) (m : List (Nat × α)) (h : spRising m = true) {c : Nat × α} (hc : c ∈ m) :
    spGet d m c.1 = c.2 := by
  induction m with
  | nil => simp at hc
  | cons a rest ih =>
    obtain ⟨j, w⟩ := a
    have hr := (spRising_cons (j, w) rest).mp h
    rcases List.mem_cons.mp hc with rfl | hc
    · simp [spGet]
    · have := hr.1 c hc
      simp only at this
      simp [spGet, Nat.ne_of_lt this, ih hr.2 hc]

end Sys2Proof.Machine
end

