-- ==== Sys2Proof/Laws/State.lean ====
section
/-! SUPPORT. What each plain update of the state leaves alone: one lemma per field and update, true by definition. -/

-- One declaration after the other: elaborated side by side, they ask for more threads than the check allows.
set_option Elab.async false

namespace Sys2Proof.Machine

@[simp] theorem State.setReg_pending (s : State) (a v : Nat) : (s.setReg a v).pending = s.pending := rfl
@[simp] theorem State.setReg_freeCount (s : State) (a v : Nat) : (s.setReg a v).freeCount = s.freeCount := rfl
@[simp] theorem State.setReg_out (s : State) (a v : Nat) : (s.setReg a v).out = s.out := rfl
@[simp] theorem State.setReg_mem (s : State) (a v : Nat) : (s.setReg a v).mem = s.mem := rfl
@[simp] theorem State.setReg_fills (s : State) (a v : Nat) : (s.setReg a v).fills = s.fills := rfl
@[simp] theorem State.setReg_poison (s : State) (a v : Nat) : (s.setReg a v).poison = s.poison := rfl
@[simp] theorem State.setReg_armed (s : State) (a v : Nat) : (s.setReg a v).armed = s.armed := rfl
@[simp] theorem State.setReg_dirty (s : State) (a v : Nat) : (s.setReg a v).dirty = s.dirty := rfl
@[simp] theorem State.setReg_clusters (s : State) (a v : Nat) : (s.setReg a v).clusters = s.clusters := rfl
@[simp] theorem State.setReg_maps (s : State) (a v : Nat) : (s.setReg a v).maps = s.maps := rfl
@[simp] theorem State.setReg_mapVer (s : State) (a v : Nat) : (s.setReg a v).mapVer = s.mapVer := rfl
@[simp] theorem State.setReg_unmapped (s : State) (a v : Nat) : (s.setReg a v).unmapped = s.unmapped := rfl
@[simp] theorem State.setReg_watches (s : State) (a v : Nat) : (s.setReg a v).watches = s.watches := rfl
@[simp] theorem State.setReg_cargo (s : State) (a v : Nat) : (s.setReg a v).cargo = s.cargo := rfl
@[simp] theorem State.setReg_barges (s : State) (a v : Nat) : (s.setReg a v).barges = s.barges := rfl
@[simp] theorem State.setReg_done (s : State) (a v : Nat) : (s.setReg a v).done = s.done := rfl
@[simp] theorem State.setReg_tallies (s : State) (a v : Nat) : (s.setReg a v).tallies = s.tallies := rfl
@[simp] theorem State.setReg_log (s : State) (a v : Nat) : (s.setReg a v).log = s.log := rfl
@[simp] theorem State.setReg_errs (s : State) (a v : Nat) : (s.setReg a v).errs = s.errs := rfl
@[simp] theorem State.setReg_nmOps (s : State) (a v : Nat) : (s.setReg a v).nmOps = s.nmOps := rfl
@[simp] theorem State.setReg_nmNum (s : State) (a v : Nat) : (s.setReg a v).nmNum = s.nmNum := rfl
@[simp] theorem State.setReg_fronts (s : State) (a v : Nat) : (s.setReg a v).fronts = s.fronts := rfl
@[simp] theorem State.setReg_krylov (s : State) (a v : Nat) : (s.setReg a v).krylov = s.krylov := rfl
@[simp] theorem State.setReg_chains (s : State) (a v : Nat) : (s.setReg a v).chains = s.chains := rfl
@[simp] theorem State.setReg_tokenKey (s : State) (a v : Nat) : (s.setReg a v).tokenKey = s.tokenKey := rfl
@[simp] theorem State.setReg_partReq (s : State) (a v : Nat) : (s.setReg a v).partReq = s.partReq := rfl
@[simp] theorem State.setReg_fabric (s : State) (a v : Nat) : (s.setReg a v).fabric = s.fabric := rfl
@[simp] theorem State.setReg_health (s : State) (a v : Nat) : (s.setReg a v).health = s.health := rfl
@[simp] theorem State.setReg_heat (s : State) (a v : Nat) : (s.setReg a v).heat = s.heat := rfl
@[simp] theorem State.setReg_e4 (s : State) (a v : Nat) : (s.setReg a v).e4 = s.e4 := rfl
@[simp] theorem State.setReg_hostPort (s : State) (a v : Nat) : (s.setReg a v).hostPort = s.hostPort := rfl
@[simp] theorem State.setReg_mgmt (s : State) (a v : Nat) : (s.setReg a v).mgmt = s.mgmt := rfl
@[simp] theorem State.setReg_logRead (s : State) (a v : Nat) : (s.setReg a v).logRead = s.logRead := rfl
@[simp] theorem State.setReg_streams (s : State) (a v : Nat) : (s.setReg a v).streams = s.streams := rfl
@[simp] theorem State.setReg_sec (s : State) (a v : Nat) : (s.setReg a v).sec = s.sec := rfl
@[simp] theorem State.setReg_subs (s : State) (a v : Nat) : (s.setReg a v).subs = s.subs := rfl
@[simp] theorem State.setReg_mapWait (s : State) (a v : Nat) : (s.setReg a v).mapWait = s.mapWait := rfl
@[simp] theorem State.setReg_copies (s : State) (a v : Nat) : (s.setReg a v).copies = s.copies := rfl
@[simp] theorem State.setReg_inService (s : State) (a v : Nat) : (s.setReg a v).inService = s.inService := rfl
@[simp] theorem State.setReg_factory (s : State) (a v : Nat) : (s.setReg a v).factory = s.factory := rfl
@[simp] theorem State.setReg_weir (s : State) (a v : Nat) : (s.setReg a v).weir = s.weir := rfl
@[simp] theorem State.setReg_booting (s : State) (a v : Nat) : (s.setReg a v).booting = s.booting := rfl
@[simp] theorem State.setReg_tap (s : State) (a v : Nat) : (s.setReg a v).tap = s.tap := rfl

@[simp] theorem State.setFld_pending (s : State) (a : Nat) (f : Fld) (v : Nat) : (s.setFld a f v).pending = s.pending := rfl
@[simp] theorem State.setFld_freeCount (s : State) (a : Nat) (f : Fld) (v : Nat) : (s.setFld a f v).freeCount = s.freeCount := rfl
@[simp] theorem State.setFld_out (s : State) (a : Nat) (f : Fld) (v : Nat) : (s.setFld a f v).out = s.out := rfl
@[simp] theorem State.setFld_mem (s : State) (a : Nat) (f : Fld) (v : Nat) : (s.setFld a f v).mem = s.mem := rfl
@[simp] theorem State.setFld_fills (s : State) (a : Nat) (f : Fld) (v : Nat) : (s.setFld a f v).fills = s.fills := rfl
@[simp] theorem State.setFld_poison (s : State) (a : Nat) (f : Fld) (v : Nat) : (s.setFld a f v).poison = s.poison := rfl
@[simp] theorem State.setFld_armed (s : State) (a : Nat) (f : Fld) (v : Nat) : (s.setFld a f v).armed = s.armed := rfl
@[simp] theorem State.setFld_dirty (s : State) (a : Nat) (f : Fld) (v : Nat) : (s.setFld a f v).dirty = s.dirty := rfl
@[simp] theorem State.setFld_clusters (s : State) (a : Nat) (f : Fld) (v : Nat) : (s.setFld a f v).clusters = s.clusters := rfl
@[simp] theorem State.setFld_maps (s : State) (a : Nat) (f : Fld) (v : Nat) : (s.setFld a f v).maps = s.maps := rfl
@[simp] theorem State.setFld_mapVer (s : State) (a : Nat) (f : Fld) (v : Nat) : (s.setFld a f v).mapVer = s.mapVer := rfl
@[simp] theorem State.setFld_unmapped (s : State) (a : Nat) (f : Fld) (v : Nat) : (s.setFld a f v).unmapped = s.unmapped := rfl
@[simp] theorem State.setFld_watches (s : State) (a : Nat) (f : Fld) (v : Nat) : (s.setFld a f v).watches = s.watches := rfl
@[simp] theorem State.setFld_cargo (s : State) (a : Nat) (f : Fld) (v : Nat) : (s.setFld a f v).cargo = s.cargo := rfl
@[simp] theorem State.setFld_barges (s : State) (a : Nat) (f : Fld) (v : Nat) : (s.setFld a f v).barges = s.barges := rfl
@[simp] theorem State.setFld_done (s : State) (a : Nat) (f : Fld) (v : Nat) : (s.setFld a f v).done = s.done := rfl
@[simp] theorem State.setFld_tallies (s : State) (a : Nat) (f : Fld) (v : Nat) : (s.setFld a f v).tallies = s.tallies := rfl
@[simp] theorem State.setFld_log (s : State) (a : Nat) (f : Fld) (v : Nat) : (s.setFld a f v).log = s.log := rfl
@[simp] theorem State.setFld_errs (s : State) (a : Nat) (f : Fld) (v : Nat) : (s.setFld a f v).errs = s.errs := rfl
@[simp] theorem State.setFld_nmOps (s : State) (a : Nat) (f : Fld) (v : Nat) : (s.setFld a f v).nmOps = s.nmOps := rfl
@[simp] theorem State.setFld_nmNum (s : State) (a : Nat) (f : Fld) (v : Nat) : (s.setFld a f v).nmNum = s.nmNum := rfl
@[simp] theorem State.setFld_fronts (s : State) (a : Nat) (f : Fld) (v : Nat) : (s.setFld a f v).fronts = s.fronts := rfl
@[simp] theorem State.setFld_krylov (s : State) (a : Nat) (f : Fld) (v : Nat) : (s.setFld a f v).krylov = s.krylov := rfl
@[simp] theorem State.setFld_chains (s : State) (a : Nat) (f : Fld) (v : Nat) : (s.setFld a f v).chains = s.chains := rfl
@[simp] theorem State.setFld_tokenKey (s : State) (a : Nat) (f : Fld) (v : Nat) : (s.setFld a f v).tokenKey = s.tokenKey := rfl
@[simp] theorem State.setFld_partReq (s : State) (a : Nat) (f : Fld) (v : Nat) : (s.setFld a f v).partReq = s.partReq := rfl
@[simp] theorem State.setFld_fabric (s : State) (a : Nat) (f : Fld) (v : Nat) : (s.setFld a f v).fabric = s.fabric := rfl
@[simp] theorem State.setFld_health (s : State) (a : Nat) (f : Fld) (v : Nat) : (s.setFld a f v).health = s.health := rfl
@[simp] theorem State.setFld_heat (s : State) (a : Nat) (f : Fld) (v : Nat) : (s.setFld a f v).heat = s.heat := rfl
@[simp] theorem State.setFld_e4 (s : State) (a : Nat) (f : Fld) (v : Nat) : (s.setFld a f v).e4 = s.e4 := rfl
@[simp] theorem State.setFld_hostPort (s : State) (a : Nat) (f : Fld) (v : Nat) : (s.setFld a f v).hostPort = s.hostPort := rfl
@[simp] theorem State.setFld_mgmt (s : State) (a : Nat) (f : Fld) (v : Nat) : (s.setFld a f v).mgmt = s.mgmt := rfl
@[simp] theorem State.setFld_logRead (s : State) (a : Nat) (f : Fld) (v : Nat) : (s.setFld a f v).logRead = s.logRead := rfl
@[simp] theorem State.setFld_streams (s : State) (a : Nat) (f : Fld) (v : Nat) : (s.setFld a f v).streams = s.streams := rfl
@[simp] theorem State.setFld_sec (s : State) (a : Nat) (f : Fld) (v : Nat) : (s.setFld a f v).sec = s.sec := rfl
@[simp] theorem State.setFld_subs (s : State) (a : Nat) (f : Fld) (v : Nat) : (s.setFld a f v).subs = s.subs := rfl
@[simp] theorem State.setFld_mapWait (s : State) (a : Nat) (f : Fld) (v : Nat) : (s.setFld a f v).mapWait = s.mapWait := rfl
@[simp] theorem State.setFld_copies (s : State) (a : Nat) (f : Fld) (v : Nat) : (s.setFld a f v).copies = s.copies := rfl
@[simp] theorem State.setFld_inService (s : State) (a : Nat) (f : Fld) (v : Nat) : (s.setFld a f v).inService = s.inService := rfl
@[simp] theorem State.setFld_factory (s : State) (a : Nat) (f : Fld) (v : Nat) : (s.setFld a f v).factory = s.factory := rfl
@[simp] theorem State.setFld_weir (s : State) (a : Nat) (f : Fld) (v : Nat) : (s.setFld a f v).weir = s.weir := rfl
@[simp] theorem State.setFld_booting (s : State) (a : Nat) (f : Fld) (v : Nat) : (s.setFld a f v).booting = s.booting := rfl
@[simp] theorem State.setFld_tap (s : State) (a : Nat) (f : Fld) (v : Nat) : (s.setFld a f v).tap = s.tap := rfl

@[simp] theorem State.setFlds_pending (s : State) (a : Nat) (l : List (Fld × Nat)) : (s.setFlds a l).pending = s.pending := rfl
@[simp] theorem State.setFlds_freeCount (s : State) (a : Nat) (l : List (Fld × Nat)) : (s.setFlds a l).freeCount = s.freeCount := rfl
@[simp] theorem State.setFlds_out (s : State) (a : Nat) (l : List (Fld × Nat)) : (s.setFlds a l).out = s.out := rfl
@[simp] theorem State.setFlds_mem (s : State) (a : Nat) (l : List (Fld × Nat)) : (s.setFlds a l).mem = s.mem := rfl
@[simp] theorem State.setFlds_fills (s : State) (a : Nat) (l : List (Fld × Nat)) : (s.setFlds a l).fills = s.fills := rfl
@[simp] theorem State.setFlds_poison (s : State) (a : Nat) (l : List (Fld × Nat)) : (s.setFlds a l).poison = s.poison := rfl
@[simp] theorem State.setFlds_armed (s : State) (a : Nat) (l : List (Fld × Nat)) : (s.setFlds a l).armed = s.armed := rfl
@[simp] theorem State.setFlds_dirty (s : State) (a : Nat) (l : List (Fld × Nat)) : (s.setFlds a l).dirty = s.dirty := rfl
@[simp] theorem State.setFlds_clusters (s : State) (a : Nat) (l : List (Fld × Nat)) : (s.setFlds a l).clusters = s.clusters := rfl
@[simp] theorem State.setFlds_maps (s : State) (a : Nat) (l : List (Fld × Nat)) : (s.setFlds a l).maps = s.maps := rfl
@[simp] theorem State.setFlds_mapVer (s : State) (a : Nat) (l : List (Fld × Nat)) : (s.setFlds a l).mapVer = s.mapVer := rfl
@[simp] theorem State.setFlds_unmapped (s : State) (a : Nat) (l : List (Fld × Nat)) : (s.setFlds a l).unmapped = s.unmapped := rfl
@[simp] theorem State.setFlds_watches (s : State) (a : Nat) (l : List (Fld × Nat)) : (s.setFlds a l).watches = s.watches := rfl
@[simp] theorem State.setFlds_cargo (s : State) (a : Nat) (l : List (Fld × Nat)) : (s.setFlds a l).cargo = s.cargo := rfl
@[simp] theorem State.setFlds_barges (s : State) (a : Nat) (l : List (Fld × Nat)) : (s.setFlds a l).barges = s.barges := rfl
@[simp] theorem State.setFlds_done (s : State) (a : Nat) (l : List (Fld × Nat)) : (s.setFlds a l).done = s.done := rfl
@[simp] theorem State.setFlds_tallies (s : State) (a : Nat) (l : List (Fld × Nat)) : (s.setFlds a l).tallies = s.tallies := rfl
@[simp] theorem State.setFlds_log (s : State) (a : Nat) (l : List (Fld × Nat)) : (s.setFlds a l).log = s.log := rfl
@[simp] theorem State.setFlds_errs (s : State) (a : Nat) (l : List (Fld × Nat)) : (s.setFlds a l).errs = s.errs := rfl
@[simp] theorem State.setFlds_nmOps (s : State) (a : Nat) (l : List (Fld × Nat)) : (s.setFlds a l).nmOps = s.nmOps := rfl
@[simp] theorem State.setFlds_nmNum (s : State) (a : Nat) (l : List (Fld × Nat)) : (s.setFlds a l).nmNum = s.nmNum := rfl
@[simp] theorem State.setFlds_fronts (s : State) (a : Nat) (l : List (Fld × Nat)) : (s.setFlds a l).fronts = s.fronts := rfl
@[simp] theorem State.setFlds_krylov (s : State) (a : Nat) (l : List (Fld × Nat)) : (s.setFlds a l).krylov = s.krylov := rfl
@[simp] theorem State.setFlds_chains (s : State) (a : Nat) (l : List (Fld × Nat)) : (s.setFlds a l).chains = s.chains := rfl
@[simp] theorem State.setFlds_tokenKey (s : State) (a : Nat) (l : List (Fld × Nat)) : (s.setFlds a l).tokenKey = s.tokenKey := rfl
@[simp] theorem State.setFlds_partReq (s : State) (a : Nat) (l : List (Fld × Nat)) : (s.setFlds a l).partReq = s.partReq := rfl
@[simp] theorem State.setFlds_fabric (s : State) (a : Nat) (l : List (Fld × Nat)) : (s.setFlds a l).fabric = s.fabric := rfl
@[simp] theorem State.setFlds_health (s : State) (a : Nat) (l : List (Fld × Nat)) : (s.setFlds a l).health = s.health := rfl
@[simp] theorem State.setFlds_heat (s : State) (a : Nat) (l : List (Fld × Nat)) : (s.setFlds a l).heat = s.heat := rfl
@[simp] theorem State.setFlds_e4 (s : State) (a : Nat) (l : List (Fld × Nat)) : (s.setFlds a l).e4 = s.e4 := rfl
@[simp] theorem State.setFlds_hostPort (s : State) (a : Nat) (l : List (Fld × Nat)) : (s.setFlds a l).hostPort = s.hostPort := rfl
@[simp] theorem State.setFlds_mgmt (s : State) (a : Nat) (l : List (Fld × Nat)) : (s.setFlds a l).mgmt = s.mgmt := rfl
@[simp] theorem State.setFlds_logRead (s : State) (a : Nat) (l : List (Fld × Nat)) : (s.setFlds a l).logRead = s.logRead := rfl
@[simp] theorem State.setFlds_streams (s : State) (a : Nat) (l : List (Fld × Nat)) : (s.setFlds a l).streams = s.streams := rfl
@[simp] theorem State.setFlds_sec (s : State) (a : Nat) (l : List (Fld × Nat)) : (s.setFlds a l).sec = s.sec := rfl
@[simp] theorem State.setFlds_subs (s : State) (a : Nat) (l : List (Fld × Nat)) : (s.setFlds a l).subs = s.subs := rfl
@[simp] theorem State.setFlds_mapWait (s : State) (a : Nat) (l : List (Fld × Nat)) : (s.setFlds a l).mapWait = s.mapWait := rfl
@[simp] theorem State.setFlds_copies (s : State) (a : Nat) (l : List (Fld × Nat)) : (s.setFlds a l).copies = s.copies := rfl
@[simp] theorem State.setFlds_inService (s : State) (a : Nat) (l : List (Fld × Nat)) : (s.setFlds a l).inService = s.inService := rfl
@[simp] theorem State.setFlds_factory (s : State) (a : Nat) (l : List (Fld × Nat)) : (s.setFlds a l).factory = s.factory := rfl
@[simp] theorem State.setFlds_weir (s : State) (a : Nat) (l : List (Fld × Nat)) : (s.setFlds a l).weir = s.weir := rfl
@[simp] theorem State.setFlds_booting (s : State) (a : Nat) (l : List (Fld × Nat)) : (s.setFlds a l).booting = s.booting := rfl
@[simp] theorem State.setFlds_tap (s : State) (a : Nat) (l : List (Fld × Nat)) : (s.setFlds a l).tap = s.tap := rfl

@[simp] theorem State.count_pending (s : State) (a k : Nat) : (s.count a k).pending = s.pending := rfl
@[simp] theorem State.count_freeCount (s : State) (a k : Nat) : (s.count a k).freeCount = s.freeCount := rfl
@[simp] theorem State.count_out (s : State) (a k : Nat) : (s.count a k).out = s.out := rfl
@[simp] theorem State.count_mem (s : State) (a k : Nat) : (s.count a k).mem = s.mem := rfl
@[simp] theorem State.count_fills (s : State) (a k : Nat) : (s.count a k).fills = s.fills := rfl
@[simp] theorem State.count_poison (s : State) (a k : Nat) : (s.count a k).poison = s.poison := rfl
@[simp] theorem State.count_armed (s : State) (a k : Nat) : (s.count a k).armed = s.armed := rfl
@[simp] theorem State.count_dirty (s : State) (a k : Nat) : (s.count a k).dirty = s.dirty := rfl
@[simp] theorem State.count_clusters (s : State) (a k : Nat) : (s.count a k).clusters = s.clusters := rfl
@[simp] theorem State.count_maps (s : State) (a k : Nat) : (s.count a k).maps = s.maps := rfl
@[simp] theorem State.count_mapVer (s : State) (a k : Nat) : (s.count a k).mapVer = s.mapVer := rfl
@[simp] theorem State.count_unmapped (s : State) (a k : Nat) : (s.count a k).unmapped = s.unmapped := rfl
@[simp] theorem State.count_watches (s : State) (a k : Nat) : (s.count a k).watches = s.watches := rfl
@[simp] theorem State.count_cargo (s : State) (a k : Nat) : (s.count a k).cargo = s.cargo := rfl
@[simp] theorem State.count_barges (s : State) (a k : Nat) : (s.count a k).barges = s.barges := rfl
@[simp] theorem State.count_done (s : State) (a k : Nat) : (s.count a k).done = s.done := rfl
@[simp] theorem State.count_tallies (s : State) (a k : Nat) : (s.count a k).tallies = s.tallies := rfl
@[simp] theorem State.count_log (s : State) (a k : Nat) : (s.count a k).log = s.log := rfl
@[simp] theorem State.count_errs (s : State) (a k : Nat) : (s.count a k).errs = s.errs := rfl
@[simp] theorem State.count_nmOps (s : State) (a k : Nat) : (s.count a k).nmOps = s.nmOps := rfl
@[simp] theorem State.count_nmNum (s : State) (a k : Nat) : (s.count a k).nmNum = s.nmNum := rfl
@[simp] theorem State.count_fronts (s : State) (a k : Nat) : (s.count a k).fronts = s.fronts := rfl
@[simp] theorem State.count_krylov (s : State) (a k : Nat) : (s.count a k).krylov = s.krylov := rfl
@[simp] theorem State.count_chains (s : State) (a k : Nat) : (s.count a k).chains = s.chains := rfl
@[simp] theorem State.count_tokenKey (s : State) (a k : Nat) : (s.count a k).tokenKey = s.tokenKey := rfl
@[simp] theorem State.count_partReq (s : State) (a k : Nat) : (s.count a k).partReq = s.partReq := rfl
@[simp] theorem State.count_fabric (s : State) (a k : Nat) : (s.count a k).fabric = s.fabric := rfl
@[simp] theorem State.count_health (s : State) (a k : Nat) : (s.count a k).health = s.health := rfl
@[simp] theorem State.count_heat (s : State) (a k : Nat) : (s.count a k).heat = s.heat := rfl
@[simp] theorem State.count_e4 (s : State) (a k : Nat) : (s.count a k).e4 = s.e4 := rfl
@[simp] theorem State.count_hostPort (s : State) (a k : Nat) : (s.count a k).hostPort = s.hostPort := rfl
@[simp] theorem State.count_mgmt (s : State) (a k : Nat) : (s.count a k).mgmt = s.mgmt := rfl
@[simp] theorem State.count_logRead (s : State) (a k : Nat) : (s.count a k).logRead = s.logRead := rfl
@[simp] theorem State.count_streams (s : State) (a k : Nat) : (s.count a k).streams = s.streams := rfl
@[simp] theorem State.count_sec (s : State) (a k : Nat) : (s.count a k).sec = s.sec := rfl
@[simp] theorem State.count_subs (s : State) (a k : Nat) : (s.count a k).subs = s.subs := rfl
@[simp] theorem State.count_mapWait (s : State) (a k : Nat) : (s.count a k).mapWait = s.mapWait := rfl
@[simp] theorem State.count_copies (s : State) (a k : Nat) : (s.count a k).copies = s.copies := rfl
@[simp] theorem State.count_inService (s : State) (a k : Nat) : (s.count a k).inService = s.inService := rfl
@[simp] theorem State.count_factory (s : State) (a k : Nat) : (s.count a k).factory = s.factory := rfl
@[simp] theorem State.count_weir (s : State) (a k : Nat) : (s.count a k).weir = s.weir := rfl
@[simp] theorem State.count_booting (s : State) (a k : Nat) : (s.count a k).booting = s.booting := rfl
@[simp] theorem State.count_tap (s : State) (a k : Nat) : (s.count a k).tap = s.tap := rfl

@[simp] theorem State.satAdd_pending (s : State) (a : Nat) (f : Fld) (k : Nat) : (s.satAdd a f k).pending = s.pending := rfl
@[simp] theorem State.satAdd_freeCount (s : State) (a : Nat) (f : Fld) (k : Nat) : (s.satAdd a f k).freeCount = s.freeCount := rfl
@[simp] theorem State.satAdd_out (s : State) (a : Nat) (f : Fld) (k : Nat) : (s.satAdd a f k).out = s.out := rfl
@[simp] theorem State.satAdd_mem (s : State) (a : Nat) (f : Fld) (k : Nat) : (s.satAdd a f k).mem = s.mem := rfl
@[simp] theorem State.satAdd_fills (s : State) (a : Nat) (f : Fld) (k : Nat) : (s.satAdd a f k).fills = s.fills := rfl
@[simp] theorem State.satAdd_poison (s : State) (a : Nat) (f : Fld) (k : Nat) : (s.satAdd a f k).poison = s.poison := rfl
@[simp] theorem State.satAdd_armed (s : State) (a : Nat) (f : Fld) (k : Nat) : (s.satAdd a f k).armed = s.armed := rfl
@[simp] theorem State.satAdd_dirty (s : State) (a : Nat) (f : Fld) (k : Nat) : (s.satAdd a f k).dirty = s.dirty := rfl
@[simp] theorem State.satAdd_clusters (s : State) (a : Nat) (f : Fld) (k : Nat) : (s.satAdd a f k).clusters = s.clusters := rfl
@[simp] theorem State.satAdd_maps (s : State) (a : Nat) (f : Fld) (k : Nat) : (s.satAdd a f k).maps = s.maps := rfl
@[simp] theorem State.satAdd_mapVer (s : State) (a : Nat) (f : Fld) (k : Nat) : (s.satAdd a f k).mapVer = s.mapVer := rfl
@[simp] theorem State.satAdd_unmapped (s : State) (a : Nat) (f : Fld) (k : Nat) : (s.satAdd a f k).unmapped = s.unmapped := rfl
@[simp] theorem State.satAdd_watches (s : State) (a : Nat) (f : Fld) (k : Nat) : (s.satAdd a f k).watches = s.watches := rfl
@[simp] theorem State.satAdd_cargo (s : State) (a : Nat) (f : Fld) (k : Nat) : (s.satAdd a f k).cargo = s.cargo := rfl
@[simp] theorem State.satAdd_barges (s : State) (a : Nat) (f : Fld) (k : Nat) : (s.satAdd a f k).barges = s.barges := rfl
@[simp] theorem State.satAdd_done (s : State) (a : Nat) (f : Fld) (k : Nat) : (s.satAdd a f k).done = s.done := rfl
@[simp] theorem State.satAdd_tallies (s : State) (a : Nat) (f : Fld) (k : Nat) : (s.satAdd a f k).tallies = s.tallies := rfl
@[simp] theorem State.satAdd_log (s : State) (a : Nat) (f : Fld) (k : Nat) : (s.satAdd a f k).log = s.log := rfl
@[simp] theorem State.satAdd_errs (s : State) (a : Nat) (f : Fld) (k : Nat) : (s.satAdd a f k).errs = s.errs := rfl
@[simp] theorem State.satAdd_nmOps (s : State) (a : Nat) (f : Fld) (k : Nat) : (s.satAdd a f k).nmOps = s.nmOps := rfl
@[simp] theorem State.satAdd_nmNum (s : State) (a : Nat) (f : Fld) (k : Nat) : (s.satAdd a f k).nmNum = s.nmNum := rfl
@[simp] theorem State.satAdd_fronts (s : State) (a : Nat) (f : Fld) (k : Nat) : (s.satAdd a f k).fronts = s.fronts := rfl
@[simp] theorem State.satAdd_krylov (s : State) (a : Nat) (f : Fld) (k : Nat) : (s.satAdd a f k).krylov = s.krylov := rfl
@[simp] theorem State.satAdd_chains (s : State) (a : Nat) (f : Fld) (k : Nat) : (s.satAdd a f k).chains = s.chains := rfl
@[simp] theorem State.satAdd_tokenKey (s : State) (a : Nat) (f : Fld) (k : Nat) : (s.satAdd a f k).tokenKey = s.tokenKey := rfl
@[simp] theorem State.satAdd_partReq (s : State) (a : Nat) (f : Fld) (k : Nat) : (s.satAdd a f k).partReq = s.partReq := rfl
@[simp] theorem State.satAdd_fabric (s : State) (a : Nat) (f : Fld) (k : Nat) : (s.satAdd a f k).fabric = s.fabric := rfl
@[simp] theorem State.satAdd_health (s : State) (a : Nat) (f : Fld) (k : Nat) : (s.satAdd a f k).health = s.health := rfl
@[simp] theorem State.satAdd_heat (s : State) (a : Nat) (f : Fld) (k : Nat) : (s.satAdd a f k).heat = s.heat := rfl
@[simp] theorem State.satAdd_e4 (s : State) (a : Nat) (f : Fld) (k : Nat) : (s.satAdd a f k).e4 = s.e4 := rfl
@[simp] theorem State.satAdd_hostPort (s : State) (a : Nat) (f : Fld) (k : Nat) : (s.satAdd a f k).hostPort = s.hostPort := rfl
@[simp] theorem State.satAdd_mgmt (s : State) (a : Nat) (f : Fld) (k : Nat) : (s.satAdd a f k).mgmt = s.mgmt := rfl
@[simp] theorem State.satAdd_logRead (s : State) (a : Nat) (f : Fld) (k : Nat) : (s.satAdd a f k).logRead = s.logRead := rfl
@[simp] theorem State.satAdd_streams (s : State) (a : Nat) (f : Fld) (k : Nat) : (s.satAdd a f k).streams = s.streams := rfl
@[simp] theorem State.satAdd_sec (s : State) (a : Nat) (f : Fld) (k : Nat) : (s.satAdd a f k).sec = s.sec := rfl
@[simp] theorem State.satAdd_subs (s : State) (a : Nat) (f : Fld) (k : Nat) : (s.satAdd a f k).subs = s.subs := rfl
@[simp] theorem State.satAdd_mapWait (s : State) (a : Nat) (f : Fld) (k : Nat) : (s.satAdd a f k).mapWait = s.mapWait := rfl
@[simp] theorem State.satAdd_copies (s : State) (a : Nat) (f : Fld) (k : Nat) : (s.satAdd a f k).copies = s.copies := rfl
@[simp] theorem State.satAdd_inService (s : State) (a : Nat) (f : Fld) (k : Nat) : (s.satAdd a f k).inService = s.inService := rfl
@[simp] theorem State.satAdd_factory (s : State) (a : Nat) (f : Fld) (k : Nat) : (s.satAdd a f k).factory = s.factory := rfl
@[simp] theorem State.satAdd_weir (s : State) (a : Nat) (f : Fld) (k : Nat) : (s.satAdd a f k).weir = s.weir := rfl
@[simp] theorem State.satAdd_booting (s : State) (a : Nat) (f : Fld) (k : Nat) : (s.satAdd a f k).booting = s.booting := rfl
@[simp] theorem State.satAdd_tap (s : State) (a : Nat) (f : Fld) (k : Nat) : (s.satAdd a f k).tap = s.tap := rfl

@[simp] theorem State.emit_pending (s : State) (o : Out) : (s.emit o).pending = s.pending := rfl
@[simp] theorem State.emit_freeCount (s : State) (o : Out) : (s.emit o).freeCount = s.freeCount := rfl
@[simp] theorem State.emit_regs (s : State) (o : Out) : (s.emit o).regs = s.regs := rfl
@[simp] theorem State.emit_mem (s : State) (o : Out) : (s.emit o).mem = s.mem := rfl
@[simp] theorem State.emit_fills (s : State) (o : Out) : (s.emit o).fills = s.fills := rfl
@[simp] theorem State.emit_poison (s : State) (o : Out) : (s.emit o).poison = s.poison := rfl
@[simp] theorem State.emit_armed (s : State) (o : Out) : (s.emit o).armed = s.armed := rfl
@[simp] theorem State.emit_dirty (s : State) (o : Out) : (s.emit o).dirty = s.dirty := rfl
@[simp] theorem State.emit_clusters (s : State) (o : Out) : (s.emit o).clusters = s.clusters := rfl
@[simp] theorem State.emit_maps (s : State) (o : Out) : (s.emit o).maps = s.maps := rfl
@[simp] theorem State.emit_mapVer (s : State) (o : Out) : (s.emit o).mapVer = s.mapVer := rfl
@[simp] theorem State.emit_unmapped (s : State) (o : Out) : (s.emit o).unmapped = s.unmapped := rfl
@[simp] theorem State.emit_watches (s : State) (o : Out) : (s.emit o).watches = s.watches := rfl
@[simp] theorem State.emit_cargo (s : State) (o : Out) : (s.emit o).cargo = s.cargo := rfl
@[simp] theorem State.emit_barges (s : State) (o : Out) : (s.emit o).barges = s.barges := rfl
@[simp] theorem State.emit_done (s : State) (o : Out) : (s.emit o).done = s.done := rfl
@[simp] theorem State.emit_tallies (s : State) (o : Out) : (s.emit o).tallies = s.tallies := rfl
@[simp] theorem State.emit_log (s : State) (o : Out) : (s.emit o).log = s.log := rfl
@[simp] theorem State.emit_errs (s : State) (o : Out) : (s.emit o).errs = s.errs := rfl
@[simp] theorem State.emit_nmOps (s : State) (o : Out) : (s.emit o).nmOps = s.nmOps := rfl
@[simp] theorem State.emit_nmNum (s : State) (o : Out) : (s.emit o).nmNum = s.nmNum := rfl
@[simp] theorem State.emit_fronts (s : State) (o : Out) : (s.emit o).fronts = s.fronts := rfl
@[simp] theorem State.emit_krylov (s : State) (o : Out) : (s.emit o).krylov = s.krylov := rfl
@[simp] theorem State.emit_chains (s : State) (o : Out) : (s.emit o).chains = s.chains := rfl
@[simp] theorem State.emit_tokenKey (s : State) (o : Out) : (s.emit o).tokenKey = s.tokenKey := rfl
@[simp] theorem State.emit_partReq (s : State) (o : Out) : (s.emit o).partReq = s.partReq := rfl
@[simp] theorem State.emit_fabric (s : State) (o : Out) : (s.emit o).fabric = s.fabric := rfl
@[simp] theorem State.emit_health (s : State) (o : Out) : (s.emit o).health = s.health := rfl
@[simp] theorem State.emit_heat (s : State) (o : Out) : (s.emit o).heat = s.heat := rfl
@[simp] theorem State.emit_e4 (s : State) (o : Out) : (s.emit o).e4 = s.e4 := rfl
@[simp] theorem State.emit_hostPort (s : State) (o : Out) : (s.emit o).hostPort = s.hostPort := rfl
@[simp] theorem State.emit_mgmt (s : State) (o : Out) : (s.emit o).mgmt = s.mgmt := rfl
@[simp] theorem State.emit_logRead (s : State) (o : Out) : (s.emit o).logRead = s.logRead := rfl
@[simp] theorem State.emit_streams (s : State) (o : Out) : (s.emit o).streams = s.streams := rfl
@[simp] theorem State.emit_sec (s : State) (o : Out) : (s.emit o).sec = s.sec := rfl
@[simp] theorem State.emit_subs (s : State) (o : Out) : (s.emit o).subs = s.subs := rfl
@[simp] theorem State.emit_mapWait (s : State) (o : Out) : (s.emit o).mapWait = s.mapWait := rfl
@[simp] theorem State.emit_copies (s : State) (o : Out) : (s.emit o).copies = s.copies := rfl
@[simp] theorem State.emit_inService (s : State) (o : Out) : (s.emit o).inService = s.inService := rfl
@[simp] theorem State.emit_factory (s : State) (o : Out) : (s.emit o).factory = s.factory := rfl
@[simp] theorem State.emit_weir (s : State) (o : Out) : (s.emit o).weir = s.weir := rfl
@[simp] theorem State.emit_booting (s : State) (o : Out) : (s.emit o).booting = s.booting := rfl
@[simp] theorem State.emit_tap (s : State) (o : Out) : (s.emit o).tap = s.tap := rfl

@[simp] theorem State.putByte_pending (s : State) (pa : Nat) (b : Byte) : (s.putByte pa b).pending = s.pending := rfl
@[simp] theorem State.putByte_freeCount (s : State) (pa : Nat) (b : Byte) : (s.putByte pa b).freeCount = s.freeCount := rfl
@[simp] theorem State.putByte_out (s : State) (pa : Nat) (b : Byte) : (s.putByte pa b).out = s.out := rfl
@[simp] theorem State.putByte_regs (s : State) (pa : Nat) (b : Byte) : (s.putByte pa b).regs = s.regs := rfl
@[simp] theorem State.putByte_fills (s : State) (pa : Nat) (b : Byte) : (s.putByte pa b).fills = s.fills := rfl
@[simp] theorem State.putByte_poison (s : State) (pa : Nat) (b : Byte) : (s.putByte pa b).poison = s.poison := rfl
@[simp] theorem State.putByte_armed (s : State) (pa : Nat) (b : Byte) : (s.putByte pa b).armed = s.armed := rfl
@[simp] theorem State.putByte_dirty (s : State) (pa : Nat) (b : Byte) : (s.putByte pa b).dirty = s.dirty := rfl
@[simp] theorem State.putByte_clusters (s : State) (pa : Nat) (b : Byte) : (s.putByte pa b).clusters = s.clusters := rfl
@[simp] theorem State.putByte_maps (s : State) (pa : Nat) (b : Byte) : (s.putByte pa b).maps = s.maps := rfl
@[simp] theorem State.putByte_mapVer (s : State) (pa : Nat) (b : Byte) : (s.putByte pa b).mapVer = s.mapVer := rfl
@[simp] theorem State.putByte_unmapped (s : State) (pa : Nat) (b : Byte) : (s.putByte pa b).unmapped = s.unmapped := rfl
@[simp] theorem State.putByte_watches (s : State) (pa : Nat) (b : Byte) : (s.putByte pa b).watches = s.watches := rfl
@[simp] theorem State.putByte_cargo (s : State) (pa : Nat) (b : Byte) : (s.putByte pa b).cargo = s.cargo := rfl
@[simp] theorem State.putByte_barges (s : State) (pa : Nat) (b : Byte) : (s.putByte pa b).barges = s.barges := rfl
@[simp] theorem State.putByte_done (s : State) (pa : Nat) (b : Byte) : (s.putByte pa b).done = s.done := rfl
@[simp] theorem State.putByte_tallies (s : State) (pa : Nat) (b : Byte) : (s.putByte pa b).tallies = s.tallies := rfl
@[simp] theorem State.putByte_log (s : State) (pa : Nat) (b : Byte) : (s.putByte pa b).log = s.log := rfl
@[simp] theorem State.putByte_errs (s : State) (pa : Nat) (b : Byte) : (s.putByte pa b).errs = s.errs := rfl
@[simp] theorem State.putByte_nmOps (s : State) (pa : Nat) (b : Byte) : (s.putByte pa b).nmOps = s.nmOps := rfl
@[simp] theorem State.putByte_nmNum (s : State) (pa : Nat) (b : Byte) : (s.putByte pa b).nmNum = s.nmNum := rfl
@[simp] theorem State.putByte_fronts (s : State) (pa : Nat) (b : Byte) : (s.putByte pa b).fronts = s.fronts := rfl
@[simp] theorem State.putByte_krylov (s : State) (pa : Nat) (b : Byte) : (s.putByte pa b).krylov = s.krylov := rfl
@[simp] theorem State.putByte_chains (s : State) (pa : Nat) (b : Byte) : (s.putByte pa b).chains = s.chains := rfl
@[simp] theorem State.putByte_tokenKey (s : State) (pa : Nat) (b : Byte) : (s.putByte pa b).tokenKey = s.tokenKey := rfl
@[simp] theorem State.putByte_partReq (s : State) (pa : Nat) (b : Byte) : (s.putByte pa b).partReq = s.partReq := rfl
@[simp] theorem State.putByte_fabric (s : State) (pa : Nat) (b : Byte) : (s.putByte pa b).fabric = s.fabric := rfl
@[simp] theorem State.putByte_health (s : State) (pa : Nat) (b : Byte) : (s.putByte pa b).health = s.health := rfl
@[simp] theorem State.putByte_heat (s : State) (pa : Nat) (b : Byte) : (s.putByte pa b).heat = s.heat := rfl
@[simp] theorem State.putByte_e4 (s : State) (pa : Nat) (b : Byte) : (s.putByte pa b).e4 = s.e4 := rfl
@[simp] theorem State.putByte_hostPort (s : State) (pa : Nat) (b : Byte) : (s.putByte pa b).hostPort = s.hostPort := rfl
@[simp] theorem State.putByte_mgmt (s : State) (pa : Nat) (b : Byte) : (s.putByte pa b).mgmt = s.mgmt := rfl
@[simp] theorem State.putByte_logRead (s : State) (pa : Nat) (b : Byte) : (s.putByte pa b).logRead = s.logRead := rfl
@[simp] theorem State.putByte_streams (s : State) (pa : Nat) (b : Byte) : (s.putByte pa b).streams = s.streams := rfl
@[simp] theorem State.putByte_sec (s : State) (pa : Nat) (b : Byte) : (s.putByte pa b).sec = s.sec := rfl
@[simp] theorem State.putByte_subs (s : State) (pa : Nat) (b : Byte) : (s.putByte pa b).subs = s.subs := rfl
@[simp] theorem State.putByte_mapWait (s : State) (pa : Nat) (b : Byte) : (s.putByte pa b).mapWait = s.mapWait := rfl
@[simp] theorem State.putByte_copies (s : State) (pa : Nat) (b : Byte) : (s.putByte pa b).copies = s.copies := rfl
@[simp] theorem State.putByte_inService (s : State) (pa : Nat) (b : Byte) : (s.putByte pa b).inService = s.inService := rfl
@[simp] theorem State.putByte_factory (s : State) (pa : Nat) (b : Byte) : (s.putByte pa b).factory = s.factory := rfl
@[simp] theorem State.putByte_weir (s : State) (pa : Nat) (b : Byte) : (s.putByte pa b).weir = s.weir := rfl
@[simp] theorem State.putByte_booting (s : State) (pa : Nat) (b : Byte) : (s.putByte pa b).booting = s.booting := rfl
@[simp] theorem State.putByte_tap (s : State) (pa : Nat) (b : Byte) : (s.putByte pa b).tap = s.tap := rfl

@[simp] theorem State.setCl_pending (s : State) (P : Nat) (c : Cluster) : (s.setCl P c).pending = s.pending := rfl
@[simp] theorem State.setCl_freeCount (s : State) (P : Nat) (c : Cluster) : (s.setCl P c).freeCount = s.freeCount := rfl
@[simp] theorem State.setCl_out (s : State) (P : Nat) (c : Cluster) : (s.setCl P c).out = s.out := rfl
@[simp] theorem State.setCl_regs (s : State) (P : Nat) (c : Cluster) : (s.setCl P c).regs = s.regs := rfl
@[simp] theorem State.setCl_mem (s : State) (P : Nat) (c : Cluster) : (s.setCl P c).mem = s.mem := rfl
@[simp] theorem State.setCl_fills (s : State) (P : Nat) (c : Cluster) : (s.setCl P c).fills = s.fills := rfl
@[simp] theorem State.setCl_poison (s : State) (P : Nat) (c : Cluster) : (s.setCl P c).poison = s.poison := rfl
@[simp] theorem State.setCl_armed (s : State) (P : Nat) (c : Cluster) : (s.setCl P c).armed = s.armed := rfl
@[simp] theorem State.setCl_dirty (s : State) (P : Nat) (c : Cluster) : (s.setCl P c).dirty = s.dirty := rfl
@[simp] theorem State.setCl_maps (s : State) (P : Nat) (c : Cluster) : (s.setCl P c).maps = s.maps := rfl
@[simp] theorem State.setCl_mapVer (s : State) (P : Nat) (c : Cluster) : (s.setCl P c).mapVer = s.mapVer := rfl
@[simp] theorem State.setCl_unmapped (s : State) (P : Nat) (c : Cluster) : (s.setCl P c).unmapped = s.unmapped := rfl
@[simp] theorem State.setCl_watches (s : State) (P : Nat) (c : Cluster) : (s.setCl P c).watches = s.watches := rfl
@[simp] theorem State.setCl_cargo (s : State) (P : Nat) (c : Cluster) : (s.setCl P c).cargo = s.cargo := rfl
@[simp] theorem State.setCl_barges (s : State) (P : Nat) (c : Cluster) : (s.setCl P c).barges = s.barges := rfl
@[simp] theorem State.setCl_done (s : State) (P : Nat) (c : Cluster) : (s.setCl P c).done = s.done := rfl
@[simp] theorem State.setCl_tallies (s : State) (P : Nat) (c : Cluster) : (s.setCl P c).tallies = s.tallies := rfl
@[simp] theorem State.setCl_log (s : State) (P : Nat) (c : Cluster) : (s.setCl P c).log = s.log := rfl
@[simp] theorem State.setCl_errs (s : State) (P : Nat) (c : Cluster) : (s.setCl P c).errs = s.errs := rfl
@[simp] theorem State.setCl_nmOps (s : State) (P : Nat) (c : Cluster) : (s.setCl P c).nmOps = s.nmOps := rfl
@[simp] theorem State.setCl_nmNum (s : State) (P : Nat) (c : Cluster) : (s.setCl P c).nmNum = s.nmNum := rfl
@[simp] theorem State.setCl_fronts (s : State) (P : Nat) (c : Cluster) : (s.setCl P c).fronts = s.fronts := rfl
@[simp] theorem State.setCl_krylov (s : State) (P : Nat) (c : Cluster) : (s.setCl P c).krylov = s.krylov := rfl
@[simp] theorem State.setCl_chains (s : State) (P : Nat) (c : Cluster) : (s.setCl P c).chains = s.chains := rfl
@[simp] theorem State.setCl_tokenKey (s : State) (P : Nat) (c : Cluster) : (s.setCl P c).tokenKey = s.tokenKey := rfl
@[simp] theorem State.setCl_partReq (s : State) (P : Nat) (c : Cluster) : (s.setCl P c).partReq = s.partReq := rfl
@[simp] theorem State.setCl_fabric (s : State) (P : Nat) (c : Cluster) : (s.setCl P c).fabric = s.fabric := rfl
@[simp] theorem State.setCl_health (s : State) (P : Nat) (c : Cluster) : (s.setCl P c).health = s.health := rfl
@[simp] theorem State.setCl_heat (s : State) (P : Nat) (c : Cluster) : (s.setCl P c).heat = s.heat := rfl
@[simp] theorem State.setCl_e4 (s : State) (P : Nat) (c : Cluster) : (s.setCl P c).e4 = s.e4 := rfl
@[simp] theorem State.setCl_hostPort (s : State) (P : Nat) (c : Cluster) : (s.setCl P c).hostPort = s.hostPort := rfl
@[simp] theorem State.setCl_mgmt (s : State) (P : Nat) (c : Cluster) : (s.setCl P c).mgmt = s.mgmt := rfl
@[simp] theorem State.setCl_logRead (s : State) (P : Nat) (c : Cluster) : (s.setCl P c).logRead = s.logRead := rfl
@[simp] theorem State.setCl_streams (s : State) (P : Nat) (c : Cluster) : (s.setCl P c).streams = s.streams := rfl
@[simp] theorem State.setCl_sec (s : State) (P : Nat) (c : Cluster) : (s.setCl P c).sec = s.sec := rfl
@[simp] theorem State.setCl_subs (s : State) (P : Nat) (c : Cluster) : (s.setCl P c).subs = s.subs := rfl
@[simp] theorem State.setCl_mapWait (s : State) (P : Nat) (c : Cluster) : (s.setCl P c).mapWait = s.mapWait := rfl
@[simp] theorem State.setCl_copies (s : State) (P : Nat) (c : Cluster) : (s.setCl P c).copies = s.copies := rfl
@[simp] theorem State.setCl_inService (s : State) (P : Nat) (c : Cluster) : (s.setCl P c).inService = s.inService := rfl
@[simp] theorem State.setCl_factory (s : State) (P : Nat) (c : Cluster) : (s.setCl P c).factory = s.factory := rfl
@[simp] theorem State.setCl_weir (s : State) (P : Nat) (c : Cluster) : (s.setCl P c).weir = s.weir := rfl
@[simp] theorem State.setCl_booting (s : State) (P : Nat) (c : Cluster) : (s.setCl P c).booting = s.booting := rfl
@[simp] theorem State.setCl_tap (s : State) (P : Nat) (c : Cluster) : (s.setCl P c).tap = s.tap := rfl

@[simp] theorem State.modCl_pending (s : State) (P : Nat) (f : Cluster → Cluster) : (s.modCl P f).pending = s.pending := rfl
@[simp] theorem State.modCl_freeCount (s : State) (P : Nat) (f : Cluster → Cluster) : (s.modCl P f).freeCount = s.freeCount := rfl
@[simp] theorem State.modCl_out (s : State) (P : Nat) (f : Cluster → Cluster) : (s.modCl P f).out = s.out := rfl
@[simp] theorem State.modCl_regs (s : State) (P : Nat) (f : Cluster → Cluster) : (s.modCl P f).regs = s.regs := rfl
@[simp] theorem State.modCl_mem (s : State) (P : Nat) (f : Cluster → Cluster) : (s.modCl P f).mem = s.mem := rfl
@[simp] theorem State.modCl_fills (s : State) (P : Nat) (f : Cluster → Cluster) : (s.modCl P f).fills = s.fills := rfl
@[simp] theorem State.modCl_poison (s : State) (P : Nat) (f : Cluster → Cluster) : (s.modCl P f).poison = s.poison := rfl
@[simp] theorem State.modCl_armed (s : State) (P : Nat) (f : Cluster → Cluster) : (s.modCl P f).armed = s.armed := rfl
@[simp] theorem State.modCl_dirty (s : State) (P : Nat) (f : Cluster → Cluster) : (s.modCl P f).dirty = s.dirty := rfl
@[simp] theorem State.modCl_maps (s : State) (P : Nat) (f : Cluster → Cluster) : (s.modCl P f).maps = s.maps := rfl
@[simp] theorem State.modCl_mapVer (s : State) (P : Nat) (f : Cluster → Cluster) : (s.modCl P f).mapVer = s.mapVer := rfl
@[simp] theorem State.modCl_unmapped (s : State) (P : Nat) (f : Cluster → Cluster) : (s.modCl P f).unmapped = s.unmapped := rfl
@[simp] theorem State.modCl_watches (s : State) (P : Nat) (f : Cluster → Cluster) : (s.modCl P f).watches = s.watches := rfl
@[simp] theorem State.modCl_cargo (s : State) (P : Nat) (f : Cluster → Cluster) : (s.modCl P f).cargo = s.cargo := rfl
@[simp] theorem State.modCl_barges (s : State) (P : Nat) (f : Cluster → Cluster) : (s.modCl P f).barges = s.barges := rfl
@[simp] theorem State.modCl_done (s : State) (P : Nat) (f : Cluster → Cluster) : (s.modCl P f).done = s.done := rfl
@[simp] theorem State.modCl_tallies (s : State) (P : Nat) (f : Cluster → Cluster) : (s.modCl P f).tallies = s.tallies := rfl
@[simp] theorem State.modCl_log (s : State) (P : Nat) (f : Cluster → Cluster) : (s.modCl P f).log = s.log := rfl
@[simp] theorem State.modCl_errs (s : State) (P : Nat) (f : Cluster → Cluster) : (s.modCl P f).errs = s.errs := rfl
@[simp] theorem State.modCl_nmOps (s : State) (P : Nat) (f : Cluster → Cluster) : (s.modCl P f).nmOps = s.nmOps := rfl
@[simp] theorem State.modCl_nmNum (s : State) (P : Nat) (f : Cluster → Cluster) : (s.modCl P f).nmNum = s.nmNum := rfl
@[simp] theorem State.modCl_fronts (s : State) (P : Nat) (f : Cluster → Cluster) : (s.modCl P f).fronts = s.fronts := rfl
@[simp] theorem State.modCl_krylov (s : State) (P : Nat) (f : Cluster → Cluster) : (s.modCl P f).krylov = s.krylov := rfl
@[simp] theorem State.modCl_chains (s : State) (P : Nat) (f : Cluster → Cluster) : (s.modCl P f).chains = s.chains := rfl
@[simp] theorem State.modCl_tokenKey (s : State) (P : Nat) (f : Cluster → Cluster) : (s.modCl P f).tokenKey = s.tokenKey := rfl
@[simp] theorem State.modCl_partReq (s : State) (P : Nat) (f : Cluster → Cluster) : (s.modCl P f).partReq = s.partReq := rfl
@[simp] theorem State.modCl_fabric (s : State) (P : Nat) (f : Cluster → Cluster) : (s.modCl P f).fabric = s.fabric := rfl
@[simp] theorem State.modCl_health (s : State) (P : Nat) (f : Cluster → Cluster) : (s.modCl P f).health = s.health := rfl
@[simp] theorem State.modCl_heat (s : State) (P : Nat) (f : Cluster → Cluster) : (s.modCl P f).heat = s.heat := rfl
@[simp] theorem State.modCl_e4 (s : State) (P : Nat) (f : Cluster → Cluster) : (s.modCl P f).e4 = s.e4 := rfl
@[simp] theorem State.modCl_hostPort (s : State) (P : Nat) (f : Cluster → Cluster) : (s.modCl P f).hostPort = s.hostPort := rfl
@[simp] theorem State.modCl_mgmt (s : State) (P : Nat) (f : Cluster → Cluster) : (s.modCl P f).mgmt = s.mgmt := rfl
@[simp] theorem State.modCl_logRead (s : State) (P : Nat) (f : Cluster → Cluster) : (s.modCl P f).logRead = s.logRead := rfl
@[simp] theorem State.modCl_streams (s : State) (P : Nat) (f : Cluster → Cluster) : (s.modCl P f).streams = s.streams := rfl
@[simp] theorem State.modCl_sec (s : State) (P : Nat) (f : Cluster → Cluster) : (s.modCl P f).sec = s.sec := rfl
@[simp] theorem State.modCl_subs (s : State) (P : Nat) (f : Cluster → Cluster) : (s.modCl P f).subs = s.subs := rfl
@[simp] theorem State.modCl_mapWait (s : State) (P : Nat) (f : Cluster → Cluster) : (s.modCl P f).mapWait = s.mapWait := rfl
@[simp] theorem State.modCl_copies (s : State) (P : Nat) (f : Cluster → Cluster) : (s.modCl P f).copies = s.copies := rfl
@[simp] theorem State.modCl_inService (s : State) (P : Nat) (f : Cluster → Cluster) : (s.modCl P f).inService = s.inService := rfl
@[simp] theorem State.modCl_factory (s : State) (P : Nat) (f : Cluster → Cluster) : (s.modCl P f).factory = s.factory := rfl
@[simp] theorem State.modCl_weir (s : State) (P : Nat) (f : Cluster → Cluster) : (s.modCl P f).weir = s.weir := rfl
@[simp] theorem State.modCl_booting (s : State) (P : Nat) (f : Cluster → Cluster) : (s.modCl P f).booting = s.booting := rfl
@[simp] theorem State.modCl_tap (s : State) (P : Nat) (f : Cluster → Cluster) : (s.modCl P f).tap = s.tap := rfl

@[simp] theorem State.tick_pending (s : State) (P hc : Nat) : (s.tick P hc).pending = s.pending := rfl
@[simp] theorem State.tick_freeCount (s : State) (P hc : Nat) : (s.tick P hc).freeCount = s.freeCount := rfl
@[simp] theorem State.tick_out (s : State) (P hc : Nat) : (s.tick P hc).out = s.out := rfl
@[simp] theorem State.tick_regs (s : State) (P hc : Nat) : (s.tick P hc).regs = s.regs := rfl
@[simp] theorem State.tick_mem (s : State) (P hc : Nat) : (s.tick P hc).mem = s.mem := rfl
@[simp] theorem State.tick_fills (s : State) (P hc : Nat) : (s.tick P hc).fills = s.fills := rfl
@[simp] theorem State.tick_poison (s : State) (P hc : Nat) : (s.tick P hc).poison = s.poison := rfl
@[simp] theorem State.tick_armed (s : State) (P hc : Nat) : (s.tick P hc).armed = s.armed := rfl
@[simp] theorem State.tick_dirty (s : State) (P hc : Nat) : (s.tick P hc).dirty = s.dirty := rfl
@[simp] theorem State.tick_maps (s : State) (P hc : Nat) : (s.tick P hc).maps = s.maps := rfl
@[simp] theorem State.tick_mapVer (s : State) (P hc : Nat) : (s.tick P hc).mapVer = s.mapVer := rfl
@[simp] theorem State.tick_unmapped (s : State) (P hc : Nat) : (s.tick P hc).unmapped = s.unmapped := rfl
@[simp] theorem State.tick_watches (s : State) (P hc : Nat) : (s.tick P hc).watches = s.watches := rfl
@[simp] theorem State.tick_cargo (s : State) (P hc : Nat) : (s.tick P hc).cargo = s.cargo := rfl
@[simp] theorem State.tick_barges (s : State) (P hc : Nat) : (s.tick P hc).barges = s.barges := rfl
@[simp] theorem State.tick_done (s : State) (P hc : Nat) : (s.tick P hc).done = s.done := rfl
@[simp] theorem State.tick_tallies (s : State) (P hc : Nat) : (s.tick P hc).tallies = s.tallies := rfl
@[simp] theorem State.tick_log (s : State) (P hc : Nat) : (s.tick P hc).log = s.log := rfl
@[simp] theorem State.tick_errs (s : State) (P hc : Nat) : (s.tick P hc).errs = s.errs := rfl
@[simp] theorem State.tick_nmOps (s : State) (P hc : Nat) : (s.tick P hc).nmOps = s.nmOps := rfl
@[simp] theorem State.tick_nmNum (s : State) (P hc : Nat) : (s.tick P hc).nmNum = s.nmNum := rfl
@[simp] theorem State.tick_fronts (s : State) (P hc : Nat) : (s.tick P hc).fronts = s.fronts := rfl
@[simp] theorem State.tick_krylov (s : State) (P hc : Nat) : (s.tick P hc).krylov = s.krylov := rfl
@[simp] theorem State.tick_chains (s : State) (P hc : Nat) : (s.tick P hc).chains = s.chains := rfl
@[simp] theorem State.tick_tokenKey (s : State) (P hc : Nat) : (s.tick P hc).tokenKey = s.tokenKey := rfl
@[simp] theorem State.tick_partReq (s : State) (P hc : Nat) : (s.tick P hc).partReq = s.partReq := rfl
@[simp] theorem State.tick_fabric (s : State) (P hc : Nat) : (s.tick P hc).fabric = s.fabric := rfl
@[simp] theorem State.tick_health (s : State) (P hc : Nat) : (s.tick P hc).health = s.health := rfl
@[simp] theorem State.tick_heat (s : State) (P hc : Nat) : (s.tick P hc).heat = s.heat := rfl
@[simp] theorem State.tick_e4 (s : State) (P hc : Nat) : (s.tick P hc).e4 = s.e4 := rfl
@[simp] theorem State.tick_hostPort (s : State) (P hc : Nat) : (s.tick P hc).hostPort = s.hostPort := rfl
@[simp] theorem State.tick_mgmt (s : State) (P hc : Nat) : (s.tick P hc).mgmt = s.mgmt := rfl
@[simp] theorem State.tick_logRead (s : State) (P hc : Nat) : (s.tick P hc).logRead = s.logRead := rfl
@[simp] theorem State.tick_streams (s : State) (P hc : Nat) : (s.tick P hc).streams = s.streams := rfl
@[simp] theorem State.tick_sec (s : State) (P hc : Nat) : (s.tick P hc).sec = s.sec := rfl
@[simp] theorem State.tick_subs (s : State) (P hc : Nat) : (s.tick P hc).subs = s.subs := rfl
@[simp] theorem State.tick_mapWait (s : State) (P hc : Nat) : (s.tick P hc).mapWait = s.mapWait := rfl
@[simp] theorem State.tick_copies (s : State) (P hc : Nat) : (s.tick P hc).copies = s.copies := rfl
@[simp] theorem State.tick_inService (s : State) (P hc : Nat) : (s.tick P hc).inService = s.inService := rfl
@[simp] theorem State.tick_factory (s : State) (P hc : Nat) : (s.tick P hc).factory = s.factory := rfl
@[simp] theorem State.tick_weir (s : State) (P hc : Nat) : (s.tick P hc).weir = s.weir := rfl
@[simp] theorem State.tick_booting (s : State) (P hc : Nat) : (s.tick P hc).booting = s.booting := rfl
@[simp] theorem State.tick_tap (s : State) (P hc : Nat) : (s.tick P hc).tap = s.tap := rfl

@[simp] theorem State.setBarge_pending (s : State) (b : Barge) : (s.setBarge b).pending = s.pending := rfl
@[simp] theorem State.setBarge_freeCount (s : State) (b : Barge) : (s.setBarge b).freeCount = s.freeCount := rfl
@[simp] theorem State.setBarge_out (s : State) (b : Barge) : (s.setBarge b).out = s.out := rfl
@[simp] theorem State.setBarge_regs (s : State) (b : Barge) : (s.setBarge b).regs = s.regs := rfl
@[simp] theorem State.setBarge_mem (s : State) (b : Barge) : (s.setBarge b).mem = s.mem := rfl
@[simp] theorem State.setBarge_fills (s : State) (b : Barge) : (s.setBarge b).fills = s.fills := rfl
@[simp] theorem State.setBarge_poison (s : State) (b : Barge) : (s.setBarge b).poison = s.poison := rfl
@[simp] theorem State.setBarge_armed (s : State) (b : Barge) : (s.setBarge b).armed = s.armed := rfl
@[simp] theorem State.setBarge_dirty (s : State) (b : Barge) : (s.setBarge b).dirty = s.dirty := rfl
@[simp] theorem State.setBarge_clusters (s : State) (b : Barge) : (s.setBarge b).clusters = s.clusters := rfl
@[simp] theorem State.setBarge_maps (s : State) (b : Barge) : (s.setBarge b).maps = s.maps := rfl
@[simp] theorem State.setBarge_mapVer (s : State) (b : Barge) : (s.setBarge b).mapVer = s.mapVer := rfl
@[simp] theorem State.setBarge_unmapped (s : State) (b : Barge) : (s.setBarge b).unmapped = s.unmapped := rfl
@[simp] theorem State.setBarge_watches (s : State) (b : Barge) : (s.setBarge b).watches = s.watches := rfl
@[simp] theorem State.setBarge_cargo (s : State) (b : Barge) : (s.setBarge b).cargo = s.cargo := rfl
@[simp] theorem State.setBarge_done (s : State) (b : Barge) : (s.setBarge b).done = s.done := rfl
@[simp] theorem State.setBarge_tallies (s : State) (b : Barge) : (s.setBarge b).tallies = s.tallies := rfl
@[simp] theorem State.setBarge_log (s : State) (b : Barge) : (s.setBarge b).log = s.log := rfl
@[simp] theorem State.setBarge_errs (s : State) (b : Barge) : (s.setBarge b).errs = s.errs := rfl
@[simp] theorem State.setBarge_nmOps (s : State) (b : Barge) : (s.setBarge b).nmOps = s.nmOps := rfl
@[simp] theorem State.setBarge_nmNum (s : State) (b : Barge) : (s.setBarge b).nmNum = s.nmNum := rfl
@[simp] theorem State.setBarge_fronts (s : State) (b : Barge) : (s.setBarge b).fronts = s.fronts := rfl
@[simp] theorem State.setBarge_krylov (s : State) (b : Barge) : (s.setBarge b).krylov = s.krylov := rfl
@[simp] theorem State.setBarge_chains (s : State) (b : Barge) : (s.setBarge b).chains = s.chains := rfl
@[simp] theorem State.setBarge_tokenKey (s : State) (b : Barge) : (s.setBarge b).tokenKey = s.tokenKey := rfl
@[simp] theorem State.setBarge_partReq (s : State) (b : Barge) : (s.setBarge b).partReq = s.partReq := rfl
@[simp] theorem State.setBarge_fabric (s : State) (b : Barge) : (s.setBarge b).fabric = s.fabric := rfl
@[simp] theorem State.setBarge_health (s : State) (b : Barge) : (s.setBarge b).health = s.health := rfl
@[simp] theorem State.setBarge_heat (s : State) (b : Barge) : (s.setBarge b).heat = s.heat := rfl
@[simp] theorem State.setBarge_e4 (s : State) (b : Barge) : (s.setBarge b).e4 = s.e4 := rfl
@[simp] theorem State.setBarge_hostPort (s : State) (b : Barge) : (s.setBarge b).hostPort = s.hostPort := rfl
@[simp] theorem State.setBarge_mgmt (s : State) (b : Barge) : (s.setBarge b).mgmt = s.mgmt := rfl
@[simp] theorem State.setBarge_logRead (s : State) (b : Barge) : (s.setBarge b).logRead = s.logRead := rfl
@[simp] theorem State.setBarge_streams (s : State) (b : Barge) : (s.setBarge b).streams = s.streams := rfl
@[simp] theorem State.setBarge_sec (s : State) (b : Barge) : (s.setBarge b).sec = s.sec := rfl
@[simp] theorem State.setBarge_subs (s : State) (b : Barge) : (s.setBarge b).subs = s.subs := rfl
@[simp] theorem State.setBarge_mapWait (s : State) (b : Barge) : (s.setBarge b).mapWait = s.mapWait := rfl
@[simp] theorem State.setBarge_copies (s : State) (b : Barge) : (s.setBarge b).copies = s.copies := rfl
@[simp] theorem State.setBarge_inService (s : State) (b : Barge) : (s.setBarge b).inService = s.inService := rfl
@[simp] theorem State.setBarge_factory (s : State) (b : Barge) : (s.setBarge b).factory = s.factory := rfl
@[simp] theorem State.setBarge_weir (s : State) (b : Barge) : (s.setBarge b).weir = s.weir := rfl
@[simp] theorem State.setBarge_booting (s : State) (b : Barge) : (s.setBarge b).booting = s.booting := rfl
@[simp] theorem State.setBarge_tap (s : State) (b : Barge) : (s.setBarge b).tap = s.tap := rfl

@[simp] theorem State.unwatch_pending (s : State) (w : Watcher) : (s.unwatch w).pending = s.pending := rfl
@[simp] theorem State.unwatch_freeCount (s : State) (w : Watcher) : (s.unwatch w).freeCount = s.freeCount := rfl
@[simp] theorem State.unwatch_out (s : State) (w : Watcher) : (s.unwatch w).out = s.out := rfl
@[simp] theorem State.unwatch_regs (s : State) (w : Watcher) : (s.unwatch w).regs = s.regs := rfl
@[simp] theorem State.unwatch_mem (s : State) (w : Watcher) : (s.unwatch w).mem = s.mem := rfl
@[simp] theorem State.unwatch_fills (s : State) (w : Watcher) : (s.unwatch w).fills = s.fills := rfl
@[simp] theorem State.unwatch_poison (s : State) (w : Watcher) : (s.unwatch w).poison = s.poison := rfl
@[simp] theorem State.unwatch_armed (s : State) (w : Watcher) : (s.unwatch w).armed = s.armed := rfl
@[simp] theorem State.unwatch_dirty (s : State) (w : Watcher) : (s.unwatch w).dirty = s.dirty := rfl
@[simp] theorem State.unwatch_clusters (s : State) (w : Watcher) : (s.unwatch w).clusters = s.clusters := rfl
@[simp] theorem State.unwatch_maps (s : State) (w : Watcher) : (s.unwatch w).maps = s.maps := rfl
@[simp] theorem State.unwatch_mapVer (s : State) (w : Watcher) : (s.unwatch w).mapVer = s.mapVer := rfl
@[simp] theorem State.unwatch_unmapped (s : State) (w : Watcher) : (s.unwatch w).unmapped = s.unmapped := rfl
@[simp] theorem State.unwatch_cargo (s : State) (w : Watcher) : (s.unwatch w).cargo = s.cargo := rfl
@[simp] theorem State.unwatch_barges (s : State) (w : Watcher) : (s.unwatch w).barges = s.barges := rfl
@[simp] theorem State.unwatch_done (s : State) (w : Watcher) : (s.unwatch w).done = s.done := rfl
@[simp] theorem State.unwatch_tallies (s : State) (w : Watcher) : (s.unwatch w).tallies = s.tallies := rfl
@[simp] theorem State.unwatch_log (s : State) (w : Watcher) : (s.unwatch w).log = s.log := rfl
@[simp] theorem State.unwatch_errs (s : State) (w : Watcher) : (s.unwatch w).errs = s.errs := rfl
@[simp] theorem State.unwatch_nmOps (s : State) (w : Watcher) : (s.unwatch w).nmOps = s.nmOps := rfl
@[simp] theorem State.unwatch_nmNum (s : State) (w : Watcher) : (s.unwatch w).nmNum = s.nmNum := rfl
@[simp] theorem State.unwatch_fronts (s : State) (w : Watcher) : (s.unwatch w).fronts = s.fronts := rfl
@[simp] theorem State.unwatch_krylov (s : State) (w : Watcher) : (s.unwatch w).krylov = s.krylov := rfl
@[simp] theorem State.unwatch_chains (s : State) (w : Watcher) : (s.unwatch w).chains = s.chains := rfl
@[simp] theorem State.unwatch_tokenKey (s : State) (w : Watcher) : (s.unwatch w).tokenKey = s.tokenKey := rfl
@[simp] theorem State.unwatch_partReq (s : State) (w : Watcher) : (s.unwatch w).partReq = s.partReq := rfl
@[simp] theorem State.unwatch_fabric (s : State) (w : Watcher) : (s.unwatch w).fabric = s.fabric := rfl
@[simp] theorem State.unwatch_health (s : State) (w : Watcher) : (s.unwatch w).health = s.health := rfl
@[simp] theorem State.unwatch_heat (s : State) (w : Watcher) : (s.unwatch w).heat = s.heat := rfl
@[simp] theorem State.unwatch_e4 (s : State) (w : Watcher) : (s.unwatch w).e4 = s.e4 := rfl
@[simp] theorem State.unwatch_hostPort (s : State) (w : Watcher) : (s.unwatch w).hostPort = s.hostPort := rfl
@[simp] theorem State.unwatch_mgmt (s : State) (w : Watcher) : (s.unwatch w).mgmt = s.mgmt := rfl
@[simp] theorem State.unwatch_logRead (s : State) (w : Watcher) : (s.unwatch w).logRead = s.logRead := rfl
@[simp] theorem State.unwatch_streams (s : State) (w : Watcher) : (s.unwatch w).streams = s.streams := rfl
@[simp] theorem State.unwatch_sec (s : State) (w : Watcher) : (s.unwatch w).sec = s.sec := rfl
@[simp] theorem State.unwatch_subs (s : State) (w : Watcher) : (s.unwatch w).subs = s.subs := rfl
@[simp] theorem State.unwatch_mapWait (s : State) (w : Watcher) : (s.unwatch w).mapWait = s.mapWait := rfl
@[simp] theorem State.unwatch_copies (s : State) (w : Watcher) : (s.unwatch w).copies = s.copies := rfl
@[simp] theorem State.unwatch_inService (s : State) (w : Watcher) : (s.unwatch w).inService = s.inService := rfl
@[simp] theorem State.unwatch_factory (s : State) (w : Watcher) : (s.unwatch w).factory = s.factory := rfl
@[simp] theorem State.unwatch_weir (s : State) (w : Watcher) : (s.unwatch w).weir = s.weir := rfl
@[simp] theorem State.unwatch_booting (s : State) (w : Watcher) : (s.unwatch w).booting = s.booting := rfl
@[simp] theorem State.unwatch_tap (s : State) (w : Watcher) : (s.unwatch w).tap = s.tap := rfl

@[simp] theorem State.setHost_pending (s : State) (k : Nat) (h : HostPort) : (s.setHost k h).pending = s.pending := rfl
@[simp] theorem State.setHost_freeCount (s : State) (k : Nat) (h : HostPort) : (s.setHost k h).freeCount = s.freeCount := rfl
@[simp] theorem State.setHost_out (s : State) (k : Nat) (h : HostPort) : (s.setHost k h).out = s.out := rfl
@[simp] theorem State.setHost_regs (s : State) (k : Nat) (h : HostPort) : (s.setHost k h).regs = s.regs := rfl
@[simp] theorem State.setHost_mem (s : State) (k : Nat) (h : HostPort) : (s.setHost k h).mem = s.mem := rfl
@[simp] theorem State.setHost_fills (s : State) (k : Nat) (h : HostPort) : (s.setHost k h).fills = s.fills := rfl
@[simp] theorem State.setHost_poison (s : State) (k : Nat) (h : HostPort) : (s.setHost k h).poison = s.poison := rfl
@[simp] theorem State.setHost_armed (s : State) (k : Nat) (h : HostPort) : (s.setHost k h).armed = s.armed := rfl
@[simp] theorem State.setHost_dirty (s : State) (k : Nat) (h : HostPort) : (s.setHost k h).dirty = s.dirty := rfl
@[simp] theorem State.setHost_clusters (s : State) (k : Nat) (h : HostPort) : (s.setHost k h).clusters = s.clusters := rfl
@[simp] theorem State.setHost_maps (s : State) (k : Nat) (h : HostPort) : (s.setHost k h).maps = s.maps := rfl
@[simp] theorem State.setHost_mapVer (s : State) (k : Nat) (h : HostPort) : (s.setHost k h).mapVer = s.mapVer := rfl
@[simp] theorem State.setHost_unmapped (s : State) (k : Nat) (h : HostPort) : (s.setHost k h).unmapped = s.unmapped := rfl
@[simp] theorem State.setHost_watches (s : State) (k : Nat) (h : HostPort) : (s.setHost k h).watches = s.watches := rfl
@[simp] theorem State.setHost_cargo (s : State) (k : Nat) (h : HostPort) : (s.setHost k h).cargo = s.cargo := rfl
@[simp] theorem State.setHost_barges (s : State) (k : Nat) (h : HostPort) : (s.setHost k h).barges = s.barges := rfl
@[simp] theorem State.setHost_done (s : State) (k : Nat) (h : HostPort) : (s.setHost k h).done = s.done := rfl
@[simp] theorem State.setHost_tallies (s : State) (k : Nat) (h : HostPort) : (s.setHost k h).tallies = s.tallies := rfl
@[simp] theorem State.setHost_log (s : State) (k : Nat) (h : HostPort) : (s.setHost k h).log = s.log := rfl
@[simp] theorem State.setHost_errs (s : State) (k : Nat) (h : HostPort) : (s.setHost k h).errs = s.errs := rfl
@[simp] theorem State.setHost_nmOps (s : State) (k : Nat) (h : HostPort) : (s.setHost k h).nmOps = s.nmOps := rfl
@[simp] theorem State.setHost_nmNum (s : State) (k : Nat) (h : HostPort) : (s.setHost k h).nmNum = s.nmNum := rfl
@[simp] theorem State.setHost_fronts (s : State) (k : Nat) (h : HostPort) : (s.setHost k h).fronts = s.fronts := rfl
@[simp] theorem State.setHost_krylov (s : State) (k : Nat) (h : HostPort) : (s.setHost k h).krylov = s.krylov := rfl
@[simp] theorem State.setHost_chains (s : State) (k : Nat) (h : HostPort) : (s.setHost k h).chains = s.chains := rfl
@[simp] theorem State.setHost_tokenKey (s : State) (k : Nat) (h : HostPort) : (s.setHost k h).tokenKey = s.tokenKey := rfl
@[simp] theorem State.setHost_partReq (s : State) (k : Nat) (h : HostPort) : (s.setHost k h).partReq = s.partReq := rfl
@[simp] theorem State.setHost_fabric (s : State) (k : Nat) (h : HostPort) : (s.setHost k h).fabric = s.fabric := rfl
@[simp] theorem State.setHost_health (s : State) (k : Nat) (h : HostPort) : (s.setHost k h).health = s.health := rfl
@[simp] theorem State.setHost_heat (s : State) (k : Nat) (h : HostPort) : (s.setHost k h).heat = s.heat := rfl
@[simp] theorem State.setHost_e4 (s : State) (k : Nat) (h : HostPort) : (s.setHost k h).e4 = s.e4 := rfl
@[simp] theorem State.setHost_mgmt (s : State) (k : Nat) (h : HostPort) : (s.setHost k h).mgmt = s.mgmt := rfl
@[simp] theorem State.setHost_logRead (s : State) (k : Nat) (h : HostPort) : (s.setHost k h).logRead = s.logRead := rfl
@[simp] theorem State.setHost_streams (s : State) (k : Nat) (h : HostPort) : (s.setHost k h).streams = s.streams := rfl
@[simp] theorem State.setHost_sec (s : State) (k : Nat) (h : HostPort) : (s.setHost k h).sec = s.sec := rfl
@[simp] theorem State.setHost_subs (s : State) (k : Nat) (h : HostPort) : (s.setHost k h).subs = s.subs := rfl
@[simp] theorem State.setHost_mapWait (s : State) (k : Nat) (h : HostPort) : (s.setHost k h).mapWait = s.mapWait := rfl
@[simp] theorem State.setHost_copies (s : State) (k : Nat) (h : HostPort) : (s.setHost k h).copies = s.copies := rfl
@[simp] theorem State.setHost_inService (s : State) (k : Nat) (h : HostPort) : (s.setHost k h).inService = s.inService := rfl
@[simp] theorem State.setHost_factory (s : State) (k : Nat) (h : HostPort) : (s.setHost k h).factory = s.factory := rfl
@[simp] theorem State.setHost_weir (s : State) (k : Nat) (h : HostPort) : (s.setHost k h).weir = s.weir := rfl
@[simp] theorem State.setHost_booting (s : State) (k : Nat) (h : HostPort) : (s.setHost k h).booting = s.booting := rfl
@[simp] theorem State.setHost_tap (s : State) (k : Nat) (h : HostPort) : (s.setHost k h).tap = s.tap := rfl

@[simp] theorem State.setMgmt_pending (s : State) (k : Nat) (m : MgmtPort) : (s.setMgmt k m).pending = s.pending := rfl
@[simp] theorem State.setMgmt_freeCount (s : State) (k : Nat) (m : MgmtPort) : (s.setMgmt k m).freeCount = s.freeCount := rfl
@[simp] theorem State.setMgmt_out (s : State) (k : Nat) (m : MgmtPort) : (s.setMgmt k m).out = s.out := rfl
@[simp] theorem State.setMgmt_regs (s : State) (k : Nat) (m : MgmtPort) : (s.setMgmt k m).regs = s.regs := rfl
@[simp] theorem State.setMgmt_mem (s : State) (k : Nat) (m : MgmtPort) : (s.setMgmt k m).mem = s.mem := rfl
@[simp] theorem State.setMgmt_fills (s : State) (k : Nat) (m : MgmtPort) : (s.setMgmt k m).fills = s.fills := rfl
@[simp] theorem State.setMgmt_poison (s : State) (k : Nat) (m : MgmtPort) : (s.setMgmt k m).poison = s.poison := rfl
@[simp] theorem State.setMgmt_armed (s : State) (k : Nat) (m : MgmtPort) : (s.setMgmt k m).armed = s.armed := rfl
@[simp] theorem State.setMgmt_dirty (s : State) (k : Nat) (m : MgmtPort) : (s.setMgmt k m).dirty = s.dirty := rfl
@[simp] theorem State.setMgmt_clusters (s : State) (k : Nat) (m : MgmtPort) : (s.setMgmt k m).clusters = s.clusters := rfl
@[simp] theorem State.setMgmt_maps (s : State) (k : Nat) (m : MgmtPort) : (s.setMgmt k m).maps = s.maps := rfl
@[simp] theorem State.setMgmt_mapVer (s : State) (k : Nat) (m : MgmtPort) : (s.setMgmt k m).mapVer = s.mapVer := rfl
@[simp] theorem State.setMgmt_unmapped (s : State) (k : Nat) (m : MgmtPort) : (s.setMgmt k m).unmapped = s.unmapped := rfl
@[simp] theorem State.setMgmt_watches (s : State) (k : Nat) (m : MgmtPort) : (s.setMgmt k m).watches = s.watches := rfl
@[simp] theorem State.setMgmt_cargo (s : State) (k : Nat) (m : MgmtPort) : (s.setMgmt k m).cargo = s.cargo := rfl
@[simp] theorem State.setMgmt_barges (s : State) (k : Nat) (m : MgmtPort) : (s.setMgmt k m).barges = s.barges := rfl
@[simp] theorem State.setMgmt_done (s : State) (k : Nat) (m : MgmtPort) : (s.setMgmt k m).done = s.done := rfl
@[simp] theorem State.setMgmt_tallies (s : State) (k : Nat) (m : MgmtPort) : (s.setMgmt k m).tallies = s.tallies := rfl
@[simp] theorem State.setMgmt_log (s : State) (k : Nat) (m : MgmtPort) : (s.setMgmt k m).log = s.log := rfl
@[simp] theorem State.setMgmt_errs (s : State) (k : Nat) (m : MgmtPort) : (s.setMgmt k m).errs = s.errs := rfl
@[simp] theorem State.setMgmt_nmOps (s : State) (k : Nat) (m : MgmtPort) : (s.setMgmt k m).nmOps = s.nmOps := rfl
@[simp] theorem State.setMgmt_nmNum (s : State) (k : Nat) (m : MgmtPort) : (s.setMgmt k m).nmNum = s.nmNum := rfl
@[simp] theorem State.setMgmt_fronts (s : State) (k : Nat) (m : MgmtPort) : (s.setMgmt k m).fronts = s.fronts := rfl
@[simp] theorem State.setMgmt_krylov (s : State) (k : Nat) (m : MgmtPort) : (s.setMgmt k m).krylov = s.krylov := rfl
@[simp] theorem State.setMgmt_chains (s : State) (k : Nat) (m : MgmtPort) : (s.setMgmt k m).chains = s.chains := rfl
@[simp] theorem State.setMgmt_tokenKey (s : State) (k : Nat) (m : MgmtPort) : (s.setMgmt k m).tokenKey = s.tokenKey := rfl
@[simp] theorem State.setMgmt_partReq (s : State) (k : Nat) (m : MgmtPort) : (s.setMgmt k m).partReq = s.partReq := rfl
@[simp] theorem State.setMgmt_fabric (s : State) (k : Nat) (m : MgmtPort) : (s.setMgmt k m).fabric = s.fabric := rfl
@[simp] theorem State.setMgmt_health (s : State) (k : Nat) (m : MgmtPort) : (s.setMgmt k m).health = s.health := rfl
@[simp] theorem State.setMgmt_heat (s : State) (k : Nat) (m : MgmtPort) : (s.setMgmt k m).heat = s.heat := rfl
@[simp] theorem State.setMgmt_e4 (s : State) (k : Nat) (m : MgmtPort) : (s.setMgmt k m).e4 = s.e4 := rfl
@[simp] theorem State.setMgmt_hostPort (s : State) (k : Nat) (m : MgmtPort) : (s.setMgmt k m).hostPort = s.hostPort := rfl
@[simp] theorem State.setMgmt_logRead (s : State) (k : Nat) (m : MgmtPort) : (s.setMgmt k m).logRead = s.logRead := rfl
@[simp] theorem State.setMgmt_streams (s : State) (k : Nat) (m : MgmtPort) : (s.setMgmt k m).streams = s.streams := rfl
@[simp] theorem State.setMgmt_sec (s : State) (k : Nat) (m : MgmtPort) : (s.setMgmt k m).sec = s.sec := rfl
@[simp] theorem State.setMgmt_subs (s : State) (k : Nat) (m : MgmtPort) : (s.setMgmt k m).subs = s.subs := rfl
@[simp] theorem State.setMgmt_mapWait (s : State) (k : Nat) (m : MgmtPort) : (s.setMgmt k m).mapWait = s.mapWait := rfl
@[simp] theorem State.setMgmt_copies (s : State) (k : Nat) (m : MgmtPort) : (s.setMgmt k m).copies = s.copies := rfl
@[simp] theorem State.setMgmt_inService (s : State) (k : Nat) (m : MgmtPort) : (s.setMgmt k m).inService = s.inService := rfl
@[simp] theorem State.setMgmt_factory (s : State) (k : Nat) (m : MgmtPort) : (s.setMgmt k m).factory = s.factory := rfl
@[simp] theorem State.setMgmt_weir (s : State) (k : Nat) (m : MgmtPort) : (s.setMgmt k m).weir = s.weir := rfl
@[simp] theorem State.setMgmt_booting (s : State) (k : Nat) (m : MgmtPort) : (s.setMgmt k m).booting = s.booting := rfl
@[simp] theorem State.setMgmt_tap (s : State) (k : Nat) (m : MgmtPort) : (s.setMgmt k m).tap = s.tap := rfl

@[simp] theorem State.modFab_pending (s : State) (f : Fabric → Fabric) : (s.modFab f).pending = s.pending := rfl
@[simp] theorem State.modFab_freeCount (s : State) (f : Fabric → Fabric) : (s.modFab f).freeCount = s.freeCount := rfl
@[simp] theorem State.modFab_out (s : State) (f : Fabric → Fabric) : (s.modFab f).out = s.out := rfl
@[simp] theorem State.modFab_regs (s : State) (f : Fabric → Fabric) : (s.modFab f).regs = s.regs := rfl
@[simp] theorem State.modFab_mem (s : State) (f : Fabric → Fabric) : (s.modFab f).mem = s.mem := rfl
@[simp] theorem State.modFab_fills (s : State) (f : Fabric → Fabric) : (s.modFab f).fills = s.fills := rfl
@[simp] theorem State.modFab_poison (s : State) (f : Fabric → Fabric) : (s.modFab f).poison = s.poison := rfl
@[simp] theorem State.modFab_armed (s : State) (f : Fabric → Fabric) : (s.modFab f).armed = s.armed := rfl
@[simp] theorem State.modFab_dirty (s : State) (f : Fabric → Fabric) : (s.modFab f).dirty = s.dirty := rfl
@[simp] theorem State.modFab_clusters (s : State) (f : Fabric → Fabric) : (s.modFab f).clusters = s.clusters := rfl
@[simp] theorem State.modFab_maps (s : State) (f : Fabric → Fabric) : (s.modFab f).maps = s.maps := rfl
@[simp] theorem State.modFab_mapVer (s : State) (f : Fabric → Fabric) : (s.modFab f).mapVer = s.mapVer := rfl
@[simp] theorem State.modFab_unmapped (s : State) (f : Fabric → Fabric) : (s.modFab f).unmapped = s.unmapped := rfl
@[simp] theorem State.modFab_watches (s : State) (f : Fabric → Fabric) : (s.modFab f).watches = s.watches := rfl
@[simp] theorem State.modFab_cargo (s : State) (f : Fabric → Fabric) : (s.modFab f).cargo = s.cargo := rfl
@[simp] theorem State.modFab_barges (s : State) (f : Fabric → Fabric) : (s.modFab f).barges = s.barges := rfl
@[simp] theorem State.modFab_done (s : State) (f : Fabric → Fabric) : (s.modFab f).done = s.done := rfl
@[simp] theorem State.modFab_tallies (s : State) (f : Fabric → Fabric) : (s.modFab f).tallies = s.tallies := rfl
@[simp] theorem State.modFab_log (s : State) (f : Fabric → Fabric) : (s.modFab f).log = s.log := rfl
@[simp] theorem State.modFab_errs (s : State) (f : Fabric → Fabric) : (s.modFab f).errs = s.errs := rfl
@[simp] theorem State.modFab_nmOps (s : State) (f : Fabric → Fabric) : (s.modFab f).nmOps = s.nmOps := rfl
@[simp] theorem State.modFab_nmNum (s : State) (f : Fabric → Fabric) : (s.modFab f).nmNum = s.nmNum := rfl
@[simp] theorem State.modFab_fronts (s : State) (f : Fabric → Fabric) : (s.modFab f).fronts = s.fronts := rfl
@[simp] theorem State.modFab_krylov (s : State) (f : Fabric → Fabric) : (s.modFab f).krylov = s.krylov := rfl
@[simp] theorem State.modFab_chains (s : State) (f : Fabric → Fabric) : (s.modFab f).chains = s.chains := rfl
@[simp] theorem State.modFab_tokenKey (s : State) (f : Fabric → Fabric) : (s.modFab f).tokenKey = s.tokenKey := rfl
@[simp] theorem State.modFab_partReq (s : State) (f : Fabric → Fabric) : (s.modFab f).partReq = s.partReq := rfl
@[simp] theorem State.modFab_health (s : State) (f : Fabric → Fabric) : (s.modFab f).health = s.health := rfl
@[simp] theorem State.modFab_heat (s : State) (f : Fabric → Fabric) : (s.modFab f).heat = s.heat := rfl
@[simp] theorem State.modFab_e4 (s : State) (f : Fabric → Fabric) : (s.modFab f).e4 = s.e4 := rfl
@[simp] theorem State.modFab_hostPort (s : State) (f : Fabric → Fabric) : (s.modFab f).hostPort = s.hostPort := rfl
@[simp] theorem State.modFab_mgmt (s : State) (f : Fabric → Fabric) : (s.modFab f).mgmt = s.mgmt := rfl
@[simp] theorem State.modFab_logRead (s : State) (f : Fabric → Fabric) : (s.modFab f).logRead = s.logRead := rfl
@[simp] theorem State.modFab_streams (s : State) (f : Fabric → Fabric) : (s.modFab f).streams = s.streams := rfl
@[simp] theorem State.modFab_sec (s : State) (f : Fabric → Fabric) : (s.modFab f).sec = s.sec := rfl
@[simp] theorem State.modFab_subs (s : State) (f : Fabric → Fabric) : (s.modFab f).subs = s.subs := rfl
@[simp] theorem State.modFab_mapWait (s : State) (f : Fabric → Fabric) : (s.modFab f).mapWait = s.mapWait := rfl
@[simp] theorem State.modFab_copies (s : State) (f : Fabric → Fabric) : (s.modFab f).copies = s.copies := rfl
@[simp] theorem State.modFab_inService (s : State) (f : Fabric → Fabric) : (s.modFab f).inService = s.inService := rfl
@[simp] theorem State.modFab_factory (s : State) (f : Fabric → Fabric) : (s.modFab f).factory = s.factory := rfl
@[simp] theorem State.modFab_weir (s : State) (f : Fabric → Fabric) : (s.modFab f).weir = s.weir := rfl
@[simp] theorem State.modFab_booting (s : State) (f : Fabric → Fabric) : (s.modFab f).booting = s.booting := rfl
@[simp] theorem State.modFab_tap (s : State) (f : Fabric → Fabric) : (s.modFab f).tap = s.tap := rfl

@[simp] theorem State.modSec_pending (s : State) (f : Security → Security) : (s.modSec f).pending = s.pending := rfl
@[simp] theorem State.modSec_freeCount (s : State) (f : Security → Security) : (s.modSec f).freeCount = s.freeCount := rfl
@[simp] theorem State.modSec_out (s : State) (f : Security → Security) : (s.modSec f).out = s.out := rfl
@[simp] theorem State.modSec_regs (s : State) (f : Security → Security) : (s.modSec f).regs = s.regs := rfl
@[simp] theorem State.modSec_mem (s : State) (f : Security → Security) : (s.modSec f).mem = s.mem := rfl
@[simp] theorem State.modSec_fills (s : State) (f : Security → Security) : (s.modSec f).fills = s.fills := rfl
@[simp] theorem State.modSec_poison (s : State) (f : Security → Security) : (s.modSec f).poison = s.poison := rfl
@[simp] theorem State.modSec_armed (s : State) (f : Security → Security) : (s.modSec f).armed = s.armed := rfl
@[simp] theorem State.modSec_dirty (s : State) (f : Security → Security) : (s.modSec f).dirty = s.dirty := rfl
@[simp] theorem State.modSec_clusters (s : State) (f : Security → Security) : (s.modSec f).clusters = s.clusters := rfl
@[simp] theorem State.modSec_maps (s : State) (f : Security → Security) : (s.modSec f).maps = s.maps := rfl
@[simp] theorem State.modSec_mapVer (s : State) (f : Security → Security) : (s.modSec f).mapVer = s.mapVer := rfl
@[simp] theorem State.modSec_unmapped (s : State) (f : Security → Security) : (s.modSec f).unmapped = s.unmapped := rfl
@[simp] theorem State.modSec_watches (s : State) (f : Security → Security) : (s.modSec f).watches = s.watches := rfl
@[simp] theorem State.modSec_cargo (s : State) (f : Security → Security) : (s.modSec f).cargo = s.cargo := rfl
@[simp] theorem State.modSec_barges (s : State) (f : Security → Security) : (s.modSec f).barges = s.barges := rfl
@[simp] theorem State.modSec_done (s : State) (f : Security → Security) : (s.modSec f).done = s.done := rfl
@[simp] theorem State.modSec_tallies (s : State) (f : Security → Security) : (s.modSec f).tallies = s.tallies := rfl
@[simp] theorem State.modSec_log (s : State) (f : Security → Security) : (s.modSec f).log = s.log := rfl
@[simp] theorem State.modSec_errs (s : State) (f : Security → Security) : (s.modSec f).errs = s.errs := rfl
@[simp] theorem State.modSec_nmOps (s : State) (f : Security → Security) : (s.modSec f).nmOps = s.nmOps := rfl
@[simp] theorem State.modSec_nmNum (s : State) (f : Security → Security) : (s.modSec f).nmNum = s.nmNum := rfl
@[simp] theorem State.modSec_fronts (s : State) (f : Security → Security) : (s.modSec f).fronts = s.fronts := rfl
@[simp] theorem State.modSec_krylov (s : State) (f : Security → Security) : (s.modSec f).krylov = s.krylov := rfl
@[simp] theorem State.modSec_chains (s : State) (f : Security → Security) : (s.modSec f).chains = s.chains := rfl
@[simp] theorem State.modSec_tokenKey (s : State) (f : Security → Security) : (s.modSec f).tokenKey = s.tokenKey := rfl
@[simp] theorem State.modSec_partReq (s : State) (f : Security → Security) : (s.modSec f).partReq = s.partReq := rfl
@[simp] theorem State.modSec_fabric (s : State) (f : Security → Security) : (s.modSec f).fabric = s.fabric := rfl
@[simp] theorem State.modSec_health (s : State) (f : Security → Security) : (s.modSec f).health = s.health := rfl
@[simp] theorem State.modSec_heat (s : State) (f : Security → Security) : (s.modSec f).heat = s.heat := rfl
@[simp] theorem State.modSec_e4 (s : State) (f : Security → Security) : (s.modSec f).e4 = s.e4 := rfl
@[simp] theorem State.modSec_hostPort (s : State) (f : Security → Security) : (s.modSec f).hostPort = s.hostPort := rfl
@[simp] theorem State.modSec_mgmt (s : State) (f : Security → Security) : (s.modSec f).mgmt = s.mgmt := rfl
@[simp] theorem State.modSec_logRead (s : State) (f : Security → Security) : (s.modSec f).logRead = s.logRead := rfl
@[simp] theorem State.modSec_streams (s : State) (f : Security → Security) : (s.modSec f).streams = s.streams := rfl
@[simp] theorem State.modSec_subs (s : State) (f : Security → Security) : (s.modSec f).subs = s.subs := rfl
@[simp] theorem State.modSec_mapWait (s : State) (f : Security → Security) : (s.modSec f).mapWait = s.mapWait := rfl
@[simp] theorem State.modSec_copies (s : State) (f : Security → Security) : (s.modSec f).copies = s.copies := rfl
@[simp] theorem State.modSec_inService (s : State) (f : Security → Security) : (s.modSec f).inService = s.inService := rfl
@[simp] theorem State.modSec_factory (s : State) (f : Security → Security) : (s.modSec f).factory = s.factory := rfl
@[simp] theorem State.modSec_weir (s : State) (f : Security → Security) : (s.modSec f).weir = s.weir := rfl
@[simp] theorem State.modSec_booting (s : State) (f : Security → Security) : (s.modSec f).booting = s.booting := rfl
@[simp] theorem State.modSec_tap (s : State) (f : Security → Security) : (s.modSec f).tap = s.tap := rfl

@[simp] theorem State.modHeat_pending (s : State) (f : Heat → Heat) : (s.modHeat f).pending = s.pending := rfl
@[simp] theorem State.modHeat_freeCount (s : State) (f : Heat → Heat) : (s.modHeat f).freeCount = s.freeCount := rfl
@[simp] theorem State.modHeat_out (s : State) (f : Heat → Heat) : (s.modHeat f).out = s.out := rfl
@[simp] theorem State.modHeat_regs (s : State) (f : Heat → Heat) : (s.modHeat f).regs = s.regs := rfl
@[simp] theorem State.modHeat_mem (s : State) (f : Heat → Heat) : (s.modHeat f).mem = s.mem := rfl
@[simp] theorem State.modHeat_fills (s : State) (f : Heat → Heat) : (s.modHeat f).fills = s.fills := rfl
@[simp] theorem State.modHeat_poison (s : State) (f : Heat → Heat) : (s.modHeat f).poison = s.poison := rfl
@[simp] theorem State.modHeat_armed (s : State) (f : Heat → Heat) : (s.modHeat f).armed = s.armed := rfl
@[simp] theorem State.modHeat_dirty (s : State) (f : Heat → Heat) : (s.modHeat f).dirty = s.dirty := rfl
@[simp] theorem State.modHeat_clusters (s : State) (f : Heat → Heat) : (s.modHeat f).clusters = s.clusters := rfl
@[simp] theorem State.modHeat_maps (s : State) (f : Heat → Heat) : (s.modHeat f).maps = s.maps := rfl
@[simp] theorem State.modHeat_mapVer (s : State) (f : Heat → Heat) : (s.modHeat f).mapVer = s.mapVer := rfl
@[simp] theorem State.modHeat_unmapped (s : State) (f : Heat → Heat) : (s.modHeat f).unmapped = s.unmapped := rfl
@[simp] theorem State.modHeat_watches (s : State) (f : Heat → Heat) : (s.modHeat f).watches = s.watches := rfl
@[simp] theorem State.modHeat_cargo (s : State) (f : Heat → Heat) : (s.modHeat f).cargo = s.cargo := rfl
@[simp] theorem State.modHeat_barges (s : State) (f : Heat → Heat) : (s.modHeat f).barges = s.barges := rfl
@[simp] theorem State.modHeat_done (s : State) (f : Heat → Heat) : (s.modHeat f).done = s.done := rfl
@[simp] theorem State.modHeat_tallies (s : State) (f : Heat → Heat) : (s.modHeat f).tallies = s.tallies := rfl
@[simp] theorem State.modHeat_log (s : State) (f : Heat → Heat) : (s.modHeat f).log = s.log := rfl
@[simp] theorem State.modHeat_errs (s : State) (f : Heat → Heat) : (s.modHeat f).errs = s.errs := rfl
@[simp] theorem State.modHeat_nmOps (s : State) (f : Heat → Heat) : (s.modHeat f).nmOps = s.nmOps := rfl
@[simp] theorem State.modHeat_nmNum (s : State) (f : Heat → Heat) : (s.modHeat f).nmNum = s.nmNum := rfl
@[simp] theorem State.modHeat_fronts (s : State) (f : Heat → Heat) : (s.modHeat f).fronts = s.fronts := rfl
@[simp] theorem State.modHeat_krylov (s : State) (f : Heat → Heat) : (s.modHeat f).krylov = s.krylov := rfl
@[simp] theorem State.modHeat_chains (s : State) (f : Heat → Heat) : (s.modHeat f).chains = s.chains := rfl
@[simp] theorem State.modHeat_tokenKey (s : State) (f : Heat → Heat) : (s.modHeat f).tokenKey = s.tokenKey := rfl
@[simp] theorem State.modHeat_partReq (s : State) (f : Heat → Heat) : (s.modHeat f).partReq = s.partReq := rfl
@[simp] theorem State.modHeat_fabric (s : State) (f : Heat → Heat) : (s.modHeat f).fabric = s.fabric := rfl
@[simp] theorem State.modHeat_health (s : State) (f : Heat → Heat) : (s.modHeat f).health = s.health := rfl
@[simp] theorem State.modHeat_e4 (s : State) (f : Heat → Heat) : (s.modHeat f).e4 = s.e4 := rfl
@[simp] theorem State.modHeat_hostPort (s : State) (f : Heat → Heat) : (s.modHeat f).hostPort = s.hostPort := rfl
@[simp] theorem State.modHeat_mgmt (s : State) (f : Heat → Heat) : (s.modHeat f).mgmt = s.mgmt := rfl
@[simp] theorem State.modHeat_logRead (s : State) (f : Heat → Heat) : (s.modHeat f).logRead = s.logRead := rfl
@[simp] theorem State.modHeat_streams (s : State) (f : Heat → Heat) : (s.modHeat f).streams = s.streams := rfl
@[simp] theorem State.modHeat_sec (s : State) (f : Heat → Heat) : (s.modHeat f).sec = s.sec := rfl
@[simp] theorem State.modHeat_subs (s : State) (f : Heat → Heat) : (s.modHeat f).subs = s.subs := rfl
@[simp] theorem State.modHeat_mapWait (s : State) (f : Heat → Heat) : (s.modHeat f).mapWait = s.mapWait := rfl
@[simp] theorem State.modHeat_copies (s : State) (f : Heat → Heat) : (s.modHeat f).copies = s.copies := rfl
@[simp] theorem State.modHeat_inService (s : State) (f : Heat → Heat) : (s.modHeat f).inService = s.inService := rfl
@[simp] theorem State.modHeat_factory (s : State) (f : Heat → Heat) : (s.modHeat f).factory = s.factory := rfl
@[simp] theorem State.modHeat_weir (s : State) (f : Heat → Heat) : (s.modHeat f).weir = s.weir := rfl
@[simp] theorem State.modHeat_booting (s : State) (f : Heat → Heat) : (s.modHeat f).booting = s.booting := rfl
@[simp] theorem State.modHeat_tap (s : State) (f : Heat → Heat) : (s.modHeat f).tap = s.tap := rfl

end Sys2Proof.Machine
end

