-- ==== Sys2Proof/Laws/Memory.lean ====
section
/-! SUPPORT. Laws of memory: what a byte reads as after a write, and that every memory operation keeps the canonical
form. -/

-- One declaration after the other: elaborated side by side, they ask for more threads than the check allows.
set_option Elab.async false

namespace Sys2Proof.Machine

/-! ### Reading back -/

@[simp] theorem State.byteAt_putByte_same (s : State) (pa : Nat) (b : Byte) : (s.putByte pa b).byteAt pa = b := by
  simp [State.byteAt, State.putByte]

theorem State.byteAt_putByte_other (s : State) {pa k : Nat} (h : pa ≠ k) (b : Byte) :
    (s.putByte pa b).byteAt k = s.byteAt k := by
  simp [State.byteAt, State.putByte, spGet_spSet_other _ h]

@[simp] theorem State.putBytes_fills (s : State) (pa : Nat) (bs : List Byte) : (s.putBytes pa bs).fills = s.fills := by
  induction bs generalizing s pa with
  | nil => rfl
  | cons b bs ih => simp [State.putBytes, ih]

/-- A write leaves every byte before its first and after its last alone. -/
theorem State.byteAt_putBytes_outside (s : State) (pa : Nat) (bs : List Byte) {k : Nat}
    (h : k < pa ∨ pa + bs.length ≤ k) : (s.putBytes pa bs).byteAt k = s.byteAt k := by
  induction bs generalizing s pa with
  | nil => rfl
  | cons b bs ih =>
    simp only [List.length_cons] at h
    rw [State.putBytes, ih _ _ (by omega), State.byteAt_putByte_other _ (by omega)]

/-- A byte that a write covers reads as the byte written. -/
theorem State.byteAt_putBytes_inside (s : State) (pa : Nat) (bs : List Byte) {i : Nat} (h : i < bs.length) :
    (s.putBytes pa bs).byteAt (pa + i) = bs[i] := by
  induction bs generalizing s pa i with
  | nil => simp at h
  | cons b bs ih =>
    cases i with
    | zero =>
      rw [State.putBytes, State.byteAt_putBytes_outside _ _ _ (by omega)]
      simp
    | succ i =>
      rw [State.putBytes, show pa + (i + 1) = pa + 1 + i by omega, ih _ _ (by simpa using h)]
      simp

@[simp] theorem State.touch_mem (s : State) (pa : Nat) : (s.touch pa).mem = s.mem := by
  unfold State.touch; split <;> rfl

@[simp] theorem State.touch_fills (s : State) (pa : Nat) : (s.touch pa).fills = s.fills := by
  unfold State.touch; split <;> rfl

/-- A field that every step of a fold leaves alone is left alone by the fold. -/
theorem foldl_same {σ ι β : Type} (g : σ → β) (f : σ → ι → σ) (h : ∀ t i, g (f t i) = g t) (l : List ι) (t : σ) :
    g (l.foldl f t) = g t := by
  induction l generalizing t with
  | nil => rfl
  | cons a l ih => rw [List.foldl_cons, ih, h]

@[simp] theorem State.touchRange_mem (s : State) (pa n : Nat) : (s.touchRange pa n).mem = s.mem :=
  foldl_same State.mem _ (fun t i => by dsimp only; split <;> simp) _ _

@[simp] theorem State.touchRange_fills (s : State) (pa n : Nat) : (s.touchRange pa n).fills = s.fills :=
  foldl_same State.fills _ (fun t i => by dsimp only; split <;> simp) _ _

/-- What a store leaves in memory. -/
theorem State.byteAt_store (s : State) (pa : Nat) (bs : List Byte) (h : s.lineLost pa = false) (k : Nat) :
    (s.store pa bs).byteAt k = (s.putBytes pa bs).byteAt k := by
  simp [State.store, h, State.byteAt]

/-- A store leaves every byte outside its range alone. -/
theorem State.byteAt_store_outside (s : State) (pa : Nat) (bs : List Byte) {k : Nat}
    (h : k < pa ∨ pa + bs.length ≤ k) : (s.store pa bs).byteAt k = s.byteAt k := by
  by_cases hl : s.lineLost pa = true
  · simp [State.store, hl]
  · rw [State.byteAt_store _ _ _ (by simpa using hl), State.byteAt_putBytes_outside _ _ _ h]

/-! ### The canonical form -/

theorem State.memWf_congr {s t : State} (hm : t.mem = s.mem) (hf : t.fills = s.fills) : t.memWf = s.memWf := by
  unfold State.memWf
  rw [hm, hf]

theorem State.memWf_putByte (s : State) (pa : Nat) (b : Byte) (h : s.memWf = true) : (s.putByte pa b).memWf = true :=
  spWf_spSet (memDefault s.fills) pa b s.mem h

theorem State.memWf_putBytes (s : State) (pa : Nat) (bs : List Byte) (h : s.memWf = true) :
    (s.putBytes pa bs).memWf = true := by
  induction bs generalizing s pa with
  | nil => exact h
  | cons b bs ih => exact ih _ _ (s.memWf_putByte pa b h)

theorem State.memWf_store (s : State) (pa : Nat) (bs : List Byte) (h : s.memWf = true) : (s.store pa bs).memWf = true := by
  unfold State.store
  split
  · exact h
  · rw [State.memWf_congr (s := s.putBytes pa bs) (by simp) (by simp)]
    exact s.memWf_putBytes pa bs h

theorem State.memWf_store8 (s : State) (pa v : Nat) (h : s.memWf = true) : (s.store8 pa v).memWf = true :=
  s.memWf_store pa _ h

theorem State.memWf_setPoison (s : State) (pa : Nat) (h : s.memWf = true) : (s.setPoison pa).memWf = true := by
  rw [State.memWf_congr (s := s) (by simp [State.setPoison]) (by simp [State.setPoison])]
  exact h

/-- Outside its own range, a fill changes no default. -/
theorem memDefault_fill (fills : List MemFill) {pa n k : Nat} (gen : Nat) (h : ¬(pa ≤ k ∧ k < pa + n)) :
    memDefault (⟨pa, n, gen⟩ :: fills.filter fun f => !decide (pa ≤ f.base ∧ f.base + f.len ≤ pa + n)) k =
      memDefault fills k := by
  have key : ((⟨pa, n, gen⟩ : MemFill) :: fills.filter fun f => !decide (pa ≤ f.base ∧ f.base + f.len ≤ pa + n)).find?
      (fun f => decide (f.base ≤ k ∧ k < f.base + f.len)) = fills.find? fun f => decide (f.base ≤ k ∧ k < f.base + f.len) := by
    rw [List.find?_cons_of_neg (by simpa using h), List.find?_filter]
    congr 1
    funext f
    by_cases hk : f.base ≤ k ∧ k < f.base + f.len
    · have : ¬(pa ≤ f.base ∧ f.base + f.len ≤ pa + n) := by omega
      simp [hk, this]
    · simp [hk]
  unfold memDefault
  rw [key]

theorem State.memWf_fillRange (s : State) (pa n gen : Nat) (h : s.memWf = true) : (s.fillRange pa n gen).memWf = true := by
  unfold State.fillRange
  split
  · exact h
  · have hw := (spWf_iff _ _).mp h
    have hout : ∀ c ∈ spClear (fun k => decide (pa ≤ k ∧ k < pa + n)) s.mem, ¬(pa ≤ c.1 ∧ c.1 < pa + n) ∧ c ∈ s.mem := by
      intro c hc
      have := List.mem_filter.mp hc
      exact ⟨by have h2 := this.2; simp at h2; omega, this.1⟩
    have hr := spRising_filter (fun c => !decide (pa ≤ c.1 ∧ c.1 < pa + n)) s.mem hw.1
    have key : ∀ t : State, t.mem = spClear (fun k => decide (pa ≤ k ∧ k < pa + n)) s.mem →
        (t.fills = s.fills ∨
          t.fills = ⟨pa, n, gen⟩ :: s.fills.filter fun f => !decide (pa ≤ f.base ∧ f.base + f.len ≤ pa + n)) →
        t.memWf = true := by
      intro t hm hf
      refine (spWf_iff _ _).mpr ⟨hm ▸ hr, fun c hc => ?_⟩
      have hc' := hout c (hm ▸ hc)
      rcases hf with hf | hf
      · rw [hf]; exact hw.2 c hc'.2
      · rw [hf, memDefault_fill s.fills gen hc'.1]; exact hw.2 c hc'.2
    apply key
    · dsimp only; split <;> simp
    · dsimp only; split <;> (simp only [State.touchRange_fills]; split <;> simp)

theorem State.memWf_zeroRange (s : State) (pa n : Nat) (h : s.memWf = true) : (s.zeroRange pa n).memWf = true :=
  s.memWf_fillRange pa n 0 h

theorem State.memWf_undefine (s : State) (pa n : Nat) (h : s.memWf = true) : (s.undefine pa n).memWf = true := by
  exact (State.memWf_congr (s := s.fillRange pa n (s.freeCount + 1)) rfl rfl).trans (s.memWf_fillRange pa n _ h)

/-- A package in an undefined state lists no byte. -/
theorem State.memWf_voided (s : State) : s.voided.memWf = true := rfl

theorem State.memWf_dramFree (s : State) (h : s.memWf = true) : s.dramFree.memWf = true := by
  have hw := (spWf_iff _ _).mp h
  refine (spWf_iff _ _).mpr ⟨spRising_filter (fun c => inBasin c.1) s.mem hw.1, fun c hc => ?_⟩
  have hc' := List.mem_filter.mp hc
  have hb : ¬(c.1 < basinBase) := by
    have := hc'.2
    simp [inBasin] at this
    omega
  have : memDefault s.dramFree.fills c.1 = memDefault s.fills c.1 := by
    unfold memDefault State.dramFree
    rw [List.find?_cons_of_neg (by simpa using hb)]
  rw [this]
  exact hw.2 c hc'.1

/-- Reset memory has the canonical form. -/
theorem reset_memWf : State.reset.memWf = true := by decide

end Sys2Proof.Machine
end

