-- ==== Sys2Proof/Laws/Keep.lean ====
section
/-! SUPPORT. What every command keeps: `K b t` says that `t`, reached from `b`, has the queue of `b`, and memory in its
canonical form where `b` had it so. -/

-- One declaration after the other: elaborated side by side, they ask for more threads than the check allows.
set_option Elab.async false

namespace Sys2Proof.Machine

/-- The queue of `b`, and canonical memory where `b` has it. -/
structure K (b t : State) : Prop where
  pending : t.pending = b.pending
  memWf : b.memWf = true → t.memWf = true

namespace K

theorem refl (b : State) : K b b := ⟨rfl, id⟩

/-- An update of other fields keeps both. -/
theorem upd {b u t : State} (hp : t.pending = u.pending) (hm : t.mem = u.mem) (hf : t.fills = u.fills) (h : K b u) : K b t :=
  ⟨hp.trans h.pending, fun w => (State.memWf_congr hm hf).trans (h.memWf w)⟩

/-- An update of other fields, as a term of its fields. -/
theorem fields {b u : State} {x1 x2 x3 x6 x7 x8 x9 x10 x11 x12 x13 x14 x15 x16 x17 x18 x19 x20 x21 x22 x23 x24 x25 x26
    x27 x28 x29 x30 x31 x32 x33 x34 x35 x36 x37 x38 x39 x40 x41 x42 x43} : K b (State.mk u.pending x1 x2 x3 u.mem u.fills x6 x7
    x8 x9 x10 x11 x12 x13 x14 x15 x16 x17 x18 x19 x20 x21 x22 x23 x24 x25 x26 x27 x28 x29 x30 x31 x32 x33 x34 x35 x36
    x37 x38 x39 x40 x41 x42 x43) ↔ K b u := ⟨upd rfl rfl rfl, upd rfl rfl rfl⟩

theorem snd {α : Type} {b t : State} {p : α × State} {a : α} (e : p = (a, t)) (h : K b p.2) : K b t := by
  rw [e] at h; exact h

theorem foldl {α : Type} {b : State} {f : State → α → State} {l : List α} {u : State}
    (hf : ∀ v x, K b v → K b (f v x)) (hu : K b u) : K b (l.foldl f u) := by
  induction l generalizing u with
  | nil => exact hu
  | cons x l ih => exact ih (hf _ _ hu)

end K

/-- Where an outcome is a next state, `K` holds of it. -/
def KR (b : State) (r : Host.Outcome State Fault Refusal) : Prop := ∀ t, r = .next t → K b t

/-- Where there is a state, `K` holds of it. -/
def KO (b : State) (o : Option State) : Prop := ∀ t, o = some t → K b t

/-- Where there is a state, `K` holds of it. -/
def KOE {ε : Type} (b : State) (o : Option (Except ε State)) : Prop := ∀ t, o = some (.ok t) → K b t

namespace K

theorem next {b t : State} (h : K b t) : KR b (.next t) := fun _ e => by cases e; exact h

theorem fault {b : State} {f : Fault} : KR b (.fault f) := fun _ e => by cases e

/-- Device memory left free keeps both. -/
theorem dramFree {b t : State} (h : K b t) : K b t.dramFree := ⟨h.pending, fun w => t.memWf_dramFree (h.memWf w)⟩

/-- A package in an undefined state keeps both. -/
theorem voided {b s : State} (h : K b s) : K b s.voided := ⟨h.pending, fun _ => s.memWf_voided⟩

theorem goOn {b s t : State} (hs : K b s) (h : K b t) : KR b (s.goOn t) := fun _ e => by
  unfold State.goOn at e
  split at e
  · cases e; exact voided hs
  · split at e <;> cases e
    · exact h
    · exact dramFree h

theorem go {b s t : State} (hs : K b s) (h : K b t) : KR b (s.go t) := fun _ e => by
  unfold State.go at e
  split at e
  · cases e; exact ⟨hs.pending, hs.memWf⟩
  · exact goOn hs h _ e

theorem goDie {b s t : State} {d : Nat} (hs : K b s) (h : K b t) : KR b (s.goDie d t) := fun _ e => by
  unfold State.goDie at e
  split at e
  · cases e; exact voided hs
  · exact go hs h _ e

theorem goDieOn {b s t : State} {d : Nat} (hs : K b s) (h : K b t) : KR b (s.goDieOn d t) := fun _ e => by
  unfold State.goDieOn at e
  split at e
  · cases e; exact voided hs
  · exact goOn hs h _ e

theorem goStack {b s t : State} {st : Nat} (hs : K b s) (h : K b t) : KR b (s.goStack st t) := fun _ e => by
  unfold State.goStack at e
  split at e
  · cases e; exact voided hs
  · exact go hs h _ e

theorem some {b t : State} (h : K b t) : KO b (Option.some t) := fun _ e => by cases e; exact h

theorem none {b : State} : KO b Option.none := fun _ e => by cases e

theorem ok {ε : Type} {b t : State} (h : K b t) : KOE (ε := ε) b (Option.some (Except.ok t)) := fun _ e => by cases e; exact h

theorem error {ε : Type} {b : State} {x : ε} : KOE b (Option.some (Except.error x)) := fun _ e => by cases e

theorem noneE {ε : Type} {b : State} : KOE (ε := ε) b Option.none := fun _ e => by cases e

theorem getO {b t : State} {o : Option State} (h : KO b o) (e : o = Option.some t) : K b t := h t e

theorem getOE {ε : Type} {b t : State} {o : Option (Except ε State)} (h : KOE b o) (e : o = Option.some (Except.ok t)) : K b t := h t e

end K

end Sys2Proof.Machine
end

