-- ==== Sys2Proof/Laws/Run.lean ====
section
/-! SUPPORT. What the shared operations of the commands can do: how an outcome is answered, how an instruction, the work of
a barge and a register write reach their effect, and what a register or a cluster reads as after a change. -/

-- One declaration after the other: elaborated side by side, they ask for more threads than the check allows.
set_option Elab.async false

namespace Sys2Proof.Machine

/-! ### Outcomes -/

/-- What a command's outcome can be: the state given, with device memory left free where a stack rail is out, the state as it
was where the command waits on a stack at 110 °C or a basin that is being moved, or an undefined state where another rail is
out. -/
theorem State.go_next {s t u : State} (h : s.go t = .next u) :
    (s.health.railOut = true ∧ u = s.voided) ∨
      (s.health.railOut = false ∧ (s.heat.s110 ≠ [] ∨ s.subs ≠ []) ∧ t.heat.waits = true ∧
        u = { s with heat := { s.heat with waits := false } }) ∨
      (s.health.railOut = false ∧ s.health.stackOut = [] ∧ u = t) ∨
      (s.health.railOut = false ∧ s.health.stackOut ≠ [] ∧ u = t.dramFree) := by
  unfold State.go at h
  cases hr : s.health.railOut <;> cases hw : (s.holds && t.heat.waits) <;>
    simp only [hr, hw, Bool.not_false, Bool.not_true, Bool.true_and, Bool.false_and, Bool.false_eq_true, if_true,
      if_false] at h
  · by_cases hs : s.health.stackOut = []
    · exact .inr (.inr (.inl ⟨rfl, hs, by simpa [State.goOn, hr, hs] using h.symm⟩))
    · exact .inr (.inr (.inr ⟨rfl, hs, by simpa [State.goOn, hr, hs] using h.symm⟩))
  · simp only [Bool.and_eq_true, State.holds, Bool.or_eq_true, Bool.not_eq_true', List.isEmpty_eq_false_iff] at hw
    exact .inr (.inl ⟨rfl, hw.1, hw.2, by injection h with e; exact e.symm⟩)
  · exact .inl ⟨rfl, by simpa [State.goOn, hr] using h.symm⟩
  · exact .inl ⟨rfl, by simpa [State.goOn, hr] using h.symm⟩

/-- A command of a void C-die leaves an undefined state; another ends as any command does. -/
theorem State.goDie_next {s t u : State} {d : Nat} (h : s.goDie d t = .next u) :
    (s.health.voidDies.contains d = true ∧ u = s.voided) ∨ (s.health.voidDies.contains d = false ∧ s.go t = .next u) := by
  unfold State.goDie at h
  cases hd : s.health.voidDies.contains d <;> simp only [hd, Bool.false_eq_true, if_true, if_false] at h
  · exact .inr ⟨rfl, h⟩
  · exact .inl ⟨rfl, by simpa using h.symm⟩

/-- A command of a stack without power leaves an undefined state; another ends as any command does. -/
theorem State.goStack_next {s t u : State} {st : Nat} (h : s.goStack st t = .next u) :
    (s.health.stackOut.contains (st / 8) = true ∧ u = s.voided) ∨
      (s.health.stackOut.contains (st / 8) = false ∧ s.go t = .next u) := by
  unfold State.goStack at h
  cases hd : s.health.stackOut.contains (st / 8) <;> simp only [hd, Bool.false_eq_true, if_true, if_false] at h
  · exact .inr ⟨rfl, h⟩
  · exact .inl ⟨rfl, by simpa using h.symm⟩

theorem State.go_of_sound {s : State} (h : s.Sound) (t : State) : s.go t = .next t := by
  simp [State.go, State.goOn, State.holds, h.1, h.2.2.1, h.2.2.2.1, h.2.2.2.2]

theorem State.goDie_of_sound {s : State} (h : s.Sound) (d : Nat) (t : State) : s.goDie d t = .next t := by
  simp [State.goDie, h.2.1, State.go_of_sound h]

theorem State.goStack_of_sound {s : State} (h : s.Sound) (st : Nat) (t : State) : s.goStack st t = .next t := by
  simp [State.goStack, h.2.2.1, State.go_of_sound h]

/-! ### Registers and clusters -/

theorem State.reg_setReg_same (s : State) (a v : Nat) : (s.setReg a v).reg a = v % 2 ^ 64 := by
  simp [State.reg, State.setReg]

theorem State.reg_setReg_other (s : State) {a b : Nat} (h : a ≠ b) (v : Nat) : (s.setReg a v).reg b = s.reg b := by
  simp [State.reg, State.setReg, spGet_spSet_other _ h]

theorem State.reg_lt (s : State) (a : Nat) : s.reg a < 2 ^ 64 := (spGet regReset s.regs a).isLt

@[simp] theorem State.cl_setCl_same (s : State) (P : Nat) (c : Cluster) : (s.setCl P c).cl P = c := by
  simp [State.cl, State.setCl]

theorem State.cl_setCl_other (s : State) {P Q : Nat} (h : P ≠ Q) (c : Cluster) : (s.setCl P c).cl Q = s.cl Q := by
  simp [State.cl, State.setCl, spGet_spSet_other _ h]

@[simp] theorem State.cl_modCl_same (s : State) (P : Nat) (f : Cluster → Cluster) : (s.modCl P f).cl P = f (s.cl P) :=
  s.cl_setCl_same P _

theorem State.cl_modCl_other (s : State) {P Q : Nat} (h : P ≠ Q) (f : Cluster → Cluster) : (s.modCl P f).cl Q = s.cl Q :=
  s.cl_setCl_other h _

@[simp] theorem State.cl_tick_same (s : State) (P hc : Nat) : (s.tick P hc).cl P = (s.cl P).after hc :=
  s.cl_setCl_same P _

theorem State.cl_tick_other (s : State) {P Q : Nat} (h : P ≠ Q) (hc : Nat) : (s.tick P hc).cl Q = s.cl Q :=
  s.cl_setCl_other h _

@[simp] theorem Cluster.after_x (c : Cluster) (hc n : Nat) : (c.after hc).x n = c.x n := rfl

theorem Cluster.x_setX_same (c : Cluster) {n : Nat} (h : n ≠ 0) (v : Word) : (c.setX n v).x n = v := by
  simp [Cluster.x, Cluster.setX, h]

theorem Cluster.x_setX_other (c : Cluster) {n m : Nat} (h : n ≠ m) (v : Word) : (c.setX n v).x m = c.x m := by
  by_cases hm : m = 0
  · simp [Cluster.x, hm]
  · by_cases hn : n = 0
    · simp [Cluster.setX, hn]
    · simp [Cluster.x, Cluster.setX, hn, hm, spGet_spSet_other _ h]

@[simp] theorem Cluster.setX_zero (c : Cluster) (v : Word) : c.setX 0 v = c := rfl

@[simp] theorem Cluster.x_zero (c : Cluster) : c.x 0 = 0 := rfl

/-- What changes one cluster's record alone leaves the rest of the state as it was. -/
theorem State.onlyCl_modCl {s t : State} {P : Nat} (h : s.OnlyCl t P) (f : Cluster → Cluster) : s.OnlyCl (t.modCl P f) P := by
  refine ⟨fun Q hQ => ?_, ?_⟩
  · rw [State.cl_modCl_other _ (Ne.symm hQ), h.1 Q hQ]
  · conv_lhs => rw [State.modCl, State.setCl, h.2]
    rfl

theorem State.onlyCl_setCl (s : State) (P : Nat) (c : Cluster) : s.OnlyCl (s.setCl P c) P :=
  ⟨fun _ hQ => s.cl_setCl_other (Ne.symm hQ) c, rfl⟩

theorem State.onlyCl_tick (s : State) (P hc : Nat) : s.OnlyCl (s.tick P hc) P := s.onlyCl_setCl P _

/-! ### Instructions, barges and register writes -/

/-- An instruction whose reads find no error acts in the state in which an idle drop of its die is over and its hc have
passed. -/
theorem State.issueAt_clean (s : State) (P : Nat) {env : CEnv} (h : env.reg.2 = .clean) (he : env.ecc ≠ .cache) :
    s.issueAt P env = (s.firstIssue (P / 144)).tick P env.hc := by
  unfold State.issueAt State.regEcc
  simp only [h]
  unfold State.cacheEcc
  split
  · contradiction
  · rfl

/-- The first issue on a die that has not dropped changes nothing (R452). -/
theorem State.firstIssue_of_up (s : State) (d : Nat) (h : s.flag (Reg.vcoreStatus d) F.VCORE_STATUS_LENT = false) :
    s.firstIssue d = s := by
  simp [State.firstIssue, h]

/-- An instruction that a cluster fetches runs its body on the state in which it acts. -/
theorem State.instr_of_fetches {s : State} {P w : Nat} {g : Group} (h : s.Fetches P w g) (env : CEnv)
    (body : Nat → State → State) : s.instr P g env body = .next (body w (s.issueAt P env)) := by
  obtain ⟨hs, hi, ha, hb, hp, hf, hw, hg, hr⟩ := h
  unfold State.instr
  rw [State.goDie_of_sound hs]
  simp only [hi, ha, hp, hf, hw, hg]
  simp [Nat.not_le.mpr hb, State.atBoundary, hr]

/-- The work of a started barge runs its body. -/
theorem State.work_of_begun {s : State} {c : Fin 256} {q : Nat} {b : Barge} {op : Nat} (h : s.Begun c q b op) {ops : List Nat}
    (ho : op ∈ ops) (body : Barge → State → State) : s.work c.val q ops body = .next (body b s) := by
  obtain ⟨hs, hb, hp, hn⟩ := h
  simp [State.work, State.go_of_sound hs, hb, hp, hn, ho]

/-- A list of checks that passes goes on. -/
theorem State.checked_of_passes {s : State} {b : Barge} {l : List (Bool × Nat × Nat)} (h : Passes l) (k : State → State) :
    s.checked b l k = k s := by
  unfold State.checked
  rw [h]

/-- The first check that fails gives the barge its status and RESULT0. -/
theorem State.checked_of_fails {s : State} {b : Barge} {l : List (Bool × Nat × Nat)} {st r0 : Nat}
    (h : firstFail l = some (st, r0)) (k : State → State) : s.checked b l k = s.finish b.canal b.seq st r0 0 := by
  unfold State.checked
  rw [h]

/-- A register write that is served performs its effect, after the wake event that S4 asks for. -/
theorem State.viaPath_of_reaches {s : State} {rp : RegPath} {a : Nat} (h : s.Reaches rp a) (write : State → State) :
    s.viaPath rp a write = write (s.wakeFor a) := by
  obtain ⟨-, hs, hv⟩ := h
  unfold State.viaPath
  cases hr : rp.view with
  | none => simp [hs]
  | some p =>
    rw [hr] at hv
    simp at hv
    simp [hs, hv]

end Sys2Proof.Machine
end

