-- ==== Sys2Proof/Tests/Slice0.lean ====
section
/-! SUPPORT. The tests: for each statement with hypotheses a state and operands that meet them, values worked out from the
tables of the manual, an ill-formed command for each check of WellFormed, and a few instruction words. -/

-- One declaration after the other: elaborated side by side, they ask for more threads than the check allows.
set_option Elab.async false

namespace Sys2Proof.Tests

open Sys2Proof.Machine

/-! ### Small states -/

/-- A package that has booted, with partition 0 live on every reach, its job 5, node 1 with port 0
up towards node 2, and 1 GiB of DRAM from address 2^32. -/
def up : State :=
  let s := { State.reset with booting := false, maps := [⟨0, 2 ^ 32, 0, 2, true⟩] }
  let s := s.setFld (Reg.bootStatus 0) F.BOOT_STATUS_STAGE 8
  let s := (s.setFld (Reg.partState 0) F.PART_STATE_STATE 2).setReg (Reg.partReaches 0) (2 ^ 64 - 1)
  let s := (s.setReg (Reg.fabricJob 0) 5).setFld (Reg.fabricJob 0) F.FABRIC_JOB_VALID 1
  let s := s.setFlds Reg.fabricNode [(F.FABRIC_NODE_NODE_ID, 1), (F.FABRIC_NODE_NODE_VALID, 1)]
  (s.setFld (Reg.portStatus 0) F.PORT_STATUS_STATE 2).modFab fun f => { f with routes := [(2, 0x9F00)] }

/-- The word of a major opcode, three register fields and what stands below them. -/
def wd (op a b c low : Nat) : Nat := op * 2 ^ 26 + a * 2 ^ 21 + b * 2 ^ 16 + c * 2 ^ 11 + low

/-- That package with cluster 0 running `w` from its basin's first byte. -/
def running (w : Nat) (c : Cluster := {}) : State :=
  ({ up with clusters := [(0, { c with act := .running })] }).store (basinPA 0) (bytesLE 4 w)

/-- Two registers of a cluster. -/
def g2 (a b : Word) : Cluster := { g := [(1, a), (2, b)] }

/-- The outcome of a command is a next state that passes a test. -/
def ends (r : Host.Outcome State Fault Refusal) (p : State → Bool) : Bool :=
  match r with
  | .next t => p t
  | _ => false

/-- A barge of canal 0 with sequence number 0: its opcode, partition 0 and the listed fields by their first byte and length. -/
def bg (op : Nat) (fields : List (Nat × Nat × Nat)) (phase : Phase := .started) : Barge :=
  { canal := 0, seq := 0, packet := [], entry := 0, part := 0, headAt := [], deps := [], phase := phase, notes := 0, work := .none
    admitted := false, startAt := 0, batch := 0, acc := 0
    bytes := fields.foldl (fun b f => patchB b f.1 (bytesLE f.2.1 f.2.2)) (patchB (List.replicate 128 0) 0 (bytesLE 2 op)) }

/-- The booted package with one barge. -/
def hold (b : Barge) : State := { up with barges := [b] }

/-! ### The machine -/

theorem test_witness_machine :
    (let s := { up with health := { up.health with railOut := true } }
     s.health.railOut = true ∧ Instr.mzero 0 {} ≠ .alwaysOnRailRise) ∧
    (up.pending = [] ∧ up.now + 2 < 2 ^ 64 ∧ up.fabric.gain = 0 ∧ up.fabric.lag = 0) ∧
    ends (step { up with pending := [.registerWrite (.reg {} (Reg.weirWake) 8 1)] }) (fun t => t.pending == []) = true ∧
    (running (wd 0x01 3 1 2 0)).memWf = true ∧ ends (step (running (wd 0x01 3 1 2 0))) (fun _ => true) = true := by
  and_intros <;> decide +kernel

theorem test_queue_is_first_in_first_out :
    ends (step { running (wd 0x01 3 1 2 0) (g2 5 7) with pending := [.integerRegOp 0 {}, .brk 0 {}] }) (fun t =>
      (t.cl 0).x 3 == 12 && t.pending == [.brk 0 {}]) = true := by decide +kernel

/-! ### Ill-formed commands -/

theorem test_wf_sequence_number : (Instr.nop 0 (2 ^ 32)).wf = false ∧ (Instr.nop 0 (2 ^ 32 - 1)).wf = true := by decide +kernel

theorem test_wf_hc : (Instr.brk 0 { hc := 2 ^ 64 }).wf = false ∧ (Instr.brk 0 { reg := (12288, .clean) }).wf = false ∧ (Instr.brk 0 {}).wf = true := by decide +kernel

theorem test_wf_ring_bytes : (Instr.bargeAccept 0 (List.replicate 127 0)).wf = false ∧
    (Instr.bargeAccept 0 (List.replicate 128 0)).wf = true ∧ (Instr.e4Packet 0 (List.replicate 128 0)).wf = false := by decide +kernel

theorem test_wf_memory_errors : (Instr.commForm 0 0 [(2 ^ 48, .corrected)]).wf = false ∧
    (Instr.commForm 0 0 [(0, .corrected)]).wf = true := by decide +kernel

theorem test_wf_copied_bytes : (Instr.memCopy 0 0 (2 ^ 32) [] .free).wf = false := by decide +kernel

theorem test_wf_solver_reach : (Instr.solveBatch 0 0 { hc := [(64, 0, 0)] }).wf = false ∧
    (Instr.solveBatch 0 0 { stopHc := [(64, 0)] }).wf = false ∧ (Instr.solveBatch 0 0 {}).wf = true := by
  decide +kernel

theorem test_wf_far_code : (Instr.ckptBegin 0 0 { far := { again := 256 } }).wf = false := by decide +kernel

theorem test_wf_near_memory_barge : (Instr.hash (.barge 0 (2 ^ 32)) [] .free).wf = false ∧ (Instr.hash (.op 9) [] .free).wf = true := by
  decide +kernel

theorem test_wf_stalled_source : (Instr.collStallTimeout 0 65536).wf = false := by decide +kernel

theorem test_wf_cupping : (Instr.diagCupping 0 0 [(64, {})]).wf = false ∧ (Instr.diagCupping 0 0 [(0, { slots := 512 })]).wf = false := by
  decide +kernel

theorem test_wf_weir : (Instr.weirTick { p10 := 0, dies := [(4, 0, 0)] }).wf = false ∧ (Instr.weirTick { p10 := 0 }).wf = true := by
  decide +kernel

theorem test_wf_boot : (Instr.boot { badFuse := [2] }).wf = false ∧ (Instr.boot { badStack := [32] }).wf = false ∧
    (Instr.boot {}).wf = true := by decide +kernel

theorem test_wf_packet : (Instr.packetForward 0 { ptype := 256, dst := 0, src := 0 }).wf = false ∧
    (Instr.packetForward 0 { ptype := 0x10, dst := 0, src := 0, body := [0] }).wf = false ∧
    (Instr.packetForward 0 { ptype := 0x10, dst := 0, src := 0 }).wf = true := by decide +kernel

theorem test_wf_flit : (Instr.flitReceive 0 {} [] .free).wf = false ∧
    (Instr.flitReceive 0 { bytes := List.replicate 542 0, fixed := [545] } [] .free).wf = false ∧
    (Instr.flitReceive 0 { bytes := List.replicate 542 0 } [] .free).wf = true := by decide +kernel

theorem test_wf_residue : (Instr.residueMismatch (.near 0 [4, 4]) false).wf = false ∧ (Instr.residueMismatch (.near 0 [4]) false).wf = true := by
  decide +kernel

theorem test_wf_window4 : (Instr.window4Access 0 { offset := 0, len := 0 } [] .free).wf = false ∧
    (Instr.window4Access 0 { offset := 0, len := 2, write := some [0] } [] .free).wf = false := by decide +kernel

theorem test_wf_certificate_slot : (Instr.getCertificate 0 8).wf = false ∧ (Instr.getCertificate 0 7).wf = true := by decide +kernel

theorem test_wf_register_write : (Instr.registerWrite (.reg {} 0 3 0)).wf = false ∧
    (Instr.registerWrite (.reg {} (2 ^ 26) 8 0)).wf = false ∧ (Instr.registerWrite (.buffer 0 0 [])).wf = false ∧
    (Instr.registerWrite (.reg {} 0 8 0)).wf = true ∧ (Instr.registerWrite (.span {} 0 [])).wf = false ∧
    (Instr.registerWrite (.span ⟨2, none⟩ 0 [0])).wf = false ∧ (Instr.registerWrite (.span {} (2 ^ 26 - 1) [0, 0])).wf = false := by
  decide +kernel

/-- A request of 12 bytes writes one register whole and leaves the next one, which it covers only in half (R681). -/
theorem test_register_span :
    (let t := up.writeSpan {} (Reg.globalScratch 0) (bytesLE 12 (5 + 7 * 2 ^ 64))
     t.reg (Reg.globalScratch 0) = 5 ∧ t.reg (Reg.globalScratch 1) = 0 ∧
       t.fld Reg.globalAccessErr F.GLOBAL_ACCESS_ERR_KIND = 1) := by decide +kernel

theorem test_wf_waiting_barge : (Instr.dramOver105 0 0 [(256, 0)]).wf = false := by decide +kernel

/-! ### Instruction words, written out from Tables 3-5 to 3-17 -/

theorem test_words_of_each_opcode :
    -- add r3, r1, r2 and divu; func 0x03F is unassigned, and func[10:6] must be zero
    classify 0b000001_00011_00001_00010_00000000000 = some .integerRegOp ∧
    classify 0b000001_00011_00001_00010_00000010101 = some .integerRegOp ∧
    classify 0b000001_00011_00001_00010_00000111111 = none ∧
    classify 0b000001_00011_00001_00010_00001000000 = none ∧
    -- st.d with w 0b011, and the illegal w 0b100; fst.d with w 0b111
    classify 0b001100_00011_00001_011_0000000001000 = some .integerStore ∧
    classify 0b001100_00011_00001_100_0000000001000 = none ∧
    classify 0b001101_00011_00001_111_0000000001000 = some .fpStore ∧
    -- bgeu with cond 0b101, and the illegal cond 0b110
    classify 0b001110_00001_00010_101_1111111111111 = some .branch ∧
    classify 0b001110_00001_00010_110_1111111111111 = none ∧
    -- cw.rd, and cw.rd with a non-zero rs1; brk, and brk with a non-zero rA; the all-zero word
    classify 0b011001_00011_00000_00_00_000000000001 = some .cwRd ∧
    classify 0b011001_00011_00001_00_00_000000000001 = none ∧
    classify 0b011010_00000_00000_00000_001_00000000 = some .brk ∧
    classify 0b011010_00001_00000_00000_001_00000000 = none ∧
    classify 0 = none := by decide +kernel

theorem test_offsets_are_sign_extended :
    fOff13 0b001110_00001_00010_101_1111111111111 = -1 ∧ fImm16 0b000010_00011_00001_1000000000000000 = -32768 ∧
    fOff21 0b001111_00001_011111111111111111111 = 1048575 := by decide +kernel

/-! ### Cluster instructions -/

/-- The state in which an instruction of cluster 0 accesses 8 bytes, that in which it has read them, and that in which a store
has read what it merges with. -/
def acc (s : State) (pa : Nat) (write : Bool) : State := (s.issueAt 0 {}).access 0 {} [⟨pa, 8, write⟩]

def met (s : State) (pa : Nat) (write : Bool := false) : State := (acc s pa write).meetEcc .clean pa

def merged (s : State) (pa : Nat) : State := (acc s pa true).mergeRead .clean pa 8

theorem test_witness_integer_operations :
    (running (wd 1 3 1 2 0)).Fetches 0 (wd 1 3 1 2 0) .integerRegOp ∧
    (running (wd 2 3 1 0 5)).Fetches 0 (wd 2 3 1 0 5) .immediateOp ∧
    (running (wd 1 0 1 2 0)).Fetches 0 (wd 1 0 1 2 0) .integerRegOp := by decide +kernel

/-- fadd.d f1, f2, f3 with each operand poisoned: DATA_POISON names the register. -/
theorem test_witness_operand_reads :
    (∀ n ∈ [2, 3], let s := running (wd 0x11 1 2 3 0) { vpois := [128 * n] }
      let t := s.issueAt 0 {}
      s.Fetches 0 (wd 0x11 1 2 3 0) .fpArithmetic ∧ (t.cl 0).mat = [] ∧ bitsOf (wd 0x11 1 2 3 0) 5 0 < 0x0A ∧
        ([fB (wd 0x11 1 2 3 0), fC (wd 0x11 1 2 3 0)].find? fun i => ((t.cl 0).vpoisIn (1024 * i) 8).isSome) = some n) ∧
    ({} : CEnv).reg.2 = .clean ∧ ({} : CEnv).ecc ≠ .cache ∧
    up.flag (Reg.vcoreStatus 0) F.VCORE_STATUS_LENT = false := by
  and_intros <;> decide +kernel

theorem test_witness_division (f : Nat) (h : f ∈ [0x14, 0x15, 0x16, 0x17]) :
    (running (wd 1 3 1 2 f) (g2 7 0)).Fetches 0 (wd 1 3 1 2 f) .integerRegOp ∧
    (running (wd 1 3 1 2 f) (g2 0x8000000000000000 (-1))).Fetches 0 (wd 1 3 1 2 f) .integerRegOp := by
  revert f; decide +kernel

theorem test_division_by_zero :
    ends (exec (.integerRegOp 0 {}) (running (wd 1 3 1 2 0x14) (g2 7 0))) (fun t => (t.cl 0).x 3 == -1) = true ∧
    ends (exec (.integerRegOp 0 {}) (running (wd 1 3 1 2 0x16) (g2 0x8000000000000000 (-1)))) (fun t => (t.cl 0).x 3 == 0) =
      true := by decide +kernel

theorem test_witness_branches_and_jumps :
    (running (wd 0x0E 1 2 0 8)).Fetches 0 (wd 0x0E 1 2 0 8) .branch ∧
    (running (wd 0x0F 1 0 0 8)).Fetches 0 (wd 0x0F 1 0 0 8) .jal ∧
    ((running (wd 0x10 3 1 0 0) (g2 8 0)).Fetches 0 (wd 0x10 3 1 0 0) .jalr ∧
      addr64 ((g2 8 0).x (fB (wd 0x10 3 1 0 0))) (fImm16 (wd 0x10 3 1 0 0)) % 4 = 0) ∧
    ((running (wd 0x10 3 1 0 2) (g2 8 0)).Fetches 0 (wd 0x10 3 1 0 2) .jalr ∧
      addr64 ((g2 8 0).x (fB (wd 0x10 3 1 0 2))) (fImm16 (wd 0x10 3 1 0 2)) % 4 ≠ 0) := by decide +kernel

theorem test_witness_fp_operations :
    (running (wd 0x11 1 2 3 0)).Fetches 0 (wd 0x11 1 2 3 0) .fpArithmetic ∧
    (running (wd 0x12 1 2 3 0)).Fetches 0 (wd 0x12 1 2 3 0) .fusedMultiplyAdd ∧
    (running (wd 0x13 1 2 0 0)).Fetches 0 (wd 0x13 1 2 0 0) .conversionMove ∧
    ({} : Cluster).FreeF [2, 3] [1] := by decide +kernel

theorem test_witness_control_words :
    (∀ n ∈ [0, 1, 7, 0xE, 0x20, 0x21], (running (wd 0x19 3 0 0 n)).Fetches 0 (wd 0x19 3 0 0 n) .cwRd ∧
      fCw (wd 0x19 3 0 0 n) = n) ∧
    (∀ n ∈ [0xF, 0x1F, 0x22], (running (wd 0x19 3 0 0 n)).Fetches 0 (wd 0x19 3 0 0 n) .cwRd ∧
      ¬ (n ≤ 0xE ∨ n = 0x20 ∨ n = 0x21)) ∧
    (∀ f ∈ [(8, Group.cwWr), (16, .cwSet), (24, .cwClr)], ∀ n ∈ [1, 3, 4, 7, 0, 0x21], ∀ x ∈ [4, 7, 12],
      let w := wd 0x19 0 1 f.1 n
      let s := running w (g2 (BitVec.ofNat 64 x) 0)
      let c := (s.issueAt 0 {}).cl 0
      s.Fetches 0 w f.2 ∧ fCw w = n ∧ (c.x (fB w)).toNat = x ∧ c.epc < 2 ^ 64 ∧ c.tvec < 2 ^ 64 ∧ c.tscratch < 2 ^ 64 ∧
        c.fpctrl < 2 ^ 64) ∧
    -- the value left: a word boundary and none, RM 0b01 and 0b11, for cw.clr from a word that holds it
    4 % 4 = 0 ∧ (7 % 4 ≠ 0) ∧ bitsOf 4 3 2 ≠ 3 ∧ bitsOf 12 3 2 = 3 ∧ bitsOf (12 &&& (2 ^ 64 - 1 - 3)) 3 2 = 3 ∧
    7 &&& (2 ^ 64 - 1 - 4) = 3 := by
  and_intros <;> decide +kernel

/-- A double-word access of the word 0x1_0000_0040, and one of the basin's own byte 64. -/
theorem test_witness_loads_and_stores :
    (∀ w ∈ [wd 0x0B 3 1 0 0x6000, wd 0x0D 3 1 0 0x6000], ∀ a ∈ [(2 ^ 32 + 64, 64), (64, basinPA 0 + 64)],
      let s := running w (g2 (BitVec.ofNat 64 a.1) 0)
      let t := s.issueAt 0 {}
      let c := t.cl 0
      (s.Fetches 0 w .integerLoad ∨ s.Fetches 0 w .fpLoad) ∧ t.clTranslate 0 false (mWidth w) (c.mAddr w) = .ok a.2 ∧
        c.memBusyR (ownRange 0 a.2 8) = false ∧ t.reaches 0 {} a.2 = true ∧ (met s a.2).poisonedAt a.2 = false ∧
        c.FreeF [] [fA w]) ∧
    (∀ w ∈ [wd 0x0C 3 1 0 0x6000, wd 0x0D 3 1 0 0xE000], ∀ a ∈ [(2 ^ 32 + 64, 64), (64, basinPA 0 + 64)],
      let s := running w (g2 (BitVec.ofNat 64 a.1) 0)
      let t := s.issueAt 0 {}
      let c := t.cl 0
      (s.Fetches 0 w .integerStore ∨ s.Fetches 0 w .fpStore) ∧ t.clTranslate 0 true (mWidth w) (c.mAddr w) = .ok a.2 ∧
        c.memBusyW (ownRange 0 a.2 8) = false ∧ (merged s a.2).reaches 0 {} a.2 = true ∧ c.FreeF [fA w] []) := by
  and_intros <;> decide +kernel

theorem test_store_then_load :
    ends (exec (.integerStore 0 {}) (running (wd 0x0C 2 1 0 0x2000) (g2 64 0x1234))) (fun t =>
      t.numAt (basinPA 0 + 64) 2 == 0x1234 && t.numAt (basinPA 0 + 66) 6 == 0 && (t.cl 0).pc == 4) = true := by decide +kernel

/-- Clusters 0 and 1 of one run under deal order, whose claim word is at 2^32. -/
def dealt (w : Nat) (claims : List (Nat × Nat)) : State :=
  let s := running w { g2 (2 ^ 32) 7 with barge := some (0, 0) }
  let s := { s with barges := [{ bg 0x201 [] .working with work := .run ⟨[0, 1], [0, 1], 0, 0, 0, none, [], claims, none⟩ }] }
  (s.setFld (Reg.partCtrl 0) F.PART_CTRL_DLB_OFF 1).setReg (Reg.partClaim 0) (2 ^ 32 + 1)

theorem test_witness_atomics_and_flags :
    (∀ x ∈ [(wd 0x14 3 1 2 0, Group.atomic), (wd 0x14 3 1 2 1, .atomic), (wd 0x15 0 1 2 0, .stFlag), (wd 0x15 3 1 2 0x200, .stFlagAdd)],
      let s := running x.1 (g2 (2 ^ 32) 7)
      let t := s.issueAt 0 {}
      let c := t.cl 0
      s.Fetches 0 x.1 x.2 ∧ (t.dealClaim 0 (2 ^ 32)).isNone = true ∧
        t.clTranslate 0 true 8 (c.x (fB x.1)).toNat = .ok 0 ∧ c.memBusyW (ownRange 0 0 8) = false ∧
        c.moutOpen = false ∧ t.reaches 0 {} 0 = true ∧ (met s 0 true).reaches 0 {} 0 = true ∧
        (merged s 0).reaches 0 {} 0 = true ∧ (met s 0 true).poisonedAt 0 = false) := by decide +kernel

/-- Cluster 0 claims in its turn where it has no claim yet, and waits where its own claim came before cluster 1's. -/
theorem test_witness_claims :
    (∀ x ∈ [([], true), ([(0, 0)], false)], let w := wd 0x14 3 1 2 0
      let s := dealt w x.1
      let t := s.issueAt 0 {}
      s.Fetches 0 w .atomic ∧ bitsOf w 2 0 = 0 ∧
        (match t.dealClaim 0 (2 ^ 32) with
          | some (r, word) => t.claimTurn r word 0 == x.2
          | none => false) = true ∧
        t.clTranslate 0 true 8 (2 ^ 32) = .ok 0 ∧ t.reaches 0 {} 0 = true ∧ (met s 0 true).reaches 0 {} 0 = true ∧
        (met s 0 true).poisonedAt 0 = false) := by decide +kernel

/-- A cluster that waits for a flag word of 0. -/
def flagged (watched : Bool) : State :=
  running 0 { wait := .flag ⟨3, 2 ^ 32, 0, 0, 0, 1, watched, 5, 0⟩ }

/-- That cluster paused. -/
def flagPaused : State := { flagged true with clusters := [(0, { (flagged true).cl 0 with act := .paused })] }

theorem test_witness_flag_waits :
    (let w := wd 0x15 3 1 2 0x100
     let s := running w (g2 (2 ^ 32) 0)
     let t := s.issueAt 0 {}
     s.Fetches 0 w .waitFlag ∧ t.clTranslate 0 false 8 ((t.cl 0).x (fB w)).toNat = .ok 0 ∧
       (t.cl 0).memBusyR (ownRange 0 0 8) = false ∧ t.reaches 0 {} 0 = true ∧ (met s 0).poisonedAt 0 = false ∧
       condHolds (bitsOf w 7 5) (BitVec.ofNat 64 ((met s 0).numAt 0 8)) ((t.cl 0).x (fC w)) = true) ∧
    (∀ b : Bool, (flagged b).Sound ∧ ((flagged b).cl 0).act = .running ∧
      ((flagged b).cl 0).wait = .flag ⟨3, 2 ^ 32, 0, 0, 0, 1, b, 5, 0⟩ ∧
      (flagged b).runFaulted 0 = false ∧ ((flagged b).tick 0 1).reaches 0 {} 0 = true ∧
      ((((flagged b).tick 0 1).access 0 {} [⟨0, 8, false⟩]).meetEcc .clean 0).poisonedAt 0 = false ∧
      condHolds 0 (BitVec.ofNat 64 (((((flagged b).tick 0 1).access 0 {} [⟨0, 8, false⟩]).meetEcc .clean 0).numAt 0 8)) 0 =
        true ∧
      (⟨3, 2 ^ 32, 0, 0, 0, 1, b, 5, 0⟩ : FlagWait).due (((flagged b).cl 0).hc + 1024) = true) ∧
    (flagPaused.Sound ∧ (flagPaused.cl 0).act ≠ .running) := by
  and_intros <;> decide +kernel

theorem test_witness_fences_and_halt :
    (∀ x ∈ [(0, Group.fence), (0x100, .fenceR), (0x200, .fenceNm), (0x300, .fenceI)],
      (running (wd 0x18 0 0 0 x.1)).Fetches 0 (wd 0x18 0 0 0 x.1) x.2) ∧
    (running (wd 0x1A 3 0 0 0)).Fetches 0 (wd 0x1A 3 0 0 0) .halt ∧
    (({} : Cluster).mat = [] ∧ ({} : Cluster).deferred = false ∧ ({} : Cluster).remoteOut = 0 ∧ ({} : Cluster).nmOut = 0 ∧
      ({} : Cluster).moutOpen = false ∧ ({} : Cluster).drained = true) ∧
    (∀ x ∈ [CWait.fence, .fenceR, .fenceNm, .halt 9], (running 0 { wait := x }).Sound ∧
      ((running 0 { wait := x }).cl 0).act = .running ∧ (running 0 { wait := x }).runFaulted 0 = false ∧
      ((running 0 { wait := x }).cl 0).wait = x ∧
      ((running 0 { wait := x }).cl 0).drained = true) := by decide +kernel

theorem test_witness_traps :
    (∀ x ∈ [(false, Group.brk), (true, .eret), (false, .eret)],
      let w := wd 0x1A 0 0 0 (if x.2 = .brk then 0x100 else 0x200)
      let s := running w { hmode := x.1, tvec := 64 }
      s.Fetches 0 w x.2 ∧ (s.cl 0).hmode = x.1 ∧ (s.cl 0).tvec ≠ 0) := by decide +kernel

theorem test_break_trap :
    ends (exec (.brk 0 {}) (running (wd 0x1A 0 0 0 0x100) { tvec := 64 })) (fun t =>
      (t.cl 0).pc == 64 && (t.cl 0).epc == 0 && (t.cl 0).cause == 0xF && (t.cl 0).hmode) = true := by decide +kernel

/-- A descriptor that multiplies two lists of eight binary64 numbers. -/
def nmBytes8 : List Byte :=
  [(0, 2, 0x11), (8, 8, 8), (16, 8, 2 ^ 32), (24, 8, 2 ^ 32 + 128), (32, 8, 2 ^ 32 + 256)].foldl
    (fun (b : List Byte) (f : Nat × Nat × Nat) => patchB b f.1 (bytesLE f.2.1 f.2.2)) (List.replicate 64 0)

theorem test_witness_remote_accesses :
    (∀ x ∈ [(wd 0x17 3 1 0 0, Group.ldR), (wd 0x17 0 1 2 0x100, .stR), (wd 0x17 0 1 2 0x200, .stRflag)], ∀ low ∈ [64, 65],
      let s := running x.1 (g2 (BitVec.ofNat 64 (2 * 2 ^ 48 + low)) 7)
      let t := s.issueAt 0 {}
      let a := ((t.cl 0).x (fB x.1)).toNat
      s.Fetches 0 x.1 x.2 ∧ a % 8 = low % 8 ∧ t.nodeValid = true ∧ t.clPart 0 = some 0 ∧ t.jobTag 0 = some 5 ∧
        a / 2 ^ 48 ≠ t.nodeId ∧ t.mooredNode (a / 2 ^ 48) = false ∧ t.routePort (a / 2 ^ 48) = some 0 ∧
        (t.cl 0).deferred = false ∧ (t.cl 0).moutOpen = false ∧ t.offFabric 0 = false ∧
        (let s' : State := { s with health := { s.health with linksOut := [32, 33] } }
         s'.Fetches 0 x.1 x.2 ∧ (s'.issueAt 0 {}).offFabric 0 = true)) ∧
    (let w := wd 0x17 3 1 0 0
     let s := (running w (g2 (BitVec.ofNat 64 (2 ^ 48 + 64)) 7)).modFab fun f =>
      { f with landing := [⟨0, 0, 2 ^ 32 + 2 ^ 20, 32, 5, 0, 0xFFFF, true, true, true, 0⟩] }
     let t := s.issueAt 0 {}
     let a := ((t.cl 0).x (fB w)).toNat
     let r := (t.landReq ⟨Pt.read8, 0, false, 0, 1, t.nodeId, 0, 5, a % 2 ^ 48, (t.logOfPhys 0).getD 0, 0, []⟩ [] .free).1
     s.Fetches 0 w .ldR ∧ a % 8 = 0 ∧ a / 2 ^ 48 = t.nodeId ∧ t.jobTag 0 = some 5 ∧ r.code = none ∧ r.poison = false) ∧
    (∀ a ∈ [65, basinSize], let w := wd 0x16 0 1 0 0
     let s := running w (g2 (BitVec.ofNat 64 a) 0)
     s.Fetches 0 w .nmPost ∧ (((s.issueAt 0 {}).cl 0).x (fB w)).toNat = a ∧ ((s.issueAt 0 {}).cl 0).moutOpen = false ∧
       (a % 64 ≠ 0 ∨ basinSize < a + 64)) ∧
    (let w := wd 0x16 0 1 0 0
     let s := (running w (g2 64 0)).store (basinPA 0 + 64) nmBytes8
     let m := ((s.issueAt 0 {}).access 0 {} [⟨basinPA 0 + 64, 64, false⟩]).meetEcc .clean (basinPA 0 + 64)
     s.Fetches 0 w .nmPost ∧ ((s.issueAt 0 {}).cl 0).moutOpen = false ∧ m.poisonIn (basinPA 0 + 64) 64 = none ∧
       (m.nmWell 0 (m.bytesAt (basinPA 0 + 64) 64)).any (fun d => (m.nmFault 0 d).isNone &&
         decide (m.nmQueued (m.nmLead 0 d (((m.logOfPhys 0).getD 0) % 8)) none < 16) &&
         m.linksTo 0 (m.nmLead 0 d (((m.logOfPhys 0).getD 0) % 8) / 64)) = true ∧
       m.nmWord 0 0 = .ok none) := by
  and_intros <;> decide +kernel

/-! ### Vectors and matrices -/

theorem test_free_vectors (c : Cluster) (h : c.mat = []) (k : c.vpois = []) (rd wr : List (Nat × Nat))
    (n : Option (List (Nat × Nat))) : c.FreeV rd wr n := by
  cases n <;> refine ⟨?_, ?_, ?_⟩ <;>
    simp [Cluster.regBusyR, Cluster.regBusyW, Cluster.readPois, Cluster.vreadPois, Cluster.vpoisIn, h, k]

/-- A vector word: opcode, vd, vs1, vs2 and func. -/
def vw (op d a b f : Nat) : Nat := op * 2 ^ 26 + d * 2 ^ 19 + a * 2 ^ 12 + b * 2 ^ 5 + f

theorem test_witness_vector_length :
    (running (wd 0x20 3 1 0 4)).Fetches 0 (wd 0x20 3 1 0 4) .setvl ∧
    (running (wd 0x20 3 0 0 0x1E5)).Fetches 0 (wd 0x20 3 0 0 0x1E5) .setvli ∧
    ((running (wd 0x20 3 1 0 2) (g2 0x80003 0)).Fetches 0 (wd 0x20 3 1 0 2) .setvlt ∧
      (bitOf ((g2 0x80003 0).x 1).toNat 2 = true → bitsOf ((g2 0x80003 0).x 1).toNat 1 0 = 1)) := by
  and_intros <;> decide +kernel

/-- One word for each clause about vector registers, with the group and the words' func bounds. -/
theorem test_witness_vector_register_operations :
    (∀ x ∈ [(vw 0x23 3 1 2 0, Group.vectorIntegerOp), (vw 0x26 3 1 2 0, .vectorFpOp), (vw 0x28 3 1 2 5, .vectorCompare),
        (vw 0x28 3 1 2 8, .vectorCompare), (vw 0x2A 3 1 2 0, .vectorSelectMove), (vw 0x2B 3 1 0 3, .vectorSelectMove),
        (vw 0x2B 3 0 4 0, .vectorSelectMove), (vw 0x2C 3 1 2 7, .vectorReduction), (vw 0x2C 3 0 2 0xC, .vectorReduction),
        (vw 0x2C 3 1 2 8, .vectorReduction), (vw 0x2D 3 0 2 4, .vectorScan), (vw 0x2D 3 0 2 5, .vectorScan),
        (vw 0x2E 8 1 0 (32 * 6 + 4), .vectorConversion), (vw 0x2F 3 1 2 0, .vectorPermute)],
      (running x.1 { vl := 2 }).Fetches 0 x.1 x.2 ∧ ((running x.1 { vl := 2 }).issued 0 {}).mat = [] ∧
        ((running x.1 { vl := 2 }).issued 0 {}).vpois = []) ∧
    ((running 0 { vl := 2 }).issued 0 {}).vfmt = some .binary64 ∧
    ((running 0 { vl := 2 }).issued 0 {}).vl * ((running 0 { vl := 2 }).issued 0 {}).ew ≤ 1024 ∧
    (let w := vw 0x2E 8 1 0 (32 * 6 + 4)
     cvBytes (cvSrc w) = ((running w { vtype := 2 }).issued 0 {}).ew ∧ vD w + cvRegs w ≤ 96) := by
  and_intros <;> decide +kernel

theorem test_vector_add_wraps :
    ends (exec (.vectorIntegerOp 0 {}) (running (vw 0x23 3 1 2 0)
      { vl := 1, vtype := 0, v := [(1024, 200), (2048, 100)] })) (fun t =>
        (t.cl 0).vbyte 3072 == 44 && (t.cl 0).vbyte 3073 == 0) = true := by decide +kernel

/-- The first byte of DRAM that a stack of C-die 1 holds. -/
def farPA : Nat := 2 ^ 30

/-- Cluster 0 at a vector store of two elements, whose page lies there. -/
def farStore (w : Nat) : State :=
  { running w { g2 (2 ^ 32) 0 with vl := 2 } with maps := [⟨0, 2 ^ 32, farPA, 2, true⟩] }

/-- A vector load and store of two elements at 2^32, with CW_VL 2 and 0. -/
theorem test_witness_vector_memory :
    (∀ x ∈ [(wd 0x21 0 0 0 0 + 3 * 2 ^ 19 + 2 ^ 14, false, Group.vectorLoad), (wd 0x22 0 0 0 0 + 3 * 2 ^ 19 + 2 ^ 14, true, .vectorStore)],
      ∀ vl ∈ [0, 2], let pas := if vl = 0 then [] else [0, 8]
      let t := (running x.1 { g2 (2 ^ 32) 0 with vl := vl }).issueAt 0 {}
      let c := t.cl 0
      (running x.1 { g2 (2 ^ 32) 0 with vl := vl }).Fetches 0 x.1 x.2.2 ∧ (c.vl = 0 ∨ c.vmConfigBad x.1 x.2.1 = false) ∧
        (c.vmReads x.1).any c.regBusyR = false ∧ c.vreadPois (4 * c.vl) (c.vmReads x.1) = none ∧
        c.vreadPois (c.vl * c.ew) [(vD x.1, 1)] = none ∧
        ((List.range (c.vcount x.1)).map fun i => t.vcheck 0 x.2.1 c.ew (c.vea x.1 i)) = pas.map Except.ok ∧
        c.regBusyW (vD x.1, 1) = false ∧ c.regBusyR (vD x.1, 1) = false ∧
        (pas.any fun pa => c.memBusyW (ownRange 0 pa c.ew)) = false ∧ (pas.any fun pa => c.memBusyR (ownRange 0 pa c.ew)) = false) ∧
    (∀ p ∈ [[], [0]], let w := wd 0x21 0 0 0 0 + 3 * 2 ^ 19 + 2 ^ 14
     let s := { running w { g2 (2 ^ 32) 0 with vl := 2 } with poison := p }
     let t := s.issueAt 0 {}
     let c := t.cl 0
     let u := (t.modCl 0 fun d => { d with checkStall := d.checkStall + 0 }.touchRegs ((vD w, 1) :: c.vmReads w)).access 0 {}
       [⟨0, 8, false⟩, ⟨8, 8, false⟩]
     let m := u.meetEcc .clean 0
     s.Fetches 0 w .vectorLoad ∧ vFunc w = 0 ∧ ([0, 8].any fun pa => m.poisonedAt pa || !m.reaches 0 {} pa) = !p.isEmpty) ∧
    -- a store whose elements arrive, and one to another C-die whose last path fails in flight
    (let w := wd 0x22 0 0 0 0 + 3 * 2 ^ 19 + 2 ^ 14
     let s := running w { g2 (2 ^ 32) 0 with vl := 2 }
     let m := ((s.issueAt 0 {}).access 0 {} [⟨0, 8, true⟩, ⟨8, 8, true⟩]).mergeRead .clean 0 8
     s.Fetches 0 w .vectorStore ∧ [0, 8].all (m.reaches 0 {}) = true) ∧
    (let w := wd 0x22 0 0 0 0 + 3 * 2 ^ 19 + 2 ^ 14
     let pas := [farPA, farPA + 8]
     let s := farStore w
     let t := s.issueAt 0 { cut := true }
     let c := t.cl 0
     let m := (t.access 0 { cut := true } [⟨farPA, 8, true⟩, ⟨farPA + 8, 8, true⟩]).mergeRead .clean farPA 8
     s.Fetches 0 w .vectorStore ∧ c.vmConfigBad w true = false ∧ (c.vmReads w).any c.regBusyR = false ∧
       c.vreadPois (4 * c.vl) (c.vmReads w) = none ∧
       ((List.range (c.vcount w)).map fun i => t.vcheck 0 true c.ew (c.vea w i)) = pas.map Except.ok ∧
       c.regBusyR (vD w, 1) = false ∧ c.vreadPois (c.vl * c.ew) [(vD w, 1)] = none ∧
       (pas.any fun pa => c.memBusyW (ownRange 0 pa c.ew)) = false ∧
       pas.findIdx? (fun pa => !m.reaches 0 { cut := true } pa) = some 0) := by
  and_intros <;> decide +kernel

/-- An mma of bf16 panels with K = 1, its record once issued, and those of an mout and an mzero of tile 0. -/
def mmaWord : Nat := wd 0x38 1 1 2 0x40

def mmaOp : MatOp := ⟨0, .mma, mmaWord, 0, 0, 1, 0, 0, 0, false, [], [(0, 128), (0, 128)], [], [], [(32, 16)]⟩

def moutOp : MatOp := ⟨0, .mout, wd 0x39 1 2 3 0, 0, 128, 0, 0, 0, 0, false, List.replicate 64 0, [], [(0, 16384)], [(32, 16)], []⟩

def mzeroOp : MatOp := ⟨0, .mzero, wd 0x3A 0 0 0 1, 0, 0, 0, 0, 0, 0, false, [], [], [], [], [tileRegs 1]⟩

theorem test_witness_matrix_issue :
    (∀ n ∈ [0, 3], let s := running mmaWord { g2 128 1 with mat := List.replicate n mmaOp }
      let c := s.issued 0 {}
      s.Fetches 0 mmaWord .mma ∧
        mmaCheck mmaWord (c.x (fA mmaWord)).toNat (c.x (fB mmaWord)).toNat (c.x (fC mmaWord)).toNat = none ∧
        decide (c.mmaQueued (maDefer mmaWord) < 2) = decide (n = 0)) ∧
    (let w := wd 0x39 1 2 3 0
     let s := running w (g2 128 64)
     let t := s.issueAt 0 {}
     s.Fetches 0 w .mout ∧ (moOreg w && moDual w) = false ∧ rangeBad 64 (64, 64) = false ∧
       (t.cl 0).memBusyR (64, 64) = false ∧ ((List.range 8).any fun i => t.poisonedAt (basinPA 0 + 64 + 8 * i)) = false ∧
       (parseOut (t.bytesAt (basinPA 0 + 64) 64)).any (fun d => moutCheck w 128 64 0 (some d) == none) = true ∧
       (t.cl 0).outQueued < 4) ∧
    (∀ x ∈ [(1, Group.mzero), (0x101, .mtrans), (0x200, .mdrain)], ∀ n ∈ [0, 5],
      let s := running (wd 0x3A 0 0 0 x.1) { mat := List.replicate n mzeroOp }
      s.Fetches 0 (wd 0x3A 0 0 0 x.1) x.2 ∧ (decide ((s.issued 0 {}).outQueued < 4) = decide (n = 0)) ∧
        ((s.issued 0 {}).mat.isEmpty = decide (n = 0))) := by
  and_intros <;> decide +kernel

theorem test_witness_matrix_completion :
    (∀ p ∈ [[], [basinPA 0 + 8]], let s := { running 0 { mat := [mmaOp] } with poison := p }
     s.Sound ∧ (s.cl 0).act = .running ∧ (s.cl 0).matHead false false = some mmaOp ∧
       ((((s.issueAt 0 {}).matEcc 0 mmaOp .clean).matPoisoned 0 mmaOp).isSome = !p.isEmpty) ∧
       ((((s.cl 0).matServed.findSome? fun x => (((s.issueAt 0 {}).matEcc 0 mmaOp .clean).matPoisoned 0 x).map fun o => (x.pc, o)).isSome) =
         !p.isEmpty)) ∧
    (∀ p ∈ [[], [128 * 32]], let s := running 0 { mat := [moutOp], vpois := p }
     s.Sound ∧ (s.cl 0).act = .running ∧ (s.cl 0).matHead true false = some moutOp ∧
       (((s.issueAt 0 {}).matPoisoned 0 moutOp).isSome = !p.isEmpty)) ∧
    (mzeroOp ∈ ((running 0 { mat := [mzeroOp] }).cl 0).mat ∧ mzeroOp.kind = .mzero) := by
  and_intros <;> decide +kernel

/-! ### Canals and barges -/

/-- The booted package with canal 0 of partition 0 enabled: the place of its ring, E4 mode, and its tail. -/
def canal0 (loc mode tail : Nat) : State :=
  let s := up.setFlds (Reg.canalCtrl 0) [(F.CANAL_CTRL_RING_LOG2, 6), (F.CANAL_CTRL_RING_LOC, loc), (F.CANAL_CTRL_MODE, mode),
    (F.CANAL_CTRL_ENABLE, 1), (F.CANAL_CTRL_SYSTEM, 0)]
  let s := (s.setReg (Reg.canalRing 0) (2 ^ 32)).setReg (Reg.canalTail 0) tail
  let s := s.setFld (Reg.hostPortStatus 0) F.HOST_PORT_STATUS_STATE 2
  s.setHost 0 { s.host 0 with master := [0] }

theorem test_witness_canal_registers :
    (∀ a ∈ [Reg.canalCtrl 0, Reg.canalDoorbell 0, Reg.canalTallyHead 0], (canal0 0 0 0).Reaches {} a) ∧
    (∀ a ∈ [Reg.canalDoorbell 0, Reg.canalTallyHead 0], ((canal0 0 0 0).wakeFor a).booted = true) ∧
    (let t := (canal0 0 0 0).wakeFor (Reg.canalDoorbell 0)
     t.flag (Reg.canalCtrl 0) F.CANAL_CTRL_ENABLE = true ∧ t.canalSlots 0 = 64 ∧
       (64 + 2 ^ 32 - t.reg (Reg.canalHead 0)) % 2 ^ 32 ≤ t.canalSlots 0 ∧
       t.canalSlots 0 < (65 + 2 ^ 32 - t.reg (Reg.canalHead 0)) % 2 ^ 32) ∧
    (let t := ((canal0 0 0 0).setReg (Reg.canalTallyTail 0) 3).wakeFor (Reg.canalTallyHead 0)
     let old := t.reg (Reg.canalTallyHead 0)
     (3 + 2 ^ 32 - old) % 2 ^ 32 ≤ (t.reg (Reg.canalTallyTail 0) + 2 ^ 32 - old) % 2 ^ 32 ∧
       (t.reg (Reg.canalTallyTail 0) + 2 ^ 32 - old) % 2 ^ 32 < (4 + 2 ^ 32 - old) % 2 ^ 32) ∧
    (let t := up.wakeFor (Reg.canalDoorbell 0)
     up.Reaches {} (Reg.canalDoorbell 0) ∧ t.booted = true ∧ t.flag (Reg.canalCtrl 0) F.CANAL_CTRL_ENABLE = false) := by
  and_intros <;> decide +kernel

theorem test_doorbell_beyond_the_ring :
    ends (exec (.canalDoorbell 0 65 {}) (canal0 0 0 0)) (fun t =>
      t.fld (Reg.canalStatus 0) F.CANAL_STATUS_FAULT_CAUSE == 1) = true ∧
    ends (exec (.canalDoorbell 0 64 {}) (canal0 0 0 0)) (fun t =>
      t.reg (Reg.canalTail 0) == 64 && !t.flag (Reg.canalStatus 0) F.CANAL_STATUS_FAULT) = true := by
  and_intros <;> decide +kernel

theorem test_witness_acceptance :
    (∀ m ∈ [0, 1], (canal0 0 m 1).Sound ∧ (canal0 0 m 1).mayFetch 0 (m == 1) = true ∧
      (canal0 0 m 1).fld (Reg.canalCtrl 0) F.CANAL_CTRL_RING_LOC ≠ 2 ∧ (canal0 0 m 1).canMaster 0 ((canal0 0 m 1).canalPort 0) = true) ∧
    (∀ m ∈ [(0, 128), (1, 64)], let s := canal0 2 m.1 1
      s.Sound ∧ s.mayFetch 0 (m.1 == 1) = true ∧ s.fld (Reg.canalCtrl 0) F.CANAL_CTRL_RING_LOC = 2 ∧ s.canalPart 0 = some 0 ∧
        s.execTranslate 0 false 1 (s.ringSlot 0 (s.reg (Reg.canalRing 0)) m.2 (s.reg (Reg.canalHead 0))) = .ok 0 ∧
        s.poisonIn 0 m.2 = none) ∧
    (let b := bg 0 [] .waiting
     let s := hold b
     s.Sound ∧ s.barge? 0 0 = some b ∧ s.ready b = true ∧ (b.actsFor.all fun p => s.live p) = true ∧ b.native ≠ 0x201 ∧
       s.admits b = true ∧ b.deadline = 0) ∧
    (let b := bg 0x801 [(32, 1, 1)] .waiting
     (hold b).barge? 0 0 = some b ∧ (hold b).ready b = true ∧ b.forced = true) ∧
    (let b := bg 0 [(16, 8, 1)] .waiting
     let s := (hold b).setReg Reg.globalTime 1
     s.Sound ∧ s.barge? 0 0 = some b ∧ b.phase = .waiting ∧ b.work = .none ∧ b.deadline ≠ 0 ∧ b.deadline ≤ s.now) ∧
    (let b := bg 0 [] (.ended 1 2 3)
     (hold b).Sound ∧ (hold b).takingOver = false ∧ (hold b).barge? 0 0 = some b ∧ b.phase = .ended 1 2 3 ∧ b.native < 0x510) := by
  and_intros <;> decide +kernel

/-! ### Barges of every partition -/

/-- Has the barge of a state with one barge begun, as a native opcode? -/
def begun (s : State) (op : Nat) : Bool := s.barges.any fun b => decide (s.Begun 0 0 b op)

/-- Does that barge pass a list of checks? -/
def passes (s : State) (l : State → Barge → List (Bool × Nat × Nat)) : Bool :=
  s.barges.any fun b => decide (Passes (l s b))

theorem test_witness_nop_fence_signal :
    (∀ op ∈ [0, 1], (hold (bg op [])).Begun 0 0 (bg op []) op ∧ (bg op []).reservedZero [(127, 32)] = true) ∧
    (∀ add ∈ [0, 1], let b := bg 2 [(32, 8, 2 ^ 32), (40, 8, 5), (48, 1, add)]
      (hold b).Begun 0 0 b 2 ∧ b.reservedZero [(127, 49)] = true ∧ (hold b).execTranslate 0 true 8 (b.f 39 32) = .ok 0 ∧
        b.f 48 48 = add ∧ (((hold b).execContest b [⟨0, 8, true⟩] .free).meetEcc .clean 0).poisonedAt 0 = false) := by
  and_intros <;> decide +kernel

theorem test_signal_add :
    ends (exec (.signalAdd 0 0 .clean .free) ((hold (bg 2 [(32, 8, 2 ^ 32), (40, 8, 5), (48, 1, 1)])).store8 0 7)) (fun t =>
      t.numAt 0 8 == 12 && t.barges.isEmpty) = true := by decide +kernel

/-- A WAIT for the word at 2^32 to equal 0, and one that waits on its word. -/
def waitBarge : Barge := bg 3 [(32, 8, 2 ^ 32)]

def waiting (watched : Bool) : Barge := { waitBarge with phase := .working, work := .wait ⟨2 ^ 32, 0, 0, 0, watched⟩ }

theorem test_witness_wait :
    ((hold waitBarge).Begun 0 0 waitBarge 3 ∧ waitBarge.reservedZero [(127, 49)] = true ∧ waitBarge.f 48 48 < 8 ∧
      (hold waitBarge).execTranslate 0 false 8 (waitBarge.f 39 32) = .ok 0) ∧
    (∀ b ∈ [waitBarge, waiting true, waiting false], let u := ((hold b).execContest b [⟨0, 8, false⟩] .free).meetEcc .clean 0
      (hold b).barge? 0 0 = some b ∧ u.poisonedAt 0 = false ∧
        condHolds (b.f 48 48 % 8) (BitVec.ofNat 64 (u.numAt 0 8)) (BitVec.ofNat 64 (b.f 47 40)) = true) := by
  and_intros <;> decide +kernel

theorem test_witness_queries :
    (let b := bg 4 [(40, 8, 2 ^ 32), (48, 4, 1), (53, 1, 0), (56, 2, 1)]
     let s := hold b
     let lf := s.bufferFault 0 (b.f 47 40) (b.f 51 48 * 256) 256
     s.Begun 0 0 b 4 ∧ Passes [
        (!b.reservedZero [(127, 58), (55, 55)] || decide (2 ≤ b.f 53 53) || b.f 57 56 == 0 || decide (2 ^ 12 ≤ b.f 57 56) ||
          b.f 51 48 == 0 || decide (65536 < b.f 51 48) || decide (8 ≤ b.f 54 54) || (!bitOf (b.f 53 53) 0 && b.f 52 52 != 0),
          St.malformed, 0),
        ((s.canalPart b.canal).any fun p => b.f 54 54 != p || (bitOf (b.f 53 53) 0 && (s.canalPart (b.f 52 52)).any (· != p)),
          St.notPermitted, 0),
        (s.partSt 0 == 0, 0x0010, b.f 47 40), (lf.isSome, 0x0010, lf.getD 0)]) ∧
    (let b := bg 0x902 [(32, 8, 2 ^ 32), (40, 4, 1)]
     let s := hold b
     let ef := s.bufferFault b.part (b.f 39 32) (64 * b.f 43 40) 128
     s.Begun 0 0 b 0x902 ∧ Passes [(!b.reservedZero [(47, 45), (127, 56)], St.malformed, 0),
        (b.f 44 44 == 1 && !(s.canalPart b.canal).isNone, St.notPermitted, 0),
        (decide (2 ≤ b.f 44 44 ∨ b.f 43 40 = 0 ∨ 65536 < b.f 43 40), St.malformed, 0), (ef.isSome, 0x0912, ef.getD 0)]) := by
  and_intros <;> decide +kernel

/-- A running cargo of canal 0, and a barge of canal 0 after it. -/
def cargoRunning : Barge := { bg 0x201 [(40, 8, 1)] .working with work := .run ⟨[0], [0], 0, 0, 0, none, [], [], none⟩ }

def after (b : Barge) : Barge := { b with seq := 1, acc := 1 }

theorem test_witness_drain_and_abort :
    (let b := after (bg 5 [(32, 1, 0)])
     let s := { up with barges := [bg 0 [] .waiting, b] }
     s.Begun 0 1 b 5 ∧ Passes [(!b.reservedZero [(127, 33)], St.malformed, 0),
        ((s.canalPart 0).isSome && s.canalPart (b.f 32 32) != s.canalPart 0, St.notPermitted, 0)] ∧
       (((s.canalBarges 0).filter fun y => decide (y.acc < b.acc)).any s.runPaused) = false) ∧
    (∀ past : Bool, let b := { after (bg 0x203 [(32, 4, 0)]) with headAt := [(0, 1)] }
     let s := { up with barges := (if past then [cargoRunning] else []) ++ [b] }
     let d := tokenOf 0 1
     s.Begun 0 1 b 0x203 ∧ Passes [(!b.reservedZero [(127, 36)], St.malformed, 0),
        ((s.canalPart 0).isSome && s.canalPart 0 != s.canalPart 0, St.notPermitted, 0)] ∧
       (if d.past then s.barge? d.canal d.seq else none) = (if past then some cargoRunning else none) ∧
       s.runPaused cargoRunning = false) := by
  and_intros <;> decide +kernel

theorem test_witness_memory_barges :
    (∀ x ∈ [(0x100, [(32, 8, 2 ^ 32), (40, 8, 2 ^ 32 + 8), (48, 8, 8)]), (0x101, [(32, 8, 2 ^ 32), (40, 8, 8)]),
        (0x102, [(32, 8, 2 ^ 32), (40, 8, 65536)])], let s := hold (bg x.1 x.2)
      begun s x.1 = true ∧ passes s State.memChecks = true ∧ (bg x.1 x.2).stopBy = 0) := by
  decide +kernel

theorem test_memory_fill :
    ends (exec (.memFill 0 0 0 .free) (hold (bg 0x101 [(32, 8, 2 ^ 32 + 8), (40, 8, 16), (48, 8, 0x0102)]))) (fun t =>
      t.numAt 8 8 == 0x0102 && t.numAt 16 8 == 0x0102 && t.numAt 24 8 == 0 && t.numAt 0 8 == 0) = true := by decide +kernel

/-- MAP_SET of one 64 KiB page, from its payload and from a list in memory. -/
def mapSet (src : Nat) : Barge :=
  if src = 0 then bg 0x103 [(32, 4, 1), (48, 8, 2 ^ 33), (56, 8, 2 ^ 30)] else bg 0x103 [(32, 4, 1), (36, 1, 1), (40, 8, 2 ^ 32)]

theorem test_witness_map_barges :
    (∀ src ∈ [0, 1], let b := mapSet src
     let s := (hold b).store 0 (bytesLE 8 (2 ^ 33) ++ bytesLE 8 (2 ^ 30))
     let t := s.execContest b (s.touches 0 (2 ^ 32) 16 false) .free
     let new := (t.mapRecs b).map (recOf 0)
     s.Begun 0 0 b 0x103 ∧ b.reservedZero [(39, 37)] = true ∧ b.f 35 32 ≠ 0 ∧
      (b.f 36 36 = 0 ∧ b.f 35 32 ≤ 5 ∧ zeroB b.bytes 47 40 = true ∧ zeroB b.bytes 127 (48 + 16 * b.f 35 32) = true ∨
        b.f 36 36 = 1 ∧ b.f 35 32 ≤ 65536 ∧ zeroB b.bytes 127 48 = true) ∧ s.listFault b = none ∧
      (∀ r ∈ t.mapRecs b, recReserved r = true) ∧ (∀ r ∈ new, recValid r = true) ∧
      (firstIdx (fun i r => (t.maps.any fun y => y.part == 0 && recsMeetVA y r) ||
        (new.take i).any fun y => recsMeetVA y r) new) = none ∧
      (∀ r ∈ new, ∀ y ∈ t.maps, y.part ≠ 0 → recsMeetPA y r = false) ∧
      s.startedBefore b [0x103, 0x104] (fun _ => true) = false ∧
      (t.maps.filter fun r => r.part == 0).length + new.length ≤ 1048576) ∧
    (let b := bg 0x104 [(32, 8, 2 ^ 32), (40, 8, 2 ^ 30)]
     let mine := (hold b).maps.filter fun r => r.part == 0
     (hold b).Begun 0 0 b 0x104 ∧ (hold b).startedBefore b [0x103, 0x104] (fun _ => true) = false ∧
      b.reservedZero [(127, 48)] = true ∧
      (mine.any fun r => spansMeet r.va (pageBytes r.size) (2 ^ 32) (2 ^ 30) && !recInside r (2 ^ 32) (2 ^ 30)) = false ∧
      (mine.filter fun r => recInside r (2 ^ 32) (2 ^ 30)) ≠ []) ∧
    (let b := { bg 0x104 [] .working with work := .unmap [(0, ⟨0, 2 ^ 33, 2 ^ 30, 0, true⟩)] 1 }
     (hold b).Sound ∧ (hold b).barge? 0 0 = some b ∧
       [(0, (⟨0, 2 ^ 33, 2 ^ 30, 0, true⟩ : MapRec))].any (hold b).pageInUse = false) := by
  and_intros <;> decide +kernel

/-- An image of one code section that holds one halt. -/
def image : List Byte :=
  let i := [(0, 4, 0x4B436172), (4, 2, 1), (6, 2, 1), (16, 8, 128), (64, 1, 1), (76, 4, 4), (80, 8, 96), (96, 4, wd 0x1A 3 0 0 0)].foldl
    (fun (b : List Byte) (f : Nat × Nat × Nat) => patchB b f.1 (bytesLE f.2.1 f.2.2)) (List.replicate 128 0)
  patchB i 24 (bytesLE 8 (digest64 i))

/-- The booted package whose partition 0 holds that image at handle 0, with one barge. -/
def loaded (b : Barge) : State := { hold b with cargo := [⟨0, 0, 0, true, image, 0⟩] }

/-- The gate of an armed cargo, and the cargo. -/
def gate (watched : Bool) : Gate := ⟨2 ^ 32, 0, 0, 0, watched, false, false⟩

def armedRun (watched : Bool) : RunWork := ⟨[0], [0], 0, 0, 0, some (gate watched), [], [], none⟩

def armed (watched : Bool) : Barge := { bg 0x202 [(40, 8, 1), (48, 8, 2 ^ 32)] .working with work := .run (armedRun watched) }

theorem test_image_is_valid : imageFault image 128 = none ∧ passBytes image = none ∧ usesDefer image = false := by
  and_intros <;> decide +kernel

theorem test_witness_cargo_load :
    (let b := bg 0x200 [(32, 8, 2 ^ 32), (40, 8, 128)]
     let s := (hold b).store 0 image
     let asked := s.execContest b (s.touches 0 (2 ^ 32) 128 false) .free
     let t := (asked.useRange (some (0, 0)) asked.maps 0 (2 ^ 32) 128).meetAll []
     s.Begun 0 0 b 0x200 ∧ s.startedBefore b [0x200] (fun y => y.part == 0) = false ∧ b.reservedZero [(127, 48)] = true ∧ s.rangeFault s.maps 0 false (2 ^ 32) 128 = none ∧
       t.localPoison t.maps 0 (2 ^ 32) 128 = none ∧ t.localBytes t.maps 0 (2 ^ 32) 128 = image ∧ t.tied 0 image = none ∧
       (t.freeSlot 0).isSome = true ∧ t.storeUsed 0 + 128 ≤ 64 * 2 ^ 20) := by
  and_intros <;> decide +kernel

theorem test_witness_cargo_barges :
    (let b := bg 0x201 [(40, 8, 1)]
     begun (loaded b) 0x201 = true ∧ passes (loaded b) State.cargoChecks = true ∧ ((loaded b).cargoOf 0 (b.f 35 32)).isSome = true) ∧
    (let b := bg 0x202 [(40, 8, 1), (48, 8, 2 ^ 32)]
     begun (loaded b) 0x202 = true ∧ passes (loaded b) State.cargoChecks = true ∧
       ((loaded b).cargoOf 0 (b.f 35 32)).isSome = true ∧ (loaded b).execTranslate 0 true 8 (b.f 55 48) = .ok 0) ∧
    (∀ w : Bool, let s := loaded (armed w)
     s.Sound ∧ s.barge? 0 0 = some (armed w) ∧ (armed w).work = .run (armedRun w) ∧ (armedRun w).gate = some (gate w) ∧
       (gate w).released = false ∧ (gate w).tripped = false ∧ (s.meetEcc .clean 0).poisonedAt 0 = false ∧
       condHolds 0 (BitVec.ofNat 64 ((s.meetEcc .clean 0).numAt 0 8)) 0 = true ∧ (gate false).watched = false) ∧
    (let b := bg 0x204 []
     begun (loaded b) 0x204 = true ∧ b.reservedZero [(127, 36)] = true ∧ ((loaded b).cargoOf 0 0).isSome = true ∧
       (loaded b).cargoNamed b 0 = false) := by
  and_intros <;> decide +kernel

/-! ### Solver and near-memory barges -/

/-- Bytes with numbers written over zeros: offset, length, value. -/
def bytesOf (n : Nat) (fields : List (Nat × Nat × Nat)) : List Byte :=
  fields.foldl (fun b f => patchB b f.1 (bytesLE f.2.1 f.2.2)) (List.replicate n 0)

/-- The mask and the working range of a solver barge. -/
def onReach0 : List (Nat × Nat × Nat) := [(32, 8, 1), (44, 3, 0x80)]

/-- SOLVE_BATCH of one problem of order 1, QP_BATCH of one problem of one variable, SOLVE_ITER of order 1, SOLVE_SCHED of one
front, SOLVE_RESUME of the first, and ASSEMBLE. -/
def batch : Barge := bg 0x300 (onReach0 ++ [(48, 8, 2 ^ 32), (56, 8, 2 ^ 32 + 128), (64, 4, 1), (68, 2, 1), (70, 2, 1)])
def qp : Barge := bg 0x305 (onReach0 ++ [(48, 8, 2 ^ 32), (56, 8, 2 ^ 32 + 128), (64, 4, 1), (68, 1, 1), (72, 8, 2 ^ 32 + 256), (80, 1, 1),
  (88, 8, 1)])
def iter : Barge := bg 0x302 (onReach0 ++ [(48, 8, 2 ^ 32), (56, 8, 2 ^ 32 + 128), (64, 8, 2 ^ 32 + 256), (72, 8, 2 ^ 32 + 384),
  (80, 4, 1)])
def sched : Barge := bg 0x301 (onReach0 ++ [(48, 8, 2 ^ 32), (56, 8, 2 ^ 32 + 1024), (64, 8, 2 ^ 32 + 1152), (72, 8, 2 ^ 32 + 2048),
  (80, 2, 1), (82, 1, 3)])
def resume : Barge := bg 0x303 (onReach0 ++ [(48, 8, 2 ^ 32)])
def asm : Barge := bg 0x304 (onReach0 ++ [(47, 1, 2), (52, 4, 1), (58, 2, 1), (62, 2, 1), (72, 8, 128), (112, 8, 2 ^ 32)])

/-- The descriptor of that ASSEMBLE, in mode 0x02, and its one term. -/
def asmBytes : List Byte := bytesOf 144 [(0, 8, 2 ^ 32 + 128), (8, 4, 1), (48, 1, 2), (132, 4, 2 ^ 32 - 1), (136, 8, 0x3FF0000000000000)]

/-- The matrix of order 1 of that SOLVE_ITER: row pointers 0 and 1. -/
def csr : List Byte := bytesOf 520 [(0, 8, 1), (8, 8, 1), (16, 8, 2 ^ 32 + 512), (24, 8, 2 ^ 32 + 640), (32, 8, 2 ^ 32 + 768)] ++
  bytesLE 8 1

/-- The schedule image of one front of order 1. -/
def schedImage : List Byte :=
  bytesOf 384 ([(0, 4, 0x4B530E61), (4, 2, 1), (8, 4, 1), (12, 4, 1), (16, 8, 1), (24, 8, 1), (32, 8, 1024), (48, 8, 128), (56, 8, 144),
    (64, 8, 176), (72, 8, 304), (80, 8, 384), (136, 4, 8), (144, 4, 1), (148, 4, 1), (152, 4, 0xFFFFFFFF), (172, 4, 1)] ++
    (List.range 7).map fun i => (176 + 16 * i, 1, i + 1))

/-- The token of a stopped SOLVE_BATCH. -/
def token : List Byte :=
  let t := bytesOf 24 [(0, 4, 0x4B546F6B), (4, 2, 1), (6, 2, 0x300), (13, 1, 1)]
  let o := sliceB batch.bytes 32 96
  t ++ bytesLE 8 (digest64 (t ++ o ++ bytesLE 8 0)) ++ o

/-- Each form with checks that pass; the bytes of a barge that fails its reserved bits; and one with an empty mask. -/
theorem test_witness_solver_barges :
    (∀ x ∈ [(batch, 0x300, []), (qp, 0x305, []), (iter, 0x302, csr), (sched, 0x301, schedImage)], let s := (hold x.1).store 0 x.2.2
      s.Begun 0 0 x.1 x.2.1 ∧ s.solveChecks x.1 (solveJob x.1) = none ∧ (s.meetAll []).solveForm (solveJob x.1) = none) ∧
    (∀ op ∈ [0x300, 0x301, 0x302, 0x304, 0x305], (∀ b ∈ [bg op [(47, 1, 0x80)]], (hold b).Begun 0 0 b op ∧
        (hold b).solveChecks b (solveJob b) = some (St.malformed, 0)) ∧
      (∀ b ∈ [bg op []], (hold b).Begun 0 0 b op ∧ (hold b).solveChecks b (solveJob b) = none ∧
        ((hold b).meetAll []).solveForm (solveJob b) = some (0x0311, 0))) ∧
    (let s := (hold asm).store 0 asmBytes
     s.Begun 0 0 asm 0x304 ∧ s.solveChecks asm (solveJob asm) = none) := by
  and_intros <;> decide +kernel

/-- ASSEMBLE passes its checks wherever its OUT_BASE, which has no place in the barge's bytes, is a fit address. -/
theorem test_witness_assemble (h : (solveJob asm).asmOut = ⟨2 ^ 32 + 256, 128, 0, 1, numOf false false, 1, 1⟩) :
    (((hold asm).store 0 asmBytes).meetAll []).solveForm (solveJob asm) = none := by
  have hm : ¬ (solveJob asm).mask = 0 := by decide +kernel
  have ho : (solveJob asm).op = 0x304 := by decide +kernel
  rw [State.solveForm, if_neg hm, ho]
  unfold State.asmChecks State.asmOutRanges
  rw [h]
  decide +kernel

theorem test_witness_solve_resume :
    (let s := (hold resume).store 0 token
     let t := s.meetAll []
     let tok := t.lread 0 (2 ^ 32) 128
     let r := resumeJob resume tok (spGet (fun _ => 0) t.chains (fieldB tok 31 24))
     s.Begun 0 0 resume 0x303 ∧
      (s.barges.any fun x => x.native == 0x303 && x.part == resume.part && decide (x.acc < resume.acc) &&
        x.f 55 48 == resume.f 55 48 && (x.phase == .waiting || x.phase == .started)) = false ∧
      resume.reservedZero [(111, 56), (47, 47), (119, 112)] = true ∧ s.solveMask (solveJob resume) = none ∧
      t.devFault 0 ⟨2 ^ 32, 128, true, 128⟩ = none ∧ t.tokenOk 0 tok = true ∧ t.solveBad 0 r.reaches (2 ^ 32) 128 = false ∧
      fieldB tok 13 13 = 1 ∧ t.resumeSched r = true ∧ t.solveForm r = none) ∧
    (let s := hold resume
     let t := s.meetAll []
     let tok := t.lread 0 (2 ^ 32) 128
     s.Begun 0 0 resume 0x303 ∧ s.solveMask (solveJob resume) = none ∧
      (t.resumeChecks resume (resumeJob resume tok (spGet (fun _ => 0) t.chains (fieldB tok 31 24))) tok).isSome = true) := by
  and_intros <;> decide +kernel

/-- A near-memory operation: its code, the barge that carries it, and fields of its descriptor. -/
def nmOps14 : List (Nat × Nat × List (Nat × Nat × Nat)) :=
  let a := [(8, 8, 8), (16, 8, 2 ^ 32), (24, 8, 2 ^ 32 + 65536), (32, 8, 2 ^ 32 + 131072)]
  let b := [(8, 8, 8), (16, 8, 2 ^ 32), (32, 8, 2 ^ 32 + 131072)]
  let bridge := [(6, 2, 1), (8, 8, 64), (16, 8, 2 ^ 32), (24, 8, 512), (32, 8, 2 ^ 32 + 131072)]
  let dirty := [(8, 8, 1), (16, 8, 2 ^ 32)]
  [(0x10, 0x400, a), (0x11, 0x400, a), (0x18, 0x400, b), (0x19, 0x400, b), (0x30, 0x400, a ++ [(40, 8, 9)]),
    (0x31, 0x400, a ++ [(40, 8, 9)]), (0x32, 0x400, a ++ [(40, 8, 9)]), (0x20, 0x401, bridge ++ [(5, 1, 2)]),
    (0x21, 0x402, bridge ++ [(4, 1, 2)]), (0x22, 0x403, a ++ [(4, 1, 1), (5, 1, 2), (8, 8, 64 + 64 * 2 ^ 32)]),
    (0x40, 0x400, dirty), (0x41, 0x400, dirty ++ [(32, 8, 2 ^ 32 + 131072)]), (0x42, 0x400, dirty),
    (0x48, 0x400, dirty ++ [(32, 8, 2 ^ 32 + 131072)])]

/-- The barge that carries an operation. -/
def nmBarge (x : Nat × Nat × List (Nat × Nat × Nat)) : Barge :=
  bg x.2.1 ((32, 2, x.1) :: x.2.2.map fun f => (f.1 + 32, f.2))

/-- The operation that a cluster posted. -/
def nmPosted (x : Nat × Nat × List (Nat × Nat × Nat)) (done : Bool) : NmOp :=
  ⟨0, 0, bytesOf 64 ((0, 2, x.1) :: x.2.2), 0, up.maps, .cluster 0 none, none, none, 0, 0, 0, done, 1, 0, 0⟩

theorem test_witness_near_memory :
    (∀ x ∈ nmOps14, let b := nmBarge x
      let s := hold b
      begun s x.2.1 = true ∧ b.work = .none ∧ passes s State.nmChecks = true ∧
        (s.nmWell 0 b.nmDesc).any (fun d => d.op == x.1) = true) ∧
    (∀ x ∈ nmOps14, let s := { up with nmOps := [nmPosted x false] }
      s.Sound ∧ s.nmOp? 0 = some (nmPosted x false) ∧ fieldB (nmPosted x false).desc 1 0 = x.1 ∧
        s.nmBlocked (nmPosted x false) = false) ∧
    (∀ x ∈ nmOps14, let o := { nmPosted x false with source := .barge 0 0 }
      let b := { nmBarge x with phase := .working, work := .near 0 }
      let s := { hold b with nmOps := [o] }
      s.Sound ∧ s.barge? 0 0 = some b ∧ s.nmOp? 0 = some o ∧ fieldB o.desc 1 0 = x.1 ∧ s.nmBlocked o = false) ∧
    (∀ x ∈ nmOps14, let s := { up with nmOps := [nmPosted x false, { nmPosted x false with num := 1 }] }
      s.nmOp? 1 = some { nmPosted x false with num := 1 } ∧ s.nmBlocked { nmPosted x false with num := 1 } = true) ∧
    (∀ x ∈ nmOps14, let s := { up with nmOps := [nmPosted x true] }
      s.Sound ∧ (s.nmOps.find? fun y => y.num == 0 && y.done) = some (nmPosted x true)) := by
  and_intros <;> decide +kernel

theorem test_near_memory_mul :
    ends (exec (.mul (.op 0) [] .free) (({ up with nmOps := [nmPosted (0x11, 0x400, [(8, 8, 1), (16, 8, 2 ^ 32),
        (24, 8, 2 ^ 32 + 128), (32, 8, 2 ^ 32 + 256)]) false] }.store8 0 0x4000000000000000).store8 128 0x4008000000000000)) (fun t =>
      t.numAt 256 8 == 0x4018000000000000) = true := by decide +kernel

/-! ### The fabric's barges -/

/-- The landing entry that covers 2 MiB of DRAM from 2^32 + 1 MiB for the job. -/
def entry0 : Landing := ⟨0, 0, 2 ^ 32 + 2 ^ 20, 32, 5, 0, 0xFFFF, true, true, true, 0⟩

/-- A state with that entry. -/
def landed (s : State) : State := s.modFab fun f => { f with landing := [entry0] }

theorem test_witness_landing :
    (let b := bg 0x500 [(32, 8, 0), (40, 8, 2 ^ 32), (48, 4, 1), (52, 4, 5), (58, 2, 9), (60, 1, 3)]
     begun (hold b) 0x500 = true ∧ b.landingField = none ∧ (hold b).landingFault b = none ∧
       ((hold b).fabric.landing.find? fun e => e.job == b.f 55 52 && windowsMeet e.wbase e.wlen (b.f 39 32) (b.f 51 48)) = none ∧
       b.reservedZero [(127, 61)] = true ∧
       ((List.range 4096).find? fun i => (hold b).fabric.landing.all fun e => e.index != i) = some 0) ∧
    (let b := bg 0x500 [(40, 8, 2 ^ 32), (48, 4, 0), (60, 1, 3)]
     begun (hold b) 0x500 = true ∧ b.landingField = some 48) ∧
    (∀ m ∈ [(0, [(36, 2, 0)]), (1, [(40, 4, 5)]), (2, [(40, 4, 5)])], let b := bg 0x501 ((32, 1, m.1) :: m.2)
     begun (landed (hold b)) 0x501 = true ∧ b.reservedZero [(127, 44), (39, 38), (35, 33)] = true ∧ b.f 32 32 = m.1 ∧
       ((landed (hold b)).fabric.landing.filter fun e => e.part == b.part && e.index == b.f 37 36) ≠ []) := by
  and_intros <;> decide +kernel

/-- A communicator of nodes 1 and 2 in slot 0, id 1, this node's rank being 0. -/
def slot0 : CommSlot := { job := 5, members := [1, 2], stall := 1, scr := 0, digest := memberDigest [1, 2] }

def formed (s : State) : State := ((landed s).setSlot 0 slot0).showSlot 0 0 1 0 2 2

theorem test_witness_communicators :
    (let b := bg 0x518 [(32, 4, 1), (36, 4, 2), (42, 1, 2), (44, 4, 1), (48, 8, 2 ^ 32)]
     let t := ((landed (hold b)).store 0 (bytesLE 2 1 ++ bytesLE 2 2)).meetAll []
     begun t 0x518 = true ∧ b.reservedZero [(127, 64), (43, 43)] = true ∧ (t.jobTag 0).isSome = true ∧ b.commField = none ∧
       t.readFault 0 (2 ^ 32) 4 = none ∧ (t.windowEntry 0 5 0 65536).isSome = true ∧
       (t.localNums 0 (2 ^ 32) 2 2).getD 0 0 = t.nodeId ∧ (t.localNums 0 (2 ^ 32) 2 2).eraseDups.length = 2 ∧
       t.findSlot 0 1 = none ∧ ((List.range 64).find? fun i => t.slotState i == 0) = some 0) ∧
    (let b := bg 0x519 [(32, 4, 1), (40, 1, 1)]
     begun (formed (hold b)) 0x519 = true ∧ b.reservedZero [(127, 56), (47, 41)] = true ∧ b.f 39 36 = 0 ∧ b.f 55 48 = 0 ∧
       (formed (hold b)).findSlot 0 1 = some 0) ∧
    (let b := bg 0x519 [(32, 4, 1), (36, 4, 2), (48, 8, 2 ^ 32)]
     let t := (formed (hold b)).meetAll []
     begun t 0x519 = true ∧ b.reservedZero [(127, 56), (47, 41)] = true ∧ t.findSlot 0 1 = some 0 ∧
       t.slot? 0 = some slot0 ∧ t.readFault 0 (2 ^ 32) 128 = none ∧ t.findSlot 0 2 = none ∧
       bitOf (numLE (t.localBytes t.maps 0 (2 ^ 32 + 0) 1)) (t.slotRank 0 % 8) = false) := by
  and_intros <;> decide +kernel

/-- One collective of each kind on that communicator. -/
def colls : List (Nat × List (Nat × Nat × Nat)) :=
  [(0x510, [(40, 8, 2 ^ 32), (56, 8, 128)]), (0x511, [(64, 8, 2 ^ 32), (72, 8, 2 ^ 32 + 1024)]),
    (0x512, [(40, 8, 2 ^ 32), (56, 8, 1)]), (0x513, [(40, 8, 2 ^ 32), (56, 8, 128)])]

def coll (x : Nat × List (Nat × Nat × Nat)) : Barge := bg x.1 ((32, 4, 1) :: x.2)

/-- The run that a collective starts, and the state in which it is recorded. -/
def collRun (s : State) (b : Barge) (op : Nat) : CollRun :=
  let es := dtypeBytes (b.f 37 37)
  let acc := if b.isReduce then (s.localNums 0 b.send es b.size).map (canonOf (b.f 37 37)) else []
  let bad := if b.isReduce then (List.range (b.partBytes / 128)).filter fun l =>
    s.anyPoison 0 (b.send + 128 * l) (min 128 (alignUp (b.size * es - 128 * l) 8)) else []
  { canal := 0, seq := 0, op := op, num := s.fld (Reg.commId 0) F.COMM_ID_COLL_SEQ
    sig := sigOf b (s.fld (Reg.commId 0) F.COMM_ID_COLL_SEQ) 5 2 (s.slotRadix 0) slot0.digest
    sendT := s.sendTab b 2, recvT := s.recvTab b 2, acc := acc, accBad := bad, poison := !bad.isEmpty, from_ := s.now }

def collRuns (s : State) (b : Barge) (op : Nat) : State :=
  (((s.setSlot 0 { slot0 with run := some (collRun s b op) }).setSlotState 0 2).setFld (Reg.commId 0) F.COMM_ID_COLL_SEQ
    (s.fld (Reg.commId 0) F.COMM_ID_COLL_SEQ + 1)).working 0 0 id

theorem test_witness_collectives :
    (∀ x ∈ colls, let b := coll x
      let s := formed (hold b)
      let w := collRuns (((s.execContest b (s.collTouches b slot0 2 (s.slotRank 0)) .free).meetAll []).collUse b slot0 2 (s.slotRank 0)) b x.1
      begun s x.1 = true ∧ b.reservedZero [(127, 96), (87, 82), (39, 39)] = true ∧ b.f 36 36 < 4 ∧ b.collUnused = true ∧
        s.findSlot 0 (b.f 35 32) = some 0 ∧ s.slotState 0 ≠ 3 ∧ s.slot? 0 = some slot0 ∧ b.collField 2 (s.slotRank 0) = none ∧
        s.tabFault b 2 = none ∧ s.collFault b slot0 (s.slotRank 0) = none ∧ slot0.early = none ∧
        (w.collEnv 0).any (fun v => (w.selfCopy v).isSome) = true) ∧
    (let b := coll (0x510, [(40, 8, 2 ^ 32), (56, 8, 128)])
     let s := (collRuns (formed (hold b)) b 0x510).setReg Reg.globalTime 1000000
     s.Sound ∧ (s.collEnv 0).any (fun v => v.waitsOn 1 &&
       decide (max v.r.from_ (spGet (fun _ => 0) v.r.heard 1) + v.sl.stall * 1000000 ≤ s.now)) = true) := by
  and_intros <;> decide +kernel

theorem test_witness_jobs :
    (∀ x ∈ [(0x520, false, 1), (0x520, false, 2), (0x521, true, 1)],
     let b := bg x.1 [(32, 4, if x.2.1 then 5 else 6), (36, 1, x.2.2), (38, 1, 2), (40, 4, 2), (48, 8, 2 ^ 32)]
     let s := (hold b).store 0 (bytesLE 4 1 ++ bytesLE 4 2)
     begun s x.1 = true ∧ s.JobOk b x.2.1 [] ∧ b.f 36 36 = x.2.2 ∧
       (if x.2.1 then (s.meetAll []).jobTag 0 = some (b.f 35 32) else Passes ((s.meetAll []).launchBars b))) ∧
    (let b := bg 0x521 [(32, 4, 5), (36, 1, 3)]
     begun (hold b) 0x521 = true ∧ b.reservedZero [(127, 68), (39, 39)] = true ∧ b.f 36 36 = 3 ∧ b.f 37 37 = 0 ∧
       (hold b).jobTag b.part = some (b.f 35 32)) := by
  and_intros <;> decide +kernel

/-- A checkpoint stream of one granule whose chamber is the landing window of node 1. -/
def stream0 : Stream :=
  { part := 0, id := 7, canal := 0, chamber := 2 ^ 48, blocks := 8, ranges := [(2 ^ 32, 65536)], repl := [2 ^ 48], rc := 1, rank := 0
    shard := 0, nshard := 1, step := 1, keep := 0, full := false, cur := 0, prev := 0xFF, prevStep := 0, commits := 1, man := []
    used := [], phys := [0] }

/-- The sealed manifest of step 1 of its chamber. -/
def manifest0 : List Byte :=
  let e : CkptEntry := ⟨9, 0, 0⟩
  manHeader stream0 1 5 (digest64 (patchB (manHeader stream0 1 5 0) 48 (List.replicate 8 0) ++ e.bytes)) ++ e.bytes

/-- The booted package with the stream open in slot 0, its granule armed and clean, and its chamber's header and manifest. -/
def streaming (b : Barge) : State :=
  ((((landed (hold b)).store (2 ^ 20) (headerOf 8 1 1 0 0xFF00)).store (2 ^ 20 + 65536) manifest0).armAll [0]).showStream 0 2 stream0

/-- CKPT_BEGIN of that stream with FULL, its range list in memory, formatting the chamber or reading its header. -/
def beginBarge (format : Nat) : Barge :=
  bg 0x600 [(32, 4, 7), (36, 1, 1), (37, 1, 1), (39, 1, 1 + 2 * format), (40, 8, 1), (48, 8, 2 ^ 48), (56, 8, 8 * 65536),
    (64, 8, 2 ^ 32), (76, 4, 1)]

/-- The state in which it acts, once its accesses have been made. -/
def beginState (format : Nat) : State :=
  let s := ((landed (hold (beginBarge format))).store 0 (bytesLE 8 (2 ^ 32) ++ bytesLE 8 65536)).store (2 ^ 20)
    (if format = 1 then [] else headerOf 8 1 1 0 0xFFFF)
  (s.execContest (beginBarge format) (s.touches 0 (2 ^ 32) 16 false ++ s.touches 0 0 8 false) .free).meetAll []

theorem test_witness_ckpt_begin :
    (∀ f ∈ [0, 1], let b := beginBarge f
     let s := beginState f
     begun s 0x600 = true ∧ b.reservedZero [(127, 96)] = true ∧ b.f 39 39 = 1 + 2 * f ∧ (s.jobTag 0).isSome = true ∧
       s.flag Reg.secStatus F.SEC_STATUS_APPROVED = false ∧ s.slotFor 0 7 = none ∧
       (s.streams.any fun y => y.2.id == 7 && y.2.part != 0) = false ∧ b.beginField = none) ∧
    (∀ f ∈ [0, 1], let t := beginState f
     let x := t.beginStream (beginBarge f) none
     t.rangesFault 0 (2 ^ 32) 1 false = none ∧ x.repl.getD x.rank 0 = x.chamber ∧
       ((List.range 16).find? fun i => (t.stream? i).isNone) = some 0 ∧
       (t.streams.map fun y => granules y.2.ranges).sum + granules x.ranges ≤ 2 ^ 25 ∧
       poolBlocks x.blocks (granules x.ranges) ≠ 0 ∧ 0 < x.step ∧ x.keep = 0) ∧
    (∀ f ∈ [0, 1], let t := beginState f
     let x := t.beginStream (beginBarge f) none
     (match t.chBytes {} (beginBarge f) x.chamber 128 with
       | (.ok (h, bad), v) => if f = 1 then !headerValid h else
           !bad && headerValid h && fieldB h 23 16 == x.blocks && fieldB h 39 32 == granules x.ranges && fieldB h 40 40 == x.rc &&
             fieldB h 41 41 == x.rank && (match v.manifests {} (beginBarge f) x.chamber h with
               | (.ok ch, _) => heldBy ch.cur == 0
               | (.error _, _) => false)
       | (.error _, _) => false) = true) := by
  and_intros <;> decide +kernel

theorem test_witness_ckpt_diff :
    (let b := bg 0x601 [(32, 4, 7), (48, 8, 1)]
     let s := streaming b
     let t := (s.execContest b (stream0.ranges.flatMap fun r => s.touches 0 r.1 r.2 false) .free).meetAll []
     let d := t.diffAll {} b 0 [0] {}
     begun s 0x601 = true ∧ b.reservedZero [(127, 56), (39, 36)] = true ∧ s.slotFor 0 7 = some 0 ∧ s.stream? 0 = some stream0 ∧
       s.ckptSt 0 = 2 ∧ b.f 47 40 + 1 ≤ granules stream0.ranges ∧ b.stopBy = 0 ∧ s.unmapped = [] ∧ d.1.stop = none ∧ d.1.torn = [] ∧
       (d.2.stream? 0).isSome = true) := by
  and_intros <;> decide +kernel

theorem test_witness_ckpt_commit_and_abandon :
    (∀ st ∈ [2, 3], let b := bg 0x602 [(32, 4, 7), (40, 8, 1)]
     let x := { stream0 with covered := [0] }
     let s := (streaming b).showStream 0 st x
     begun s 0x602 = true ∧ b.reservedZero [(127, 48), (39, 36)] = true ∧ s.slotFor 0 7 = some 0 ∧ s.stream? 0 = some x ∧
       s.ckptSt 0 = st ∧ x.step = b.f 47 40 ∧ x.missing = [] ∧ b.opcode = 0x602) ∧
    (let b := bg 0x604 [(32, 4, 7)]
     begun (streaming b) 0x604 = true ∧ b.reservedZero [(127, 37)] = true ∧ b.f 36 36 < 2 ∧ (streaming b).slotFor 0 7 = some 0) := by
  and_intros <;> decide +kernel

theorem test_witness_ckpt_survey :
    (let b := bg 0x603 [(32, 1, 1), (48, 8, 2 ^ 32), (56, 8, 2 ^ 32 + 65536), (72, 4, 1)]
     let s := (streaming b).store 0 (bytesLE 8 (2 ^ 48))
     let t := (s.execContest b (s.touches 0 (2 ^ 32) 8 false ++ s.touches 0 (2 ^ 32 + 65536) 16 true) .free).meetAll []
     let t1 := t.useRange (some (0, 0)) t.maps 0 (2 ^ 32) 8
     let tr := t1.useRange (some (0, 0)) t1.maps 0 (2 ^ 32 + 65536) 16
     let sv := tr.surveyAll {} b (tr.localNums 0 (2 ^ 32) 8 1) []
     begun s 0x603 = true ∧ (s.jobTag 0).isSome = true ∧ b.reservedZero [(127, 76), (39, 39), (35, 33)] = true ∧
       t.readFault 0 (2 ^ 32) 8 = none ∧ t.rangeFault t.maps 0 true (2 ^ 32 + 65536) 16 = none ∧ commonStep sv.1 ≠ 0 ∧
       (sv.1.all fun r => r.1 == (sv.1.getD 0 (0, 0)).1) = true) := by
  and_intros <;> decide +kernel

theorem test_witness_ckpt_load :
    (let b := bg 0x603 [(36, 1, 1), (37, 1, 1), (40, 8, 1), (48, 8, 2 ^ 48), (56, 8, 2 ^ 32)]
     let s := (streaming b).store 0 (bytesLE 8 (2 ^ 32) ++ bytesLE 8 65536)
     let t := s.meetAll []
     begun s 0x603 = true ∧ b.f 32 32 = 0 ∧ (s.jobTag 0).isSome = true ∧ b.reservedZero [(127, 76), (39, 39), (35, 33)] = true ∧
       b.f 37 37 = 1 ∧ b.f 36 36 = 1 ∧ t.rangesFault 0 (2 ^ 32) 1 true = none ∧
       (match (t.chamber {} b (2 ^ 48)).1 with
         | .ok ch => (ch.manOf 1).isSome
         | .error _ => false) = true) := by
  and_intros <;> decide +kernel

/-! ### Power, heat, partitions and time -/

/-- A solver barge that holds reach 0. -/
def solving : Barge := { bg 0x300 [(32, 8, 1)] .working with seq := 1, begun := true }

theorem test_witness_power_barges :
    (let b := bg 0x700 [(37, 1, 70), (49, 1, 2)]
     begun (hold b) 0x700 = true ∧ b.reservedZero [(127, 50), (39, 39)] = true ∧ b.f 48 48 < 16 ∧ b.f 49 49 < 16 ∧
       (hold b).weirSetBad b = none) ∧
    (∀ t ∈ [1, 4], let b := bg 0x701 [(32, 1, t), (33, 1, 1)]
     begun (hold b) 0x701 = true ∧ b.reservedZero [(127, 34)] = true ∧ b.f 33 33 < 2 ∧
       ((hold b).intolerant t = none ∨ b.f 33 33 = 1)) ∧
    (∀ x ∈ [(0x702, 2), (0x702, 0), (0x703, 2), (0x703, 0)], let b := bg x.1 [(32, 1, 1), (36, 4, 63)]
     let s := (hold b).setDomain 1 63 x.2
     begun s x.1 = true ∧ Passes (s.domainChecks b) ∧ s.domainOf 1 63 = x.2 ∧ b.waitFrom = none ∧
       [63].all ((s.working 0 0 id).setDomain 1 63 1).atRest = true) ∧
    (∀ op ∈ [0x702, 0x703], let b := bg op [(32, 1, 3), (36, 4, 17)]
     begun (hold b) op = true ∧ Passes ((hold b).domainChecks b) ∧ b.f 32 32 = 3) ∧
    (let b := { bg 0x702 [(32, 1, 1), (36, 4, 63)] with waitFrom := some 7 }
     begun (hold b) 0x702 = true ∧ Passes ((hold b).domainChecks b) ∧ b.waitFrom = some 7) ∧
    (let b := bg 0x703 [(32, 1, 1), (36, 4, 0)]
     let s := { up with barges := [b, solving] }
     begun s 0x703 = true ∧ Passes (s.domainChecks b) ∧ s.domainOf 1 0 ≠ 2 ∧
       [0].all ((s.working 0 0 id).setDomain 1 0 1).atRest = false) := by
  and_intros <;> decide +kernel

/-- The state that WEIR_TICK compares with its allowance. -/
def ticked (s : State) (e : WeirEnv) : State :=
  (List.range 4).foldl (fun u d =>
    if u.flag (Reg.vcoreStatus d) F.VCORE_STATUS_LENT && u.dieIssues d then
      (u.setFld (Reg.vcoreStatus d) F.VCORE_STATUS_LENT 0).follow d
    else u) ((s.measure e).showBucket (s.measure e).bucketNext)

/-- The allowance and the mean power of a tick in which the package draws `p` × 10 mW. -/
def tickOf (p : BitVec 16) : Nat × Nat :=
  let t := ticked up ⟨p, [], [], []⟩
  (t.fld Reg.weirStatus F.WEIR_STATUS_ALLOWED, t.fld Reg.weirPower F.WEIR_POWER_P100)

theorem test_witness_weir_events :
    (up.takingOver = false ∧ (let s := up.setFld Reg.failopStatus F.FAILOP_STATUS_TAKING_OVER 1
     s.Sound ∧ s.takingOver = true ∧ s.serves 1 Reg.weirWake = false ∧ s.serves 3 Reg.weirWake = true)) ∧
    (up.Sound ∧ (tickOf 60000).1 < (tickOf 60000).2 ∧ (tickOf 0).2 + 300 ≤ (tickOf 0).1) ∧
    ((tickOf 5600).2 ≤ (tickOf 5600).1 ∧ (tickOf 5600).1 < (tickOf 5600).2 + 300) ∧
    (∀ hot ∈ [false, true],
     let s := (up.setFld (Reg.vcoreCtrl 3) F.VCORE_CTRL_VMODE 1).setFld (Reg.sensorReach 63) F.SENSOR_REACH_TJ
       (if hot then 2000 else 0)
     let s := s.setFld Reg.weirStatus F.WEIR_STATUS_ALLOWED 400
     let lim := (s.fld Reg.weirLimits F.WEIR_LIMITS_TJ_TARGET - 5) * 4
     s.Sound ∧ s.fld (Reg.vcoreCtrl 3) F.VCORE_CTRL_VMODE = 1 ∧
       decide ((∀ x ∈ reachesOfDie 3, s.fld (Reg.sensorReach x) F.SENSOR_REACH_TJ ≤ lim) ∧
         s.fld (Reg.sensorDie 3) F.SENSOR_DIE_TJ ≤ lim ∧
         s.fld Reg.weirPower F.WEIR_POWER_P100 + 300 ≤ s.fld Reg.weirStatus F.WEIR_STATUS_ALLOWED) = !hot) ∧
    (let s := up.setFld (Reg.vcoreCtrl 0) F.VCORE_CTRL_IDLE_DROP_US 1
     s.fld (Reg.vcoreCtrl 0) F.VCORE_CTRL_IDLE_DROP_US ≠ 0 ∧ s.dieIssues 0 = false ∧ s.coreOn 0 = true) ∧
    (let s := (up.setFld (Reg.reachDepth 5) F.REACH_DEPTH_DEPTH 1).setFld (Reg.wakeTolerance 0) F.WAKE_TOLERANCE_US 25
     s.mayRetain 5 = true) ∧
    (let s := up.setFld (Reg.reachDepth 5) F.REACH_DEPTH_DEPTH 2
     s.fld Reg.weirStatus F.WEIR_STATUS_STATE = 0 ∧ s.fld (Reg.reachDepth 5) F.REACH_DEPTH_DEPTH = 2) ∧
    (let b := { bg 0x100 [] .waiting with readyAt := some 0 }
     let s := ((hold b).setFld (Reg.partGuarantee 0) F.PART_GUARANTEE_LAT_CEIL 1).setReg Reg.globalTime 1000
     s.Sound ∧ s.barge? 0 0 = some b ∧ b.actsFor = some 0 ∧ s.ceilingMet b 0 = true) ∧
    (up.Reaches {} Reg.weirWake ∧ bitOf 1 0 = true) := by
  and_intros <;> decide +kernel

theorem test_witness_heat :
    up.Sound ∧ ({ up with heat := { up.heat with s105 := [31] } } : State).heat.s105.contains 31 = true ∧
    (let s := ({ up with heat := { up.heat with s110 := [0] } } : State)
     up.health.railOut = false ∧ up.health.stackOut = [] ∧ up.heat.waits = false ∧ s.heat.s110 ≠ [] ∧
       [(⟨0, 8, false⟩ : Touch)].any (fun r => s.hotAt r.pa r.len) = true) ∧
    up.heat.s105.contains 31 = false ∧ (up.modHeat fun h => { h with tj := setIns 3 h.tj }).coreOn 3 = true ∧
    (({ up with heat := { up.heat with s105 := [30, 31] } } : State).modHeat fun h => { h with s105 := setDel 31 h.s105 }).showHot.heat.s105
      ≠ [] ∧
    (({ up with heat := { up.heat with s105 := [31] } } : State).modHeat fun h => { h with s105 := setDel 31 h.s105 }).showHot.heat.s105
      = [] ∧
    (∀ v ∈ [0, 4], let s := up.setFld Reg.weirStatus F.WEIR_STATUS_STATE v
     let a := Reg.stackStatus 31
     let band := refreshBand (s.fld a F.STACK_STATUS_REFRESH_BAND) 90
     let seen := s.setFlds a [(F.STACK_STATUS_DRAM_TEMP, 90), (F.STACK_STATUS_REFRESH_BAND, band)]
     s.Sound ∧ seen.fld Reg.weirStatus F.WEIR_STATUS_STATE = v) := by
  and_intros <;> decide +kernel

theorem test_witness_partitions :
    (let b := { bg 0x800 [(48, 8, 2)] with part := 1 }
     let s := (hold b).setReg (Reg.partReaches 0) 1
     begun s 0x800 = true ∧ Passes (s.createChecks b) ∧ b.waitFrom = none) ∧
    (let b := bg 0x801 []
     begun (hold b) 0x801 = true ∧ b.reservedZero [(127, 33)] = true ∧ b.f 32 32 < 2 ∧ (hold b).live b.part = true ∧
       ((hold b).partBarges b).any (hold b).runPaused = false) ∧
    (let b := bg 0x801 [] .working
     (hold b).Sound ∧ (hold b).barge? 0 0 = some b ∧ b.native = 0x801 ∧ b.phase = .working ∧ (hold b).partBarges b = [] ∧
       ((hold b).maps.any fun m => m.part == b.part && (hold b).pageInUse (b.startNo, m)) = false) ∧
    (∀ a ∈ [Reg.partCtrl 7, Reg.partClaim 7, Reg.memInterleave 15], up.Reaches {} a) := by
  and_intros <;> decide +kernel

theorem test_witness_timing_modes :
    (∀ l ∈ [(0, 0), (1, 1)], let a := Reg.timingCtrl 63
     let s := up.setFlds a [(F.TIMING_CTRL_PACE_LOCK, l.1), (F.TIMING_CTRL_ORDER_LOCK, l.2)]
     s.Reaches {} a ∧ (s.wakeFor a).flag a F.TIMING_CTRL_PACE_LOCK = decide (l.1 = 1) ∧
       (s.wakeFor a).flag a F.TIMING_CTRL_ORDER_LOCK = decide (l.2 = 1)) ∧
    (up.setFld (Reg.timingCtrl 63) F.TIMING_CTRL_ORDER_REQ 1).modePending 63 = true ∧
    (hold solving).quiescent 0 = false ∧
    (up.setFld (Reg.hcRate 63) F.HC_RATE_FREE_RATE 9).paced 63 = false ∧
    (let s := up.setFld (Reg.timingCtrl 63) F.TIMING_CTRL_PACE_STATE 1
     (s.setFld (Reg.hcRate 63) F.HC_RATE_FREE_RATE 9).paced 63 = true ∧ s.paced 63 = true ∧
       (s.countSat (Reg.paceSlipCount 63) 1).class2 63 = none) := by
  and_intros <;> decide +kernel

/-! ### Keys and roasts -/

/-- A roast of P-die B and A alike. -/
def roast0 : Roast := ⟨0, 1, 0, 0, false⟩

theorem test_witness_keys :
    (∀ k ∈ [(1, 1), (2, 1), (3, 0), (4, 0)], let b := bg 0x802 [(32, 1, k.1), (33, 1, k.2)]
     let s := (hold b).setFld (Reg.canalCtrl 0) F.CANAL_CTRL_SYSTEM 1
     begun s 0x802 = true ∧ b.f 32 32 = k.1 ∧ Passes (s.keyChecks b) ∧ (s.keyOf b).isSome = true ∧
       (s.takeNonce b).slotInUse 0 = none) ∧
    (let b := bg 0x803 [(32, 8, 2 ^ 32), (40, 4, 4992), (44, 1, 3)]
     begun (hold b) 0x803 = true ∧ b.reservedZero [(127, 96), (63, 45)] = true ∧
       (hold b).bufferFault 0 (b.f 39 32) (b.f 43 40) 128 = none ∧ (hold b).secError = false ∧ (hold b).sec.dusShut = false) := by
  and_intros <;> decide +kernel

theorem test_witness_roasts :
    (let b := bg 0x804 [(32, 1, 1), (40, 8, 2 ^ 32), (48, 8, 8192)]
     let s := { hold b with maps := [⟨0, 2 ^ 32, basinBase, 2, true⟩] }
     let u := s.setStaged (1 - s.activePdie) none
     begun s 0x804 = true ∧ b.f 32 32 = 1 ∧ Passes ((u.stageChecks b).take 2) ∧
       Passes (((u.execContest b (u.touches 0 (2 ^ 32) 8192 false) .free).meetAll []).stageChecks b)) ∧
    (let b := bg 0x804 [(32, 1, 2), (56, 1, 1)]
     let s := hold b
     begun s 0x804 = true ∧ b.stageShape = true ∧ s.svnFloor < b.f 56 56 ∧ (∀ r ∈ s.sec.running, b.f 56 56 ≤ r.2.svn) ∧
       b.f 33 33 = 0 ∧ zeroB b.bytes 55 40 = true ∧ s.secError = false) ∧
    (∀ op ∈ [1, 2], let b := bg 0x805 [(32, 1, op)]
     let s := hold b
     let s := s.setFld Reg.failopStatus F.FAILOP_STATUS_STANDBY 0
     let s := (s.setFlash (1 - s.activePdie) ⟨some roast0, some roast0, 0⟩).modSec fun x => { x with running := [(0, roast0), (1, roast0)] }
     begun s 0x805 = true ∧ (op = 1 → Passes (s.switchChecks b false (s.staged (1 - s.activePdie)))) ∧
       (op = 2 → Passes (s.switchChecks b true (s.runs? (1 - s.activePdie))))) := by
  and_intros <;> decide +kernel

/-! ### Failures -/

/-- The substitution of cluster 8 of reach 0 for cluster 0. -/
def subst0 : Subst := ⟨0, 8, .idle, 1, 0, 0⟩

theorem test_witness_failures :
    (let s := { up with subs := [subst0] }
     (s.health.railOut = false ∧ s.health.voidDies = [] ∧ s.health.stackOut = [] ∧
       (s.subs.find? fun y => y.failed == 0) = some subst0) ∧
     s.subs ≠ [] ∧ ([(⟨basinPA 0 + basinSize - 8, 8, true⟩ : Touch)].any fun r => s.movedAt r.pa r.len) = true ∧
     s.movedAt (basinPA 1) 8 = false) ∧
    (up.activePdie = 0 ∧ up.health.linksOut = [] ∧ up.health.towOut.contains 39 = false ∧ up.health.towOut.length < 2 ∧ up.subs = []) ∧
    (∀ low : Bool, let s := { up with tap := { up.tap with low := low } }
     s.Sound ∧ s.tap.low = low) ∧
    (let b := bg 0x901 [(32, 1, 1), (36, 4, 575)]
     let s := hold b
     begun s 0x901 = true ∧ b.reservedZero [(35, 33), (127, 40)] = true ∧ b.f 32 32 = 1 ∧ b.f 39 36 < 576 ∧
       s.fld (Reg.clusterUnitMap 575) F.CLUSTER_UNIT_MAP_STATE = 0 ∧ s.reachOut (reachOfPhys 575) = false ∧
       (s.idleSpare (reachOfPhys 575)).isSome = true) ∧
    (let b := bg 0x901 [(32, 1, 2), (36, 4, 1023)]
     let s := (hold b).setFld (Reg.stackChannelMap 31) F.STACK_CHANNEL_MAP_SPARE0_FOR 0xFF
     begun s 0x901 = true ∧ b.reservedZero [(35, 33), (127, 40)] = true ∧ b.f 32 32 = 2 ∧ b.f 39 36 < 1024 ∧
       s.fld (Reg.stackMap 31) F.STACK_MAP_STATE ≠ 2 ∧ s.channelOut 31 31 = false ∧ (s.idleChannel 31).isSome = true) ∧
    (let b := bg 0x901 [(32, 1, 3), (36, 4, 16)]
     let s := (hold b).setFld (Reg.portMap 1) F.PORT_MAP_SPARE_FOR 0xF
     begun s 0x901 = true ∧ b.reservedZero [(35, 33), (127, 40)] = true ∧ b.f 32 32 = 3 ∧ b.f 39 36 < 18 ∧ b.f 39 36 % 9 < 8 ∧
       s.fld (Reg.portMap 1) F.PORT_MAP_STATE ≠ 2 ∧ bitOf (s.fld (Reg.portMap 1) F.PORT_MAP_DISABLED) 7 = false ∧
       bitOf (s.fld (Reg.portMap 1) F.PORT_MAP_DISABLED) 8 = false ∧ s.fld (Reg.portMap 1) F.PORT_MAP_SPARE_FOR = 0xF) := by
  and_intros <;> decide +kernel

/-- A DIAG_CUPPING of reach 63, from a system canal and from one of the partition that owns the reach, and one that runs. -/
theorem test_witness_cupping :
    (∀ sys ∈ [0, 1], let b := bg 0x900 [(32, 8, 2 ^ 63)]
     let s := (hold b).setFld (Reg.canalCtrl 0) F.CANAL_CTRL_SYSTEM sys
     begun s 0x900 = true ∧ b.reservedZero [(127, 40)] = true ∧ setBits 64 (b.f 39 32) = [63] ∧
       s.canalPart 0 = (if sys = 0 then some 0 else none) ∧ s.reachPart 63 = some 0 ∧
       ([63].any fun r => s.reachGone r || s.reachRuns r || s.reachArmed r) = false ∧
       ([63].any fun r => !s.reachStill r || s.subs.any fun x => reachOfPhys x.failed == r) = false) ∧
    (let b := bg 0x900 [(32, 8, 2 ^ 63)] .working
     (hold b).Sound ∧ (hold b).barge? 0 0 = some b ∧ b.native = 0x900 ∧ b.phase = .working) := by
  and_intros <;> decide +kernel

/-- The package at a DIAG_CUPPING of reaches 62 and 63 that is at one of them. -/
def cupped (r : Nat) : State := (hold (bg 0x900 [(32, 8, 2 ^ 63 + 2 ^ 62)] .working)).cupBegin r

theorem test_witness_cupping_in_turn (r : Nat) (h : r = 62 ∨ r = 63) :
    (cupped r).Sound ∧ (cupped r).barge? 0 0 = some (bg 0x900 [(32, 8, 2 ^ 63 + 2 ^ 62)] .working) := by
  rcases h with rfl | rfl <;> and_intros <;> decide +kernel

theorem test_cupping_goes_on : ((cupped 62).cupOn [62, 63] [(62, passingCup 0)]).cupRuns 63 = true := by decide +kernel

theorem test_cupping_ends : [62, 63].any ((cupped 63).cupOn [62, 63] [(63, passingCup 0)]).cupRuns = false := by decide +kernel

theorem test_witness_scrubbing :
    (let s := (up.setFld Reg.weirStatus F.WEIR_STATUS_STATE 4).setFld (Reg.stackStatus 31) F.STACK_STATUS_SELF_REFRESH 1
     s.Sound ∧ s.fld Reg.weirStatus F.WEIR_STATUS_STATE = 4 ∧ s.flag (Reg.stackStatus 31) F.STACK_STATUS_SELF_REFRESH = true) ∧
    up.fld Reg.weirStatus F.WEIR_STATUS_STATE ≠ 4 ∧
    (({ up with copies := [(31, 0)] } : State).copies.find? fun y => y.1 == 31) = some (31, 0) := by
  and_intros <;> decide +kernel

/-! ### Links and packets -/

/-- Port 0 with its link record, in a state of PORT_STATUS. -/
def port0 (st : Nat) (l : LinkSt := {}) : State := (up.setFld (Reg.portStatus 0) F.PORT_STATUS_STATE st).setLink 0 l

/-- A flit of port 0's partner. -/
def flit (seq ftype : Nat) (notice : Nat := 0) : Flit := ⟨flitBytes seq 8 [] ftype 0xFF notice [], [], false⟩

/-- A flit that is bad by a codeword of its own, by one that it shares with the flit before, and by its length. -/
theorem test_witness_bad_flits :
    (∀ n ∈ [15, 16], let f : Flit := { flit 1 1 with fixed := [n] }
      f.fixed = [n] ∧ decide (∃ m ∈ f.fixed, 15 < m) = decide (n = 16)) ∧
    (∀ n ∈ [15, 16], let f : Flit := { flit 1 1 with carry := true }
      f.carry = true ∧ decide (15 < ((port0 2 { lastCw := n }).link 0).lastCw) = decide (n = 16)) ∧
    flitGood ((flit 1 1).bytes.drop 1) = false := by
  and_intros <;> decide +kernel

/-- Every flit built from its fields has a good CRC. -/
theorem test_good_flits (seq ftype notice : Nat) : flitGood (flit seq ftype notice).bytes = true :=
  flitGood_flitBytes ..

/-- The next flit, a second copy of the last one, one too far on, and one at the far end of the window; a replay request and
notices; and requests for held flits that were sent 14 and 15 times. -/
theorem test_witness_flits :
    ((port0 2).Sound ∧ (port0 2).trained 0 = true ∧ (port0 2).portUp 0 = true ∧ (port0 0).trained 0 = false) ∧
    (∀ x ∈ [(65535, 0, 1), (7, 7, 0), (7, 6, 65535), (7, 9, 2), (0, 32768, 32768), (0, 32767, 32767)], let b := (flit x.2.1 1).bytes
      let read := (port0 2 { recv := x.1 }).codewords 0 (flit x.2.1 1)
      let g := read.flitAck 0 (fieldB b 3 2)
      let h := g.setLink 0 ((g.link 0).creditIn (flitCredit b))
      fieldB b 12 12 = Ft.data ∧ fieldB b 1 0 = x.2.1 ∧ flitAfter (h.link 0).recv (fieldB b 1 0) = x.2.2) ∧
    (fieldB (flit 7 2).bytes 12 12 = Ft.replay ∧ fieldB (flit 7 3).bytes 12 12 = Ft.notice ∧ fieldB (flit 7 0).bytes 12 12 = Ft.idle ∧
      fieldB (flit 7 3 2).bytes 14 14 = 2) ∧
    (∀ n ∈ [14, 15], let q := ((port0 2 { fseq := 9, held := [⟨9, n, []⟩] }).flitAck 0 8).link 0
      q.held = [⟨9, n, []⟩] ∧ decide (∀ y ∈ q.held, y.tries < 15) = decide (n = 14)) := by
  and_intros <;> decide +kernel

theorem test_witness_links :
    (∀ n ∈ [0, 15], let s := { port0 2 with errs := { up.errs with events := List.replicate n ⟨unitPort 0, 7, 0, 0⟩ } }
      let lost := (s.linkLost 0).errRecord (unitPort 0) 7 3 6 none 0 0 0 (s.linkLost 0).now
      s.trained 0 = true ∧ lost.faultsIn (unitPort 0) 7 hourNs = n + 1) ∧
    (∀ st ∈ [0, 3], (port0 st).fld (Reg.portStatus 0) F.PORT_STATUS_STATE = st ∧ (port0 st).mayTrain 0 = true ∧
      ((port0 st).link 0).lastTry = 0) ∧
    (∀ n ∈ [10 ^ 9, 10 ^ 9 + 1], let s := (port0 3 { lastTry := 1 }).setReg Reg.globalTime n
      (s.link 0).lastTry ≠ 0 ∧ decide ((s.link 0).lastTry + 10 ^ 9 ≤ s.now) = decide (n = 10 ^ 9 + 1)) ∧
    (∀ st ∈ [1, 4], (port0 st).fld (Reg.portStatus 0) F.PORT_STATUS_STATE = st ∧ (port0 st).mayTrain 0 = true ∧
      (port0 st).keysAgree { node := 2, f := false, port := 0 } = true ∧
      (port0 st).keysAgree { node := 2, f := false, port := 0, enc := true } = false) ∧
    (∀ n ∈ [(0 : BitVec 4), 3], (port0 2).mayTrain 0 = true ∧ (port0 2).fld (Reg.portStatus 0) F.PORT_STATUS_STATE = 2 ∧
      decide (((port0 2).link 0).failed ||| n.toNat ≠ ((port0 2).link 0).failed) = (n != 0)) ∧
    (∀ x ∈ [(0, some 1), (8, some 1), (1, none)], let l := (port0 2 { failed := x.1 }).link 0
      l.failed = x.1 ∧ (bitOf l.failed 3 = decide (x.1 = 8)) ∧ widthOf (l.failed ||| 2 ^ 3) = x.2) := by
  and_intros <;> decide +kernel

/-- A packet of a type for a node. -/
def pkt (t dst unit : Nat) : Packet := { ptype := t, vc := vcOf t, dst := dst, src := 2, unit := unit }

/-- The package with node 3 moored at port 2. -/
def moored : State := up.setFlds (Reg.portStatus 2) [(F.PORT_STATUS_STATE, 4), (F.PORT_STATUS_PARTNER_NODE, 3)]

theorem test_witness_packets :
    (up.Sound ∧ up.trained 0 = true ∧ up.nodeId = 1 ∧ up.nodeValid = true ∧ (port0 0).trained 0 = false ∧
      (up.setFld Reg.fabricNode F.FABRIC_NODE_NODE_VALID 0).nodeValid = false) ∧
    (∀ x ∈ [(Pt.read8, 0), (Pt.ack, 0), (Pt.mgmt, 0x900), (Pt.coll, 0x801), (Pt.time, 0), (Pt.readResp, 0), (Pt.notice, 0)],
      (pkt x.1 1 x.2).ok = true ∧ (pkt x.1 1 x.2).dst = up.nodeId) ∧
    ({ pkt Pt.nack 1 0 with code := 8 } : Packet).ok = true ∧ ({ pkt Pt.read8 1 0 with vc := 3 } : Packet).ok = false ∧
    (isRequest (pkt Pt.read8 2 0) = true ∧ isRequest (pkt Pt.ack 2 0) = false) ∧
    (up.mooredNode 2 = false ∧ up.forwardPort 0 2 = some 0 ∧ up.mooredNode 4 = false ∧ up.forwardPort 0 4 = none) ∧
    (moored.mooredNode 3 = true ∧ moored.trained 0 = true) ∧
    (let r : ReqOut := ⟨pkt Pt.read8 2 0, .cluster 0 (some (0, 0)), 0, 0⟩
     let s := up.modFab fun f => { f with sent := [r] }
     s.named (pkt Pt.readResp 1 0) = some r ∧ r.pkt.reads = true ∧ up.named (pkt Pt.readResp 1 0) = none ∧
       s.named { pkt Pt.nack 1 0 with code := 8 } = some r) := by
  and_intros <;> decide +kernel

/-- An outstanding request of node 1 to node 2. -/
def req0 (o : ReqOwner) : ReqOut := ⟨pkt Pt.read8 2 0, o, 0, 0⟩

theorem test_witness_uncovered :
    (∀ o ∈ [ReqOwner.none, .cluster 0 (some (0, 0))], let s := (up.modFab fun f => { f with sent := [req0 o] }).modCl 0 fun c => { c with barge := some (0, 0) }
      let t := s.modFab fun f => { f with sent := f.sent.map fun y => if y = req0 o then { y with lastAt := s.now } else y }
      s.Sound ∧ s.outstanding 2 0 0 = some (req0 o) ∧ s.now < s.fld Reg.fabricTimers F.FABRIC_TIMERS_RETX_US * 1000 ∧
        s.now < s.fld Reg.fabricTimers F.FABRIC_TIMERS_REPLY_US * 1000 ∧ s.pathCode 2 = none ∧
        t.reqBarge (req0 o) = (if o = .none then none else some (0, 0))) ∧
    (let s := (up.modFab fun f => { f with sent := [req0 .none] }).setReg Reg.globalTime (2 ^ 40)
     s.fld Reg.fabricTimers F.FABRIC_TIMERS_RETX_US * 1000 ≤ s.now ∧
       s.fld Reg.fabricTimers F.FABRIC_TIMERS_REPLY_US * 1000 ≤ s.now ∧ s.outstanding 2 0 0 = some (req0 .none)) ∧
    (∀ v ∈ [0, 1], let s := (up.modFab fun f => { f with sent := [req0 .none] }).setFld Reg.fabricNode F.FABRIC_NODE_NODE_VALID v
     s.Sound ∧ s.outstanding 2 0 0 = some (req0 .none) ∧ s.nodeValid = decide (v = 1)) := by
  and_intros <;> decide +kernel

theorem test_witness_fabric_registers :
    (∀ a ∈ [Reg.routeData, Reg.fabricNode, Reg.fabricTimers, Reg.timeStatus], up.Reaches {} a) ∧
    ((List.range 8).any fun p => (up.wakeFor Reg.fabricNode).flag (Reg.fabricJob p) F.FABRIC_JOB_VALID) = true ∧
    (let s := up.setReg (Reg.fabricJob 0) 0
     ((List.range 8).any fun p => (s.wakeFor Reg.fabricNode).flag (Reg.fabricJob p) F.FABRIC_JOB_VALID) = false) ∧
    (bitsOf (2 * 2 ^ 32 + 1) 15 0 ≠ 0 ∧ 2 * bitsOf (2 * 2 ^ 32 + 1) 15 0 ≤ bitsOf (2 * 2 ^ 32 + 1) 47 32) ∧
    (bitsOf (2 ^ 32 + 1) 15 0 = 0 ∨ bitsOf (2 ^ 32 + 1) 47 32 < 2 * bitsOf (2 ^ 32 + 1) 15 0) ∧
    (∀ m ∈ [0, 1], let s := up.setFld Reg.timeStatus F.TIME_STATUS_MASTER m
      s.Reaches {} Reg.timeStatus ∧ (s.wakeFor Reg.timeStatus).flag Reg.timeStatus F.TIME_STATUS_MASTER = (m == 1)) ∧
    (up.portUp 0 = true ∧ up.flag Reg.timeStatus F.TIME_STATUS_MASTER = false) ∧
    (∀ h ∈ [2, 4], let s := (up.setFld (Reg.portStatus 9) F.PORT_STATUS_STATE 2).modFab fun f => { f with times := [(9, ⟨1, 3, 0⟩)] }
     let heard := s.modFab fun f => { f with times := spPut 0 ⟨1, h, 0⟩ f.times }
     s.portUp 0 = true ∧ heard.timeBest = some (if h = 2 then (0, ⟨1, 2, 0⟩) else (9, ⟨1, 3, 0⟩))) ∧
    (let s := up.setFld Reg.timeStatus F.TIME_STATUS_MASTER 1
     s.portUp 0 = true ∧ s.flag Reg.timeStatus F.TIME_STATUS_MASTER = true ∧ s.nodeId ≤ 1 ∧ 0 < s.nodeId) := by
  and_intros <;> decide +kernel

/-! ### Security, reset and the world outside -/

theorem test_witness_security :
    (∀ a ∈ [0, 1], let s := up.setFld Reg.secStatus F.SEC_STATUS_APPROVED a
      s.Reaches {} Reg.secCtrl ∧ s.Reaches {} Reg.secZeroise ∧ (s.wakeFor Reg.secCtrl).approved = (a == 1) ∧ s.approved = (a == 1)) ∧
    (let s := up.setFld Reg.secCtrl F.SEC_CTRL_APPROVED_REQ 1
     (s.wakeFor Reg.secCtrl).flag Reg.secCtrl F.SEC_CTRL_APPROVED_REQ = true) ∧
    (let c := up.wakeFor Reg.secCtrl
     let q := c.setFld Reg.secCtrl F.SEC_CTRL_APPROVED_REQ 1
     c.flag Reg.secCtrl F.SEC_CTRL_APPROVED_REQ = false ∧ q.refuseReason.isSome = true) ∧
    (let s := (up.setFlds Reg.secCtrl [(F.SEC_CTRL_DEBUG_LOCK, 1), (F.SEC_CTRL_LINK_ENC, 1)]).setFld (Reg.partState 0) F.PART_STATE_STATE 0
     let q := (s.wakeFor Reg.secCtrl).setFld Reg.secCtrl F.SEC_CTRL_APPROVED_REQ 1
     (s.wakeFor Reg.secCtrl).flag Reg.secCtrl F.SEC_CTRL_APPROVED_REQ = false ∧ q.refuseReason = none ∧ s.debugLocked = true) ∧
    (∀ n ∈ [10000, 10001], let s := ((up.modSec fun x => { x with armedAt := some 0 }).setReg Reg.globalTime n)
      (s.wakeFor Reg.secZeroise).sec.armedAt = some 0 ∧ (s.wakeFor Reg.secZeroise).now = n) := by
  and_intros <;> decide +kernel

/-- P-die 0 in recovery. -/
def recovering0 : State :=
  (({ up with booting := true }.setFld (Reg.hostPortStatus 0) F.HOST_PORT_STATUS_STATE 3).setFld (Reg.bootStatus 0)
    F.BOOT_STATUS_STAGE 3)

theorem test_witness_resets :
    (up.tap.low = false ∧ boundary (({ up.levelSeven false 2 false true false with
      tap := { (up.levelSeven false 2 false true false).tap with low := true } } : State)).tap.loaded = false) ∧
    (({ up with tap := { up.tap with low := true } } : State).tap.low = true) ∧ up.booting = false ∧
    ((up.setFld (Reg.hostPortStatus 1) F.HOST_PORT_STATUS_NUM_VFS 8).vfExists 1 7 = true) ∧
    up.Reaches {} Reg.resetCtrl ∧ bitsOf 0 63 48 ≠ 0xB0E7 ∧
    (let s := recovering0
     let t := ((s.setFld Reg.recoveryCtrl F.RECOVERY_CTRL_STATE 0).endRecovery 0).bootStop 0 4
     s.Sound ∧ s.recovering 0 = true ∧ s.fld Reg.recoveryCtrl F.RECOVERY_CTRL_STATE ≠ 4 ∧
       (t.setFld (Reg.hostPortStatus 0) F.HOST_PORT_STATUS_STATE 0).booting = true) := by
  and_intros <;> decide +kernel

theorem test_witness_host_ports :
    (let t := up.setFlds (Reg.hostPortStatus 0) [(F.HOST_PORT_STATUS_WIDTH, 2), (F.HOST_PORT_STATUS_RATE, 1)]
     up.Sound ∧ up.fld (Reg.hostPortStatus 0) F.HOST_PORT_STATUS_STATE ≠ 2 ∧ up.fld (Reg.bootStatus 0) F.BOOT_STATUS_STAGE ≠ 0xF ∧
       t.recovering 0 = false) ∧
    ((canal0 0 0 0).canalActive 0 = true ∧ (canal0 0 0 0).fld (Reg.canalCtrl 0) F.CANAL_CTRL_RING_LOC ≠ 2) ∧
    (let s := (up.setFld (Reg.hostPortStatus 0) F.HOST_PORT_STATUS_STATE 2).setFld (Reg.hostPortStatus 0) F.HOST_PORT_STATUS_NUM_VFS 1
     let w : Win4 := { vf := some 0, offset := 2 ^ 30 - 8 }
     s.booted = true ∧ s.fld (Reg.hostPortStatus 0) F.HOST_PORT_STATUS_STATE = 2 ∧ s.fld Reg.weirStatus F.WEIR_STATUS_STATE ≠ 4 ∧
       (w.vf.any fun p => !s.vfExists 0 p.val) = false ∧ s.win4Fault 0 w = none ∧
       s.win4Addr 0 w = some (0, 2 ^ 32 + 2 ^ 30 - 8)) ∧
    (up.health.clkOut.contains 3 = false ∧ up.health.clkOut.contains 1 = false ∧
      (up.clockOut 1).health.clkOut.contains 0 = false ∧ (1 : Nat) ≠ up.activePdie ∧
      (up.clockOut 1).health.clkOut.contains 1 = true) := by
  and_intros <;> decide +kernel

theorem test_witness_management_and_spdm :
    ((up.mgmtPort 1).i3c = false ∧ up.secError = false ∧ up.sec.dusShut = false ∧ up.fld (Reg.bootStatus 0) F.BOOT_STATUS_STAGE = 8 ∧
      up.fld (Reg.bootStatus 1) F.BOOT_STATUS_STAGE ≠ 8) ∧
    ((up.setFld Reg.resetFuse F.RESET_FUSE_RSTACT_LEVEL 6).fld Reg.resetFuse F.RESET_FUSE_RSTACT_LEVEL = 6 ∧
      up.fld Reg.resetFuse F.RESET_FUSE_RSTACT_LEVEL ≠ 6) ∧
    (∀ st ∈ [1, 2, 3], (up.setStage 0 st).stage 0 = st) ∧
    ((up.sec.sessions.filter fun v => v.pdie == 0).length < 4 ∧ ∀ v ∈ up.sec.sessions, v.id ≠ 9) ∧
    (∀ o : Bool, (up.modSec fun x => { x with sessions := [⟨0, 9, 0, true, o, none⟩] }).session? 0 9 o = true) := by
  and_intros <;> decide +kernel

theorem test_witness_tap :
    up.Sound ∧ up.debugLocked = false ∧ up.approved = false ∧
    (up.setFld Reg.secCtrl F.SEC_CTRL_DEBUG_LOCK 1).debugLocked = true ∧
    (up.setFld Reg.secStatus F.SEC_STATUS_APPROVED 1).approved = true := by
  and_intros <;> decide +kernel

end Sys2Proof.Tests
end

/-! PROOFS. The step of a package with no command waiting. -/

namespace Sys2Proof.Machine

/-- With no command waiting, a step is the idle step. -/
theorem step_of_pending_nil {s : State} (h : s.pending = []) : step s = .next s.idleStep := by
  simp only [step, h]

/-- A booted package, node 1 of its machine, whose port 0 is trained towards node 2. Its timebase stands at 0, so that TIME
packets are due (R522). -/
def linkedPackage : State :=
  ((({ State.reset with booting := false } : State).setFld (Reg.bootStatus 0) F.BOOT_STATUS_STAGE 8).setFlds Reg.fabricNode
      [(F.FABRIC_NODE_NODE_ID, 1), (F.FABRIC_NODE_NODE_VALID, 1)]).setFlds (Reg.portStatus 0)
    [(F.PORT_STATUS_STATE, 2), (F.PORT_STATUS_PARTNER_NODE, 2)]

/-- The TIME packet that `linkedPackage` owes node 2. -/
def linkedTimePacket : Packet := { ptype := Pt.time, vc := 3, dst := 2, src := 1 }

theorem linkedPackage_pending : linkedPackage.pending = [] := by decide +kernel

/-- The idle step sends the TIME packet of R522 (`State.sendTimes`). -/
theorem linkedTimePacket_mem_idleStep_out : .packet 0 linkedTimePacket ∈ linkedPackage.idleStep.out := by decide +kernel

/-- The part of the idle step that `Obligations.IdleAdvancesTime` names sends nothing. -/
theorem linkedPackage_out_without_sends :
    linkedPackage.endFaults.retireDue.sleepDue.markReady.idle.out = [] := by decide +kernel

/-- Refutes O2: its first clause leaves the acts `State.wakeReaches`, `State.sendTimes` and `State.sendFlits` of the idle step
out, and a package with a trained link sends a TIME packet in each millisecond (R522). -/
theorem not_idleAdvancesTime : ¬ Obligations.IdleAdvancesTime := by
  unfold Obligations.IdleAdvancesTime
  intro h
  have named := (h linkedPackage).1 linkedPackage_pending
  rw [step_of_pending_nil linkedPackage_pending] at named
  have same := Host.Outcome.next.inj named
  have sent := linkedTimePacket_mem_idleStep_out
  rw [same, linkedPackage_out_without_sends] at sent
  exact List.not_mem_nil sent

end Sys2Proof.Machine

/-! PROOFS. The timing and arbitration modes of the reaches (R46 to R53): what each of their rows leaves. -/

namespace Sys2Proof.Machine

/-! ### The two requests under their locks (R61) -/

/-- R61: a clear PACE_LOCK lets the request through, and VCORE follows it (R449). -/
theorem State.setPaceReq_of_unlocked {s : State} {r : Nat} (v : Bool)
    (h : s.flag (Reg.timingCtrl r) F.TIMING_CTRL_PACE_LOCK = false) :
    s.setPaceReq r v = (s.setFld (Reg.timingCtrl r) F.TIMING_CTRL_PACE_REQ (b2n v)).follow (r / 16) := by
  simp [State.setPaceReq, h]

theorem State.setPaceReq_of_locked {s : State} {r : Nat} (v : Bool)
    (h : s.flag (Reg.timingCtrl r) F.TIMING_CTRL_PACE_LOCK = true) : s.setPaceReq r v = s := by
  simp [State.setPaceReq, h]

theorem State.setOrderReq_of_unlocked {s : State} {r : Nat} (v : Bool)
    (h : s.flag (Reg.timingCtrl r) F.TIMING_CTRL_ORDER_LOCK = false) :
    s.setOrderReq r v = s.setFld (Reg.timingCtrl r) F.TIMING_CTRL_ORDER_REQ (b2n v) := by
  simp [State.setOrderReq, h]

theorem State.setOrderReq_of_locked {s : State} {r : Nat} (v : Bool)
    (h : s.flag (Reg.timingCtrl r) F.TIMING_CTRL_ORDER_LOCK = true) : s.setOrderReq r v = s := by
  simp [State.setOrderReq, h]

/-- A write of PACE_REQ that is served acts on the package that it woke (R459), under the lock that it finds there. -/
theorem exec_paceReq_of_reaches {s : State} {r : Fin 64} {rp : RegPath} (h : s.Reaches rp (Reg.timingCtrl r.val)) (v : Bool) :
    exec (.paceReq r v rp) s = .next ((s.wakeFor (Reg.timingCtrl r.val)).setPaceReq r.val v) :=
  calc exec (.paceReq r v rp) s
    _ = s.go (s.viaPath rp (Reg.timingCtrl r.val) fun t => t.setPaceReq r.val v) := rfl
    _ = .next ((s.wakeFor (Reg.timingCtrl r.val)).setPaceReq r.val v) := by
      rw [State.go_of_sound h.1, State.viaPath_of_reaches h]

/-- A write of ORDER_REQ that is served acts on the package that it woke (R459), under the lock that it finds there. -/
theorem exec_orderReq_of_reaches {s : State} {r : Fin 64} {rp : RegPath} (h : s.Reaches rp (Reg.timingCtrl r.val)) (v : Bool) :
    exec (.orderReq r v rp) s = .next ((s.wakeFor (Reg.timingCtrl r.val)).setOrderReq r.val v) :=
  calc exec (.orderReq r v rp) s
    _ = s.go (s.viaPath rp (Reg.timingCtrl r.val) fun t => t.setOrderReq r.val v) := rfl
    _ = .next ((s.wakeFor (Reg.timingCtrl r.val)).setOrderReq r.val v) := by
      rw [State.go_of_sound h.1, State.viaPath_of_reaches h]

/-! ### The change of mode (R48) -/

/-- R48: a reach that is not at rest keeps its modes, and everything else. -/
theorem State.changeMode_of_not_quiescent {s : State} {r : Nat} (h : s.quiescent r = false) : s.changeMode r = s := by
  simp [State.changeMode, h]

theorem exec_timingModeChange_of_pending {s : State} {r : Fin 64} (hs : s.Sound) (h : s.modePending r.val = true) :
    exec (.timingModeChange r) s = .next (s.changeMode r.val) :=
  calc exec (.timingModeChange r) s
    _ = s.goDie (r.val / 16) (if s.modePending r.val then s.changeMode r.val else s) := rfl
    _ = .next (s.changeMode r.val) := by rw [State.goDie_of_sound hs, if_pos h]

/-! ### The free rate and slips (R45, R49) -/

/-- The free rate is always reported; RATE takes it where the reach is not held at the paced rate (R45, R47). -/
theorem exec_hcRateUpdate_of_sound {s : State} (hs : s.Sound) (r : Fin 64) (rate : BitVec 16) :
    exec (.hcRateUpdate r rate) s =
      .next (if (s.setFld (Reg.hcRate r.val) F.HC_RATE_FREE_RATE rate.toNat).paced r.val
        then s.setFld (Reg.hcRate r.val) F.HC_RATE_FREE_RATE rate.toNat
        else (s.setFld (Reg.hcRate r.val) F.HC_RATE_FREE_RATE rate.toNat).setRate r.val rate.toNat) :=
  State.goDie_of_sound hs _ _

/-- R49: outside a class 2 partition, a slip of a paced reach is counted and does nothing more. -/
theorem exec_pacingSlip_of_paced {s : State} {r : Fin 64} (hs : s.Sound) (hp : s.paced r.val = true)
    (hc : (s.countSat (Reg.paceSlipCount r.val) 1).class2 r.val = none) :
    exec (.pacingSlip r) s = .next (s.countSat (Reg.paceSlipCount r.val) 1) := by
  change execPacingSlip r s = _
  simp only [execPacingSlip, hp, hc, State.goDie_of_sound hs, Bool.not_true, Bool.false_eq_true, if_false]

/-! ### The statement -/

/-- Settles O48: each row acts at once in a sound package, so that what it leaves follows from the lock that it finds, the
rest of its reach, or the mode that its reach is in. -/
theorem timingModes : Obligations.TimingModes := by
  unfold Obligations.TimingModes
  intro s r v rp rate a t free
  refine ⟨fun h hl => ?paceOpen, fun h hl => ?paceHeld, fun h hl => ?orderOpen, fun h hl => ?orderHeld,
    exec_timingModeChange_of_pending, State.changeMode_of_not_quiescent, fun hs hp => ?ratePaced, fun hs hp => ?rateFree,
    exec_pacingSlip_of_paced, fun hs => ?lockLost, fun hs => ?lockRegained⟩
  case paceOpen => rw [exec_paceReq_of_reaches h, State.setPaceReq_of_unlocked v hl]
  case paceHeld => rw [exec_paceReq_of_reaches h, State.setPaceReq_of_locked v hl]
  case orderOpen => rw [exec_orderReq_of_reaches h, State.setOrderReq_of_unlocked v hl]
  case orderHeld => rw [exec_orderReq_of_reaches h, State.setOrderReq_of_locked v hl]
  case ratePaced => rw [exec_hcRateUpdate_of_sound hs, if_pos hp]
  case rateFree => rw [exec_hcRateUpdate_of_sound hs, if_neg (Bool.eq_false_iff.mp hp)]
  case lockLost => exact State.go_of_sound hs s.lockLoss
  case lockRegained => exact State.go_of_sound hs _

end Sys2Proof.Machine

/-! PROOFS. What the issue of an instruction leaves of the registers of its cluster (R284, R285, R452). -/

namespace Sys2Proof.Machine

/-! ### The cluster as its instruction finds it -/

theorem State.cl_congr {s t : State} (h : t.clusters = s.clusters) (P : Nat) : t.cl P = s.cl P := by
  unfold State.cl
  rw [h]

theorem State.placeVcore_clusters (s : State) (d v : Nat) : (s.placeVcore d v).clusters = s.clusters := by
  unfold State.placeVcore
  exact (State.setFld_clusters _ _ _ _).trans (State.setFld_clusters _ _ _ _)

theorem State.follow_clusters (s : State) (d : Nat) : (s.follow d).clusters = s.clusters := by
  unfold State.follow
  split
  · rfl
  · exact State.placeVcore_clusters _ _ _

theorem State.firstIssue_clusters (s : State) (d : Nat) : (s.firstIssue d).clusters = s.clusters := by
  unfold State.firstIssue
  split
  · exact (State.follow_clusters _ _).trans (State.setFld_clusters _ _ _ _)
  · rfl

theorem State.recordCorrected_clusters (s : State) (unit : Nat) (part : Option Nat) (addr : Nat) :
    (s.recordCorrected unit part addr State.syndrome).clusters = s.clusters := by
  unfold State.recordCorrected
  split_ifs <;> rfl

theorem State.cacheEcc_clusters (s : State) (P : Nat) (e : Ecc) : (s.cacheEcc P e).clusters = s.clusters := by
  cases e with
  | cache => exact State.recordCorrected_clusters _ _ _ _
  | clean | corrected | uncorrectable | buffer => rfl

/-- What an operand read finds in the register file changes the poison of one word alone. -/
theorem State.cl_regEcc (s : State) (P : Nat) (e : Nat × Ecc) :
    (s.regEcc P e).cl P = { s.cl P with vpois := ((s.regEcc P e).cl P).vpois } := by
  obtain ⟨word, ecc⟩ := e
  cases ecc with
  | corrected =>
    have same : (s.regEcc P (word, .corrected)).cl P = s.cl P := State.cl_congr (State.recordCorrected_clusters _ _ _ _) P
    rw [same]
  | uncorrectable => rw [show (s.regEcc P (word, .uncorrectable)).cl P = _ from State.cl_setCl_same _ _ _]; rfl
  | clean | cache | buffer => rfl

/-- An instruction finds the registers of its cluster as they were: its hc are counted, and a word that an operand read found in
error is poisoned. -/
theorem State.cl_issueAt (s : State) (P : Nat) (env : CEnv) :
    (s.issueAt P env).cl P = { (s.cl P).after env.hc with vpois := ((s.issueAt P env).cl P).vpois } := by
  have tick : ((s.firstIssue (P / 144)).tick P env.hc).cl P = (s.cl P).after env.hc := by
    rw [State.cl_tick_same, State.cl_congr (s.firstIssue_clusters _)]
  have issue : (s.issueAt P env).cl P = (((s.firstIssue (P / 144)).tick P env.hc).regEcc P env.reg).cl P :=
    State.cl_congr (State.cacheEcc_clusters _ _ _) P
  rw [issue, State.cl_regEcc, tick]

section
variable (s : State) (P : Nat) (env : CEnv)

@[simp] theorem State.issueAt_x (n : Nat) : ((s.issueAt P env).cl P).x n = (s.cl P).x n := by
  rw [State.cl_issueAt]
  rfl

@[simp] theorem State.issueAt_pc : ((s.issueAt P env).cl P).pc = (s.cl P).pc := by
  rw [State.cl_issueAt]
  rfl

@[simp] theorem State.issueAt_retired : ((s.issueAt P env).cl P).retired = (s.cl P).retired := by
  rw [State.cl_issueAt]
  rfl

@[simp] theorem State.issueAt_hmode : ((s.issueAt P env).cl P).hmode = (s.cl P).hmode := by
  rw [State.cl_issueAt]
  rfl

@[simp] theorem State.issueAt_tvec : ((s.issueAt P env).cl P).tvec = (s.cl P).tvec := by
  rw [State.cl_issueAt]
  rfl

@[simp] theorem State.issueAt_epc : ((s.issueAt P env).cl P).epc = (s.cl P).epc := by
  rw [State.cl_issueAt]
  rfl

@[simp] theorem State.issueAt_mat : ((s.issueAt P env).cl P).mat = (s.cl P).mat := by
  rw [State.cl_issueAt]
  rfl

@[simp] theorem State.issueAt_moutOpen : ((s.issueAt P env).cl P).moutOpen = (s.cl P).moutOpen := by
  rw [State.cl_issueAt]
  rfl

@[simp] theorem State.issueAt_drained : ((s.issueAt P env).cl P).drained = (s.cl P).drained := by
  rw [State.cl_issueAt]
  rfl

@[simp] theorem State.issueAt_deferred : ((s.issueAt P env).cl P).deferred = (s.cl P).deferred := by
  rw [State.cl_issueAt]
  rfl

@[simp] theorem State.issueAt_remoteOut : ((s.issueAt P env).cl P).remoteOut = (s.cl P).remoteOut := by
  rw [State.cl_issueAt]
  rfl

@[simp] theorem State.issueAt_nmOut : ((s.issueAt P env).cl P).nmOut = (s.cl P).nmOut := by
  rw [State.cl_issueAt]
  rfl

end

/-- Operand reads that find no error leave the hc of the instruction alone to count. -/
theorem State.cl_issueAt_of_clean (s : State) (P : Nat) {env : CEnv} (h : env.reg.2 = .clean) :
    (s.issueAt P env).cl P = (s.cl P).after env.hc := by
  have reg : ((s.firstIssue (P / 144)).tick P env.hc).regEcc P env.reg = (s.firstIssue (P / 144)).tick P env.hc := by
    unfold State.regEcc
    rw [h]
  rw [State.issueAt, State.cl_congr (State.cacheEcc_clusters _ _ _), reg, State.cl_tick_same,
    State.cl_congr (s.firstIssue_clusters _)]

/-! ### What retiring and a register write leave alone -/

@[simp] theorem Cluster.retire_x (c : Cluster) (n : Nat) : c.retire.x n = c.x n := rfl

@[simp] theorem Cluster.retire_pc (c : Cluster) : c.retire.pc = (c.pc + 4) % 2 ^ 64 := rfl

@[simp] theorem Cluster.setX_pc (c : Cluster) (n : Nat) (v : Word) : (c.setX n v).pc = c.pc := by
  unfold Cluster.setX
  split_ifs <;> rfl

/-- An instruction whose outcome changes its cluster's record alone: its next state, that state's frame, and the record. -/
theorem State.onlyCl_of_modCl {r : Res State} {i : State} {P : Nat} {f : Cluster → Cluster} {c : Cluster}
    (h : r = .next (i.modCl P f)) (hc : f (i.cl P) = c) : ∃ t, r = .next t ∧ i.OnlyCl t P ∧ t.cl P = c :=
  ⟨i.modCl P f, h, i.onlyCl_setCl P _, (i.cl_modCl_same P f).trans hc⟩

end Sys2Proof.Machine

/-! PROOFS. Integer operations and divisions (R64, R80 to R82). -/

namespace Sys2Proof.Machine

section
variable {s : State} {p : Fin 576} {w : Nat}

theorem exec_integerRegOp_of_fetches (h : s.Fetches p w .integerRegOp) (env : CEnv) :
    exec (.integerRegOp p env) s = .next ((s.issueAt p env).modCl p fun c =>
      (c.setX (fA w) (intFn (bitsOf w 5 0) (c.x (fB w)) (c.x (fC w)))).retire) :=
  calc exec (.integerRegOp p env) s
    _ = execIntegerRegOp p env s := rfl
    _ = _ := State.instr_of_fetches h env _

theorem exec_immediateOp_of_fetches (h : s.Fetches p w .immediateOp) (env : CEnv) :
    exec (.immediateOp p env) s = .next ((s.issueAt p env).modCl p fun c =>
      (c.setX (fA w) (immFn w (c.x (fB w)) (c.x (fA w)))).retire) :=
  calc exec (.immediateOp p env) s
    _ = execImmediateOp p env s := rfl
    _ = _ := State.instr_of_fetches h env _

end

/-- Settles O8: each writes its result into x[rd] of the record that the issue leaves, and the issue leaves the operands. -/
theorem integerOperations : Obligations.IntegerOperations := by
  unfold Obligations.IntegerOperations
  intro s p env w
  constructor
  case left =>
    intro h
    refine State.onlyCl_of_modCl (exec_integerRegOp_of_fetches h env) ?_
    rw [State.issueAt_x, State.issueAt_x]
  case right =>
    intro h
    refine State.onlyCl_of_modCl (exec_immediateOp_of_fetches h env) ?_
    rw [State.issueAt_x, State.issueAt_x]

/-- R64: a register other than g0 takes the value written, and every other register keeps its own. -/
theorem Cluster.x_setX (c : Cluster) {r : Nat} (hr : r ≠ 0) (q : Nat) (v : Word) :
    (c.setX r v).x q = if q = r then v else c.x q := by
  split_ifs with hq
  · rw [hq, Cluster.x_setX_same c hr]
  · rw [Cluster.x_setX_other c (Ne.symm hq)]

/-- Settles O10: `Cluster.x` and `Cluster.setX` leave g0 out, so that an instruction with rd = g0 only retires. -/
theorem registerZeroIsHardwired : Obligations.RegisterZeroIsHardwired := by
  unfold Obligations.RegisterZeroIsHardwired
  intro s p env w v
  refine ⟨fun c r q => ⟨c.x_zero, c.setX_zero v, fun hr => c.x_setX hr q v⟩, fun h hA hclean => ?_⟩
  refine ⟨_, exec_integerRegOp_of_fetches h env, ?_⟩
  rw [State.cl_modCl_same, hA, Cluster.setX_zero, State.cl_issueAt_of_clean s p hclean]
  rfl

/-! ### Division (R81) -/

theorem divS_zero (a : Word) : divS a 0 = 0xFFFF_FFFF_FFFF_FFFF := rfl

theorem divU_zero (a : Word) : divU a 0 = 0xFFFF_FFFF_FFFF_FFFF := rfl

theorem remS_zero (a : Word) : remS a 0 = a := rfl

theorem remU_zero (a : Word) : remU a 0 = a := rfl

theorem divS_min_neg_one : divS 0x8000_0000_0000_0000 (-1) = 0x8000_0000_0000_0000 := by decide

theorem remS_min_neg_one : remS 0x8000_0000_0000_0000 (-1) = 0 := by decide

/-- Settles O11: the four functions are total, with the corners of R81 as their branches. -/
theorem divisionNeverTraps : Obligations.DivisionNeverTraps := by
  unfold Obligations.DivisionNeverTraps
  intro s p env w a d f h _
  refine ⟨_, exec_integerRegOp_of_fetches h env, ?pc, fun hA => ?corners⟩
  case pc => simp
  case corners =>
    have result : (((s.issueAt p env).modCl p fun c =>
        (c.setX (fA w) (intFn (bitsOf w 5 0) (c.x (fB w)) (c.x (fC w)))).retire).cl p).x (fA w) = intFn f a d := by
      simp [Cluster.x_setX_same _ hA, a, d, f]
    rw [result]
    refine ⟨fun hd hf => ?_, fun hd hf => ?_, fun ha hd hf => ?_, fun ha hd hf => ?_⟩
    · rw [hd]
      rcases hf with hf | hf <;> rw [hf]
      · exact divS_zero a
      · exact divU_zero a
    · rw [hd]
      rcases hf with hf | hf <;> rw [hf]
      · exact remS_zero a
      · exact remU_zero a
    · rw [ha, hd, hf]
      exact divS_min_neg_one
    · rw [ha, hd, hf]
      exact remS_min_neg_one

end Sys2Proof.Machine

/-! PROOFS. Traps and the return from them, branches and jumps (R85, R101, R105). -/

namespace Sys2Proof.Machine

/-! ### Traps (R101, R105) -/

/-- Outside the handler, with CW_TVEC not zero, a trap changes the record of its cluster alone. -/
theorem State.trap_of_handler {s : State} {P : Nat} (hm : (s.cl P).hmode = false) (ht : (s.cl P).tvec ≠ 0) (cause tval : Nat) :
    s.trap P cause tval = s.modCl P fun c =>
      { c with wait := .none, epc := c.pc, cause := cause, tval := tval, hmode := true, pc := c.tvec }.mark := by
  simp [State.trap, State.modCl, hm, ht]

section
variable {s : State} {p : Fin 576} {w : Nat}

theorem exec_brk_of_fetches (h : s.Fetches p w .brk) (env : CEnv) :
    exec (.brk p env) s = .next ((s.issueAt p env).trap p Cause.brk 0) :=
  calc exec (.brk p env) s
    _ = execBrk p env s := rfl
    _ = _ := State.instr_of_fetches h env _

theorem exec_eret_of_fetches (h : s.Fetches p w .eret) (env : CEnv) :
    exec (.eret p env) s = .next (if (s.cl p).hmode then (s.issueAt p env).modCl p Cluster.eret
      else (s.issueAt p env).trap p Cause.illegal w) :=
  calc exec (.eret p env) s
    _ = execEret p env s := rfl
    _ = .next (if ((s.issueAt p env).cl p).hmode then (s.issueAt p env).modCl p Cluster.eret
          else (s.issueAt p env).trap p Cause.illegal w) := State.instr_of_fetches h env _
    _ = _ := by rw [State.issueAt_hmode]

end

/-- Settles O19: the trap is `State.trap_of_handler`, in the state that the issue leaves, which has the pc and the control words
of the cluster as they were. -/
theorem trapEntryAndReturn : Obligations.TrapEntryAndReturn := by
  unfold Obligations.TrapEntryAndReturn
  intro s p env w cause tval c i d
  refine ⟨fun hm ht => ?trap, fun h hm ht => ?brk, fun h hm => ?eret, fun h hm => ?illegal⟩
  case trap =>
    rw [State.trap_of_handler hm ht]
    exact ⟨s.onlyCl_setCl p _, s.cl_modCl_same p _⟩
  case brk =>
    have him : (i.cl p).hmode = false := (s.issueAt_hmode p env).trans hm
    have hit : (i.cl p).tvec ≠ 0 := fun h0 => ht ((s.issueAt_tvec p env).symm.trans h0)
    refine State.onlyCl_of_modCl ((exec_brk_of_fetches h env).trans (congrArg _ (State.trap_of_handler him hit _ _))) ?_
    rw [State.issueAt_pc, State.issueAt_tvec]
    rfl
  case eret =>
    refine State.onlyCl_of_modCl ((exec_eret_of_fetches h env).trans (congrArg _ (if_pos hm))) ?_
    rw [Cluster.eret, State.issueAt_epc, State.issueAt_retired]
  case illegal =>
    exact (exec_eret_of_fetches h env).trans (congrArg _ (if_neg (Bool.eq_false_iff.mp hm)))

/-! ### Branches and jumps (R85) -/

theorem State.pc_aligned_of_fetches {s : State} {P w : Nat} {g : Group} (h : s.Fetches P w g) : (s.cl P).pc % 4 = 0 := by
  obtain ⟨-, -, aligned, -⟩ := h
  exact aligned

/-- A word offset from a word address ends on a word. -/
theorem addr64_words_mod_four {pc : Nat} (h : pc % 4 = 0) (k : Int) : addr64 (BitVec.ofNat 64 pc) (4 * k) % 4 = 0 := by
  rw [addr64, BitVec.toNat_add, BitVec.toNat_ofNat, BitVec.toNat_ofInt]
  omega

theorem State.jumpTo_of_aligned {target : Nat} (h : target % 4 = 0) (s : State) (P rd : Nat) :
    s.jumpTo P rd target = s.modCl P fun c => (c.setX rd (BitVec.ofNat 64 (c.pc + 4))).jump target := by
  simp [State.jumpTo, h]

theorem State.jumpTo_of_misaligned {target : Nat} (h : target % 4 ≠ 0) (s : State) (P rd : Nat) :
    s.jumpTo P rd target = s.trap P Cause.fetchFault target := by
  simp [State.jumpTo, h]

section
variable {s : State} {p : Fin 576} {w : Nat}

theorem exec_branch_of_fetches (h : s.Fetches p w .branch) (env : CEnv) :
    exec (.branch p env) s = .next (if branchHolds (fW w) ((s.cl p).x (fA w)) ((s.cl p).x (fB w)) then
        (s.issueAt p env).jumpTo p 0 (addr64 (BitVec.ofNat 64 (s.cl p).pc) (4 * fOff13 w))
      else (s.issueAt p env).modCl p Cluster.retire) := by
  have run : execBranch p env s = .next _ := State.instr_of_fetches h env _
  simp only [State.issueAt_x, State.issueAt_pc] at run
  exact run

theorem exec_jal_of_fetches (h : s.Fetches p w .jal) (env : CEnv) :
    exec (.jal p env) s =
      .next ((s.issueAt p env).jumpTo p (fA w) (addr64 (BitVec.ofNat 64 (s.cl p).pc) (4 * fOff21 w))) := by
  have run : execJal p env s = .next _ := State.instr_of_fetches h env _
  rw [State.issueAt_pc] at run
  exact run

theorem exec_jalr_of_fetches (h : s.Fetches p w .jalr) (env : CEnv) :
    exec (.jalr p env) s = .next ((s.issueAt p env).jumpTo p (fA w) (addr64 ((s.cl p).x (fB w)) (fImm16 w))) := by
  have run : execJalr p env s = .next _ := State.instr_of_fetches h env _
  rw [State.issueAt_x] at run
  exact run

end

/-- Settles O12: the targets of a branch and of jal are words because the pc is one, so that only jalr can trap. -/
theorem branchesAndJumps : Obligations.BranchesAndJumps := by
  unfold Obligations.BranchesAndJumps
  intro s p env w c i d link
  have linked : BitVec.ofNat 64 ((i.cl p).pc + 4) = link := by rw [State.issueAt_pc]
  refine ⟨fun h => ?branch, fun h => ?jal, fun h ha => ?jalr, fun h ha => ?misaligned⟩
  case branch =>
    have word : addr64 (BitVec.ofNat 64 c.pc) (4 * fOff13 w) % 4 = 0 := addr64_words_mod_four (State.pc_aligned_of_fetches h) _
    have run := exec_branch_of_fetches h env
    rw [State.jumpTo_of_aligned word] at run
    split_ifs at run ⊢
    · exact State.onlyCl_of_modCl run (by rw [Cluster.setX_zero])
    · exact State.onlyCl_of_modCl run rfl
  case jal =>
    have word : addr64 (BitVec.ofNat 64 c.pc) (4 * fOff21 w) % 4 = 0 := addr64_words_mod_four (State.pc_aligned_of_fetches h) _
    have run := exec_jal_of_fetches h env
    rw [State.jumpTo_of_aligned word] at run
    exact State.onlyCl_of_modCl run (by rw [linked])
  case jalr =>
    have run := exec_jalr_of_fetches h env
    rw [State.jumpTo_of_aligned ha] at run
    exact State.onlyCl_of_modCl run (by rw [linked])
  case misaligned => rw [exec_jalr_of_fetches h env, State.jumpTo_of_misaligned ha]

end Sys2Proof.Machine

/-! PROOFS. Scalar FP (R86 to R89, R108). -/

namespace Sys2Proof.Machine

/-- No unfinished matrix instruction holds an f register, and none that is read is poisoned: the instruction acts. -/
theorem State.withF_of_free {u : State} {P : Nat} {rd wr : List Nat} (h : (u.cl P).FreeF rd wr) (s t : State) :
    s.withF u P rd wr t = t := by
  obtain ⟨hr, hw, hp⟩ := h
  simp [State.withF, hr, hw, hp]

section
variable {s : State} {p : Fin 576} {w : Nat}

/-- fclass reads one f register and writes an x register. -/
theorem exec_fpArithmetic_of_class (h : s.Fetches p w .fpArithmetic) (env : CEnv) (hf : bitsOf w 5 0 = 0x0D)
    (free : ((s.issueAt p env).cl p).FreeF [fB w] []) :
    exec (.fpArithmetic p env) s = .next ((s.issueAt p env).modCl p fun c =>
      (c.setX (fA w) (BitVec.ofNat 64 ((scalarFmt (bitOf w 10)).classC
        (((s.issueAt p env).cl p).fOf (bitOf w 10) (fB w))))).retire) := by
  have run : execFpArithmetic p env s = .next _ := State.instr_of_fetches h env _
  dsimp only at run
  rw [if_pos hf, State.withF_of_free free] at run
  exact run

/-- A comparison reads two f registers and writes an x register. -/
theorem exec_fpArithmetic_of_compare (h : s.Fetches p w .fpArithmetic) (env : CEnv) (hf : bitsOf w 5 0 ≠ 0x0D)
    (hc : 0x0A ≤ bitsOf w 5 0) (free : ((s.issueAt p env).cl p).FreeF [fB w, fC w] []) :
    let d := (s.issueAt p env).cl p
    let r := fpCmp (bitsOf w 5 0) (scalarFmt (bitOf w 10)) (ftzOf d.fpctrl) (d.fOf (bitOf w 10) (fB w)) (d.fOf (bitOf w 10) (fC w))
    exec (.fpArithmetic p env) s =
      .next ((s.issueAt p env).modCl p fun c => ((c.setX (fA w) (boolWord r.1)).note r.2).retire) := by
  have run : execFpArithmetic p env s = .next _ := State.instr_of_fetches h env _
  dsimp only at run
  rw [if_neg hf, if_pos hc, State.withF_of_free free] at run
  exact run

/-- Every other function of Table 3-11 reads two f registers and writes a third. -/
theorem exec_fpArithmetic_of_arith (h : s.Fetches p w .fpArithmetic) (env : CEnv) (hc : bitsOf w 5 0 < 0x0A)
    (free : ((s.issueAt p env).cl p).FreeF [fB w, fC w] [fA w]) :
    let d := (s.issueAt p env).cl p
    let r := fpFn (bitsOf w 5 0) (scalarFmt (bitOf w 10)) ((s.issueAt p env).rnd p 0) (ftzOf d.fpctrl)
      (d.fOf (bitOf w 10) (fB w)) (d.fOf (bitOf w 10) (fC w))
    exec (.fpArithmetic p env) s =
      .next ((s.issueAt p env).modCl p fun c => ((c.setF (fA w) r.1).note r.2).retire) := by
  have run : execFpArithmetic p env s = .next _ := State.instr_of_fetches h env _
  dsimp only at run
  rw [if_neg (by omega), if_neg (by omega), State.withF_of_free free] at run
  exact run

theorem exec_fusedMultiplyAdd_of_free (h : s.Fetches p w .fusedMultiplyAdd) (env : CEnv)
    (free : ((s.issueAt p env).cl p).FreeF [fB w, fC w, bitsOf w 10 6] [fA w]) :
    let d := (s.issueAt p env).cl p
    let r := (scalarFmt (bitOf w 3)).fmaC (decide (2 ≤ bitsOf w 5 4)) (bitsOf w 5 4 == 1 || bitsOf w 5 4 == 2)
      ((s.issueAt p env).rnd p 0) (ftzOf d.fpctrl) (d.fOf (bitOf w 3) (fB w)) (d.fOf (bitOf w 3) (fC w))
      (d.fOf (bitOf w 3) (bitsOf w 10 6))
    exec (.fusedMultiplyAdd p env) s =
      .next ((s.issueAt p env).modCl p fun c => ((c.setF (fA w) r.1).note r.2).retire) := by
  have run : execFusedMultiplyAdd p env s = .next _ := State.instr_of_fetches h env _
  dsimp only at run
  rw [State.withF_of_free free] at run
  exact run

/-- A conversion or move into an x register reads one f register. -/
theorem exec_conversionMove_to_x (h : s.Fetches p w .conversionMove) (env : CEnv)
    (hf : [0x02, 0x03, 0x06, 0x09].contains (bitsOf w 5 0) = true) (free : ((s.issueAt p env).cl p).FreeF [fB w] []) :
    let d := (s.issueAt p env).cl p
    let r := cvtToX (bitsOf w 5 0) ((s.issueAt p env).rnd p 0) (ftzOf d.fpctrl) (d.f64 (fB w)) (d.f32 (fB w))
    exec (.conversionMove p env) s =
      .next ((s.issueAt p env).modCl p fun c => ((c.setX (fA w) (BitVec.ofNat 64 r.1)).note r.2).retire) := by
  have run : execConversionMove p env s = .next _ := State.instr_of_fetches h env _
  dsimp only at run
  rw [if_pos hf, State.withF_of_free free] at run
  exact run

/-- A conversion or move into an f register reads an f register in its two changes of width alone. -/
theorem exec_conversionMove_to_f (h : s.Fetches p w .conversionMove) (env : CEnv)
    (hf : [0x02, 0x03, 0x06, 0x09].contains (bitsOf w 5 0) = false)
    (free : ((s.issueAt p env).cl p).FreeF (if [0x04, 0x05].contains (bitsOf w 5 0) then [fB w] else []) [fA w]) :
    let d := (s.issueAt p env).cl p
    let r := cvtToF (bitsOf w 5 0) ((s.issueAt p env).rnd p 0) (ftzOf d.fpctrl) (d.x (fB w)).toNat (d.f64 (fB w)) (d.f32 (fB w))
    exec (.conversionMove p env) s =
      .next ((s.issueAt p env).modCl p fun c => ((c.setF (fA w) r.1).note r.2).retire) := by
  have run : execConversionMove p env s = .next _ := State.instr_of_fetches h env _
  dsimp only at run
  rw [if_neg (Bool.eq_false_iff.mp hf), State.withF_of_free free] at run
  exact run

end

/-- Settles O13: with its f registers free, each group acts in the state that the issue leaves and changes one record. -/
theorem fpOperations : Obligations.FpOperations := by
  unfold Obligations.FpOperations
  intro s p env w i d f ftz one a b
  refine ⟨fun h free => ?arithmetic, fun h free => ?fused, fun h free => ?conversion⟩
  case arithmetic =>
    by_cases hclass : f = 0x0D
    · rw [if_pos hclass, if_neg (by omega)] at free
      exact State.onlyCl_of_modCl (exec_fpArithmetic_of_class h env hclass free) (by rw [if_pos hclass])
    · rw [if_neg hclass] at free
      by_cases hcmp : 0x0A ≤ f
      · rw [if_neg (by omega)] at free
        exact State.onlyCl_of_modCl (exec_fpArithmetic_of_compare h env hclass hcmp free)
          (by rw [if_neg hclass, if_pos hcmp])
      · rw [if_pos (by omega)] at free
        exact State.onlyCl_of_modCl (exec_fpArithmetic_of_arith h env (by omega) free)
          (by rw [if_neg hclass, if_neg hcmp])
  case fused => exact State.onlyCl_of_modCl (exec_fusedMultiplyAdd_of_free h env free) rfl
  case conversion =>
    by_cases hx : [0x02, 0x03, 0x06, 0x09].contains f = true
    · have reads : [0x02, 0x03, 0x04, 0x05, 0x06, 0x09].contains f = true := by
        simp at hx ⊢
        omega
      rw [if_pos reads, if_pos hx] at free
      exact State.onlyCl_of_modCl (exec_conversionMove_to_x h env hx free) (by rw [if_pos hx])
    · have reads : [0x02, 0x03, 0x04, 0x05, 0x06, 0x09].contains f = [0x04, 0x05].contains f := by
        rw [Bool.eq_iff_iff]
        simp at hx ⊢
        omega
      rw [reads, if_neg hx] at free
      exact State.onlyCl_of_modCl (exec_conversionMove_to_f h env (Bool.eq_false_iff.mpr hx) free) (by rw [if_neg hx])

end Sys2Proof.Machine

/-! PROOFS. Bit fields of a register, and access to control words (R67 to R69, R100). -/

namespace Sys2Proof.Machine

/-! ### Fields of a number -/

theorem testBit_bitsOf (n hi lo i : Nat) : (bitsOf n hi lo).testBit i = (decide (i < hi + 1 - lo) && n.testBit (lo + i)) := by
  rw [bitsOf, Nat.testBit_mod_two_pow, Nat.testBit_div_two_pow, Nat.add_comm i lo]

/-- Bit by bit, `withBits` takes the field from the new value and the rest from the old one. -/
theorem testBit_withBits {hi lo : Nat} (h : lo ≤ hi + 1) (n v i : Nat) :
    (withBits n hi lo v).testBit i =
      if i < lo then n.testBit i else if i ≤ hi then v.testBit (i - lo) else n.testBit i := by
  have low : n % 2 ^ lo < 2 ^ lo := Nat.mod_lt _ (Nat.two_pow_pos _)
  have field : v % 2 ^ (hi + 1 - lo) < 2 ^ (hi + 1 - lo) := Nat.mod_lt _ (Nat.two_pow_pos _)
  have below : 2 ^ lo * (v % 2 ^ (hi + 1 - lo)) + n % 2 ^ lo < 2 ^ (hi + 1) :=
    calc 2 ^ lo * (v % 2 ^ (hi + 1 - lo)) + n % 2 ^ lo
      _ < 2 ^ lo * (v % 2 ^ (hi + 1 - lo)) + 2 ^ lo := by omega
      _ = 2 ^ lo * (v % 2 ^ (hi + 1 - lo) + 1) := by ring
      _ ≤ 2 ^ lo * 2 ^ (hi + 1 - lo) := Nat.mul_le_mul_left _ field
      _ = 2 ^ (hi + 1) := by rw [← Nat.pow_add, Nat.add_sub_cancel' h]
  have form : withBits n hi lo v = 2 ^ (hi + 1) * (n / 2 ^ (hi + 1)) + (2 ^ lo * (v % 2 ^ (hi + 1 - lo)) + n % 2 ^ lo) := by
    rw [withBits]
    ring
  rw [form, Nat.testBit_two_pow_mul_add _ below, Nat.testBit_two_pow_mul_add _ low, Nat.testBit_mod_two_pow,
    Nat.testBit_mod_two_pow, Nat.testBit_div_two_pow]
  by_cases hlo : i < lo
  · rw [if_pos (show i < hi + 1 by omega), if_pos hlo, if_pos hlo]
    simp [hlo]
  · by_cases hhi : i ≤ hi
    · rw [if_pos (show i < hi + 1 by omega), if_neg hlo, if_neg hlo, if_pos hhi]
      simp [show i - lo < hi + 1 - lo by omega]
    · rw [if_neg (show ¬ i < hi + 1 by omega), if_neg hlo, if_neg hhi, Nat.sub_add_cancel (by omega)]

theorem bitsOf_withBits_same {hi lo : Nat} (h : lo ≤ hi) (n v : Nat) :
    bitsOf (withBits n hi lo v) hi lo = v % 2 ^ (hi + 1 - lo) := by
  refine Nat.eq_of_testBit_eq fun i => ?_
  rw [testBit_bitsOf, testBit_withBits (by omega), Nat.testBit_mod_two_pow, if_neg (by omega), Nat.add_sub_cancel_left]
  by_cases hi' : i < hi + 1 - lo
  · rw [if_pos (by omega)]
  · simp [hi']

theorem bitsOf_withBits_other {hi lo hi' lo' : Nat} (h : lo ≤ hi) (apart : hi' < lo ∨ hi < lo') (n v : Nat) :
    bitsOf (withBits n hi lo v) hi' lo' = bitsOf n hi' lo' := by
  refine Nat.eq_of_testBit_eq fun i => ?_
  rw [testBit_bitsOf, testBit_bitsOf, testBit_withBits (by omega)]
  by_cases field : i < hi' + 1 - lo'
  · rcases apart with below | above
    · rw [if_pos (by omega)]
    · rw [if_neg (by omega), if_neg (by omega)]
  · simp [field]

/-- A bit is a field of one bit. -/
theorem bitOf_eq_bitsOf (n k : Nat) : bitOf n k = (bitsOf n k k == 1) := by
  rw [bitOf, bitsOf, Nat.add_sub_cancel_left, Nat.pow_one]

/-! ### Reads -/

/-- Table 3-1 lists the numbers of the control words. -/
theorem State.cwRead_isSome_iff (s : State) (P n : Nat) : (s.cwRead P n).isSome ↔ n ≤ 0xE ∨ n = 0x20 ∨ n = 0x21 := by
  unfold State.cwRead
  split <;> simp_all
  omega

section
variable {s : State} {p : Fin 576} {w : Nat}

theorem exec_cwRd_of_listed (h : s.Fetches p w .cwRd) (env : CEnv) {v : Nat} (hv : (s.issueAt p env).cwRead p (fCw w) = some v) :
    exec (.cwRd p env) s = .next ((s.issueAt p env).modCl p fun c => (c.setX (fA w) (BitVec.ofNat 64 v)).retire) := by
  have run : execCwRd p env s = .next _ := State.instr_of_fetches h env _
  rw [hv] at run
  exact run

theorem exec_cwRd_of_unlisted (h : s.Fetches p w .cwRd) (env : CEnv) (hv : (s.issueAt p env).cwRead p (fCw w) = none) :
    exec (.cwRd p env) s = .next ((s.issueAt p env).trap p Cause.cwAccess w) := by
  have run : execCwRd p env s = .next _ := State.instr_of_fetches h env _
  rw [hv] at run
  exact run

end

/-! ### Writes -/

/-- Clearing the bits that a mask shares with a word keeps those that the mask leaves out. -/
theorem xor_and_eq_and_not {n : Nat} (hn : n < 2 ^ 64) {x : Nat} (hx : x < 2 ^ 64) :
    Nat.xor n (n &&& x) = n &&& (2 ^ 64 - 1 - x) := by
  refine Nat.eq_of_testBit_eq fun i => ?_
  rw [show 2 ^ 64 - 1 - x = 2 ^ 64 - (x + 1) by omega, Nat.testBit_and, Nat.testBit_two_pow_sub_succ hx]
  change (n ^^^ (n &&& x)).testBit i = _
  rw [Nat.testBit_xor, Nat.testBit_and]
  by_cases hi : i < 64
  · cases n.testBit i <;> simp [hi]
  · rw [Nat.testBit_lt_two_pow (Nat.lt_of_lt_of_le hn (Nat.pow_le_pow_right (by decide) (by omega)))]
    simp

section
variable (k : CwWrite) (old x : Nat)

/-- CW_FPCTRL without its bit 8 after a write: FTZ and RM take the value. -/
theorem fpctrlWrite_eq : fpctrlWrite k old x =
    if k ≠ .clr ∧ bitOf x 8 = true then
      withBits (withBits (withBits old 0 0 (bitsOf (k.value old x) 0 0)) 3 2 (bitsOf (k.value old x) 3 2)) 8 8 0
    else withBits (withBits old 0 0 (bitsOf (k.value old x) 0 0)) 3 2 (bitsOf (k.value old x) 3 2) := by
  simp [fpctrlWrite]

/-- A field that FLUSH_SEEN is no part of reads after the write as before FLUSH_SEEN is cleared. -/
theorem bitsOf_fpctrlWrite {hi lo : Nat} (h : hi < 8 ∨ 8 < lo) : bitsOf (fpctrlWrite k old x) hi lo =
    bitsOf (withBits (withBits old 0 0 (bitsOf (k.value old x) 0 0)) 3 2 (bitsOf (k.value old x) 3 2)) hi lo := by
  rw [fpctrlWrite_eq]
  split_ifs
  · exact bitsOf_withBits_other (by decide) h _ _
  · rfl

theorem fpctrlWrite_ftz : bitsOf (fpctrlWrite k old x) 0 0 = bitsOf (k.value old x) 0 0 := by
  rw [bitsOf_fpctrlWrite _ _ _ (by decide), bitsOf_withBits_other (by decide) (by decide), bitsOf_withBits_same (by decide)]
  exact Nat.mod_mod _ _

theorem fpctrlWrite_rm : bitsOf (fpctrlWrite k old x) 3 2 = bitsOf (k.value old x) 3 2 := by
  rw [bitsOf_fpctrlWrite _ _ _ (by decide), bitsOf_withBits_same (by decide)]
  exact Nat.mod_mod _ _

/-- The fields of CW_FPCTRL apart from FTZ, RM and FLUSH_SEEN ignore a write. -/
theorem fpctrlWrite_other {hi lo : Nat} (h1 : 0 < lo) (h2 : hi < 2 ∨ 3 < lo) (h3 : hi < 8 ∨ 8 < lo) :
    bitsOf (fpctrlWrite k old x) hi lo = bitsOf old hi lo := by
  rw [bitsOf_fpctrlWrite _ _ _ h3, bitsOf_withBits_other (by decide) h2, bitsOf_withBits_other (by decide) (.inr h1)]

/-- FLUSH_SEEN clears where cw.wr or cw.set carries a 1, and keeps its value otherwise. -/
theorem fpctrlWrite_flushSeen : bitOf (fpctrlWrite k old x) 8 = (bitOf old 8 && (k == .clr || !bitOf x 8)) := by
  rw [fpctrlWrite_eq]
  split_ifs with h
  · obtain ⟨hk, hx⟩ := h
    rw [bitOf_eq_bitsOf, bitsOf_withBits_same (by decide)]
    simp [hk, hx]
  · rw [bitOf_eq_bitsOf, bitsOf_withBits_other (by decide) (by decide), bitsOf_withBits_other (by decide) (by decide),
      ← bitOf_eq_bitsOf]
    cases k <;> simp_all

end

section
variable {t : State} {P w : Nat} {k : CwWrite}

/-- A write form that the word takes. -/
theorem State.cwStore_of_some {d : Cluster} (h : (t.cl P).cwWrite k (fCw w) ((t.cl P).x (fB w)).toNat = some d) :
    t.cwStore P k w = t.setCl P d.retire := by
  simp only [State.cwStore, h]

/-- A write form that traps. -/
theorem State.cwStore_of_none (h : (t.cl P).cwWrite k (fCw w) ((t.cl P).x (fB w)).toNat = none) :
    t.cwStore P k w = t.trap P Cause.cwAccess w := by
  simp only [State.cwStore, h]

end

/-- Every word but the four with RW fields is RO as a whole, or unlisted. -/
theorem Cluster.cwWrite_of_readOnly (c : Cluster) (k : CwWrite) {n : Nat} (x : Nat) (h1 : n ≠ 1) (h3 : n ≠ 3) (h4 : n ≠ 4)
    (h7 : n ≠ 7) : c.cwWrite k n x = none := by
  unfold Cluster.cwWrite
  split
  · contradiction
  · contradiction
  · contradiction
  · contradiction
  · rfl

section
variable (c : Cluster) (k : CwWrite) (x : Nat)

theorem Cluster.cwWrite_tvec (h : k.value c.tvec x % 4 = 0) : c.cwWrite k 3 x = some { c with tvec := k.value c.tvec x } := by
  simp [Cluster.cwWrite, h]

theorem Cluster.cwWrite_tvec_unaligned (h : k.value c.tvec x % 4 ≠ 0) : c.cwWrite k 3 x = none := by
  simp [Cluster.cwWrite, h]

theorem Cluster.cwWrite_epc (h : k.value c.epc x % 4 = 0) : c.cwWrite k 4 x = some { c with epc := k.value c.epc x } := by
  simp [Cluster.cwWrite, h]

theorem Cluster.cwWrite_epc_unaligned (h : k.value c.epc x % 4 ≠ 0) : c.cwWrite k 4 x = none := by
  simp [Cluster.cwWrite, h]

theorem Cluster.cwWrite_tscratch : c.cwWrite k 7 x = some { c with tscratch := k.value c.tscratch x } := rfl

theorem Cluster.cwWrite_fpctrl (h : bitsOf (k.value c.fpctrl x) 3 2 ≠ 3) :
    c.cwWrite k 1 x = some { c with fpctrl := fpctrlWrite k c.fpctrl x } := by
  simp [Cluster.cwWrite, fpctrlWrite_rm, h]

theorem Cluster.cwWrite_fpctrl_reserved (h : bitsOf (k.value c.fpctrl x) 3 2 = 3) : c.cwWrite k 1 x = none := by
  simp [Cluster.cwWrite, fpctrlWrite_rm, h]

end

/-- The value that a write form gives a word of 64 bits, as R100 words it: a write, an OR, an AND with the complement. -/
def CwWrite.effect (k : CwWrite) (x old : Nat) : Nat :=
  match k with
  | .wr => x
  | .set => old ||| x
  | .clr => old &&& (2 ^ 64 - 1 - x)

theorem CwWrite.value_eq_effect (k : CwWrite) {old x : Nat} (ho : old < 2 ^ 64) (hx : x < 2 ^ 64) :
    k.value old x = k.effect x old := by
  cases k with
  | wr | set => rfl
  | clr => exact xor_and_eq_and_not ho hx

/-- The command of a write form, and the group of its words. -/
def CwWrite.instr (k : CwWrite) (p : Fin 576) (env : CEnv) : Instr :=
  match k with
  | .wr => .cwWr p env
  | .set => .cwSet p env
  | .clr => .cwClr p env

def CwWrite.group (k : CwWrite) : Group :=
  match k with
  | .wr => .cwWr
  | .set => .cwSet
  | .clr => .cwClr

theorem CwWrite.group_beq_clr (k : CwWrite) : (k.group == .cwClr) = (k == .clr) := by
  cases k <;> rfl

theorem exec_cwWrite_of_fetches {s : State} {p : Fin 576} {w : Nat} {k : CwWrite} (h : s.Fetches p w k.group) (env : CEnv) :
    exec (k.instr p env) s = .next ((s.issueAt p env).cwStore p k w) := by
  cases k with
  | wr =>
    calc exec (.cwWr p env) s
      _ = execCwWr p env s := rfl
      _ = _ := State.instr_of_fetches h env _
  | set =>
    calc exec (.cwSet p env) s
      _ = execCwSet p env s := rfl
      _ = _ := State.instr_of_fetches h env _
  | clr =>
    calc exec (.cwClr p env) s
      _ = execCwClr p env s := rfl
      _ = _ := State.instr_of_fetches h env _

/-- Settles O14: a read goes by the list of Table 3-1, a write form by what `Cluster.cwWrite` makes of its value. -/
theorem controlWordAccess : Obligations.ControlWordAccess := by
  unfold Obligations.ControlWordAccess
  intro s p env w t c n x listed forms
  refine ⟨fun h hl => ?listed, fun h hl => ?unlisted, fun hepc htvec htscratch hfpctrl f hf h => ?write⟩
  case listed =>
    obtain ⟨v, hv⟩ := Option.isSome_iff_exists.mp ((t.cwRead_isSome_iff p n).mpr hl)
    obtain ⟨u, run, only, cl⟩ := State.onlyCl_of_modCl (exec_cwRd_of_listed h env hv) rfl
    exact ⟨u, v, run, only, hv, cl⟩
  case unlisted =>
    have missing : t.cwRead p n = none :=
      Option.not_isSome_iff_eq_none.mp fun found => hl ((t.cwRead_isSome_iff p n).mp found)
    exact exec_cwRd_of_unlisted h env missing
  case write =>
    obtain ⟨k, rfl⟩ : ∃ k : CwWrite, f = (k.instr p env, k.group, k.effect x) := by
      simp only [forms, List.mem_cons, List.not_mem_nil, or_false] at hf
      rcases hf with rfl | rfl | rfl
      · exact ⟨.wr, rfl⟩
      · exact ⟨.set, rfl⟩
      · exact ⟨.clr, rfl⟩
    have hx : x < 2 ^ 64 := BitVec.isLt _
    have run : exec (k.instr p env) s = .next (t.cwStore p k w) := exec_cwWrite_of_fetches h env
    have takes {m : Nat} {d : Cluster} (hm : n = m) (hd : c.cwWrite k m x = some d) :
        exec (k.instr p env) s = .next (t.setCl p d.retire) := by
      subst hm
      rw [run, State.cwStore_of_some hd]
    have traps {m : Nat} (hm : n = m) (hd : c.cwWrite k m x = none) :
        exec (k.instr p env) s = .next (t.trap p Cause.cwAccess w) := by
      subst hm
      rw [run, State.cwStore_of_none hd]
    dsimp only
    rw [CwWrite.group_beq_clr, ← k.value_eq_effect hepc hx, ← k.value_eq_effect htvec hx, ← k.value_eq_effect htscratch hx,
      ← k.value_eq_effect hfpctrl hx]
    refine ⟨fun hn ha => takes hn (c.cwWrite_tvec k x ha), fun hn ha => traps hn (c.cwWrite_tvec_unaligned k x ha),
      fun hn ha => takes hn (c.cwWrite_epc k x ha), fun hn ha => traps hn (c.cwWrite_epc_unaligned k x ha),
      fun hn => takes hn (c.cwWrite_tscratch k x), fun hn hr => ?fpctrl,
      fun hn hr => traps hn (c.cwWrite_fpctrl_reserved k x hr),
      fun h1 h3 h4 h7 => traps rfl (c.cwWrite_of_readOnly k x h1 h3 h4 h7)⟩
    case fpctrl =>
      refine ⟨_, takes hn (c.cwWrite_fpctrl k x hr), t.onlyCl_setCl p _, ?_⟩
      rw [State.cl_setCl_same]
      refine ⟨rfl, fpctrlWrite_ftz k _ x, fpctrlWrite_rm k _ x, fpctrlWrite_flushSeen k _ x, ?_,
        fpctrlWrite_other k _ x (by decide) (by decide) (by decide),
        fpctrlWrite_other k _ x (by decide) (by decide) (by decide)⟩
      rw [bitOf_eq_bitsOf, bitOf_eq_bitsOf]
      exact congrArg (· == 1) (fpctrlWrite_other k _ x (by decide) (by decide) (by decide))

end Sys2Proof.Machine

/-! PROOFS. What leaves the bytes of memory alone: the issue of an instruction, and what an access finds on its way (R51, R83,
R285, R448, R454). -/

namespace Sys2Proof.Machine

/-! ### The relation -/

theorem State.SameBytes.refl (s : State) : s.SameBytes s := fun _ => rfl

theorem State.SameBytes.trans {s t u : State} (h : s.SameBytes t) (k : t.SameBytes u) : s.SameBytes u :=
  fun a => (k a).trans (h a)

/-- An update of other fields keeps every byte. -/
theorem State.SameBytes.upd {s t u : State} (hm : u.mem = t.mem) (hf : u.fills = t.fills) (h : s.SameBytes t) :
    s.SameBytes u := fun a => by
  rw [← h a, State.byteAt, State.byteAt, hm, hf]

theorem State.sameBytes_foldl {α : Type} {f : State → α → State} (h : ∀ t x, State.SameBytes t (f t x)) (l : List α)
    (s : State) : s.SameBytes (l.foldl f s) := by
  induction l generalizing s with
  | nil => exact .refl s
  | cons x l ih => exact (h s x).trans (ih _)

/-! ### Registers, clusters, barges and error records -/

namespace State.SameBytes

section
variable {s t : State} (h : s.SameBytes t)
include h

theorem setFld {a : Nat} {f : Fld} {v : Nat} : s.SameBytes (t.setFld a f v) := h.upd rfl rfl

theorem setFlds {a : Nat} {l : List (Fld × Nat)} : s.SameBytes (t.setFlds a l) := h.upd rfl rfl

theorem satAdd {a : Nat} {f : Fld} {k : Nat} : s.SameBytes (t.satAdd a f k) := h.upd rfl rfl

theorem countSat {a k : Nat} : s.SameBytes (t.countSat a k) := h.upd rfl rfl

theorem setCl {P : Nat} {c : Cluster} : s.SameBytes (t.setCl P c) := h.upd rfl rfl

theorem setBarge {b : Barge} : s.SameBytes (t.setBarge b) := h.upd rfl rfl

theorem addNote {k q note : Nat} : s.SameBytes (t.addNote k q note) := by
  unfold State.addNote
  split
  · exact h.setBarge
  · exact h

theorem setPoison {pa : Nat} : s.SameBytes (t.setPoison pa) := h.upd (t.touch_mem pa) (t.touch_fills pa)

theorem noteFault {unit kind place : Nat} : s.SameBytes (t.noteFault unit kind place) := h.upd rfl rfl

theorem syndrome : s.SameBytes t.syndrome.2 := h.upd rfl rfl

theorem memDetail {pa : Nat} : s.SameBytes (t.memDetail pa).2 := h.upd rfl rfl

theorem errRecord {unit kind level action : Nat} {part : Option Nat} {logEntry addr detail time : Nat} :
    s.SameBytes (t.errRecord unit kind level action part logEntry addr detail time) := h.upd rfl rfl

theorem recordCorrected {unit : Nat} {part : Option Nat} {addr : Nat} {detail : State → Nat × State}
    (hd : ∀ u, State.SameBytes u (detail u).2) : s.SameBytes (t.recordCorrected unit part addr detail) := by
  unfold State.recordCorrected
  split
  · exact (h.noteFault.trans (hd _)).errRecord
  · exact h

/-! ### Errors that a read meets (R284, R285) -/

theorem meetEcc {e : Ecc} {pa : Nat} : s.SameBytes (t.meetEcc e pa) := by
  unfold State.meetEcc
  cases e with
  | clean | cache => exact h
  | corrected =>
    refine recordCorrected ?_ fun u => (refl u).memDetail
    split
    · exact h.noteFault
    · exact h.noteFault.satAdd
  | uncorrectable =>
    refine errRecord (setPoison (memDetail (pa := pa) ?_))
    split
    · exact h.noteFault
    · exact h.noteFault.satAdd.setFld
  | buffer bad =>
    dsimp only
    split_ifs
    · exact h
    · exact h.noteFault.syndrome.setPoison.errRecord
    · exact h.noteFault.recordCorrected fun u => (refl u).syndrome

theorem mergeRead {e : Ecc} {pa n : Nat} : s.SameBytes (t.mergeRead e pa n) := by
  unfold State.mergeRead
  split
  · exact h
  · exact h.meetEcc

/-! ### The issue of an instruction -/

theorem firstIssue {d : Nat} : s.SameBytes (t.firstIssue d) := by
  unfold State.firstIssue State.follow State.placeVcore
  dsimp only
  split
  · split
    · exact h.setFld
    · exact h.setFld.setFld.setFld
  · exact h

theorem regEcc {P : Nat} {e : Nat × Ecc} : s.SameBytes (t.regEcc P e) := by
  unfold State.regEcc
  dsimp only
  split
  · exact h.noteFault.recordCorrected fun u => (refl u).syndrome
  · exact h.noteFault.syndrome.setCl.errRecord
  · exact h

theorem cacheEcc {P : Nat} {e : Ecc} : s.SameBytes (t.cacheEcc P e) := by
  unfold State.cacheEcc
  split
  · exact h.noteFault.recordCorrected fun u => (refl u).syndrome
  · exact h

theorem issueAt {P : Nat} {env : CEnv} : s.SameBytes (t.issueAt P env) := h.firstIssue.setCl.regEcc.cacheEcc

/-! ### An access on its way -/

theorem stall {l : List (Nat × Nat)} : s.SameBytes (t.stall l) := by
  unfold State.stall
  split
  · exact h.upd rfl rfl
  · exact h

theorem choice {part : Nat} {who : Option (List (Nat × Nat))} : s.SameBytes (t.choice part who) := by
  cases who with
  | none => exact (h.countSat (a := Reg.choiceCount part) (k := 1)).upd rfl rfl
  | some l => exact h.countSat.trans (State.sameBytes_foldl (fun u _ => (refl u).addNote) l _)

theorem grant {me : Requester} {ts : List Touch} {g : Grant} : s.SameBytes (t.grant me ts g) := by
  unfold State.grant
  split
  · exact h
  · dsimp only
    split
    · exact h
    · exact h.choice

theorem contest {me : Requester} {ts : List Touch} {x : Contest} : s.SameBytes (t.contest me ts x) :=
  h.stall.trans (State.sameBytes_foldl (fun u _ => (refl u).grant) _ _)

theorem rouse {pas : List Nat} : s.SameBytes (t.rouse pas) := by
  unfold State.rouse
  dsimp only
  split
  · exact h.stall
  · exact h.stall.trans (State.sameBytes_foldl (fun u _ => (refl u).setFlds) _ _)

theorem yieldG {p guar cause site winner : Nat} {sel : Barge → Bool} :
    s.SameBytes (t.yieldG p guar cause site winner sel) := by
  unfold State.yieldG
  dsimp only
  split
  · exact h.upd rfl rfl
  · refine h.upd ?_ ?_
    · dsimp only
      rw [State.setFlds_mem, State.count_mem]
    · dsimp only
      rw [State.setFlds_fills, State.count_fills]

theorem slowStacks {b : Barge} {pas : List Nat} : s.SameBytes (t.slowStacks b pas) := by
  unfold State.slowStacks
  split
  · exact h
  · split
    · exact h
    · exact h.trans (State.sameBytes_foldl (fun u _ => (refl u).yieldG) _ _)

theorem usePas {who : Option (Nat × Nat)} {pas : List Nat} : s.SameBytes (t.usePas who pas) := by
  unfold State.usePas
  split
  · exact h
  · exact h.setBarge.slowStacks

theorem access {P : Nat} {env : CEnv} {ts : List Touch} : s.SameBytes (t.access P env ts) := by
  have arrived : s.SameBytes (((t.contested P ts env.contest).rouse (ts.map (·.pa))).usePas (t.cl P).barge (ts.map (·.pa))) :=
    h.contest.rouse.usePas
  unfold State.access
  dsimp only
  split
  · split
    · exact arrived.addNote
    · exact arrived
  · exact arrived

/-! ### A store -/

theorem markStale {P pa n : Nat} : s.SameBytes (t.markStale P pa n) := by
  unfold State.markStale
  split
  · exact h.setCl
  · exact h

/-- A store changes the bytes of its range alone. -/
theorem store {pa n : Nat} {bs : List Byte} (hn : bs.length = n) : s.SameBytesBut (t.store pa bs) pa n := fun a outside => by
  subst hn
  rw [t.byteAt_store_outside pa bs outside, h a]

end

end State.SameBytes

end Sys2Proof.Machine

/-! PROOFS. Loads, stores, atomics and flag operations (R83, R84, R90 to R94, R485). -/

namespace Sys2Proof.Machine

/-! ### One access that arrives -/

section
variable {t u : State} {P : Nat} {env : CEnv} {n la pa : Nat}

/-- A load whose address translates, which no mout holds back and which meets no poison goes on with the number at the
address; `u` is what the read left. -/
theorem State.loadVia_of_arrives (translates : t.clTranslate P false n la = .ok pa)
    (free : (t.cl P).memBusyR (ownRange P pa n) = false) (arrives : t.reaches P env pa = true)
    (read : (t.access P env [⟨pa, n, false⟩]).meetEcc env.ecc pa = u) (clean : u.poisonedAt pa = false) (s : State)
    (k : Nat → State → State) : s.loadVia t P env n la k = k (u.numAt pa n) u := by
  simp [State.loadVia, translates, free, arrives, read, clean]

theorem State.storeAt_of_arrives (arrives : t.reaches P env pa = true) (la : Nat) (bs : List Byte) (k : State → State) :
    t.storeAt P env la pa bs k = k ((t.markStale P pa bs.length).store pa bs) := by
  simp [State.storeAt, arrives]

/-- A store whose address translates and which no matrix instruction holds back puts its bytes at the address; `u` is what the
read of its read-merge-write left. -/
theorem State.storeVia_of_arrives (translates : t.clTranslate P true n la = .ok pa)
    (free : (t.cl P).memBusyW (ownRange P pa n) = false)
    (merged : (t.access P env [⟨pa, n, true⟩]).mergeRead env.ecc pa n = u) (arrives : u.reaches P env pa = true) (s : State)
    (v : Nat) (k : State → State) : s.storeVia t P env n la v k = k ((u.markStale P pa n).store pa (bytesLE n v)) := by
  simp [State.storeVia, translates, free, merged, State.storeAt_of_arrives arrives]

/-- What a read-modify-write of cluster `P` leaves of the word at `pa`, for the new value or none. -/
def State.putWord (u : State) (P pa : Nat) (x : Option Word) : State :=
  x.elim u fun v => (u.markStale P pa 8).store pa (bytesLE 8 v.toNat)

/-- A read-modify-write that arrives takes the old word, writes what `upd` makes of it, and goes on with the old word; `u` is
what the read left. -/
theorem State.atomicVia_of_arrives (translates : t.clTranslate P true 8 la = .ok pa)
    (free : (t.cl P).memBusyW (ownRange P pa 8) = false) (arrives : t.reaches P env pa = true)
    (read : (t.access P env [⟨pa, 8, true⟩]).meetEcc env.ecc pa = u) (stays : u.reaches P env pa = true)
    (clean : u.poisonedAt pa = false) (s : State) (upd : Word → Option Word) (k : Word → State → State) :
    s.atomicVia t P env la upd k =
      k (BitVec.ofNat 64 (u.numAt pa 8)) (u.putWord P pa (upd (BitVec.ofNat 64 (u.numAt pa 8)))) := by
  cases hv : upd (BitVec.ofNat 64 (u.numAt pa 8)) with
  | none => simp [State.atomicVia, translates, free, arrives, read, clean, hv, State.putWord]
  | some v =>
    simp [State.atomicVia, translates, free, arrives, read, clean, hv, State.putWord, State.storeAt_of_arrives stays]

end

/-! ### Loads and stores (R83) -/

section
variable {s : State} {p : Fin 576} {w : Nat}

theorem exec_integerLoad_of_fetches (h : s.Fetches p w .integerLoad) (env : CEnv) :
    exec (.integerLoad p env) s = .next (s.loadVia (s.issueAt p env) p env (mWidth w) (((s.issueAt p env).cl p).mAddr w)
      fun v u => u.modCl p fun c => (c.setX (fA w) (loadExt (fW w) v)).retire) :=
  calc exec (.integerLoad p env) s
    _ = execIntegerLoad p env s := rfl
    _ = _ := State.instr_of_fetches h env _

theorem exec_integerStore_of_fetches (h : s.Fetches p w .integerStore) (env : CEnv) :
    exec (.integerStore p env) s = .next (s.storeVia (s.issueAt p env) p env (mWidth w) (((s.issueAt p env).cl p).mAddr w)
      (((s.issueAt p env).cl p).x (fA w)).toNat fun u => u.modCl p Cluster.retire) :=
  calc exec (.integerStore p env) s
    _ = execIntegerStore p env s := rfl
    _ = _ := State.instr_of_fetches h env _

theorem exec_fpLoad_of_free (h : s.Fetches p w .fpLoad) (env : CEnv) (free : ((s.issueAt p env).cl p).FreeF [] [fA w]) :
    exec (.fpLoad p env) s = .next (s.loadVia (s.issueAt p env) p env (mWidth w) (((s.issueAt p env).cl p).mAddr w)
      fun v u => u.modCl p fun c => (c.setF (fA w) v).retire) :=
  calc exec (.fpLoad p env) s
    _ = execFpLoad p env s := rfl
    _ = _ := State.instr_of_fetches h env _
    _ = _ := by rw [State.withF_of_free free]

theorem exec_fpStore_of_free (h : s.Fetches p w .fpStore) (env : CEnv) (free : ((s.issueAt p env).cl p).FreeF [fA w] []) :
    exec (.fpStore p env) s = .next (s.storeVia (s.issueAt p env) p env (mWidth w) (((s.issueAt p env).cl p).mAddr w)
      (((s.issueAt p env).cl p).f64 (fA w)) fun u => u.modCl p Cluster.retire) :=
  calc exec (.fpStore p env) s
    _ = execFpStore p env s := rfl
    _ = _ := State.instr_of_fetches h env _
    _ = _ := by rw [State.withF_of_free free]

end

/-- Settles O15: an access that arrives is `State.loadVia_of_arrives` or `State.storeVia_of_arrives`, and what comes before it
leaves every byte alone. -/
theorem loadsAndStores : Obligations.LoadsAndStores := by
  unfold Obligations.LoadsAndStores
  intro s p env w pa t c la n u a v
  have issued : s.SameBytes t := (State.SameBytes.refl s).issueAt
  refine ⟨fun h translates free arrives clean => ⟨?load, issued.access.meetEcc⟩,
    fun h reg translates free arrives clean => ?fpLoad, fun h translates free arrives => ⟨?store, ?bytes⟩,
    fun h reg translates free arrives => ?fpStore⟩
  case load => rw [exec_integerLoad_of_fetches h, State.loadVia_of_arrives translates free arrives rfl clean]
  case fpLoad => rw [exec_fpLoad_of_free h env reg, State.loadVia_of_arrives translates free arrives rfl clean]
  case store => rw [exec_integerStore_of_fetches h, State.storeVia_of_arrives translates free rfl arrives]
  case bytes => exact issued.access.mergeRead.markStale.store (length_bytesLE _ _)
  case fpStore => rw [exec_fpStore_of_free h env reg, State.storeVia_of_arrives translates free rfl arrives]

/-! ### Atomics, flagged stores and flagged adds (R84, R90, R91, R485) -/

section
variable {s : State} {p : Fin 576} {w : Nat}

/-- An atomic that makes no claim in deal order. -/
theorem exec_atomic_of_unclaimed (h : s.Fetches p w .atomic) (env : CEnv) {t : State} (ht : s.issueAt p env = t)
    (hc : bitsOf w 2 0 = 0 → t.dealClaim p ((t.cl p).x (fB w)).toNat = none) :
    exec (.atomic p env) s = .next (s.atomicVia t p env ((t.cl p).x (fB w)).toNat
      (fun old => atomicFn (bitsOf w 2 0) old ((t.cl p).x (fC w)) ((t.cl p).x (fA w))) fun old u =>
        u.modCl p fun d => (d.setX (fA w) old).retire) := by
  subst ht
  have claim : (if bitsOf w 2 0 = 0 then (s.issueAt p env).dealClaim p (((s.issueAt p env).cl p).x (fB w)).toNat
      else none) = none := by
    split
    · exact hc ‹_›
    · rfl
  have run : execAtomic p env s = .next _ := State.instr_of_fetches h env _
  dsimp only at run
  rw [claim] at run
  exact run

/-- An amoadd to a claim word in its turn acts, and is counted as a claim of its run. -/
theorem exec_atomic_of_turn (h : s.Fetches p w .atomic) (env : CEnv) {t : State} (ht : s.issueAt p env = t) {r : RunWork}
    {word : Nat} (hf : bitsOf w 2 0 = 0) (hc : t.dealClaim p ((t.cl p).x (fB w)).toNat = some (r, word))
    (turn : t.claimTurn r word p = true) :
    exec (.atomic p env) s = .next (s.atomicVia t p env ((t.cl p).x (fB w)).toNat
      (fun old => atomicFn (bitsOf w 2 0) old ((t.cl p).x (fC w)) ((t.cl p).x (fA w))) fun old u =>
        (u.claimed p word).modCl p fun d => (d.setX (fA w) old).retire) := by
  subst ht
  have run : execAtomic p env s = .next _ := State.instr_of_fetches h env _
  dsimp only at run
  rw [if_pos hf, hc] at run
  simp only [turn, Bool.not_true, Bool.false_eq_true, if_false] at run
  exact run

/-- Out of its turn it waits: the state stays as it is. -/
theorem exec_atomic_out_of_turn (h : s.Fetches p w .atomic) (env : CEnv) {t : State} (ht : s.issueAt p env = t) {r : RunWork}
    {word : Nat} (hf : bitsOf w 2 0 = 0) (hc : t.dealClaim p ((t.cl p).x (fB w)).toNat = some (r, word))
    (turn : t.claimTurn r word p = false) : exec (.atomic p env) s = .next s := by
  subst ht
  have run : execAtomic p env s = .next _ := State.instr_of_fetches h env _
  dsimp only at run
  rw [if_pos hf, hc] at run
  simp only [turn, Bool.not_false, if_true] at run
  exact run

theorem exec_stFlag_of_fetches (h : s.Fetches p w .stFlag) (env : CEnv) {t : State} (ht : s.issueAt p env = t)
    (hm : (t.cl p).moutOpen = false) :
    exec (.stFlag p env) s = .next (s.storeVia t p env 8 ((t.cl p).x (fB w)).toNat ((t.cl p).x (fC w)).toNat fun u =>
      u.modCl p Cluster.retire) := by
  subst ht
  have run : execStFlag p env s = .next _ := State.instr_of_fetches h env _
  dsimp only at run
  rw [if_neg (Bool.eq_false_iff.mp hm)] at run
  exact run

theorem exec_stFlagAdd_of_fetches (h : s.Fetches p w .stFlagAdd) (env : CEnv) {t : State} (ht : s.issueAt p env = t)
    (hm : (t.cl p).moutOpen = false) :
    exec (.stFlagAdd p env) s = .next (s.atomicVia t p env ((t.cl p).x (fB w)).toNat
      (fun old => some (old + (t.cl p).x (fC w))) fun old u => u.modCl p fun d => (d.setX (fA w) old).retire) := by
  subst ht
  have run : execStFlagAdd p env s = .next _ := State.instr_of_fetches h env _
  dsimp only at run
  rw [if_neg (Bool.eq_false_iff.mp hm)] at run
  exact run

end

/-- Settles O16: an access that arrives is one read-modify-write or one store of the word (`State.atomicVia_of_arrives`,
`State.storeVia_of_arrives`); a claim in deal order acts or waits by its turn. -/
theorem atomicsAndFlags : Obligations.AtomicsAndFlags := by
  unfold Obligations.AtomicsAndFlags
  intro s p env w pa word r t c la a m u old put op end_ checked
  have written : op = u.putWord p pa (atomicFn (bitsOf w 2 0) old (c.x (fC w)) (c.x (fA w))) := by
    unfold op State.putWord
    cases atomicFn (bitsOf w 2 0) old (c.x (fC w)) (c.x (fA w)) <;> rfl
  refine ⟨fun h hc ok => ?unclaimed, fun h hf hc turn ok => ?turn, fun h hf hc turn => ?wait,
    fun h hm translates free arrives => ?store, fun h hm ok => ?add⟩
  case unclaimed =>
    obtain ⟨translates, free, arrives, stays, clean⟩ := ok
    rw [exec_atomic_of_unclaimed h env rfl hc, State.atomicVia_of_arrives translates free arrives rfl stays clean, written]
  case turn =>
    obtain ⟨translates, free, arrives, stays, clean⟩ := ok
    rw [exec_atomic_of_turn h env rfl hf hc turn, State.atomicVia_of_arrives translates free arrives rfl stays clean, written]
  case wait => exact exec_atomic_out_of_turn h env rfl hf hc turn
  case store => rw [exec_stFlag_of_fetches h env rfl hm, State.storeVia_of_arrives translates free rfl arrives]
  case add =>
    obtain ⟨translates, free, arrives, stays, clean⟩ := ok
    rw [exec_stFlagAdd_of_fetches h env rfl hm, State.atomicVia_of_arrives translates free arrives rfl stays clean]
    rfl

/-! ### wait.flag (R92, R93) -/

section
variable {s : State} {p : Fin 576} {w : Nat}

theorem exec_waitFlag_of_holds (h : s.Fetches p w .waitFlag) (env : CEnv) {i u : State} (hi : s.issueAt p env = i) {pa : Nat}
    (translates : i.clTranslate p false 8 ((i.cl p).x (fB w)).toNat = .ok pa)
    (free : (i.cl p).memBusyR (ownRange p pa 8) = false) (arrives : i.reaches p env pa = true)
    (read : (i.access p env [⟨pa, 8, false⟩]).meetEcc env.ecc pa = u) (clean : u.poisonedAt pa = false)
    (holds : condHolds (bitsOf w 7 5) (BitVec.ofNat 64 (u.numAt pa 8)) ((i.cl p).x (fC w)) = true) :
    exec (.waitFlag p env) s = .next (u.modCl p fun d => (d.setX (fA w) (BitVec.ofNat 64 (u.numAt pa 8))).retire) := by
  subst hi
  have run : execWaitFlag p env s = .next _ := State.instr_of_fetches h env _
  dsimp only at run
  rw [State.loadVia_of_arrives translates free arrives read clean, if_pos holds] at run
  exact run

end

/-- A later read that finds the condition ends the wait with the value read. -/
theorem State.reread_of_holds {s t u : State} {P : Nat} {env : CEnv} {f : FlagWait} (ht : s.tick P env.hc = t)
    (arrives : t.reaches P env f.pa = true) (read : (t.access P env [⟨f.pa, 8, false⟩]).meetEcc env.ecc f.pa = u)
    (clean : u.poisonedAt f.pa = false) (holds : condHolds f.cond (BitVec.ofNat 64 (u.numAt f.pa 8)) f.ref = true)
    (again : Word → State → State) :
    s.reread P env f again = u.endWait P f (BitVec.ofNat 64 (u.numAt f.pa 8)) := by
  simp [State.reread, ht, arrives, read, clean, holds]

/-- A cluster of a run that no trap has stopped goes on beyond its instruction boundary. -/
theorem State.atBoundary_of_not_runFaulted {s : State} {P : Nat} (h : s.runFaulted P = false) (t : State) :
    s.atBoundary t P = t := by
  simp [State.atBoundary, h]

theorem Cluster.waitsNow_of_running {c : Cluster} (h : c.act = .running) : c.waitsNow = c.wait := by
  simp [Cluster.waitsNow, h]

theorem Cluster.waitsNow_of_not_running {c : Cluster} (h : c.act ≠ .running) : c.waitsNow = .none := by
  simp [Cluster.waitsNow, h]

/-- Settles O17: the first read is a load, a later one is `State.reread_of_holds`; a cluster that does not run waits for
nothing. -/
theorem flagWaits : Obligations.FlagWaits := by
  unfold Obligations.FlagWaits
  intro s p env w pa f i d u v t c r x waits reads
  refine ⟨fun h translates free arrives clean holds => ?firstRead, fun hw watched hr holds => ?watched,
    fun hw watched hr holds => ?polled, fun hw due => ?limit, fun act sound => ?idle⟩
  case firstRead => exact exec_waitFlag_of_holds h env rfl translates free arrives rfl clean holds
  case watched =>
    obtain ⟨sound, act, wait, going⟩ := hw
    obtain ⟨arrives, clean⟩ := hr
    change execWaitFlagComplete p env s = _
    rw [execWaitFlagComplete, State.goDie_of_sound sound, Cluster.waitsNow_of_running act, wait]
    dsimp only
    rw [if_pos watched, State.reread_of_holds rfl arrives rfl clean holds, State.atBoundary_of_not_runFaulted going]
  case polled =>
    obtain ⟨sound, act, wait, going⟩ := hw
    obtain ⟨arrives, clean⟩ := hr
    change execWaitFlagPoll p env s = _
    rw [execWaitFlagPoll, State.goDie_of_sound sound, Cluster.waitsNow_of_running act, wait]
    dsimp only
    rw [if_neg (Bool.eq_false_iff.mp watched), State.reread_of_holds rfl arrives rfl clean holds,
      State.atBoundary_of_not_runFaulted going]
  case limit =>
    obtain ⟨sound, act, wait, going⟩ := hw
    change execWaitFlagTimeout p env s = _
    rw [execWaitFlagTimeout, State.goDie_of_sound sound, Cluster.waitsNow_of_running act, wait]
    dsimp only
    rw [if_pos due, State.atBoundary_of_not_runFaulted going]
  case idle =>
    have nothing : c.waitsNow = .none := Cluster.waitsNow_of_not_running act
    refine ⟨?_, ?_, ?_⟩
    · change execWaitFlagComplete p env s = _
      rw [execWaitFlagComplete, State.goDie_of_sound sound, nothing]
    · change execWaitFlagPoll p env s = _
      rw [execWaitFlagPoll, State.goDie_of_sound sound, nothing]
    · change execWaitFlagTimeout p env s = _
      rw [execWaitFlagTimeout, State.goDie_of_sound sound, nothing]

end Sys2Proof.Machine

/-! PROOFS. Fences and halt (R98, R99, R101, R102). -/

namespace Sys2Proof.Machine

/-- A halt without a deferred fault ends the cargo. -/
theorem State.endHalt_of_undeferred {s : State} {P : Nat} (h : (s.cl P).deferred = false) (exit : Nat) :
    s.endHalt P exit = s.endCargo P exit := by
  simp [State.endHalt, h]

section
variable {s : State} {p : Fin 576} {w : Nat}

theorem exec_fenceInstruction_of_fetches (h : s.Fetches p w .fence) (env : CEnv) :
    exec (.fenceInstruction p env) s = .next ((s.issueAt p env).modCl p fun c =>
      if c.mat.isEmpty then c.retire else { c with wait := .fence }) :=
  calc exec (.fenceInstruction p env) s
    _ = execFenceInstruction p env s := rfl
    _ = _ := State.instr_of_fetches h env _

theorem exec_fenceR_of_undeferred (h : s.Fetches p w .fenceR) (env : CEnv) (hd : (s.cl p).deferred = false) :
    exec (.fenceR p env) s = .next ((s.issueAt p env).modCl p fun c =>
      if c.remoteOut = 0 then c.retire else { c with wait := .fenceR }) :=
  calc exec (.fenceR p env) s
    _ = execFenceR p env s := rfl
    _ = _ := State.instr_of_fetches h env _
    _ = _ := by rw [State.issueAt_deferred, if_neg (Bool.eq_false_iff.mp hd)]

theorem exec_fenceNm_of_fetches (h : s.Fetches p w .fenceNm) (env : CEnv) :
    exec (.fenceNm p env) s = .next ((s.issueAt p env).modCl p fun c =>
      if c.nmOut = 0 then c.retire else { c with wait := .fenceNm }) :=
  calc exec (.fenceNm p env) s
    _ = execFenceNm p env s := rfl
    _ = _ := State.instr_of_fetches h env _

theorem exec_fenceI_of_closed (h : s.Fetches p w .fenceI) (env : CEnv) (hm : (s.cl p).moutOpen = false) :
    exec (.fenceI p env) s = .next ((s.issueAt p env).modCl p fun c => { c with stale := [] }.retire) :=
  calc exec (.fenceI p env) s
    _ = execFenceI p env s := rfl
    _ = _ := State.instr_of_fetches h env _
    _ = _ := by rw [State.issueAt_moutOpen, if_neg (Bool.eq_false_iff.mp hm)]

theorem exec_halt_of_drained (h : s.Fetches p w .halt) (env : CEnv) (hd : (s.cl p).deferred = false)
    (drained : (s.cl p).drained = true) :
    exec (.halt p env) s =
      .next ((s.issueAt p env).endCargo p ((((s.issueAt p env).cl p).x (fA w)).toNat % 2 ^ 32)) := by
  have run : execHalt p env s = .next _ := State.instr_of_fetches h env _
  dsimp only at run
  rw [State.issueAt_deferred, if_neg (Bool.eq_false_iff.mp hd), State.issueAt_drained, if_pos drained,
    State.endHalt_of_undeferred ((s.issueAt_deferred p env).trans hd)] at run
  exact run

/-- The end of a fence's wait retires the fence, where its condition holds and no deferred fault waits to be delivered. -/
theorem exec_fenceWaitEnd_of_over (sound : s.Sound) (act : (s.cl p).act = .running) (going : s.runFaulted p = false)
    (ended : (s.cl p).wait = .fence ∧ (s.cl p).mat = [] ∨
      (s.cl p).wait = .fenceR ∧ (s.cl p).remoteOut = 0 ∧ (s.cl p).deferred = false ∨
      (s.cl p).wait = .fenceNm ∧ (s.cl p).nmOut = 0) (env : CEnv) :
    exec (.fenceWaitEnd p env) s = .next ((s.tick p env.hc).modCl p fun d => { d with wait := .none }.retire) := by
  change execFenceWaitEnd p env s = _
  rw [execFenceWaitEnd, State.goDie_of_sound sound]
  dsimp only
  rw [State.atBoundary_of_not_runFaulted going, Cluster.waitsNow_of_running act]
  rcases ended with ⟨wait, mat⟩ | ⟨wait, out, undeferred⟩ | ⟨wait, out⟩
  · simp [wait, mat]
  · simp [wait, out, undeferred]
  · simp [wait, out]

/-- The wait of a halt ends the cargo once the cluster is drained. -/
theorem exec_haltWaitEnd_of_drained (sound : s.Sound) (act : (s.cl p).act = .running) (going : s.runFaulted p = false)
    {exit : BitVec 32} (wait : (s.cl p).wait = .halt exit) (hd : (s.cl p).deferred = false)
    (drained : (s.cl p).drained = true) (env : CEnv) :
    exec (.haltWaitEnd p env) s =
      .next (((s.tick p env.hc).modCl p fun e => { e with wait := .none }).endCargo p exit.toNat) := by
  have undeferred : (((s.tick p env.hc).modCl p fun e => { e with wait := .none }).cl p).deferred = false := by
    rw [State.cl_modCl_same, State.cl_tick_same]
    exact hd
  change execHaltWaitEnd p env s = _
  rw [execHaltWaitEnd, State.goDie_of_sound sound]
  dsimp only
  rw [Cluster.waitsNow_of_running act, wait]
  dsimp only
  rw [if_pos drained, State.atBoundary_of_not_runFaulted going, State.endHalt_of_undeferred undeferred]

end

/-- Settles O18: each fence finds its condition in the record that the issue leaves as it was, and its wait ends by
`exec_fenceWaitEnd_of_over`; a drained cluster's halt is `State.endCargo`. -/
theorem fencesAndHalt : Obligations.FencesAndHalt := by
  unfold Obligations.FencesAndHalt
  intro s p env w exit c i d after runs
  refine ⟨fun h mat => ?fence, fun h hd out => ?fenceR, fun h out => ?fenceNm, fun h hm => exec_fenceI_of_closed h env hm,
    fun hr ended => ?waitEnd, fun h hd drained => exec_halt_of_drained h env hd drained, fun hr wait hd drained => ?haltEnd⟩
  case fence =>
    have free : (i.cl p).mat = [] := (s.issueAt_mat p env).trans mat
    rw [exec_fenceInstruction_of_fetches h, State.modCl, free]
    rfl
  case fenceR =>
    have none_out : (i.cl p).remoteOut = 0 := (s.issueAt_remoteOut p env).trans out
    rw [exec_fenceR_of_undeferred h env hd, State.modCl, if_pos none_out]
    rfl
  case fenceNm =>
    have none_out : (i.cl p).nmOut = 0 := (s.issueAt_nmOut p env).trans out
    rw [exec_fenceNm_of_fetches h, State.modCl, if_pos none_out]
    rfl
  case waitEnd =>
    obtain ⟨sound, act, going⟩ := hr
    refine ⟨_, exec_fenceWaitEnd_of_over sound act going ended env, State.onlyCl_modCl (s.onlyCl_tick p env.hc) _, ?_⟩
    rw [State.cl_modCl_same, State.cl_tick_same]
  case haltEnd =>
    obtain ⟨sound, act, going⟩ := hr
    exact exec_haltWaitEnd_of_drained sound act going wait hd drained env

end Sys2Proof.Machine

/-! PROOFS. Remote accesses and nm.post (R95 to R97, R515, R591). -/

namespace Sys2Proof.Machine

/-! ### What a store leaves beside memory -/

theorem State.putBytes_eq (s : State) (pa : Nat) (bs : List Byte) :
    s.putBytes pa bs = { s with mem := (s.putBytes pa bs).mem } := by
  induction bs generalizing s pa with
  | nil => rfl
  | cons b bs ih => rw [State.putBytes, ih]; rfl

theorem State.touch_eq (s : State) (pa : Nat) : s.touch pa = { s with dirty := (s.touch pa).dirty } := by
  unfold State.touch
  split <;> rfl

theorem foldl_dirty {α : Type} {f : State → α → State} (h : ∀ t x, f t x = { t with dirty := (f t x).dirty }) (l : List α)
    (s : State) : l.foldl f s = { s with dirty := (l.foldl f s).dirty } := by
  induction l generalizing s with
  | nil => rfl
  | cons x l ih =>
    rw [List.foldl_cons, ih, h s x]

theorem State.touchRange_eq (s : State) (pa n : Nat) : s.touchRange pa n = { s with dirty := (s.touchRange pa n).dirty } := by
  refine foldl_dirty (fun t i => ?_) _ s
  dsimp only
  split
  · exact t.touch_eq _
  · rfl

/-- A store changes memory, its poison and its dirty bits alone. -/
theorem State.store_eq (s : State) (pa : Nat) (bs : List Byte) :
    s.store pa bs = { s with mem := (s.store pa bs).mem, dirty := (s.store pa bs).dirty, poison := (s.store pa bs).poison } := by
  unfold State.store
  split
  · rfl
  · rw [State.touchRange_eq, State.putBytes_eq]

@[simp] theorem State.store_clusters (s : State) (pa : Nat) (bs : List Byte) : (s.store pa bs).clusters = s.clusters := by
  rw [State.store_eq]

@[simp] theorem State.store_nmOps (s : State) (pa : Nat) (bs : List Byte) : (s.store pa bs).nmOps = s.nmOps := by
  rw [State.store_eq]

@[simp] theorem State.store_nmNum (s : State) (pa : Nat) (bs : List Byte) : (s.store pa bs).nmNum = s.nmNum := by
  rw [State.store_eq]

theorem State.bytesAt_store (s : State) (pa : Nat) (bs : List Byte) (h : s.lineLost pa = false) :
    (s.store pa bs).bytesAt pa bs.length = bs := by
  refine List.ext_getElem (by simp [State.bytesAt]) fun i _ hi => ?_
  simp [State.bytesAt, State.byteAt_store s pa bs h, State.byteAt_putBytes_inside s pa bs hi]

/-- A word that a line holds reads as it was stored. -/
theorem State.numAt_store8 (s : State) {pa v : Nat} (h : s.lineLost pa = false) (hv : v < 2 ^ 64) :
    (s.store8 pa v).numAt pa 8 = v := by
  have bytes := s.bytesAt_store pa (bytesLE 8 v) h
  rw [length_bytesLE] at bytes
  rw [State.numAt, State.store8, bytes, numLE_bytesLE]
  exact Nat.mod_eq_of_lt hv

/-- A basin loses no line. -/
theorem State.lineLost_of_inBasin (s : State) {pa : Nat} (h : inBasin pa = true) : s.lineLost pa = false := by
  simp [State.lineLost, h]

theorem inBasin_basinPA (P off : Nat) : inBasin (basinPA P + off) = true := by
  simp [inBasin, basinPA, Nat.add_assoc]

/-! ### What keeps a remote instruction from being sent (R97) -/

section
variable {t : State} {P node part job k : Nat}

theorem State.remoteBar_of_home (valid : t.nodeValid = true) (hp : t.clPart P = some part) (hj : t.jobTag part = some job)
    (home : node = t.nodeId) : t.remoteBar P node = none := by
  simp [State.remoteBar, valid, hp, hj, home]

theorem State.remoteBar_of_away (valid : t.nodeValid = true) (hp : t.clPart P = some part) (hj : t.jobTag part = some job)
    (away : node ≠ t.nodeId) (moored : t.mooredNode node = false) (route : t.routePort node = some k) :
    t.remoteBar P node = none := by
  simp [State.remoteBar, State.pathCode, valid, hp, hj, away, moored, route]

theorem State.job_of_tag (hp : t.clPart P = some part) (hj : t.jobTag part = some job) :
    ((t.clPart P).bind t.jobTag).getD 0 = job := by
  simp [hp, hj]

end

/-! ### ld.r (R96, R97) -/

section
variable {s t : State} {p : Fin 576} {w : Nat} {env : CEnv} {a : Nat}

theorem exec_ldR_of_misaligned (h : s.Fetches p w .ldR) (ht : s.issueAt p env = t) (ha : ((t.cl p).x (fB w)).toNat = a)
    (off : a % 8 ≠ 0) : exec (.ldR p env) s = .next (t.trap p Cause.misaligned a) := by
  subst ht ha
  have run : execLdR p env s = .next _ := State.instr_of_fetches h env _
  dsimp only at run
  rw [if_pos off] at run
  exact run

theorem exec_ldR_of_offFabric (h : s.Fetches p w .ldR) (ht : s.issueAt p env = t) (ha : ((t.cl p).x (fB w)).toNat = a)
    (word : a % 8 = 0) (cut : t.offFabric p = true) : exec (.ldR p env) s = .next (t.trap p Cause.dataPoison a) := by
  subst ht ha
  have run : execLdR p env s = .next _ := State.instr_of_fetches h env _
  dsimp only at run
  rw [if_neg (not_not.mpr word), if_pos cut] at run
  exact run

/-- A load of the own node passes the landing table. -/
theorem exec_ldR_of_home (h : s.Fetches p w .ldR) (ht : s.issueAt p env = t) (ha : ((t.cl p).x (fB w)).toNat = a)
    (word : a % 8 = 0) (linked : t.offFabric p = false) (unbarred : t.remoteBar p (a / 2 ^ 48) = none)
    (home : a / 2 ^ 48 = t.nodeId) {job : Nat} (hj : ((t.clPart p).bind t.jobTag).getD 0 = job) {r : Landed} {u : State}
    (landed : t.landReq (t.remotePkt p Pt.read8 a 0 job) [] env.contest = (r, u)) (taken : r.code = none)
    (clean : r.poison = false) :
    exec (.ldR p env) s = .next (u.modCl p fun e => (e.setX (fA w) (BitVec.ofNat 64 (numLE r.data))).retire) := by
  subst ht ha hj
  have run : execLdR p env s = .next _ := State.instr_of_fetches h env _
  dsimp only at run
  rw [if_neg (not_not.mpr word), if_neg (Bool.eq_false_iff.mp linked), unbarred] at run
  dsimp only at run
  rw [if_pos home, landed] at run
  dsimp only at run
  rw [taken] at run
  dsimp only at run
  rw [if_neg (Bool.eq_false_iff.mp clean)] at run
  exact run

/-- A load of another node is sent, and the cluster waits for its answer. -/
theorem exec_ldR_of_away (h : s.Fetches p w .ldR) (ht : s.issueAt p env = t) (ha : ((t.cl p).x (fB w)).toNat = a)
    (word : a % 8 = 0) (linked : t.offFabric p = false) (unbarred : t.remoteBar p (a / 2 ^ 48) = none)
    (away : a / 2 ^ 48 ≠ t.nodeId) {job : Nat} (hj : ((t.clPart p).bind t.jobTag).getD 0 = job) {v : State}
    (resynced : t.resyncTo (a / 2 ^ 48) = v) :
    exec (.ldR p env) s = .next ((v.sendReq (.cluster p (v.cl p).barge) (t.remotePkt p Pt.read8 a 0 job)).modCl p fun e =>
      { e with wait := .remoteLoad (fA w) (BitVec.ofNat 64 a) (v.seqNext (a / 2 ^ 48) 0) }) := by
  subst ht ha hj resynced
  have run : execLdR p env s = .next _ := State.instr_of_fetches h env _
  dsimp only at run
  rw [if_neg (not_not.mpr word), if_neg (Bool.eq_false_iff.mp linked), unbarred] at run
  dsimp only at run
  rw [if_neg away] at run
  exact run

end

/-! ### st.r and st.rflag (R97, R98, R515) -/

theorem State.postRemote_of_offFabric {t : State} {P : Nat} (cut : t.offFabric P = true) (ptype a data : Nat) (x : Contest) :
    t.postRemote P ptype a data x = t.stopCluster P Cause.dataPoison a (t.cl P).pc Cause.dataPoison := by
  simp [State.postRemote, cut]

/-- A remote store of another node is sent, counts in CW_REMOTE_OUT, and retires. -/
theorem State.postRemote_of_away {t : State} {P a : Nat} (linked : t.offFabric P = false)
    (unbarred : t.remoteBar P (a / 2 ^ 48) = none) (away : a / 2 ^ 48 ≠ t.nodeId) {job : Nat}
    (hj : ((t.clPart P).bind t.jobTag).getD 0 = job) (ptype data : Nat) (x : Contest) :
    t.postRemote P ptype a data x =
      (t.sendReq (.cluster P (t.cl P).barge) (t.remotePkt P ptype a data job)).modCl P fun e =>
        { e with remoteOut := e.remoteOut + 1 }.retire := by
  simp only [State.postRemote, linked, unbarred, away, hj, Bool.false_eq_true, if_false]

section
variable {s t : State} {p : Fin 576} {w : Nat} {env : CEnv} {a : Nat}

theorem exec_stR_of_misaligned (h : s.Fetches p w .stR) (ht : s.issueAt p env = t) (ha : ((t.cl p).x (fB w)).toNat = a)
    (off : a % 8 ≠ 0) : exec (.stR p env) s = .next (t.trap p Cause.misaligned a) := by
  subst ht ha
  have run : execStR p env s = .next _ := State.instr_of_fetches h env _
  dsimp only at run
  rw [if_pos off] at run
  exact run

theorem exec_stR_of_word (h : s.Fetches p w .stR) (ht : s.issueAt p env = t) (ha : ((t.cl p).x (fB w)).toNat = a)
    (word : a % 8 = 0) :
    exec (.stR p env) s = .next (t.postRemote p Pt.write8 a ((t.cl p).x (fC w)).toNat env.contest) := by
  subst ht ha
  have run : execStR p env s = .next _ := State.instr_of_fetches h env _
  dsimp only at run
  rw [if_neg (not_not.mpr word)] at run
  exact run

theorem exec_stRflag_of_misaligned (h : s.Fetches p w .stRflag) (ht : s.issueAt p env = t)
    (hd : (t.cl p).deferred = false) (ha : ((t.cl p).x (fB w)).toNat = a) (off : a % 8 ≠ 0) :
    exec (.stRflag p env) s = .next (t.trap p Cause.misaligned a) := by
  subst ht ha
  have run : execStRflag p env s = .next _ := State.instr_of_fetches h env _
  dsimp only at run
  rw [if_neg (Bool.eq_false_iff.mp hd), if_pos off] at run
  exact run

theorem exec_stRflag_of_word (h : s.Fetches p w .stRflag) (ht : s.issueAt p env = t) (hd : (t.cl p).deferred = false)
    (ha : ((t.cl p).x (fB w)).toNat = a) (word : a % 8 = 0) (hm : (t.cl p).moutOpen = false) :
    exec (.stRflag p env) s = .next (t.postRemote p Pt.flag8 a ((t.cl p).x (fC w)).toNat env.contest) := by
  subst ht ha
  have run : execStRflag p env s = .next _ := State.instr_of_fetches h env _
  dsimp only at run
  rw [if_neg (Bool.eq_false_iff.mp hd), if_neg (not_not.mpr word), if_neg (Bool.eq_false_iff.mp hm)] at run
  exact run

/-! ### nm.post (R95) -/

theorem exec_nmPost_of_misaligned (h : s.Fetches p w .nmPost) (ht : s.issueAt p env = t)
    (hm : (t.cl p).moutOpen = false) (ha : ((t.cl p).x (fB w)).toNat = a) (off : a % 64 ≠ 0) :
    exec (.nmPost p env) s = .next (t.trap p Cause.misaligned a) := by
  subst ht ha
  have run : execNmPost p env s = .next _ := State.instr_of_fetches h env _
  dsimp only at run
  rw [if_neg (Bool.eq_false_iff.mp hm), if_pos off] at run
  exact run

theorem exec_nmPost_of_outside (h : s.Fetches p w .nmPost) (ht : s.issueAt p env = t) (hm : (t.cl p).moutOpen = false)
    (ha : ((t.cl p).x (fB w)).toNat = a) (aligned : a % 64 = 0) (beyond : basinSize < a + 64) :
    exec (.nmPost p env) s = .next (t.trap p Cause.addrReserved a) := by
  subst ht ha
  have run : execNmPost p env s = .next _ := State.instr_of_fetches h env _
  dsimp only at run
  rw [if_neg (Bool.eq_false_iff.mp hm), if_neg (not_not.mpr aligned), if_pos beyond] at run
  exact run

end

/-- What the acceptance of an operation leaves, its STATUS field at basin address `pa` and its poster's record included: the
record as `f` makes it, the operation behind those before it, 1 in the field, and every other byte as it was. -/
theorem State.nmAccept_posted (m : State) (o : NmOp) {pa : Nat} (hpa : inBasin pa = true) (P : Nat) (f : Cluster → Cluster) :
    let u := ((m.nmAccept o).store8 pa 1).modCl P f
    u.cl P = f (m.cl P) ∧ u.nmNum = m.nmNum + 1 ∧ u.nmOps = m.nmOps ++ [{ o with num := m.nmNum }] ∧ u.numAt pa 8 = 1 ∧
      m.SameBytesBut u pa 8 := by
  have accepted : m.SameBytes (m.nmAccept o) := (State.SameBytes.refl m).upd rfl rfl
  refine ⟨?_, ?_, ?_, State.numAt_store8 _ (State.lineLost_of_inBasin _ hpa) (by decide), ?_⟩
  · rw [State.cl_modCl_same, State.store8, State.cl_congr (State.store_clusters _ _ _)]
    rfl
  · rw [State.modCl_nmNum, State.store8, State.store_nmNum]
    rfl
  · rw [State.modCl_nmOps, State.store8, State.store_nmOps]
    rfl
  · exact fun a outside => accepted.store (length_bytesLE 8 1) a outside

section
variable {s t : State} {p : Fin 576} {w : Nat} {env : CEnv} {a : Nat}

/-- The operation that an nm.post of cluster `P` with record `c` hands over, `m` being the state in which its descriptor at
physical address `base` was read. -/
def State.nmPostOp (m : State) (P : Nat) (c : Cluster) (base part lead : Nat) (flag : Option Nat) : NmOp :=
  { num := m.nmNum, lead := lead, desc := m.bytesAt base 64, part := part, view := m.maps.filter fun r => r.part == part
    source := .cluster P c.barge, status := some (base + 56), flag := flag, seed := c.seed
    src := 512 + (m.logOfPhys P).getD 0, ord := c.retired % 2 ^ 13 * 2 ^ 28, done := false, code := 1, detail := 0, notes := 0 }

/-- A post of a sound descriptor is accepted, writes 1 into the STATUS field, counts in CW_NM_OUT, and retires. -/
theorem exec_nmPost_of_sound (h : s.Fetches p w .nmPost) (ht : s.issueAt p env = t) (hm : (t.cl p).moutOpen = false)
    (ha : ((t.cl p).x (fB w)).toNat = a) (aligned : a % 64 = 0) (fits : a + 64 ≤ basinSize) {m : State} {base : Nat}
    (hb : basinPA p + a = base) (read : (t.access p env [⟨base, 64, false⟩]).meetEcc env.ecc base = m)
    (clean : m.poisonIn base 64 = none) {part lead : Nat} (hp : (t.clPart p).getD 8 = part) {d : NmDesc}
    (well : m.nmWell part (m.bytesAt base 64) = some d) (sound : m.nmFault part d = none) {flag : Option Nat}
    (word : m.nmWord p ((t.cl p).x (fC w)).toNat = .ok flag)
    (hl : m.nmLead part d (((m.logOfPhys p).getD 0) % 8) = lead) (room : m.nmQueued lead none < 16)
    (path : m.linksTo (p / 144) (lead / 64) = true) :
    exec (.nmPost p env) s = .next (((m.nmAccept (m.nmPostOp p (t.cl p) base part lead flag)).store8 (base + 56) 1).modCl p
      fun e => { e with nmOut := e.nmOut + 1 }.retire) := by
  subst ht ha hb read hp hl
  have run : execNmPost p env s = .next _ := State.instr_of_fetches h env _
  dsimp only at run
  rw [if_neg (Bool.eq_false_iff.mp hm), if_neg (not_not.mpr aligned), if_neg (Nat.not_lt.mpr fits), clean, well] at run
  dsimp only at run
  rw [if_neg (by simp), sound] at run
  dsimp only at run
  rw [word] at run
  dsimp only at run
  rw [if_neg (Nat.not_le.mpr room), path] at run
  rw [if_neg (by simp)] at run
  exact run

end

/-- Settles O20: with nothing that bars it (`State.remoteBar_of_home`, `State.remoteBar_of_away`) a remote instruction is sent or
performed; an nm.post of a sound descriptor accepts `State.nmPostOp`. -/
theorem remoteAndPostedAccesses : Obligations.RemoteAndPostedAccesses := by
  unfold Obligations.RemoteAndPostedAccesses
  intro s p env w part job k d flag t c P a node away home pkt post base m pt lead
  have sent (ptype : Nat) (hw : away) (x : Contest) :
      t.postRemote p ptype a (c.x (fC w)).toNat x = post ptype := by
    obtain ⟨valid, hp, hj, other, moored, route, linked⟩ := hw
    exact State.postRemote_of_away linked (State.remoteBar_of_away valid hp hj other moored route) other
      (State.job_of_tag hp hj) _ _ _
  refine ⟨fun h word hw => ?loadAway, fun h word hh r u landed taken clean => ?loadHome,
    fun h off => exec_ldR_of_misaligned h rfl rfl off, fun h word cut => exec_ldR_of_offFabric h rfl rfl word cut,
    fun h word cut => ?storeCut, fun h word hw => ?store, fun h off => exec_stR_of_misaligned h rfl rfl off,
    fun h hd word hm hw => ?flag, fun h hd off => exec_stRflag_of_misaligned h rfl hd rfl off,
    fun h hm off => exec_nmPost_of_misaligned h rfl hm rfl off,
    fun h hm aligned beyond => exec_nmPost_of_outside h rfl hm rfl aligned beyond,
    fun h hm aligned fits clean well sound word room path => ?posted⟩
  case loadAway =>
    obtain ⟨valid, hp, hj, other, moored, route, linked⟩ := hw
    exact exec_ldR_of_away h rfl rfl word linked (State.remoteBar_of_away valid hp hj other moored route) other
      (State.job_of_tag hp hj) rfl
  case loadHome =>
    obtain ⟨linked, valid, hp, hj, own⟩ := hh
    exact exec_ldR_of_home h rfl rfl word linked (State.remoteBar_of_home valid hp hj own) own (State.job_of_tag hp hj)
      landed taken clean
  case storeCut => rw [exec_stR_of_word h rfl rfl word, State.postRemote_of_offFabric cut]
  case store => rw [exec_stR_of_word h rfl rfl word, sent _ hw]
  case flag => rw [exec_stRflag_of_word h rfl hd rfl word hm, sent _ hw]
  case posted =>
    have status : inBasin (base + 56) = true := by
      rw [Nat.add_assoc]
      exact inBasin_basinPA _ _
    obtain ⟨cl, num, ops, word1, bytes⟩ := m.nmAccept_posted (m.nmPostOp p c base pt lead flag) status p fun e =>
      { e with nmOut := e.nmOut + 1 }.retire
    exact ⟨_, _, exec_nmPost_of_sound h rfl hm rfl aligned fits rfl rfl clean rfl well sound word rfl room path, cl, num, ops,
      rfl, rfl, rfl, rfl, rfl, rfl, rfl, word1, bytes⟩

end Sys2Proof.Machine

/-! PROOFS. The vector configuration instructions: CW_VTYPE and CW_VL (R114 to R116). -/

namespace Sys2Proof.Machine

@[simp] theorem Cluster.setX_vtype (c : Cluster) (n : Nat) (v : Word) : (c.setX n v).vtype = c.vtype := by
  unfold Cluster.setX
  split_ifs <;> rfl

@[simp] theorem Cluster.setX_vl (c : Cluster) (n : Nat) (v : Word) : (c.setX n v).vl = c.vl := by
  unfold Cluster.setX
  split_ifs <;> rfl

theorem Cluster.setVl_vtype (c : Cluster) (rd vtype avl : Nat) : (c.setVl rd vtype avl).vtype = vtype :=
  Cluster.setX_vtype _ _ _

theorem Cluster.setVl_vl (c : Cluster) (rd vtype avl : Nat) :
    (c.setVl rd vtype avl).vl = min avl (vlMax (bitsOf vtype 1 0)) :=
  Cluster.setX_vl _ _ _

/-- An instruction whose outcome gives its cluster a vtype and a length: its next state, that state's frame, and the two. -/
theorem State.onlyCl_of_setVl {r : Res State} {t : State} {P rd vtype avl : Nat}
    (h : r = .next (t.modCl P fun c => c.setVl rd vtype avl)) :
    ∃ u, r = .next u ∧ t.OnlyCl u P ∧ (u.cl P).vtype = vtype ∧ (u.cl P).vl = min avl (vlMax (bitsOf vtype 1 0)) ∧
      u.cl P = (t.cl P).setVl rd vtype avl := by
  obtain ⟨u, run, only, cl⟩ := State.onlyCl_of_modCl h rfl
  refine ⟨u, run, only, ?_, ?_, cl⟩
  · rw [cl, Cluster.setVl_vtype]
  · rw [cl, Cluster.setVl_vl]

section
variable {s : State} {p : Fin 576} {w : Nat}

theorem exec_setvl_of_fetches (h : s.Fetches p w .setvl) (env : CEnv) :
    exec (.setvl p env) s = .next ((s.issueAt p env).modCl p fun c =>
      c.setVl (fA w) (vcType w) ((s.cl p).x (fB w)).toNat) :=
  calc exec (.setvl p env) s
    _ = execSetvl p env s := rfl
    _ = .next ((s.issueAt p env).modCl p fun c => c.setVl (fA w) (vcType w) (c.x (fB w)).toNat) :=
      State.instr_of_fetches h env _
    _ = _ := by rw [State.modCl, State.modCl, State.issueAt_x]

theorem exec_setvli_of_fetches (h : s.Fetches p w .setvli) (env : CEnv) :
    exec (.setvli p env) s = .next ((s.issueAt p env).modCl p fun c => c.setVl (fA w) (vcType w) (bitsOf w 15 5)) :=
  calc exec (.setvli p env) s
    _ = execSetvli p env s := rfl
    _ = _ := State.instr_of_fetches h env _

/-- setvlt takes an image whose ALT stands with a SEW that has two formats. -/
theorem exec_setvlt_of_assigned (h : s.Fetches p w .setvlt) (env : CEnv) {x : Nat} (hx : ((s.cl p).x (fB w)).toNat = x)
    (assigned : bitOf x 2 = true → bitsOf x 1 0 = 1) :
    exec (.setvlt p env) s = .next ((s.issueAt p env).modCl p fun c => c.setVl (fA w) (bitsOf x 2 0) (bitsOf x 26 16)) := by
  have run : execSetvlt p env s = .next _ := State.instr_of_fetches h env _
  dsimp only at run
  rw [State.issueAt_x, hx, if_neg (by simpa using assigned)] at run
  exact run

end

/-- Settles O21: each form gives `Cluster.setVl` its vtype and the length asked for. -/
theorem vectorLength : Obligations.VectorLength := by
  unfold Obligations.VectorLength
  intro s p env w d x set
  exact ⟨fun h => State.onlyCl_of_setVl (exec_setvl_of_fetches h env),
    fun h => State.onlyCl_of_setVl (exec_setvli_of_fetches h env),
    fun h assigned => State.onlyCl_of_setVl (exec_setvlt_of_assigned h env rfl assigned)⟩

end Sys2Proof.Machine

/-! PROOFS. The vector instructions on registers: what each form leaves, its registers free (R121 to R130, R142, R285). -/

namespace Sys2Proof.Machine

/-- With no register held and no byte that is read poisoned, a register instruction changes its cluster's record alone. -/
theorem State.vrun_of_free {t : State} {P : Nat} {rd wr : List (Nat × Nat)} {at_ : Option (List (Nat × Nat))}
    (free : (t.cl P).FreeV rd wr at_) (s : State) (f : Cluster → Cluster) :
    s.vrun t P rd wr f at_ = t.modCl P fun c => (f c).touchRegs (rd ++ wr) := by
  obtain ⟨hr, hw, hp⟩ := free
  simp [State.vrun, hr, hw, hp]

/-- An instruction whose outcome is that of a register instruction with free registers: its next state, that state's frame, and
the record. -/
theorem State.onlyCl_of_vrun {r : Res State} {s t : State} {P : Nat} {rd wr : List (Nat × Nat)}
    {at_ : Option (List (Nat × Nat))} {f : Cluster → Cluster} (free : (t.cl P).FreeV rd wr at_)
    (run : r = .next (s.vrun t P rd wr f at_)) :
    ∃ u, r = .next u ∧ t.OnlyCl u P ∧ u.cl P = (f (t.cl P)).touchRegs (rd ++ wr) := by
  rw [State.vrun_of_free free] at run
  exact State.onlyCl_of_modCl run rfl

theorem Group.of_when {g k : Group} {b : Bool} (h : g.when b = some k) : g = k := by
  unfold Group.when at h
  split at h
  · exact Option.some.inj h
  · contradiction

/-- A scalar word belongs to no vector group. -/
theorem classifyScalar_ne_vectorIntegerOp (w : Nat) : classifyScalar w ≠ some .vectorIntegerOp := by
  intro h
  unfold classifyScalar at h
  dsimp only at h
  split at h <;> grind [Group.of_when]

/-- The words of the vector integer operations have the opcodes from 0x23 on. -/
theorem opOf_ge_of_vectorIntegerOp {w : Nat} (h : classify w = some .vectorIntegerOp) : 0x23 ≤ opOf w := by
  by_contra below
  unfold classify at h
  dsimp only at h
  by_cases scalar : opOf w < 0x20
  · rw [if_neg (by omega), if_neg (by omega)] at h
    exact classifyScalar_ne_vectorIntegerOp w h
  · rw [if_pos (by omega)] at h
    unfold classifyVector at h
    dsimp only at h
    by_cases config : opOf w = 0x20
    · rw [if_pos config] at h
      split at h <;> grind [Group.of_when]
    · rw [if_neg config, if_pos (by omega)] at h
      have memory := Group.of_when h
      split_ifs at memory

theorem State.classify_of_fetches {s : State} {P w : Nat} {g : Group} (h : s.Fetches P w g) : classify w = some g := by
  obtain ⟨-, -, -, -, -, -, -, group, -⟩ := h
  exact group

/-- Opcode 0x23 is the VV form of the integer operations. -/
theorem opOf_sub_beq_zero {w : Nat} (h : classify w = some .vectorIntegerOp) :
    (opOf w - 0x23 == 0) = (opOf w == 0x23) := by
  have := opOf_ge_of_vectorIntegerOp h
  rw [Bool.eq_iff_iff, beq_iff_eq, beq_iff_eq]
  omega

/-- An integer operation whose registers are free puts its function of each element into its destination and retires. -/
theorem exec_vectorIntegerOp_of_free {s : State} {p : Fin 576} {w : Nat} (h : s.Fetches p w .vectorIntegerOp) (env : CEnv)
    (free : (s.issued p env).FreeV (vvReads w (opOf w == 0x23)) [(vD w, 1)]) :
    exec (.vectorIntegerOp p env) s = .next ((s.issueAt p env).modCl p fun c =>
      ((c.putAll c.ew (vD w) ((List.range c.vl).map fun i =>
        vIntFn (vFunc w) c.eb (c.el c.ew (vS1 w) i) (c.intB w (opOf w - 0x23) i))).vretire
          (if 0x03 ≤ vFunc w ∧ vFunc w ≤ 0x05 then .fma else .alu) env.busy).touchRegs
            (vvReads w (opOf w == 0x23) ++ [(vD w, 1)])) := by
  have run : execVectorIntegerOp p env s = .next _ := State.instr_of_fetches h env _
  dsimp only at run
  rw [opOf_sub_beq_zero (State.classify_of_fetches h), State.vrun_of_free free] at run
  exact run

/-- Settles O22: each form runs by `State.vrun`, under the branch of its function and its format. -/
theorem vectorRegisterOperations : Obligations.VectorRegisterOperations := by
  unfold Obligations.VectorRegisterOperations
  intro s p env w m at_ c vd done els elx
  refine ⟨fun h free => ?integer, fun h hm free => ?fp, fun h hf free => ?compareInt, fun h hf hm free => ?compareFp,
    fun h hop free => ?select, fun h hop hf free => ?moveToX, fun h hop hf free => ?move, fun h hf free => ?reduceInt,
    fun h hf free => ?count, fun h lo hi hm free => ?reduceFp, fun h hm free => ?scan, fun h hw hd free => ?convert,
    fun h free => ?permute⟩
  case integer => exact State.onlyCl_of_modCl (exec_vectorIntegerOp_of_free h env free) rfl
  case fp =>
    have run : execVectorFpOp p env s = .next _ := State.instr_of_fetches h env _
    dsimp only at run
    rw [hm] at run
    exact State.onlyCl_of_vrun free run
  case compareInt =>
    have run : execVectorCompare p env s = .next _ := State.instr_of_fetches h env _
    dsimp only at run
    rw [if_pos hf] at run
    exact State.onlyCl_of_vrun free run
  case compareFp =>
    have run : execVectorCompare p env s = .next _ := State.instr_of_fetches h env _
    dsimp only at run
    rw [if_neg (by omega), hm] at run
    exact State.onlyCl_of_vrun free run
  case select =>
    have run : execVectorSelectMove p env s = .next _ := State.instr_of_fetches h env _
    dsimp only at run
    rw [if_pos hop] at run
    exact State.onlyCl_of_vrun free run
  case moveToX =>
    have run : execVectorSelectMove p env s = .next _ := State.instr_of_fetches h env _
    dsimp only at run
    rw [if_neg hop, if_pos hf] at run
    exact State.onlyCl_of_vrun free run
  case move =>
    have run : execVectorSelectMove p env s = .next _ := State.instr_of_fetches h env _
    dsimp only at run
    rw [if_neg hop, if_neg hf] at run
    exact State.onlyCl_of_vrun free run
  case reduceInt =>
    have run : execVectorReduction p env s = .next _ := State.instr_of_fetches h env _
    dsimp only at run
    rw [if_pos hf] at run
    exact State.onlyCl_of_vrun free run
  case count =>
    have run : execVectorReduction p env s = .next _ := State.instr_of_fetches h env _
    dsimp only at run
    rw [if_neg (by omega), if_pos hf] at run
    exact State.onlyCl_of_vrun free run
  case reduceFp =>
    have run : execVectorReduction p env s = .next _ := State.instr_of_fetches h env _
    dsimp only at run
    rw [if_neg (by omega), if_neg (by omega), hm] at run
    exact State.onlyCl_of_vrun free run
  case scan =>
    have run : execVectorScan p env s = .next _ := State.instr_of_fetches h env _
    dsimp only at run
    rcases hm with ⟨lo, rfl⟩ | ⟨hi, hm⟩
    · rw [if_pos lo] at run
      exact State.onlyCl_of_vrun free run
    · rw [if_neg (by omega), hm] at run
      exact State.onlyCl_of_vrun free run
  case convert =>
    have run : execVectorConversion p env s = .next _ := State.instr_of_fetches h env _
    dsimp only at run
    rw [if_neg (not_or.mpr ⟨not_not.mpr hw, Nat.not_lt.mpr hd⟩)] at run
    exact State.onlyCl_of_vrun free run
  case permute =>
    have run : execVectorPermute p env s = .next _ := State.instr_of_fetches h env _
    exact State.onlyCl_of_vrun free run

end Sys2Proof.Machine

/-! PROOFS. The bytes and elements of the register file, and what the vector integer operations leave of them (R111, R112, R117,
R121). -/

namespace Sys2Proof.Machine

/-! ### Bytes -/

namespace Cluster

variable (c : Cluster)

/-- A write of bytes changes the register file alone. -/
theorem putVB_eq (k : Nat) (bs : List Byte) : c.putVB k bs = { c with v := (c.putVB k bs).v } := by
  induction bs generalizing c k with
  | nil => rfl
  | cons b bs ih => rw [putVB, ih]

/-- A write leaves every byte before its first and after its last alone. -/
theorem vbyte_putVB_outside (k : Nat) (bs : List Byte) {j : Nat} (h : j < k ∨ k + bs.length ≤ j) :
    (c.putVB k bs).vbyte j = c.vbyte j := by
  induction bs generalizing c k with
  | nil => rfl
  | cons b bs ih =>
    rw [List.length_cons] at h
    rw [putVB, ih _ _ (by omega)]
    exact spGet_spSet_other _ (by omega) b c.v

/-- A byte that a write covers reads as the byte written. -/
theorem vbyte_putVB_inside (k : Nat) (bs : List Byte) {i : Nat} (h : i < bs.length) :
    (c.putVB k bs).vbyte (k + i) = bs[i] := by
  induction bs generalizing c k i with
  | nil => simp at h
  | cons b bs ih =>
    cases i with
    | zero =>
      rw [putVB, vbyte_putVB_outside _ _ _ (by omega)]
      exact spGet_spSet_same _ k b c.v
    | succ i =>
      rw [putVB, show k + (i + 1) = k + 1 + i by omega, ih _ _ (by simpa using h)]
      rfl

theorem vbyte_setV_outside (k n v : Nat) {j : Nat} (h : j < k ∨ k + n ≤ j) : (c.setV k n v).vbyte j = c.vbyte j :=
  c.vbyte_putVB_outside k (bytesLE n v) (by rwa [length_bytesLE])

/-- Numbers whose bytes are the same are the same. -/
theorem vnum_congr {c d : Cluster} {k n : Nat} (h : ∀ i, i < n → d.vbyte (k + i) = c.vbyte (k + i)) :
    d.vnum k n = c.vnum k n :=
  congrArg numLE (List.map_congr_left fun i hi => h i (List.mem_range.mp hi))

/-- A number reads as it was written, modulo what its bytes hold. -/
theorem vnum_setV_same (k n v : Nat) : (c.setV k n v).vnum k n = v % 2 ^ (8 * n) := by
  have bytes : ((List.range n).map fun i => (c.setV k n v).vbyte (k + i)) = bytesLE n v := by
    refine List.ext_getElem (by simp) fun i _ hi => ?_
    rw [List.getElem_map, List.getElem_range]
    exact c.vbyte_putVB_inside k (bytesLE n v) hi
  rw [vnum, bytes, numLE_bytesLE, Nat.pow_mul]

/-! ### Elements -/

/-- A write of elements changes the register file and its poison alone. -/
theorem putEls_eq (w n i : Nat) (xs : List Nat) :
    c.putEls w n i xs = { c with v := (c.putEls w n i xs).v, vpois := (c.putEls w n i xs).vpois } := by
  induction xs generalizing c i with
  | nil => rfl
  | cons x xs ih =>
    rw [putEls, ih, setV, putV, putVB_eq]

/-- A write of elements leaves every byte before the first and after the last of them alone. -/
theorem vbyte_putEls_outside (w n i : Nat) (xs : List Nat) {k : Nat}
    (h : k < 1024 * n + i * w ∨ 1024 * n + (i + xs.length) * w ≤ k) : (c.putEls w n i xs).vbyte k = c.vbyte k := by
  induction xs generalizing c i with
  | nil => rfl
  | cons x xs ih =>
    rw [List.length_cons] at h
    have next : (i + 1) * w = i * w + w := Nat.succ_mul i w
    have last : (i + (xs.length + 1)) * w = (i + 1 + xs.length) * w := by rw [Nat.add_right_comm, Nat.add_assoc]
    have size : (i + 1) * w ≤ (i + 1 + xs.length) * w := Nat.mul_le_mul_right w (by omega)
    rw [putEls, ih _ _ (by omega), vbyte_setV_outside _ _ _ _ (by omega)]

/-- An element reads as what was written to it, modulo what its bytes hold. -/
theorem el_putEls (w n i : Nat) (xs : List Nat) {j : Nat} (h : j < xs.length) :
    (c.putEls w n i xs).el w n (i + j) = xs[j] % 2 ^ (8 * w) := by
  induction xs generalizing c i j with
  | nil => simp at h
  | cons x xs ih =>
    cases j with
    | zero =>
      have next : (i + 1) * w = i * w + w := Nat.succ_mul i w
      rw [putEls, Nat.add_zero i, el, List.getElem_cons_zero, ← c.vnum_setV_same (1024 * n + i * w) w]
      exact vnum_congr fun k hk => vbyte_putEls_outside _ _ _ _ _ (by omega)
    | succ j =>
      rw [putEls, show i + (j + 1) = i + 1 + j by omega, ih _ _ (by simpa using h)]
      rfl

theorem el_putAll (w n : Nat) (xs : List Nat) {j : Nat} (h : j < xs.length) :
    (c.putAll w n xs).el w n j = xs[j] % 2 ^ (8 * w) := by
  have := c.el_putEls w n 0 xs h
  rwa [Nat.zero_add] at this

theorem vbyte_putAll_outside (w n : Nat) (xs : List Nat) {k : Nat} (h : k < 1024 * n ∨ 1024 * n + xs.length * w ≤ k) :
    (c.putAll w n xs).vbyte k = c.vbyte k :=
  c.vbyte_putEls_outside w n 0 xs (by simpa using h)

@[simp] theorem putAll_g (w n : Nat) (xs : List Nat) : (c.putAll w n xs).g = c.g := by
  rw [putAll, putEls_eq]
  rfl

@[simp] theorem putAll_pc (w n : Nat) (xs : List Nat) : (c.putAll w n xs).pc = c.pc := by
  rw [putAll, putEls_eq]
  rfl

/-! ### What retiring leaves alone -/

@[simp] theorem vretire_v (u : VUnit) (busy : Nat) : (c.vretire u busy).v = c.v := by cases u <;> rfl

@[simp] theorem vretire_g (u : VUnit) (busy : Nat) : (c.vretire u busy).g = c.g := by cases u <;> rfl

@[simp] theorem vretire_pc (u : VUnit) (busy : Nat) : (c.vretire u busy).pc = (c.pc + 4) % 2 ^ 64 := by cases u <;> rfl

@[simp] theorem vbyte_vretire (u : VUnit) (busy k : Nat) : (c.vretire u busy).vbyte k = c.vbyte k := by
  rw [vbyte, vretire_v, vbyte]

@[simp] theorem el_vretire (u : VUnit) (busy w n i : Nat) : (c.vretire u busy).el w n i = c.el w n i :=
  vnum_congr fun _ _ => c.vbyte_vretire u busy _

@[simp] theorem vbyte_touchRegs (l : List (Nat × Nat)) (k : Nat) : (c.touchRegs l).vbyte k = c.vbyte k := rfl

@[simp] theorem touchRegs_pc (l : List (Nat × Nat)) : (c.touchRegs l).pc = c.pc := rfl

@[simp] theorem el_touchRegs (l : List (Nat × Nat)) (w n i : Nat) : (c.touchRegs l).el w n i = c.el w n i := rfl

end Cluster

/-- Settles O23: the elements of the destination are what `Cluster.putAll` wrote, and it leaves the other bytes. -/
theorem vectorIntegerElements : Obligations.VectorIntegerElements := by
  unfold Obligations.VectorIntegerElements
  intro s p env w c h free _
  refine ⟨_, exec_vectorIntegerOp_of_free h env free, ?_⟩
  rw [State.cl_modCl_same]
  refine ⟨fun i hi => ?element, fun k hk => ?frame, ?registers, ?pc⟩
  case element =>
    rw [Cluster.el_touchRegs, Cluster.el_vretire, Cluster.el_putAll _ _ _ _ (by simpa using hi)]
    simp [c]
  case frame =>
    rw [Cluster.vbyte_touchRegs, Cluster.vbyte_vretire, Cluster.vbyte_putAll_outside _ _ _ _ (by simpa using hk)]
  case registers => exact (Cluster.vretire_g _ _ _).trans (Cluster.putAll_g _ _ _ _)
  case pc => exact (Cluster.vretire_pc _ _ _).trans (by rw [Cluster.putAll_pc])

end Sys2Proof.Machine

/-! PROOFS. Vector loads and stores (R117, R131 to R138). -/

namespace Sys2Proof.Machine

/-! ### What an access leaves of the clusters (R51, R284, R448) -/

theorem State.addNote_clusters (s : State) (k q note : Nat) : (s.addNote k q note).clusters = s.clusters := by
  unfold State.addNote
  split <;> rfl

theorem State.stall_clusters (s : State) (l : List (Nat × Nat)) : (s.stall l).clusters = s.clusters := by
  unfold State.stall
  split <;> rfl

theorem State.choice_clusters (s : State) (part : Nat) (who : Option (List (Nat × Nat))) :
    (s.choice part who).clusters = s.clusters := by
  cases who with
  | none => rfl
  | some l => exact foldl_same State.clusters _ (fun t b => t.addNote_clusters b.1 b.2 _) l _

theorem State.grant_clusters (s : State) (me : Requester) (ts : List Touch) (g : Grant) :
    (s.grant me ts g).clusters = s.clusters := by
  unfold State.grant
  split
  · rfl
  · dsimp only
    split
    · rfl
    · exact State.choice_clusters _ _ _

theorem State.contest_clusters (s : State) (me : Requester) (ts : List Touch) (x : Contest) :
    (s.contest me ts x).clusters = s.clusters :=
  (foldl_same State.clusters _ (fun t g => t.grant_clusters me ts g) x.grants _).trans (s.stall_clusters _)

theorem State.rouse_clusters (s : State) (pas : List Nat) : (s.rouse pas).clusters = s.clusters := by
  unfold State.rouse
  dsimp only
  split
  · exact s.stall_clusters _
  · exact (foldl_same State.clusters _ (fun t r => t.setFlds_clusters _ _) _ _).trans (s.stall_clusters _)

theorem State.yieldG_clusters (s : State) (p guar cause site winner : Nat) (sel : Barge → Bool) :
    (s.yieldG p guar cause site winner sel).clusters = s.clusters := by
  unfold State.yieldG
  dsimp only
  split
  · rfl
  · dsimp only
    rw [State.setFlds_clusters, State.count_clusters]

theorem State.slowStacks_clusters (s : State) (b : Barge) (pas : List Nat) : (s.slowStacks b pas).clusters = s.clusters := by
  unfold State.slowStacks
  split
  · rfl
  · split
    · rfl
    · exact foldl_same State.clusters _ (fun t st => t.yieldG_clusters _ _ _ _ _ _) _ s

theorem State.usePas_clusters (s : State) (who : Option (Nat × Nat)) (pas : List Nat) :
    (s.usePas who pas).clusters = s.clusters := by
  unfold State.usePas
  split
  · rfl
  · exact State.slowStacks_clusters _ _ _

theorem State.access_clusters (s : State) (P : Nat) (env : CEnv) (ts : List Touch) :
    (s.access P env ts).clusters = s.clusters := by
  have arrived : (((s.contested P ts env.contest).rouse (ts.map (·.pa))).usePas (s.cl P).barge (ts.map (·.pa))).clusters =
      s.clusters :=
    (State.usePas_clusters _ _ _).trans ((State.rouse_clusters _ _).trans (State.contest_clusters _ _ _ _))
  unfold State.access
  dsimp only
  split
  · split
    · exact (State.addNote_clusters _ _ _ _).trans arrived
    · exact arrived
  · exact arrived

/-- A corrected error that writes a record leaves the clusters alone where its detail does. -/
theorem State.recordCorrected_clusters_of_detail {detail : State → Nat × State}
    (hd : ∀ u, (detail u).2.clusters = u.clusters) (s : State) (unit : Nat) (part : Option Nat) (addr : Nat) :
    (s.recordCorrected unit part addr detail).clusters = s.clusters := by
  unfold State.recordCorrected
  split
  · exact hd _
  · rfl

theorem State.setPoison_clusters (s : State) (pa : Nat) : (s.setPoison pa).clusters = s.clusters := by
  unfold State.setPoison
  rw [State.touch_eq]

theorem State.memDetail_clusters (s : State) (pa : Nat) : (s.memDetail pa).2.clusters = s.clusters := rfl

theorem State.meetEcc_clusters (s : State) (e : Ecc) (pa : Nat) : (s.meetEcc e pa).clusters = s.clusters := by
  unfold State.meetEcc
  cases e with
  | clean | cache => rfl
  | corrected =>
    refine (State.recordCorrected_clusters_of_detail (fun _ => rfl) _ _ _ _).trans ?_
    split
    · rfl
    · exact State.satAdd_clusters _ _ _ _
  | uncorrectable =>
    refine (State.setPoison_clusters _ pa).trans ?_
    refine (State.memDetail_clusters _ pa).trans ?_
    split
    · rfl
    · exact (State.setFld_clusters _ _ _ _).trans (State.satAdd_clusters _ _ _ _)
  | buffer bad =>
    dsimp only
    split_ifs
    · rfl
    · exact State.setPoison_clusters _ pa
    · exact State.recordCorrected_clusters _ _ _ _

/-! ### The checks (R117, R134 to R137) -/

/-- A list of checks that all pass gives back the addresses that they found. -/
theorem map_map_ok {f : Tr → Nat} {pas : List Nat} (h : ∀ pa, f (.ok pa) = pa) : (pas.map Except.ok).map f = pas := by
  rw [List.map_map, show f ∘ Except.ok = id from funext h, List.map_id]

section
variable {t : State} {P : Nat} {env : CEnv} {w : Nat} {pas : List Nat} {store : Bool} {c : Cluster}

/-- A memory instruction all of whose checks pass goes on with its addresses. -/
theorem State.vmem_of_passes (hc : t.cl P = c) (config : c.vl = 0 ∨ c.vmConfigBad w store = false)
    (index : (c.vmReads w).any c.regBusyR = false) (clean : c.vreadPois (4 * c.vl) (c.vmReads w) = none)
    (translate : ((List.range (c.vcount w)).map fun i => t.vcheck P store c.ew (c.vea w i)) = pas.map Except.ok)
    (register : (if store then c.regBusyR (vD w, 1) else c.regBusyW (vD w, 1)) = false)
    (data : c.vreadPois (c.vl * c.ew) (if store then [(vD w, 1)] else []) = none)
    (own : pas.any (fun pa => if store then c.memBusyW (ownRange P pa c.ew) else c.memBusyR (ownRange P pa c.ew)) = false)
    (s : State) (k : List Nat → State → State) :
    s.vmem t P env w store k = k pas ((t.modCl P fun d =>
      { d with checkStall := d.checkStall + env.stall }.touchRegs ((vD w, 1) :: c.vmReads w)).access P env
        (pas.map fun pa => ⟨pa, c.ew, store⟩)) := by
  subst hc
  have configured : (decide ((t.cl P).vl ≠ 0) && (t.cl P).vmConfigBad w store) = false := by
    rcases config with zero | good
    · simp [zero]
    · simp [good]
  have translated : ((List.range ((t.cl P).vcount w)).map ((t.cl P).vea w)).map (t.vcheck P store (t.cl P).ew) =
      pas.map Except.ok := by
    rw [List.map_map]
    exact translate
  have passes : (pas.map (Except.ok (ε := Nat))).findIdx? (fun r => !r.isOk) = none := by
    simp [Except.isOk, Except.toBool]
  unfold State.vmem
  dsimp only
  rw [configured, index, register, clean, data, translated, passes]
  dsimp only
  rw [map_map_ok, own]
  · rfl
  · exact fun _ => rfl

end

/-! ### Numbers and elements (R111, R117) -/

theorem numLE_lt (bs : List Byte) : numLE bs < 256 ^ bs.length := by
  induction bs with
  | nil => simp [numLE]
  | cons b bs ih =>
    have := b.isLt
    rw [numLE, List.length_cons, Nat.pow_succ]
    omega

theorem State.numAt_lt (s : State) (pa n : Nat) : s.numAt pa n < 2 ^ (8 * n) := by
  rw [Nat.pow_mul]
  simpa [State.numAt, State.bytesAt] using numLE_lt (s.bytesAt pa n)

/-- Single elements with the indices from `i` on are the elements from `i` on. -/
theorem Cluster.putAt_zip_range' (c : Cluster) (w n i : Nat) (xs : List Nat) :
    c.putAt w n ((List.range' i xs.length).zip xs) = c.putEls w n i xs := by
  induction xs generalizing c i with
  | nil => rfl
  | cons x xs ih => exact ih _ _

/-- An element reads as what the single elements 0, 1, … give it. -/
theorem Cluster.el_putSome_zip (c : Cluster) (w n : Nat) (xs : List Nat) {j : Nat} (h : j < xs.length) :
    (c.putSome w n ((List.range xs.length).zip xs)).el w n j = xs[j] % 2 ^ (8 * w) := by
  rw [← c.el_putAll w n xs h, Cluster.putSome, Cluster.putAll, List.range_eq_range', Cluster.putAt_zip_range']
  rfl

theorem Cluster.putAt_pc (c : Cluster) (w n : Nat) (xs : List (Nat × Nat)) : (c.putAt w n xs).pc = c.pc := by
  induction xs generalizing c with
  | nil => rfl
  | cons x xs ih => rw [Cluster.putAt, ih, Cluster.setV, Cluster.putV, Cluster.putVB_eq]

@[simp] theorem Cluster.putSome_pc (c : Cluster) (w n : Nat) (xs : List (Nat × Nat)) : (c.putSome w n xs).pc = c.pc :=
  c.putAt_pc w n xs

/-! ### The access of a load (R131, R138) -/

/-- The state in which the data of a load is read: its first address has met what the read meets. -/
def State.loadRead (u : State) (e : Ecc) (pas : List Nat) : State :=
  match pas with
  | [] => u
  | pa :: _ => u.meetEcc e pa

theorem State.loadRead_clusters (u : State) (e : Ecc) (pas : List Nat) : (u.loadRead e pas).clusters = u.clusters := by
  cases pas with
  | nil => rfl
  | cons pa pas => exact u.meetEcc_clusters e pa

/-- The elements that a load whose data is read in `m` puts into a cluster with record `c`. -/
def State.loadEls (m : State) (c : Cluster) (w : Nat) (pas : List Nat) : List (Nat × Nat) :=
  if vFunc w = 1 then (List.range c.vl).map fun i => (i, (pas.map fun pa => m.numAt pa c.ew).headD 0)
  else (List.range c.vl).zip (pas.map fun pa => m.numAt pa c.ew)

/-- A load of which no element meets poison or fails on its way writes all its elements and retires. -/
theorem State.vloadAccess_of_clean {u m : State} {P : Nat} {env : CEnv} {pas : List Nat}
    (read : u.loadRead env.ecc pas = m) (clean : (pas.any fun pa => m.poisonedAt pa || !m.reaches P env pa) = false)
    (w : Nat) :
    u.vloadAccess P env w pas = (m.modCl P fun d => d.putSome (u.cl P).ew (vD w) (m.loadEls (u.cl P) w pas)).modCl P
      fun d => d.vretire .lsu env.busy := by
  subst read
  have bad : ((List.range pas.length).filter fun i => (u.loadRead env.ecc pas).poisonedAt (pas.getD i 0) ||
      !(u.loadRead env.ecc pas).reaches P env (pas.getD i 0)) = [] := by
    refine List.filter_eq_nil_iff.mpr fun i hi => ?_
    have hi := List.mem_range.mp hi
    rw [List.getD_eq_getElem _ _ hi]
    exact List.any_eq_false.mp clean _ (List.getElem_mem hi)
  cases pas with
  | nil => simp [State.vloadAccess, State.loadRead, State.loadEls]
  | cons pa pas =>
    unfold State.vloadAccess
    dsimp only
    rw [show u.meetEcc env.ecc pa = u.loadRead env.ecc (pa :: pas) from rfl, bad]
    simp [State.loadEls]

/-- Element `i` of a load of the elements of a register, whose data is read in `m`, is the number at its address. -/
theorem Cluster.el_loadEls (d c : Cluster) (m : State) {w i : Nat} {pas : List Nat} (hf : vFunc w ≠ 1)
    (hn : pas.length = c.vl) (hi : i < c.vl) :
    (d.putSome c.ew (vD w) (m.loadEls c w pas)).el c.ew (vD w) i = m.numAt (pas.getD i 0) c.ew := by
  have length : (pas.map fun pa => m.numAt pa c.ew).length = c.vl := by rw [List.length_map, hn]
  rw [State.loadEls, if_neg hf, ← length, Cluster.el_putSome_zip _ _ _ _ (by rwa [length]), List.getElem_map,
    List.getD_eq_getElem _ _ (by rwa [hn])]
  exact Nat.mod_eq_of_lt (m.numAt_lt _ _)

/-! ### The access of a store (R132, R591) -/

/-- The state in which a store writes: its first address has met what the read of a read-merge-write meets. -/
def State.storeRead (u : State) (P : Nat) (e : Ecc) (pas : List Nat) : State :=
  match pas with
  | [] => u
  | pa :: _ => u.mergeRead e pa (u.cl P).ew

/-- The element stores of cluster `P` at their addresses, from the state in which they write. -/
def State.putElements (m : State) (P : Nat) (env : CEnv) (w : Nat) (pas : List Nat) : State :=
  m.vstoreEls P env (m.cl P).ew (pas.zip ((m.cl P).els (m.cl P).ew (vD w) (m.cl P).vl))

section
variable {u m : State} {P : Nat} {env : CEnv} {pas : List Nat}

/-- The access of a store: its elements are put, and the lowest one that does not arrive stops the cluster. -/
theorem State.vstoreAccess_eq (read : u.storeRead P env.ecc pas = m) (w : Nat) :
    u.vstoreAccess P env w pas = (pas.findIdx? fun pa => !m.reaches P env pa).elim
      ((m.putElements P env w pas).modCl P fun d => d.vretire .lsu env.busy)
      fun i => (m.putElements P env w pas).vecPoisonStop P i ((m.cl P).vea w i) := by
  subst read
  unfold State.vstoreAccess State.putElements
  cases pas with
  | nil => simp only [State.storeRead, List.findIdx?_nil, Option.elim_none]
  | cons pa pas =>
    dsimp only [State.storeRead]
    cases (pa :: pas).findIdx? fun q => !(u.mergeRead env.ecc pa (u.cl P).ew).reaches P env q with
    | none => rw [Option.elim_none]
    | some i => rw [Option.elim_some]

theorem State.vstoreAccess_of_arrives (read : u.storeRead P env.ecc pas = m) (arrive : pas.all (m.reaches P env) = true)
    (w : Nat) : u.vstoreAccess P env w pas = (m.putElements P env w pas).modCl P fun d => d.vretire .lsu env.busy := by
  have none : (pas.findIdx? fun pa => !m.reaches P env pa) = none := by simpa using arrive
  rw [State.vstoreAccess_eq read, none, Option.elim_none]

theorem State.vstoreAccess_of_dropped (read : u.storeRead P env.ecc pas = m) {i : Nat}
    (drop : (pas.findIdx? fun pa => !m.reaches P env pa) = some i) (w : Nat) :
    u.vstoreAccess P env w pas = (m.putElements P env w pas).vecPoisonStop P i ((m.cl P).vea w i) := by
  rw [State.vstoreAccess_eq read, drop, Option.elim_some]

end

section
variable {s u : State} {p : Fin 576} {env : CEnv} {w : Nat} {pas : List Nat}

/-- A load whose checks pass accesses memory at its addresses. -/
theorem exec_vectorLoad_of_passes (h : s.Fetches p w .vectorLoad)
    (passes : ∀ k, s.vmem (s.issueAt p env) p env w false k = k pas u) :
    exec (.vectorLoad p env) s = .next (u.vloadAccess p env w pas) :=
  calc exec (.vectorLoad p env) s
    _ = execVectorLoad p env s := rfl
    _ = _ := State.instr_of_fetches h env _
    _ = _ := congrArg _ (passes _)

theorem exec_vectorStore_of_passes (h : s.Fetches p w .vectorStore)
    (passes : ∀ k, s.vmem (s.issueAt p env) p env w true k = k pas u) :
    exec (.vectorStore p env) s = .next (u.vstoreAccess p env w pas) :=
  calc exec (.vectorStore p env) s
    _ = execVectorStore p env s := rfl
    _ = _ := State.instr_of_fetches h env _
    _ = _ := congrArg _ (passes _)

/-- Poison that reaches a load whose checks pass: the load's access, where an element of it meets poison or fails. -/
theorem exec_vecPoison_of_passes (h : s.Fetches p w .vectorLoad)
    (passes : ∀ k, s.vmem (s.issueAt p env) p env w false k = k pas u) {m : State} (read : u.loadRead env.ecc pas = m) :
    exec (.vecPoison p env) s =
      .next (if pas.any fun pa => m.poisonedAt pa || !m.reaches p env pa then u.vloadAccess p env w pas else s) := by
  subst read
  exact calc exec (.vecPoison p env) s
    _ = execVecPoison p env s := rfl
    _ = _ := State.instr_of_fetches h env _
    _ = _ := congrArg _ (passes _)

end

/-- Settles O24: an instruction whose checks pass goes on with its addresses (`State.vmem_of_passes`), and a load that meets no
poison writes what it read (`State.vloadAccess_of_clean`); a store drops the elements that do not arrive and stops at the lowest
(`State.vstoreAccess_eq`; log entries 13 and 65). -/
theorem vectorMemoryAccess : Obligations.VectorMemoryAccess := by
  unfold Obligations.VectorMemoryAccess
  intro s p env w pas t c idx u met m v fails checks stores loads
  have load (hl : loads) (k : List Nat → State → State) : s.vmem t p env w false k = k pas (u false) := by
    obtain ⟨⟨config, index, clean, translate⟩, register, own⟩ := hl
    exact State.vmem_of_passes rfl config index clean translate register rfl own s k
  have store (hs : stores) (k : List Nat → State → State) : s.vmem t p env w true k = k pas (u true) := by
    obtain ⟨⟨config, index, clean, translate⟩, register, data, own⟩ := hs
    exact State.vmem_of_passes rfl config index clean translate register data own s k
  refine ⟨fun h hl => exec_vectorLoad_of_passes h (load hl), fun h hl clean => ?clean, fun h hs arrive => ?arrive,
    fun h hs i drop => ?drop, fun h hl bad => ?bad, fun h hl clean => ?none⟩
  case clean =>
    have count (hf : vFunc w = 0) : pas.length = c.vl := by
      obtain ⟨⟨-, -, -, translate⟩, -, -⟩ := hl
      have := congrArg List.length translate
      simpa [Cluster.vcount, hf] using this.symm
    have checked : (u false).cl p = { c with checkStall := c.checkStall + env.stall }.touchRegs ((vD w, 1) :: idx) :=
      (State.cl_congr (State.access_clusters _ _ _ _) p).trans (State.cl_modCl_same _ _ _)
    have read : ((u false).loadRead env.ecc pas).cl p = (u false).cl p := State.cl_congr (State.loadRead_clusters _ _ _) p
    have run := exec_vectorLoad_of_passes h (load hl)
    rw [State.vloadAccess_of_clean rfl clean] at run
    refine ⟨_, run, ?pc, (State.SameBytes.refl met).setCl.setCl, fun i hi hf _ => ?element⟩
    case pc =>
      rw [State.cl_modCl_same, State.cl_modCl_same, Cluster.vretire_pc, Cluster.putSome_pc, read, checked,
        Cluster.touchRegs_pc]
    case element =>
      rw [State.cl_modCl_same, State.cl_modCl_same, Cluster.el_vretire, checked]
      exact Cluster.el_loadEls _ _ met (by omega) (count hf) hi
  case arrive =>
    exact (exec_vectorStore_of_passes h (store hs)).trans (congrArg _ (State.vstoreAccess_of_arrives rfl arrive w))
  case drop =>
    exact (exec_vectorStore_of_passes h (store hs)).trans (congrArg _ (State.vstoreAccess_of_dropped rfl drop w))
  case bad => exact (exec_vecPoison_of_passes h (load hl) rfl).trans (congrArg _ (if_pos bad))
  case none => exact (exec_vecPoison_of_passes h (load hl) rfl).trans (congrArg _ (if_neg (Bool.eq_false_iff.mp clean)))

end Sys2Proof.Machine

/-! PROOFS. Where an mout does not take its place in the output unit's queue: an uncorrectable error in its descriptor (R162,
R285). -/

namespace Sys2Proof.Machine

/-- The outcome is a state in which cluster `P` has stopped by `cause`, its matrix queues empty. -/
def stopsBy (r : Res State) (P cause : Nat) : Bool :=
  match r with
  | .next t => decide ((t.cl P).act = .stopped ∧ (t.cl P).stopCause = cause ∧ (t.cl P).mat = [])
  | _ => false

theorem mat_of_stopsBy {t : State} {P cause : Nat} (h : stopsBy (.next t) P cause = true) : (t.cl P).mat = [] := by
  obtain ⟨-, -, empty⟩ := of_decide_eq_true h
  exact empty

/-- An mout of tile 0 with its output address in x1, that of its descriptor in x2 and the ranges of its scales and second copy
in x3 (R154). -/
def moutWord : Nat := 0x39 * 2 ^ 26 + 1 * 2 ^ 21 + 2 * 2 ^ 16 + 3 * 2 ^ 11

/-- A package whose cluster 0 runs `moutWord`, with output at 128 and a descriptor of zero bytes at 64. -/
def moutPackage : State :=
  { State.reset with clusters := [(0, { act := .running, g := [(1, 128), (2, 64)] })] }.store (basinPA 0) (bytesLE 4 moutWord)

/-- The descriptor that 64 zero bytes are: binary64 out of binary32 accumulators, no stage enabled (Table 6-6). -/
def zeroDesc : OutDesc := ⟨.fp .binary64, 0, 32, false, false, none, none, false, none⟩

/-- The read of the descriptor finds an uncorrectable error (R285). -/
def badRead : CEnv := { ecc := .uncorrectable }

theorem moutPackage_fetches : moutPackage.Fetches 0 moutWord .mout := by
  and_intros <;> decide +kernel

/-- Before the read nothing bars the mout: its checks pass, and the output unit has a place for it. -/
theorem moutPackage_passes :
    let t := moutPackage.issueAt 0 badRead
    let xb := ((t.cl 0).x (fB moutWord)).toNat
    (moOreg moutWord && moDual moutWord) = false ∧ rangeBad 64 (xb, 64) = false ∧ (t.cl 0).memBusyR (xb, 64) = false ∧
      ((List.range 8).any fun i => t.poisonedAt (basinPA 0 + xb + 8 * i)) = false ∧
      parseOut (t.bytesAt (basinPA 0 + xb) 64) = some zeroDesc ∧
      moutCheck moutWord ((t.cl 0).x (fA moutWord)).toNat xb ((t.cl 0).x (fC moutWord)).toNat (some zeroDesc) = none ∧
      (t.cl 0).outQueued < 4 := by
  and_intros <;> decide +kernel

/-- R162: the poison that the read leaves in the descriptor stops the cluster. -/
theorem moutPackage_stops : stopsBy (exec (.mout 0 badRead) moutPackage) 0 Cause.matPoison = true := by decide +kernel

/-- Refutes O25: its mout clause leaves out what the read of the descriptor meets. An uncorrectable error there (R285) poisons the
descriptor of an mout that passes every check named, and the cluster stops (R162) with nothing queued. -/
theorem not_matrixIssue : ¬ Obligations.MatrixIssue := by
  unfold Obligations.MatrixIssue
  intro h
  obtain ⟨-, -, issues, -⟩ := h moutPackage 0 badRead moutWord zeroDesc
  obtain ⟨form, range, free, clean, parses, checked, place⟩ := moutPackage_passes
  obtain ⟨u, m, run, -, queued, -⟩ := issues moutPackage_fetches form range free clean parses checked place
  have appended := (mat_of_stopsBy (run ▸ moutPackage_stops)).symm.trans queued
  simp at appended

end Sys2Proof.Machine

/-! PROOFS. How a matrix instruction that the array or the output unit serves ends (R155, R156, R162, R165, R166). -/

namespace Sys2Proof.Machine

/-! ### The end of an instruction -/

theorem State.matEnd_of_clean {t : State} {P : Nat} {m : MatOp} (h : t.matPoisoned P m = none) (after : Cluster → Cluster) :
    t.matEnd P m after = (t.matFinish P m).modCl P after := by
  simp only [State.matEnd, h]

theorem State.matEnd_of_poisoned {t : State} {P at_ : Nat} {m : MatOp} (h : t.matPoisoned P m = some at_)
    (after : Cluster → Cluster) : t.matEnd P m after = t.matPoisonStop P m.pc at_ := by
  simp only [State.matEnd, h]

/-- The state in which cluster `P` ends `m`: its accesses made, and its first basin line read (R285). -/
def State.matRead (s : State) (P : Nat) (env : CEnv) (m : MatOp) : State :=
  ((s.issueAt P env).access P env (m.touches P)).matEcc P m env.ecc

/-- The state in which the instructions that cluster `P` serves have fetched: the first of them has read its first basin line. -/
def State.servedRead (s : State) (P : Nat) (env : CEnv) : State :=
  match (s.cl P).matServed with
  | m :: _ => (s.issueAt P env).matEcc P m env.ecc
  | [] => s

section
variable {s : State} {p : Fin 576} (sound : s.Sound) (running : (s.cl p).act = .running)
include sound running

/-- The mma that the array serves ends (R166). -/
theorem exec_mmaComplete_of_head {deferred : Bool} {m : MatOp} (head : (s.cl p).matHead false deferred = some m) (env : CEnv) :
    exec (.mmaComplete p deferred env) s = .next ((s.matRead p env m).matEnd p m fun c =>
      { c with matSwitch := c.matSwitch + env.busy, fetchStall := c.fetchStall + env.stall }) := by
  have run : execMmaComplete p deferred env s = .next _ := State.goDie_of_sound sound _ _
  rw [if_neg (not_not.mpr running), head] at run
  exact run

/-- The instruction that the output unit serves ends (R166, R171; log entry 14 for mzero and mtrans). -/
theorem exec_moutComplete_of_head {deferred : Bool} {m : MatOp} (head : (s.cl p).matHead true deferred = some m) (env : CEnv) :
    exec (.moutComplete p deferred env) s = .next ((s.matRead p env m).matEnd p m id) := by
  have run : execMoutComplete p deferred env s = .next _ := State.goDie_of_sound sound _ _
  rw [if_neg (not_not.mpr running), head] at run
  exact run

/-- Poison that a served instruction meets stops the cluster at once (R162; log entry 66 for the registers). -/
theorem exec_matPoison_of_served {env : CEnv} {v : State} (read : s.servedRead p env = v) {epc at_ : Nat}
    (found : ((s.cl p).matServed.findSome? fun x => (v.matPoisoned p x).map fun o => (x.pc, o)) = some (epc, at_)) :
    exec (.matPoison p env) s = .next (v.matPoisonStop p epc at_) := by
  have run : execMatPoison p env s = .next _ := State.goDie_of_sound sound _ _
  unfold State.servedRead at read
  cases served : (s.cl p).matServed with
  | nil => simp [served] at found
  | cons x xs =>
    rw [served] at read found
    dsimp only at run
    rw [if_pos running, served] at run
    dsimp only at read run
    rw [read, found] at run
    exact run

end

/-! ### What leaves the queue, and what an mzero leaves of the registers (R155) -/

theorem spGet_spClear {α : Type} (d : Nat → α) (q : Nat → Bool) (m : List (Nat × α)) (k : Nat) :
    spGet d (spClear q m) k = if q k then d k else spGet d m k := by
  split_ifs with hq
  · exact spGet_filter_drop d (fun i => !q i) (by simp [hq]) m
  · exact spGet_filter_keep d (fun i => !q i) (by simp [hq]) m

theorem tileByte_zero (t : Nat) : tileByte t false 0 0 = 1024 * (tileRegs t).1 := by
  simp [tileByte, tileRegs]

/-- Every byte of the tile's 16 registers becomes zero, and every other byte keeps its value. -/
theorem Cluster.vbyte_zeroTile (c : Cluster) (t k : Nat) :
    (c.zeroTile t).vbyte k =
      if 1024 * (tileRegs t).1 ≤ k ∧ k < 1024 * ((tileRegs t).1 + 16) then 0 else c.vbyte k := by
  have cleared : (c.zeroTile t).vbyte k = _ := spGet_spClear (fun _ => 0)
    (fun j => decide (tileByte t false 0 0 ≤ j ∧ j < tileByte t false 0 0 + 16384)) c.v k
  rw [cleared, tileByte_zero, Nat.mul_add]
  simp only [decide_eq_true_eq]
  rfl

/-- A finished instruction is out of its queue, whatever its effect. -/
theorem State.matFinish_dequeues (s : State) (P : Nat) (m : MatOp) :
    (((s.matFinish P m).cl P).mat.any fun o => o.num == m.num) = false := by
  unfold State.matFinish
  dsimp only
  rw [State.cl_modCl_same]
  simp

theorem State.vbyte_matFinish_of_mzero {m : MatOp} (h : m.kind = .mzero) (s : State) (P k : Nat) :
    ((s.matFinish P m).cl P).vbyte k = ((s.cl P).zeroTile m.tile).vbyte k := by
  unfold State.matFinish
  rw [h]
  dsimp only
  rw [State.cl_modCl_same, State.cl_modCl_same]
  rfl

/-! ### The statement -/

/-- Settles O26: a served instruction ends by `State.matEnd`, in effect or in a stop as it met poison or not (log entries 14 and
66), and its end takes it out of its queue whatever it was; the bytes that an mzero leaves are those of `Cluster.zeroTile`. -/
theorem matrixCompletion : Obligations.MatrixCompletion := by
  unfold Obligations.MatrixCompletion
  intro s p deferred env m epc at_ sound running t c P u v stall
  refine ⟨fun head clean => ?mma, fun head bad => ?mmaStop, fun head clean => ?output, fun head bad => ?outputStop,
    exec_matPoison_of_served sound running rfl,
    fun x _ => ⟨x.matFinish_dequeues P m, fun kind k => ?mzero⟩⟩
  case mma => exact (exec_mmaComplete_of_head sound running head env).trans (congrArg _ (State.matEnd_of_clean clean _))
  case mmaStop => exact (exec_mmaComplete_of_head sound running head env).trans (congrArg _ (State.matEnd_of_poisoned bad _))
  case output => exact (exec_moutComplete_of_head sound running head env).trans (congrArg _ (State.matEnd_of_clean clean _))
  case outputStop =>
    exact (exec_moutComplete_of_head sound running head env).trans (congrArg _ (State.matEnd_of_poisoned bad _))
  case mzero => exact (State.vbyte_matFinish_of_mzero kind x P k).trans (Cluster.vbyte_zeroTile _ _ _)

end Sys2Proof.Machine

/-! PROOFS. The solver barges: what their checks and their work leave of a started one (R216, R265 to R269). -/

namespace Sys2Proof.Machine

/-- The end of a barge whose first failing check is `f`: its status and RESULT0 (R216). -/
def State.rejected (s : State) (b : Barge) (f : Nat × Nat) : State := s.finish b.canal b.seq f.1 f.2 0

/-! ### The five forms -/

/-- The rows of the five forms, each with its native opcode. -/
def solverForms (c : Fin 256) (q : Nat) (e : SolveEnv) : List (Nat × Instr) :=
  [(0x300, .solveBatch c q e), (0x301, .solveSched c q e), (0x302, .solveIter c q e), (0x304, .assemble c q e),
    (0x305, .qpBatch c q e)]

/-- The rows of the five forms share one acceptance path. -/
theorem exec_solverForm (s : State) (c : Fin 256) (q : Nat) (e : SolveEnv) :
    ∀ x ∈ solverForms c q e, exec x.2 s = s.solver c.val q x.1 e := by
  simp only [solverForms, List.forall_mem_cons]
  exact ⟨rfl, rfl, rfl, rfl, rfl, List.forall_mem_nil _⟩

/-- The effect of a job of one of the five forms whose checks have passed (R70, R216). -/
def State.startSolve (s : State) (j : SolveJob) (e : SolveEnv) : State := (s.solveBegin j (s.solveRanges j)).solveRun j e

/-- Checks 1 to 3 see the barge alone and its reaches; checks 4 to 8 read memory, and so come after what its reads meet. -/
theorem State.solver_of_begun {s : State} {c : Fin 256} {q : Nat} {b : Barge} {op : Nat} (h : s.Begun c q b op)
    (e : SolveEnv) :
    s.solver c.val q op e = .next ((s.solveChecks b (solveJob b)).elim
      (((s.meetAll e.errs).solveForm (solveJob b)).elim ((s.meetAll e.errs).startSolve (solveJob b) e)
        ((s.meetAll e.errs).rejected b))
      (s.rejected b)) := by
  unfold State.solver
  rw [State.work_of_begun h (List.mem_singleton_self op)]
  dsimp only
  cases s.solveChecks b (solveJob b) with
  | some f => rfl
  | none =>
    cases (s.meetAll e.errs).solveForm (solveJob b) with
    | some f => rfl
    | none => rfl

section
variable {s : State} {c : Fin 256} {q : Nat} {b : Barge} {e : SolveEnv} {x : Nat × Instr} (row : x ∈ solverForms c q e)
  (begun : s.Begun c q b x.1)
include row begun

theorem exec_solverForm_of_solveChecks_fails {f : Nat × Nat} (fails : s.solveChecks b (solveJob b) = some f) :
    exec x.2 s = .next (s.rejected b f) := by
  rw [exec_solverForm s c q e x row, State.solver_of_begun begun, fails, Option.elim_some]

theorem exec_solverForm_of_solveForm_fails {f : Nat × Nat} (passes : s.solveChecks b (solveJob b) = none)
    (fails : (s.meetAll e.errs).solveForm (solveJob b) = some f) :
    exec x.2 s = .next ((s.meetAll e.errs).rejected b f) := by
  rw [exec_solverForm s c q e x row, State.solver_of_begun begun, passes, Option.elim_none, fails, Option.elim_some]

theorem exec_solverForm_of_passes
    (passes : s.solveChecks b (solveJob b) = none ∧ (s.meetAll e.errs).solveForm (solveJob b) = none) :
    exec x.2 s = .next ((s.meetAll e.errs).startSolve (solveJob b) e) := by
  obtain ⟨placed, formed⟩ := passes
  rw [exec_solverForm s c q e x row, State.solver_of_begun begun, placed, Option.elim_none, formed, Option.elim_none]

end

/-! ### The work of each form -/

section
variable {j : SolveJob} (s : State) (e : SolveEnv)

theorem State.solveRun_of_batch (h : j.op = 0x300) : s.solveRun j e = (s.batchForm j).run j e true s := by
  simp only [State.solveRun, h]

theorem State.solveRun_of_sched (h : j.op = 0x301) : s.solveRun j e = s.schedRun j e := by
  simp only [State.solveRun, h]

theorem State.solveRun_of_iter (h : j.op = 0x302) : s.solveRun j e = s.iterRun j e := by
  simp only [State.solveRun, h]

theorem State.solveRun_of_assemble (h : j.op = 0x304) : s.solveRun j e = s.asmRun j e := by
  simp only [State.solveRun, h]

theorem State.solveRun_of_qp (h : j.op = 0x305) : s.solveRun j e = (s.qpForm j).run j e false s := by
  simp only [State.solveRun, h]

end

theorem solveJob_op_of_begun {s : State} {c : Fin 256} {q : Nat} {b : Barge} {op : Nat} (h : s.Begun c q b op) :
    (solveJob b).op = op := by
  obtain ⟨-, -, -, native⟩ := h
  exact native

/-! ### SOLVE_RESUME -/

/-- Checks 4 to 8 of Table 8-5, in their order. -/
theorem State.resumeChecks_of_passes {t : State} {b : Barge} {r : SolveJob} {tok : List Byte}
    (mapped : t.devFault b.part ⟨b.f 55 48, 128, true, 128⟩ = none) (mine : t.tokenOk b.part tok = true)
    (clean : t.solveBad b.part r.reaches (b.f 55 48) 128 = false) (fresh : fieldB tok 13 13 = 1)
    (sched : t.resumeSched r = true) (formed : t.solveForm r = none) : t.resumeChecks b r tok = none := by
  simp only [State.resumeChecks, mapped, mine, clean, fresh, sched, formed]
  rfl

/-- Does an earlier resume of the same token still stand before `b` (R268)? -/
def State.resumeWaits (s : State) (b : Barge) : Bool :=
  s.barges.any fun x => x.native == 0x303 && x.part == b.part && decide (x.acc < b.acc) && x.f 55 48 == b.f 55 48 &&
    (x.phase == .waiting || x.phase == .started)

/-- The token that a resume names. -/
def State.tokenAt (t : State) (b : Barge) : List Byte := t.lread b.part (b.f 55 48) 128

/-- The job that a resume goes on with: the one its token names. -/
def State.resumed (t : State) (b : Barge) : SolveJob :=
  resumeJob b (t.tokenAt b) (spGet (fun _ => 0) t.chains (fieldB (t.tokenAt b) 31 24))

/-- What a resume whose checks have passed does: it consumes its token before any other write, and runs the form (R268). -/
def State.resumeSolve (t : State) (b : Barge) (e : SolveEnv) : State :=
  ((t.solveBegin (t.resumed b) (⟨b.f 55 48, 128, true, 128⟩ :: t.solveRanges (t.resumed b))).solveStore b.part
    (t.resumed b).reaches (b.f 55 48 + 13) [2]).solveRun (t.resumed b) e

/-- A resume that no earlier one of its token holds up, and that passes checks 1 to 3, ends by its token's checks. -/
theorem exec_solveResume_of_resumeChecks {s : State} {c : Fin 256} {q : Nat} {b : Barge} (begun : s.Begun c q b 0x303)
    (first : s.resumeWaits b = false) (reserved : b.reservedZero [(111, 56), (47, 47), (119, 112)] = true)
    (mask : s.solveMask (solveJob b) = none) {e : SolveEnv} {found : Option (Nat × Nat)}
    (checks : (s.meetAll e.errs).resumeChecks b ((s.meetAll e.errs).resumed b) ((s.meetAll e.errs).tokenAt b) = found) :
    exec (.solveResume c q e) s =
      .next (found.elim ((s.meetAll e.errs).resumeSolve b e) ((s.meetAll e.errs).rejected b)) := by
  change execSolveResume c q e s = _
  rw [execSolveResume, State.work_of_begun begun (List.mem_singleton_self _)]
  unfold State.resumeWaits at first
  simp only [first, reserved, mask, Bool.not_true, Bool.false_eq_true, if_false]
  unfold State.resumed State.tokenAt at checks
  rw [checks]
  cases found with
  | some f => rfl
  | none => rfl

/-! ### The statement -/

/-- Settles O38: the five forms share `State.solver`, which ends a barge by the first of its checks that fails or runs the form
that its opcode names; a resume ends likewise by the checks of its token, or runs the form that the token names. -/
theorem solverBarges : Obligations.SolverBarges := by
  unfold Obligations.SolverBarges
  intro s c q b e st r0 t j u at_ tok r v pass first
  have row : ∀ x ∈ solverForms c q e, s.Begun c q b x.1 → pass → exec x.2 s = .next (u.solveRun j e) :=
    fun _ mem begun => exec_solverForm_of_passes mem begun
  simp only [solverForms, List.forall_mem_cons] at row
  obtain ⟨batch, sched, iter, assemble, qp, -⟩ := row
  refine ⟨fun begun ok => ?batch, fun begun ok => ?sched, fun begun ok => ?iter, fun begun ok => ?assemble,
    fun begun ok => ?qp,
    fun x mem begun => ⟨exec_solverForm_of_solveChecks_fails mem begun, exec_solverForm_of_solveForm_fails mem begun⟩,
    fun begun alone reserved mask mapped mine clean fresh fits formed => ?goesOn,
    fun begun alone reserved mask fails => ?rejected⟩
  case batch => exact (batch begun ok).trans (congrArg _ (State.solveRun_of_batch u e (solveJob_op_of_begun begun)))
  case sched => exact (sched begun ok).trans (congrArg _ (State.solveRun_of_sched u e (solveJob_op_of_begun begun)))
  case iter => exact (iter begun ok).trans (congrArg _ (State.solveRun_of_iter u e (solveJob_op_of_begun begun)))
  case assemble =>
    exact (assemble begun ok).trans (congrArg _ (State.solveRun_of_assemble u e (solveJob_op_of_begun begun)))
  case qp => exact (qp begun ok).trans (congrArg _ (State.solveRun_of_qp u e (solveJob_op_of_begun begun)))
  case goesOn =>
    have passes : t.resumeChecks b r tok = none := State.resumeChecks_of_passes mapped mine clean fresh fits formed
    exact exec_solveResume_of_resumeChecks begun alone reserved mask passes
  case rejected => exact exec_solveResume_of_resumeChecks begun alone reserved mask fails

end Sys2Proof.Machine

/-! PROOFS. What an operand read finds in the register file, what it leaves alone, and the poison of an f register that an FP
instruction reads (R284, R285). -/

namespace Sys2Proof.Machine

/-! ### The frame of an issue -/

/-- `t` is `s` but for its registers, the free values drawn, the error records and the records of clusters. -/
def State.IssueFrame (s t : State) : Prop :=
  ∃ regs freeCount errs clusters,
    t = { s with regs := regs, freeCount := freeCount, errs := errs, clusters := clusters }

namespace State.IssueFrame

theorem refl (s : State) : s.IssueFrame s := ⟨_, _, _, _, rfl⟩

theorem trans {s t u : State} (h : s.IssueFrame t) (k : t.IssueFrame u) : s.IssueFrame u := by
  obtain ⟨_, _, _, _, rfl⟩ := h
  obtain ⟨_, _, _, _, rfl⟩ := k
  exact ⟨_, _, _, _, rfl⟩

theorem barges {s t : State} (h : s.IssueFrame t) : t.barges = s.barges := by
  obtain ⟨_, _, _, _, rfl⟩ := h
  rfl

theorem fabric {s t : State} (h : s.IssueFrame t) : t.fabric = s.fabric := by
  obtain ⟨_, _, _, _, rfl⟩ := h
  rfl

theorem setFld (s : State) (a : Nat) (f : Fld) (v : Nat) : s.IssueFrame (s.setFld a f v) := ⟨_, _, _, _, rfl⟩

theorem placeVcore (s : State) (d v : Nat) : s.IssueFrame (s.placeVcore d v) := (setFld s _ _ _).trans (setFld _ _ _ _)

theorem follow (s : State) (d : Nat) : s.IssueFrame (s.follow d) := by
  unfold State.follow
  dsimp only
  split
  · exact refl s
  · exact placeVcore s d _

/-- VCORE of a die rises in its registers alone (R452). -/
theorem firstIssue (s : State) (d : Nat) : s.IssueFrame (s.firstIssue d) := by
  unfold State.firstIssue
  split
  · exact (setFld s _ _ _).trans (follow _ d)
  · exact refl s

theorem recordCorrected (s : State) (unit : Nat) (part : Option Nat) (addr : Nat) :
    s.IssueFrame (s.recordCorrected unit part addr State.syndrome) := by
  unfold State.recordCorrected
  split
  · exact ⟨_, _, _, _, rfl⟩
  · exact refl s

theorem noteFault (s : State) (unit kind place : Nat) : s.IssueFrame (s.noteFault unit kind place) := ⟨_, _, _, _, rfl⟩

theorem regEcc (s : State) (P : Nat) (e : Nat × Ecc) : s.IssueFrame (s.regEcc P e) := by
  obtain ⟨word, ecc⟩ := e
  cases ecc with
  | corrected => exact (noteFault s _ _ _).trans (recordCorrected _ _ _ _)
  | uncorrectable => exact ⟨_, _, _, _, rfl⟩
  | clean | cache | buffer => exact refl s

theorem cacheEcc (s : State) (P : Nat) (e : Ecc) : s.IssueFrame (s.cacheEcc P e) := by
  cases e with
  | cache => exact (noteFault s _ _ _).trans (recordCorrected _ _ _ _)
  | clean | corrected | uncorrectable | buffer => exact refl s

theorem issueAt (s : State) (P : Nat) (env : CEnv) : s.IssueFrame (s.issueAt P env) :=
  (firstIssue s _).trans (.trans ⟨_, _, _, _, rfl⟩ ((regEcc _ P env.reg).trans (cacheEcc _ P env.ecc)))

end State.IssueFrame

/-! ### The clusters after an issue -/

/-- What the translation cache meets is no cluster's register (R284). -/
theorem State.cl_issueAt_eq_regEcc (s : State) (P Q : Nat) (env : CEnv) :
    (s.issueAt P env).cl Q = (((s.firstIssue (P / 144)).tick P env.hc).regEcc P env.reg).cl Q :=
  State.cl_congr (State.cacheEcc_clusters _ _ _) Q

theorem State.cl_tick_firstIssue (s : State) (P hc : Nat) : ((s.firstIssue (P / 144)).tick P hc).cl P = (s.cl P).after hc := by
  rw [State.cl_tick_same, State.cl_congr (s.firstIssue_clusters _)]

theorem State.cl_regEcc_of_corrected (s : State) (P : Nat) {e : Nat × Ecc} (h : e.2 = .corrected) :
    (s.regEcc P e).cl P = s.cl P := by
  unfold State.regEcc
  rw [h]
  exact State.cl_congr (State.recordCorrected_clusters _ _ _ _) P

theorem State.cl_regEcc_of_uncorrectable (s : State) (P : Nat) {e : Nat × Ecc} (h : e.2 = .uncorrectable) :
    (s.regEcc P e).cl P = { s.cl P with vpois := setIns (e.1 % 12288) (s.cl P).vpois } := by
  unfold State.regEcc
  rw [h]
  exact State.cl_setCl_same _ P _

theorem State.cl_regEcc_other (s : State) {P Q : Nat} (h : P ≠ Q) (e : Nat × Ecc) : (s.regEcc P e).cl Q = s.cl Q := by
  obtain ⟨word, ecc⟩ := e
  cases ecc with
  | corrected => exact State.cl_congr (State.recordCorrected_clusters _ _ _ _) Q
  | uncorrectable => exact State.cl_setCl_other _ h _
  | clean | cache | buffer => rfl

theorem State.cl_issueAt_other (s : State) {P Q : Nat} (h : P ≠ Q) (env : CEnv) : (s.issueAt P env).cl Q = s.cl Q := by
  rw [State.cl_issueAt_eq_regEcc, State.cl_regEcc_other _ h, State.cl_tick_other _ h, State.cl_congr (s.firstIssue_clusters _)]

/-! ### The trap (R285) -/

/-- A cluster with no unfinished matrix instruction holds no f register: a poisoned one that is read traps. -/
theorem State.withF_of_poisoned {u : State} {P n : Nat} {rd : List Nat} (idle : (u.cl P).mat = [])
    (h : (rd.find? fun i => ((u.cl P).vpoisIn (1024 * i) 8).isSome) = some n) (s : State) (wr : List Nat) (t : State) :
    s.withF u P rd wr t = u.trap P Cause.dataPoison n := by
  simp [State.withF, Cluster.regBusyR, Cluster.regBusyW, idle, h]

/-- An FP instruction of two operands that reads a poisoned f register takes the trap of it. -/
theorem exec_fpArithmetic_of_poisoned {s : State} {p : Fin 576} {w n : Nat} (h : s.Fetches p w .fpArithmetic) (env : CEnv)
    (idle : ((s.issueAt p env).cl p).mat = []) (hf : bitsOf w 5 0 < 0x0A)
    (poisoned : ([fB w, fC w].find? fun i => (((s.issueAt p env).cl p).vpoisIn (1024 * i) 8).isSome) = some n) :
    exec (.fpArithmetic p env) s = .next ((s.issueAt p env).trap p Cause.dataPoison n) := by
  have run : execFpArithmetic p env s = .next _ := State.instr_of_fetches h env _
  dsimp only at run
  rw [if_neg (by omega), if_neg (by omega), State.withF_of_poisoned idle poisoned] at run
  exact run

/-! ### The statement -/

/-- Settles O9: an issue is the end of an idle drop, a tick, what the operand reads meet and what the translation cache meets; the
tick and the operand reads alone reach the record of the cluster, the latter in the poison of one word. -/
theorem operandReads : Obligations.OperandReads := by
  unfold Obligations.OperandReads
  intro s p env w n t
  have frame : s.IssueFrame t := .issueAt s p env
  refine ⟨s.issueAt_clean p, s.firstIssue_of_up _, fun h => ?corrected, fun h => ?uncorrectable,
    fun q hq => s.cl_issueAt_other (Ne.symm hq) env, (State.SameBytes.refl s).issueAt, frame.barges, frame.fabric,
    fun h idle hf poisoned => exec_fpArithmetic_of_poisoned h env idle hf poisoned⟩
  case corrected => rw [State.cl_issueAt_eq_regEcc, State.cl_regEcc_of_corrected _ _ h, State.cl_tick_firstIssue]
  case uncorrectable =>
    rw [State.cl_issueAt_eq_regEcc, State.cl_regEcc_of_uncorrectable _ _ h, State.cl_tick_firstIssue]
    rfl

end Sys2Proof.Machine

/-! PROOFS. The mapping barges: which records MAP_SET installs and MAP_CLEAR removes (R282, R283, R403 to R406). -/

namespace Sys2Proof.Machine

/-! ### Lists of checks -/

@[simp] theorem passes_nil : Passes [] ↔ True := iff_true_intro rfl

@[simp] theorem passes_cons (bad : Bool) (f : Nat × Nat) (l : List (Bool × Nat × Nat)) :
    Passes ((bad, f) :: l) ↔ bad = false ∧ Passes l := by
  cases bad <;> simp [Passes, firstFail]

/-- No index is selected where the test fails at each. -/
theorem firstIdx_eq_none_iff {α : Type} (sel : Nat → α → Bool) (l : List α) :
    firstIdx sel l = none ↔ ∀ i (h : i < l.length), sel i l[i] = false := by
  simp only [firstIdx, Option.map_eq_none_iff, List.find?_eq_none, List.forall_mem_zipIdx', Bool.not_eq_true]

theorem firstIdx_const_eq_none_iff {α : Type} (sel : α → Bool) (l : List α) :
    firstIdx (fun _ r => sel r) l = none ↔ ∀ r ∈ l, sel r = false := by
  rw [firstIdx_eq_none_iff, List.forall_mem_iff_forall_getElem]

/-! ### MAP_SET -/

/-- The list of a MAP_SET has a shape that R403 allows: up to 5 records in the barge, or up to 65,536 in memory. -/
structure Barge.MapSetShape (b : Barge) : Prop where
  reserved : b.reservedZero [(39, 37)] = true
  nonzero : b.f 35 32 ≠ 0
  source :
    b.f 36 36 = 0 ∧ b.f 35 32 ≤ 5 ∧ zeroB b.bytes 47 40 = true ∧ zeroB b.bytes 127 (48 + 16 * b.f 35 32) = true ∨
    b.f 36 36 = 1 ∧ b.f 35 32 ≤ 65536 ∧ zeroB b.bytes 127 48 = true

/-- The state in which a MAP_SET judges its records: a list in memory has been read. -/
def State.mapListRead (s : State) (b : Barge) (x : Contest) : State :=
  if b.f 36 36 = 1 then (s.execContest b (s.touches b.part (b.f 47 40) (16 * b.f 35 32) false) x).meetAll x.errs else s

/-- The records that a MAP_SET installs. -/
def State.newRecs (t : State) (b : Barge) : List MapRec := (t.mapRecs b).map (recOf b.part)

/-- The records of a MAP_SET pass the checks of R282. -/
structure State.MapSetOk (t : State) (b : Barge) : Prop where
  reserved : ∀ r ∈ t.mapRecs b, recReserved r = true
  valid : ∀ r ∈ t.newRecs b, recValid r = true
  localApart : firstIdx (fun i r => (t.maps.any fun y => y.part == b.part && recsMeetVA y r) ||
    ((t.newRecs b).take i).any fun y => recsMeetVA y r) (t.newRecs b) = none
  physicalApart : ∀ r ∈ t.newRecs b, ∀ y ∈ t.maps, y.part ≠ b.part → recsMeetPA y r = false
  room : (t.maps.filter fun r => r.part == b.part).length + (t.newRecs b).length ≤ 1048576

/-- A MAP_SET that passes every check installs all its records (R282, R404). -/
theorem exec_mapSet_of_passes {s t : State} {c : Fin 256} {q : Nat} {b : Barge} {x : Contest} (begun : s.Begun c q b 0x103)
    (first : s.startedBefore b [0x103, 0x104] (fun _ => true) = false) (shape : b.MapSetShape) (readable : s.listFault b = none)
    (read : s.mapListRead b x = t) (kept : t.listFault b = none) (ok : t.MapSetOk b) :
    exec (.mapSet c q x) s =
      .next ((t.setMaps b.part (t.maps ++ t.newRecs b)).finish b.canal b.seq St.done (b.f 35 32) 0) := by
  change execMapSet c q x s = _
  unfold State.mapListRead at read
  rw [execMapSet, State.work_of_begun begun (List.mem_singleton_self _)]
  dsimp only
  rw [if_neg (Bool.eq_false_iff.mp first), State.checked_of_passes ?shape]
  rw [read, State.checked_of_passes ?list, State.checked_of_passes ?records]
  case shape =>
    obtain ⟨zero, nonzero, source⟩ := shape
    rcases source with ⟨src, few, addr, rest⟩ | ⟨src, few, rest⟩
    · simp [readable, zero, nonzero, src, few, addr, rest]
    · simp [readable, zero, nonzero, src, few, rest]
  case list => simp [kept]
  case records =>
    obtain ⟨reserved, valid, localApart, physicalApart, room⟩ := ok
    unfold State.newRecs at valid localApart physicalApart room
    simp only [passes_cons, passes_nil, Option.isSome_eq_false_iff, Option.isNone_iff_eq_none, and_true]
    refine ⟨?_, ?_, localApart, ?_, ?_⟩
    · exact (firstIdx_const_eq_none_iff _ _).mpr fun r hr => by simp [reserved r hr]
    · exact (firstIdx_const_eq_none_iff _ _).mpr fun r hr => by simp [valid r hr]
    · exact (firstIdx_const_eq_none_iff _ _).mpr fun r hr => by simpa using physicalApart r hr
    · exact (firstIdx_eq_none_iff _ _).mpr fun i hi => decide_eq_false (by omega)
  rfl

/-! ### MAP_CLEAR -/

section
variable (s : State) (b : Barge)

/-- The records of the barge's partition. -/
def State.ownRecs : List MapRec := s.maps.filter fun r => r.part == b.part

/-- The records that a MAP_CLEAR removes. -/
def State.recsCleared : List MapRec := (s.ownRecs b).filter fun r => recInside r (b.f 39 32) (b.f 47 40)

/-- The map without them; they stand as removed by the barge until nothing uses their pages (R283). -/
def State.mapCleared : State :=
  { (s.setMaps b.part (s.maps.filter fun r => !(r.part == b.part && recInside r (b.f 39 32) (b.f 47 40)))) with
    unmapped := s.unmapped ++ (s.recsCleared b).map fun r => (b.startNo, r) }

/-- The range of a MAP_CLEAR passes check 0x0110: whole 64 KiB units of mapped addresses, which cut no page (R405). -/
structure State.MapClearOk : Prop where
  base : b.f 39 32 % 65536 = 0
  len : b.f 47 40 % 65536 = 0
  nonzero : b.f 47 40 ≠ 0
  mapped : 2 ^ 32 ≤ b.f 39 32
  inside : b.f 39 32 + b.f 47 40 ≤ 2 ^ 48
  whole : ((s.ownRecs b).any fun r => spansMeet r.va (pageBytes r.size) (b.f 39 32) (b.f 47 40) &&
    !recInside r (b.f 39 32) (b.f 47 40)) = false

end

/-- A MAP_CLEAR whose range holds records removes them, and waits for what uses the removed pages of its range (R283, R405). -/
theorem exec_mapClear_of_passes {s : State} {c : Fin 256} {q : Nat} {b : Barge} (begun : s.Begun c q b 0x104)
    (first : s.startedBefore b [0x103, 0x104] (fun _ => true) = false) (reserved : b.reservedZero [(127, 48)] = true)
    (ok : s.MapClearOk b) (removes : s.recsCleared b ≠ []) :
    exec (.mapClear c q) s = .next ((s.mapCleared b).working b.canal b.seq fun d => { d with
      work := .unmap ((s.mapCleared b).unmapped.filter fun r => r.2.part == b.part && recInside r.2 (b.f 39 32) (b.f 47 40))
        (s.recsCleared b).length }) := by
  change execMapClear c q s = _
  rw [execMapClear, State.work_of_begun begun (List.mem_singleton_self _)]
  dsimp only
  rw [if_neg (Bool.eq_false_iff.mp first), State.checked_of_passes ?passes]
  case passes =>
    obtain ⟨base, len, nonzero, mapped, inside, whole⟩ := ok
    unfold State.ownRecs at whole
    simpa [reserved, base, len, nonzero, whole] using And.intro mapped inside
  unfold State.recsCleared State.ownRecs at removes
  rw [if_neg (by simpa using removes)]
  rfl

/-- A MAP_CLEAR completes with how many records it removed, once nothing uses their pages (R283, R405). -/
theorem exec_mapClearComplete_of_unused {s : State} {c : Fin 256} {q : Nat} {b : Barge} {recs : List (Nat × MapRec)} {n : Nat}
    (sound : s.Sound) (barge : s.barge? c.val q = some b) (work : b.work = .unmap recs n)
    (unused : recs.any s.pageInUse = false) :
    exec (.mapClearComplete c q) s = .next
      (({ s with unmapped := s.unmapped.filter fun r => !recs.contains r } : State).finish b.canal b.seq St.done n 0) := by
  change execMapClearComplete c q s = _
  rw [execMapClearComplete, State.go_of_sound sound]
  simp only [barge, work, unused, Bool.false_eq_true, if_false]

/-! ### The statement -/

/-- Settles O36: each row changes the map once its checks pass, and completes with what it installed or removed. -/
theorem mapBarges : Obligations.MapBarges := by
  unfold Obligations.MapBarges
  intro s c q b x recs n p first m src lf t raw new held base len mine gone cleared
  refine ⟨fun begun alone zero nonzero source readable kept reserved valid localApart physicalApart room => ?set,
    fun begun alone zero baseWhole lenWhole nonzero mapped inside whole removes => ?clear,
    exec_mapClearComplete_of_unused⟩
  case set =>
    exact exec_mapSet_of_passes begun alone ⟨zero, nonzero, source⟩ readable rfl kept
      ⟨reserved, valid, localApart, physicalApart, room⟩
  case clear =>
    exact exec_mapClear_of_passes begun alone zero ⟨baseWhole, lenWhole, nonzero, mapped, inside, whole⟩ removes

end Sys2Proof.Machine

/-! PROOFS. Heat and refresh: what the responses of Table 15-4 and the refresh rows leave (R286, R336, R451). -/

namespace Sys2Proof.Machine

/-! ### Outcomes without every sound condition -/

/-- Stacks whose rails are in range: a command whose accesses do not wait leaves its state. -/
theorem State.go_of_not_waits {s t : State} (rails : s.health.railOut = false) (powered : s.health.stackOut = [])
    (h : t.heat.waits = false) : s.go t = .next t := by
  simp [State.go, State.goOn, rails, powered, h]

theorem State.goStack_of_not_waits {s t : State} (rails : s.health.railOut = false) (powered : s.health.stackOut = [])
    (h : t.heat.waits = false) (st : Nat) : s.goStack st t = .next t := by
  simp [State.goStack, powered, State.go_of_not_waits rails powered h]

/-- A command whose accesses wait leaves the state as it was (R451, R582). -/
theorem State.go_of_waits {s t : State} (rails : s.health.railOut = false) (holds : s.holds = true)
    (h : t.heat.waits = true) : s.go t = .next { s with heat := { s.heat with waits := false } } := by
  simp [State.go, rails, holds, h]

/-! ### What leaves the heat of the package alone -/

theorem State.addNote_heat (s : State) (k q note : Nat) : (s.addNote k q note).heat = s.heat := by
  unfold State.addNote
  split <;> rfl

theorem State.choice_heat (s : State) (part : Nat) (who : Option (List (Nat × Nat))) : (s.choice part who).heat = s.heat := by
  cases who with
  | none => rfl
  | some l => exact foldl_same State.heat _ (fun t b => t.addNote_heat b.1 b.2 _) l _

theorem State.grant_heat (s : State) (me : Requester) (ts : List Touch) (g : Grant) : (s.grant me ts g).heat = s.heat := by
  unfold State.grant
  split
  · rfl
  · dsimp only
    split
    · rfl
    · exact State.choice_heat _ _ _

theorem State.contest_heat (s : State) (me : Requester) (ts : List Touch) (x : Contest) :
    (s.contest me ts x).heat = (s.stall (ts.map fun t => (t.pa, t.len))).heat :=
  foldl_same State.heat _ (fun t g => t.grant_heat me ts g) x.grants _

theorem State.interrupt_heat (s : State) (port fn entry : Nat) : (s.interrupt port fn entry).heat = s.heat := by
  unfold State.interrupt
  dsimp only
  split_ifs <;> rfl

/-- What a host event raises on a management port: an in-band interrupt, or ALERT_N (R652). -/
def State.alertMgmt (s : State) (k : Nat) : State :=
  let m := s.mgmtPort k
  if m.i3c then (if m.ibiOn then s.emit (.ibi k (s.reg Reg.hostEvent % 256)) else s) else s.emit (.alert k)

theorem State.hostEvt_of_set {s : State} {f : Fld} (h : s.flag Reg.hostEvent f = true) : s.hostEvt f = s := by
  unfold State.hostEvt
  rw [if_pos h]

/-- A bit of HOST_EVENT that changes from 0 to 1 fires entry 256 of both ports and raises an alert on both (R645, R652). -/
theorem State.hostEvt_of_clear {s : State} {f : Fld} (h : s.flag Reg.hostEvent f = false) :
    s.hostEvt f =
      [0, 1].foldl State.alertMgmt (((s.setFld Reg.hostEvent f 1).interrupt 0 0 256).interrupt 1 0 256) := by
  unfold State.hostEvt
  rw [if_neg (Bool.eq_false_iff.mp h)]
  rfl

theorem State.alertMgmt_heat (s : State) (k : Nat) : (s.alertMgmt k).heat = s.heat := by
  unfold State.alertMgmt
  dsimp only
  split_ifs
  · exact State.emit_heat _ _
  · rfl
  · exact State.emit_heat _ _

theorem State.hostEvt_heat (s : State) (f : Fld) : (s.hostEvt f).heat = s.heat := by
  cases h : s.flag Reg.hostEvent f with
  | true => rw [State.hostEvt_of_set h]
  | false =>
    rw [State.hostEvt_of_clear h, foldl_same State.heat _ State.alertMgmt_heat, State.interrupt_heat, State.interrupt_heat,
      State.setFld_heat]

theorem State.showHot_heat (s : State) : s.showHot.heat = s.heat := by
  unfold State.showHot
  dsimp only
  split
  · exact (State.hostEvt_heat _ _).trans (State.setFld_heat _ _ _ _)
  · exact State.setFld_heat _ _ _ _

/-! ### Accesses that wait (R451, R582) -/

/-- An access to a stack at 110 °C or to a basin that is being moved has its command wait. -/
theorem State.contest_waits {s : State} {ts : List Touch} (holds : s.holds = true)
    (held : ∃ r ∈ ts, s.hotAt r.pa r.len = true ∨ s.movedAt r.pa r.len = true) (me : Requester) (x : Contest) :
    (s.contest me ts x).heat.waits = true := by
  rw [State.contest_heat, State.stall, if_pos]
  simpa [holds, List.any_map, Function.comp_def] using held

theorem State.holds_of_hot {s : State} (h : s.heat.s110 ≠ []) : s.holds = true := by
  simp [State.holds, h]

theorem State.holds_of_subs {s : State} (h : s.subs ≠ []) : s.holds = true := by
  simp [State.holds, h]

/-! ### The rows -/

/-- Every VCORE at 0 V, as the thermal trip leaves it. -/
def State.coresOff (s : State) : State :=
  (List.range 4).foldl (fun u d => ((u.throttleDie d).setVcore d 0).dropPace d Ca.thermal)
    (s.modHeat fun h => { h with trip := true })

/-- Every cluster that is not idle has stopped. -/
def State.allStopped (s : State) : State :=
  { s with clusters := s.clusters.map fun c =>
    if c.2.act = .idle then c else (c.1, { c.2 with act := .stopped, wait := .none, mat := [] }) }

section
variable {s : State} (sound : s.Sound)
include sound

theorem exec_thermalTrip_of_sound :
    exec .thermalTrip s = .next (s.coresOff.allStopped.showHot.emit .thermTrip) :=
  calc exec .thermalTrip s
    _ = s.go (s.coresOff.allStopped.showHot.emit .thermTrip) := rfl
    _ = .next (s.coresOff.allStopped.showHot.emit .thermTrip) := State.go_of_sound sound _

theorem exec_dramOver105_of_hot {st : Fin 32} (hot : s.heat.s105.contains st.val = true) (parts : BitVec 8)
    (waiting : List (Nat × Nat)) :
    exec (.dramOver105 st parts waiting) s = .next (s.modHeat fun h => { h with s105 := setIns st.val h.s105 }).showHot :=
  (State.goStack_of_sound sound _ _).trans (congrArg _ (if_pos hot))

theorem exec_tjTargetExceeded_of_on {d : Fin 4} {t : State}
    (raised : (s.modHeat fun h => { h with tj := setIns d.val h.tj }) = t) (on : t.coreOn d.val = true) :
    exec (.tjTargetExceeded d) s =
      .next (t.lowerVcore d.val (max 600 (t.vcore d.val - 5)) Ca.thermal F.VCORE_STATUS_THERMAL) := by
  subst raised
  exact (State.goDie_of_sound sound _ _).trans (congrArg _ (if_neg (by rw [on]; decide)))

end

/-! ### The statement -/

/-- Settles O46: each row acts at once in a sound package; a response to a stack at 110 °C ends as long as no access of its
command waits, and one that accesses such a stack is left undone. -/
theorem heatAndRefresh : Obligations.HeatAndRefresh := by
  unfold Obligations.HeatAndRefresh
  intro s d k st parts l temp off a band seen warm cold hot
  -- Under its own name the tripped package is compared as a term, and not evaluated.
  have named : off = s.coresOff := rfl
  clear_value off
  subst named
  refine ⟨fun sound => exec_thermalTrip_of_sound sound, fun sound => State.goStack_of_sound sound _ _,
    fun sound shown => exec_dramOver105_of_hot sound shown parts l, fun sound fresh => ?over105,
    fun sound => State.goDie_of_sound sound _ _, fun sound => State.go_of_sound sound _,
    fun sound on => exec_tjTargetExceeded_of_on sound rfl on, fun rails powered idle => ?end110,
    fun sound => State.goStack_of_sound sound _ _, fun me ts g u rails hotStacks touched => ⟨?waits, fun h => ?undone⟩,
    fun sound => State.goDie_of_sound sound _ _, fun sound => State.go_of_sound sound _,
    fun sound => State.goDie_of_sound sound _ _, fun sound awake => ?bandAwake, fun sound asleep => ?bandAsleep,
    fun sound => ⟨State.goStack_of_sound sound _ _, State.goStack_of_sound sound _ _⟩⟩
  case over105 => exact (State.goStack_of_sound sound _ _).trans (congrArg _ (if_neg (Bool.eq_false_iff.mp fresh)))
  case end110 =>
    have cool : (s.modHeat fun h => { h with s110 := setDel st.val h.s110 }).showHot.heat.waits = false := by
      rw [State.showHot_heat]
      exact idle
    exact ⟨cool, State.goStack_of_not_waits rails powered cool _⟩
  case waits =>
    exact State.contest_waits (State.holds_of_hot hotStacks)
      ((List.any_eq_true.mp touched).imp fun _ h => ⟨h.1, .inl h.2⟩) me _
  case undone => exact State.go_of_waits rails (State.holds_of_hot hotStacks) h
  case bandAwake => exact (State.goStack_of_sound sound _ _).trans (congrArg _ (if_neg awake))
  case bandAsleep => exact (State.goStack_of_sound sound _ _).trans (congrArg _ (if_pos asleep))

end Sys2Proof.Machine

/-! PROOFS. Partitions: how they are made, destroyed and changed, and the interleave mode (R280, R472 to R478, R486). -/

namespace Sys2Proof.Machine

/-! ### PART_CREATE and PART_DESTROY (R472 to R478) -/

/-- A PART_CREATE whose checks pass and that waited for nothing builds its partition, opens it, and reports its incarnation. -/
theorem exec_partCreate_of_passes {s : State} {c : Fin 256} {q : Nat} {b : Barge} (begun : s.Begun c q b 0x800)
    (passes : Passes (s.createChecks b)) (direct : b.waitFrom = none) :
    exec (.partCreate c q) s = .next (((s.partBuild b).partLive b.part).finish b.canal b.seq St.done 0
      (((s.partBuild b).partLive b.part).fld (Reg.partState b.part) F.PART_STATE_INCARNATION)) := by
  change execPartCreate c q s = _
  rw [execPartCreate, State.work_of_begun begun (List.mem_singleton_self _), State.checked_of_passes passes]
  simp only [direct]

/-- Steps 1 and 2 of Table 16-3: the partition stops, and its earlier barges are drained. -/
def State.destroyBegun (s : State) (b : Barge) : State :=
  (((s.working b.canal b.seq id).partStop b.part).drainAll (b.canal, b.seq)
    ((s.partBarges b).map fun x => (x.canal, x.seq))).2

/-- A PART_DESTROY whose checks pass stops its partition and goes on, where no run of it is paused. -/
theorem exec_partDestroy_of_passes {s : State} {c : Fin 256} {q : Nat} {b : Barge} (begun : s.Begun c q b 0x801)
    (reserved : b.reservedZero [(127, 33)] = true) (flags : b.f 32 32 < 2) (live : s.live b.part = true)
    (going : (s.partBarges b).any s.runPaused = false) :
    exec (.partDestroy c q) s = .next ((s.destroyBegun b).destroyOn b) := by
  obtain ⟨sound, barge, phase, native⟩ := begun
  change execPartDestroy c q s = _
  rw [execPartDestroy, State.go_of_sound sound]
  simp only [barge, native, phase, ne_eq, not_true_eq_false, if_false]
  rw [State.checked_of_passes ?passes, if_neg (Bool.eq_false_iff.mp going)]
  case passes => simpa [reserved, live] using flags
  rfl

/-- Once its earlier barges have completed and nothing uses its pages, a partition is scrubbed, and its PART_DESTROY
completes. -/
theorem State.destroyOn_of_quiet {s : State} {b : Barge} (drained : s.partBarges b = [])
    (unused : (s.maps.any fun m => m.part == b.part && s.pageInUse (b.startNo, m)) = false) :
    s.destroyOn b = (s.partScrub b.part).2.endBarge b.canal b.seq St.done (s.partScrub b.part).1 0 := by
  unfold State.destroyOn
  rw [if_neg (by simp only [drained, unused]; decide)]

/-- A PART_DESTROY that is offered again goes on. -/
theorem exec_partDestroy_of_working {s : State} {c : Fin 256} {q : Nat} {b : Barge} (sound : s.Sound)
    (barge : s.barge? c.val q = some b) (native : b.native = 0x801) (phase : b.phase = .working) :
    exec (.partDestroy c q) s = .next (s.destroyOn b) := by
  change execPartDestroy c q s = _
  rw [execPartDestroy, State.go_of_sound sound]
  simp only [barge, native, phase, ne_eq, not_true_eq_false, if_false]

/-! ### Register writes (R280, R486) -/

/-- A row that writes a register by a path that serves it acts on the package that it woke. -/
theorem State.go_viaPath_of_reaches {s : State} {rp : RegPath} {a : Nat} (h : s.Reaches rp a) (write : State → State) :
    s.go (s.viaPath rp a write) = .next (write (s.wakeFor a)) := by
  rw [State.go_of_sound h.1, State.viaPath_of_reaches h]

/-! ### The statement -/

/-- Settles O47: the two barges act once their checks pass, the later offers of a PART_DESTROY wait for its partition to come to
rest, and the writes act where they are served. -/
theorem partitions : Obligations.Partitions := by
  unfold Obligations.Partitions
  intro s c q b p k v rp t inc old w gone
  refine ⟨exec_partCreate_of_passes, exec_partDestroy_of_passes, fun sound barge native phase quiet => ?ends,
    fun served => State.go_viaPath_of_reaches served _, fun served => State.go_viaPath_of_reaches served _,
    fun sound => State.go_of_sound sound _, fun served => State.go_viaPath_of_reaches served _⟩
  case ends =>
    obtain ⟨drained, unused⟩ := quiet
    rw [exec_partDestroy_of_working sound barge native phase, State.destroyOn_of_quiet drained unused]

end Sys2Proof.Machine

/-! PROOFS. Failures: what a check, a lost link, a broken segment or a rail takes out of service; substitutions, cuppings and
scrubbing (R285, R335, R417, R418, R577 to R595, R599, R664, R665). -/

namespace Sys2Proof.Machine

/-! ### A substitution that is under way (R582, R584, R599) -/

/-- No rail out of its range and no void die: a command that makes no access leaves its state. -/
theorem State.goDieOn_of_rails {s : State} (rails : s.health.railOut = false) (dies : s.health.voidDies = [])
    (powered : s.health.stackOut = []) (d : Nat) (t : State) : s.goDieOn d t = .next t := by
  simp [State.goDieOn, State.goOn, rails, dies, powered]

/-- Step 6 of a substitution makes the map changes that waited for it. -/
theorem exec_substitutionResume_of_rails {s : State} {p : Fin 576} {x : Subst} (rails : s.health.railOut = false)
    (dies : s.health.voidDies = []) (powered : s.health.stackOut = [])
    (found : (s.subs.find? fun y => y.failed == p.val) = some x) (hc : Nat) :
    exec (.substitutionResume p hc) s =
      .next (((s.endSubst x hc).spareDone 1 x.failed x.spare).meetWaiting (s.mapWait.length + 1)) := by
  change execSubstitutionResume p hc s = _
  rw [execSubstitutionResume, State.goDieOn_of_rails rails dies powered]
  simp only [found]

/-! ### Links and towpath segments (R591, R592) -/

/-- The state in which a lost die link is recorded, and what it cuts off has failed. -/
def State.linkGone (s : State) (l : Nat) : State :=
  let t : State := { s with health := { s.health with linksOut := s.health.linksOut ++ [l] } }
  (t.errRecord (unitDieLink l) 5 7 7 none 0 0 0 s.now).cutStations s 5

section
variable {s : State} (sound : s.Sound)
include sound

/-- What a lost link takes out beside what it cuts off goes by its number in Table 1-2. -/
theorem exec_dieLinkLost_of_whole {l : Fin 54} (whole : s.health.linksOut.contains l.val = false) (ops : List Nat) :
    exec (.dieLinkLost l ops) s = .next
      (if l.val < 32 then (s.linkGone l.val).stackDown l.val 5 3
      else if l.val < 40 then (s.linkGone l.val).retryOps fun o => ops.contains o.num
      else if l.val = 53 then
        ((s.linkGone l.val).setFld Reg.failopStatus F.FAILOP_STATUS_STANDBY 2).setFld Reg.logStatus F.LOG_STATUS_SINGLE 1
      else s.linkGone l.val) := by
  change execDieLinkLost l ops s = _
  rw [execDieLinkLost, State.go_of_sound sound, if_neg (Bool.eq_false_iff.mp whole)]
  rfl

theorem exec_towpathBreak_of_whole {g : Fin 40} (whole : s.health.towOut.contains g.val = false) :
    let t : State := { s with health := { s.health with towOut := setIns g.val s.health.towOut } }
    exec (.towpathBreak g) s = .next (((t.setFld Reg.failopStatus F.FAILOP_STATUS_TOWPATH_BREAKS
      (min t.health.towOut.length 3)).errRecord (unitTowpath g.val) 0x0A 7 6 none 0 0 0 s.now).cutStations s 0x0A) := by
  change execTowpathBreak g s = _
  rw [execTowpathBreak, State.go_of_sound sound, if_neg (Bool.eq_false_iff.mp whole)]
  rfl

end

/-- One broken segment leaves every station its other way round the ring (R592). -/
theorem State.cutStations_of_one_break {s : State} (h : s.health.towOut.length < 2) (was : State) (kind : Nat) :
    s.cutStations was kind = s := by
  unfold State.cutStations
  rw [if_pos h]

/-! ### Lockstep -/

section
variable {s : State} (sound : s.Sound) (f : Fin 2)
include sound

theorem exec_lockstepMismatch_of_active (active : f.val = s.activePdie) :
    exec (.lockstepMismatch (.pdie f)) s = .next (s.takeover 4) :=
  (State.go_of_sound sound _).trans (congrArg _ (if_pos active))

theorem exec_lockstepMismatch_of_standby (standby : f.val ≠ s.activePdie) :
    exec (.lockstepMismatch (.pdie f)) s = .next (s.standbyFail f.val 4) :=
  (State.go_of_sound sound _).trans (congrArg _ (if_neg standby))

end

/-! ### SPARE_SUBSTITUTE (R418) -/

section
variable {s : State} {c : Fin 256} {q : Nat} {b : Barge} (begun : s.Begun c q b 0x901)
  (reserved : b.reservedZero [(35, 33), (127, 40)] = true) (alone : s.subs = [])
include begun reserved alone

theorem exec_spareSubstitute_of_cluster (kind : b.f 32 32 = 1) (inRange : b.f 39 36 < 576)
    (whole : s.fld (Reg.clusterUnitMap (b.f 39 36)) F.CLUSTER_UNIT_MAP_STATE = 0)
    (reach : s.reachOut (reachOfPhys (b.f 39 36)) = false) (spare : (s.idleSpare (reachOfPhys (b.f 39 36))).isSome = true) :
    exec (.spareSubstitute c q) s = .next ((s.working b.canal b.seq id).clusterFail (b.f 39 36) 0 4 0x0B) := by
  change execSpareSubstitute c q s = _
  rw [execSpareSubstitute, State.work_of_begun begun (List.mem_singleton_self _), if_neg (by simp [alone]),
    State.checked_of_passes ?passes]
  case passes => simp [reserved, kind, inRange, whole, reach, spare]
  simp only [kind, if_true]

theorem exec_spareSubstitute_of_channel {i : Nat} (kind : b.f 32 32 = 2) (inRange : b.f 39 36 < 1024)
    (stack : s.fld (Reg.stackMap (b.f 39 36 / 32)) F.STACK_MAP_STATE ≠ 2)
    (whole : s.channelOut (b.f 39 36 / 32) (b.f 39 36 % 32) = false) (spare : s.idleChannel (b.f 39 36 / 32) = some i) :
    exec (.spareSubstitute c q) s = .next ((s.channelFail (b.f 39 36 / 32) (b.f 39 36 % 32) 4 0x0B).endBarge b.canal b.seq
      St.done (b.f 39 36 / 32 * 34 + 32 + i) 0) := by
  change execSpareSubstitute c q s = _
  rw [execSpareSubstitute, State.work_of_begun begun (List.mem_singleton_self _), if_neg (by simp [alone]),
    State.checked_of_passes ?passes]
  case passes => simp [reserved, kind, inRange, stack, whole, spare]
  simp [kind, spare]

theorem exec_spareSubstitute_of_port (kind : b.f 32 32 = 3) (inRange : b.f 39 36 < 18 ∧ b.f 39 36 % 9 < 8)
    (fdie : s.fld (Reg.portMap (b.f 39 36 / 9)) F.PORT_MAP_STATE ≠ 2)
    (whole : bitOf (s.fld (Reg.portMap (b.f 39 36 / 9)) F.PORT_MAP_DISABLED) (b.f 39 36 % 9) = false)
    (spare : bitOf (s.fld (Reg.portMap (b.f 39 36 / 9)) F.PORT_MAP_DISABLED) 8 = false)
    (idle : s.fld (Reg.portMap (b.f 39 36 / 9)) F.PORT_MAP_SPARE_FOR = 0xF) :
    exec (.spareSubstitute c q) s =
      .next ((s.portFail (b.f 39 36) 4 0x0B).endBarge b.canal b.seq St.done (b.f 39 36 / 9 * 9 + 8) 0) := by
  change execSpareSubstitute c q s = _
  rw [execSpareSubstitute, State.work_of_begun begun (List.mem_singleton_self _), if_neg (by simp [alone]),
    State.checked_of_passes ?passes]
  case passes => simp [reserved, kind, inRange, fdie, whole, spare, idle]
  simp [kind]

end

/-! ### DIAG_CUPPING (R417) -/

theorem State.cupping?_of_executing {s : State} {c q : Nat} {b : Barge} (barge : s.barge? c q = some b)
    (native : b.native = 0x900) (executing : b.executing = true) : s.cupping? c q = some b := by
  simp [State.cupping?, barge, native, executing]

theorem Barge.executing_of_started {b : Barge} (h : b.phase = .started) : b.executing = true := by
  simp [Barge.executing, h]

theorem Barge.executing_of_working {b : Barge} (h : b.phase = .working) : b.executing = true := by
  simp [Barge.executing, h]

/-- The reaches that a DIAG_CUPPING names. -/
def Barge.cupReaches (b : Barge) : List Nat := setBits 64 (b.f 39 32)

/-- A DIAG_CUPPING whose checks pass begins once its reaches are still. -/
theorem exec_diagCupping_of_passes {s : State} {c : Fin 256} {q : Nat} {b : Barge} (begun : s.Begun c q b 0x900)
    (reserved : b.reservedZero [(127, 40)] = true) (named : b.cupReaches ≠ [])
    (own : ∀ cp, s.canalPart b.canal = some cp → ∀ r ∈ b.cupReaches, s.reachPart r = some cp)
    (free : (b.cupReaches.any fun r => s.reachGone r || s.reachRuns r || s.reachArmed r) = false)
    (still : (b.cupReaches.any fun r => !s.reachStill r || s.subs.any fun x => reachOfPhys x.failed == r) = false)
    (cup : List (Nat × Cupping)) :
    exec (.diagCupping c q cup) s =
      .next ((firstOnDies b.cupReaches).foldl State.cupBegin (s.working b.canal b.seq id)) := by
  obtain ⟨sound, barge, phase, native⟩ := begun
  change execDiagCupping c q cup s = _
  rw [execDiagCupping, State.go_of_sound sound,
    State.cupping?_of_executing barge native (Barge.executing_of_started phase)]
  dsimp only
  unfold Barge.cupReaches at named own free still
  rw [if_neg (by rw [phase]; decide), State.checked_of_passes ?passes, if_neg (Bool.eq_false_iff.mp still)]
  case passes =>
    have permitted : ((s.canalPart b.canal).isSome &&
        (setBits 64 (b.f 39 32)).any fun r => s.reachPart r != s.canalPart b.canal) = false := by
      cases canal : s.canalPart b.canal with
      | none => rfl
      | some cp => simpa using own cp canal
    simp only [passes_cons, passes_nil, permitted, free]
    simp [reserved, named]
  rfl

/-- Each further offer ends the cuppings that run and begins the next ones; the last one ends the barge. -/
theorem exec_diagCupping_of_working {s t : State} {c : Fin 256} {q : Nat} {b : Barge} {cup : List (Nat × Cupping)}
    (sound : s.Sound) (barge : s.barge? c.val q = some b) (native : b.native = 0x900) (phase : b.phase = .working)
    (on : s.cupOn b.cupReaches cup = t) :
    let bad := b.cupReaches.filter fun r => t.fld (Reg.cuppingResult r) F.CUPPING_RESULT_STATUS != 1
    exec (.diagCupping c q cup) s = .next (if b.cupReaches.any t.cupRuns then t
      else t.endBarge b.canal b.seq (if bad.isEmpty then St.done else 0x0910) (maskOf bad) 0) := by
  intro bad
  change execDiagCupping c q cup s = _
  rw [execDiagCupping, State.go_of_sound sound,
    State.cupping?_of_executing barge native (Barge.executing_of_working phase)]
  subst on
  exact congrArg _ (if_pos phase)

/-! ### Scrubbing (R286, R335, R337) -/

section
variable {s : State} (sound : s.Sound) {st : Fin 32}
include sound

/-- In S4 a stack in self-refresh leaves it for a burst of scrubbing. -/
theorem exec_selfRefreshScrubBurst_of_burst (burst : s.fld Reg.weirStatus F.WEIR_STATUS_STATE = 4 ∧
      s.flag (Reg.stackStatus st.val) F.STACK_STATUS_SELF_REFRESH = true) (lines : List (Fin 2 × Ecc)) :
    exec (.selfRefreshScrubBurst st lines) s =
      .next (lines.foldl (fun t e => t.scrubLine st.val e.1.val e.2) s).retireDue :=
  (State.goStack_of_sound sound _ _).trans (congrArg _ (if_pos burst))

theorem exec_selfRefreshScrubBurst_of_idle (idle : ¬ (s.fld Reg.weirStatus F.WEIR_STATUS_STATE = 4 ∧
      s.flag (Reg.stackStatus st.val) F.STACK_STATUS_SELF_REFRESH = true)) (lines : List (Fin 2 × Ecc)) :
    exec (.selfRefreshScrubBurst st lines) s = .next s :=
  (State.goStack_of_sound sound _ _).trans (congrArg _ (if_neg idle))

theorem exec_channelCopyComplete_of_copying {x : Nat × Nat} (copying : (s.copies.find? fun y => y.1 == st.val) = some x) :
    exec (.channelCopyComplete st) s = .next (({ s with
      barges := s.barges.map s.copyNote, copies := s.copies.filter (· != x) } : State).showCopy st.val).retireDue := by
  change execChannelCopyComplete st s = _
  rw [execChannelCopyComplete, State.goStack_of_sound sound]
  simp only [copying]

end

/-! ### The statement -/

/-- Settles O50: each check's finding acts at once in a sound package; the barges of service act once their checks pass, and an
access to a basin that is being moved waits. -/
theorem failuresAndScrubbing : Obligations.FailuresAndScrubbing := by
  unfold Obligations.FailuresAndScrubbing
  refine ⟨?failures, ?scrubbing⟩
  case failures =>
    intro s p r f st d e l g c q hc ops again x b cup i u rs near out rail brk cores cupped bad still spare
    refine ⟨fun rails dies powered found => exec_substitutionResume_of_rails rails dies powered found hc,
      fun me ts w t rails moving touched => ⟨?waits, fun h => ?undone⟩,
      fun sound => ⟨State.go_of_sound sound _, State.go_of_sound sound _⟩,
      fun sound => ⟨State.goDie_of_sound sound _ _, State.goDie_of_sound sound _ _, State.goStack_of_sound sound _ _⟩,
      fun sound => ⟨State.goDie_of_sound sound _ _, State.goDie_of_sound sound _ _, State.goDie_of_sound sound _ _,
        State.go_of_sound sound _, State.goStack_of_sound sound _ _, exec_lockstepMismatch_of_active sound f,
        exec_lockstepMismatch_of_standby sound f⟩,
      fun sound whole => ⟨fun h => ?stackLink, fun low high => ?fdieLink, fun low high => ?innerLink, fun h => ?pdieLink⟩,
      fun sound whole => exec_towpathBreak_of_whole sound whole,
      fun was kind h => s.cutStations_of_one_break h was kind,
      fun sound => ⟨State.goDie_of_sound sound _ _, State.goDie_of_sound sound _ _, State.go_of_sound sound _,
        State.go_of_sound sound _, State.go_of_sound sound _⟩,
      fun sound => State.go_of_sound sound _, fun sound => State.go_of_sound sound _,
      fun begun ⟨zero, alone⟩ kind inRange whole reach idle =>
        exec_spareSubstitute_of_cluster begun zero alone kind inRange whole reach idle,
      fun begun ⟨zero, alone⟩ kind inRange stack whole idle =>
        exec_spareSubstitute_of_channel begun zero alone kind inRange stack whole idle,
      fun begun ⟨zero, alone⟩ kind inPackage inDie fdie whole spare idle =>
        exec_spareSubstitute_of_port begun zero alone kind ⟨inPackage, inDie⟩ fdie whole spare idle,
      fun begun reserved named own free quiet => exec_diagCupping_of_passes begun reserved named own free quiet cup,
      fun sound barge native phase runs => ?cupsOn, fun sound barge native phase ended => ?cupsEnd⟩
    case waits =>
      exact State.contest_waits (State.holds_of_subs moving)
        ((List.any_eq_true.mp touched).imp fun _ h => ⟨h.1, .inr h.2⟩) me _
    case undone => exact State.go_of_waits rails (State.holds_of_subs moving) h
    case stackLink =>
      rw [exec_dieLinkLost_of_whole sound whole, if_pos h]
      rfl
    case fdieLink =>
      rw [exec_dieLinkLost_of_whole sound whole, if_neg (by omega), if_pos high]
      rfl
    case innerLink =>
      rw [exec_dieLinkLost_of_whole sound whole, if_neg (by omega), if_neg (by omega), if_neg (by omega)]
      rfl
    case pdieLink =>
      rw [exec_dieLinkLost_of_whole sound whole, if_neg (by omega), if_neg (by omega), if_pos h]
      rfl
    case cupsOn => exact (exec_diagCupping_of_working sound barge native phase rfl).trans (congrArg _ (if_pos runs))
    case cupsEnd =>
      exact (exec_diagCupping_of_working sound barge native phase rfl).trans (congrArg _ (if_neg (Bool.eq_false_iff.mp ended)))
  case scrubbing =>
    intro s st half ecc lines x burst
    refine ⟨fun sound => State.goStack_of_sound sound _ _,
      fun sound asleep => exec_selfRefreshScrubBurst_of_burst sound asleep lines,
      fun sound awake => exec_selfRefreshScrubBurst_of_idle sound awake lines,
      fun sound copying => exec_channelCopyComplete_of_copying sound copying⟩

end Sys2Proof.Machine

/-! PROOFS. Near-memory operations: what a row of Table 10-4 does with one that its engines may run, how a barge hands one over,
and what the report of one leaves (R306 to R334). -/

namespace Sys2Proof.Machine

/-! ### The rows -/

/-- The rows of Table 10-4: the operation of each, and the native opcode of the barge that carries it. -/
def nmRows : List (Nat × Nat × (NmWho → List (Nat × Ecc) → Contest → Instr)) :=
  [(Nm.axpby, 0x400, .axpby), (Nm.mul, 0x400, .mul), (Nm.reduce, 0x400, .reduce), (Nm.scan, 0x400, .scan),
    (Nm.gather, 0x400, .gather), (Nm.scatter, 0x400, .scatter), (Nm.scatterAdd, 0x400, .scatterAdd),
    (Nm.narrow, 0x401, .bridgeNarrow), (Nm.widen, 0x402, .bridgeWiden), (Nm.dual, 0x403, .dualOrderWrite),
    (Nm.dirtyArm, 0x400, .dirtyArm), (Nm.dirtyCollect, 0x400, .dirtyCollect), (Nm.dirtyDisarm, 0x400, .dirtyDisarm),
    (Nm.hash, 0x400, .hash)]

/-- The rows share one path to the engines. -/
theorem exec_nmRow (who : NmWho) (errs : List (Nat × Ecc)) (x : Contest) (s : State) :
    ∀ r ∈ nmRows, exec (r.2.2 who errs x) s = s.nmRow r.1 who errs x := by
  simp only [nmRows, List.forall_mem_cons]
  exact ⟨rfl, rfl, rfl, rfl, rfl, rfl, rfl, rfl, rfl, rfl, rfl, rfl, rfl, rfl, List.forall_mem_nil _⟩

/-- The native opcode of the barges that carry an operation: a bridge operation has one of its own (R316). -/
def nmNative (op : Nat) : Nat :=
  if op = Nm.narrow then 0x401 else if op = Nm.widen then 0x402 else if op = Nm.dual then 0x403 else 0x400

theorem nmNative_of_nmRows : ∀ r ∈ nmRows, nmNative r.1 = r.2.1 := by
  simp only [nmRows, List.forall_mem_cons]
  exact ⟨rfl, rfl, rfl, rfl, rfl, rfl, rfl, rfl, rfl, rfl, rfl, rfl, rfl, rfl, List.forall_mem_nil _⟩

/-! ### An operation that its engines have taken (R308) -/

/-- An operation runs after its contested grants and what its reads meet. -/
def State.nmPerform (s : State) (o : NmOp) (errs : List (Nat × Ecc)) (x : Contest) : State :=
  ((s.nmContest o (s.nmEnv o).touches x).meetAll errs).nmRun o

/-- What a row of operation `op` does with the accepted operation `n`: one of another row, or one behind an earlier one of its
engines, stays as it is (log entries 8 and 28). -/
def State.nmOffer (s : State) (op n : Nat) (errs : List (Nat × Ecc)) (x : Contest) : State :=
  match s.nmOp? n with
  | some o => if fieldB o.desc 1 0 = op ∧ !s.nmBlocked o then s.nmPerform o errs x else s
  | none => s

section
variable {s : State} {op n : Nat} {o : NmOp} (errs : List (Nat × Ecc)) (x : Contest)

theorem State.nmOffer_of_free (accepted : s.nmOp? n = some o) (code : fieldB o.desc 1 0 = op)
    (free : s.nmBlocked o = false) : s.nmOffer op n errs x = s.nmPerform o errs x := by
  unfold State.nmOffer
  rw [accepted]
  exact if_pos ⟨code, by rw [free]; rfl⟩

theorem State.nmOffer_of_blocked (accepted : s.nmOp? n = some o) (blocked : s.nmBlocked o = true) :
    s.nmOffer op n errs x = s := by
  unfold State.nmOffer
  rw [accepted]
  exact if_neg fun h => by simp [blocked] at h

theorem State.nmRow_posted : s.nmRow op (.op n) errs x = s.go (s.nmOffer op n errs x) := rfl

/-- A barge whose operation has been handed over offers it as a posted one is offered. -/
theorem State.nmRow_carried {c : Fin 256} {q : Nat} {b : Barge} (barge : s.barge? c.val q = some b)
    (work : b.work = .near n) : s.nmRow op (.barge c q) errs x = s.go (s.nmOffer op n errs x) := by
  have carried : (s.barge? c.val q).bind Barge.nearOp = some n := by
    rw [barge, Option.bind_some, Barge.nearOp, work]
  unfold State.nmRow
  simp only [carried]
  rfl

end

/-! ### The first row of a barge (R316, R317) -/

/-- The first row of a started barge makes the checks of Table 10-7 and hands the operation to its engines (log entry 28). -/
theorem State.nmRow_first {s : State} {op : Nat} {c : Fin 256} {q : Nat} {b : Barge} {d : NmDesc}
    (begun : s.Begun c q b (nmNative op)) (fresh : b.work = .none) (passes : Passes (s.nmChecks b))
    (well : s.nmWell b.part b.nmDesc = some d) (code : d.op = op) (errs : List (Nat × Ecc)) (x : Contest) :
    s.nmRow op (.barge c q) errs x = .next (s.nmBegin b d) := by
  have ⟨_, barge, _, _⟩ := begun
  have unformed : (s.barge? c.val q).bind Barge.nearOp = none := by
    rw [barge, Option.bind_some, Barge.nearOp, fresh]
  unfold State.nmRow
  simp only [unformed]
  refine (State.work_of_begun begun (List.mem_singleton_self _) _).trans (congrArg _ ?_)
  rw [State.checked_of_passes passes]
  simp only [well]
  exact if_pos code

/-! ### The report (R314, R315, R710) -/

/-- The lead engine of an operation stores its STATUS field. -/
def State.nmStoreStatus (s : State) (o : NmOp) : State :=
  match o.status with
  | some pa => s.storeFrom (o.lead / 64) pa (bytesLE 8 o.statusWord)
  | none => s

/-- The lead engine of an operation adds 1 to its flag word. -/
def State.nmAddFlag (s : State) (o : NmOp) (ecc : Ecc) : State :=
  match o.flag with
  | some pa => s.flagAdd (o.lead / 64) pa ecc
  | none => s

/-- The physical addresses of the words that the report of an operation writes. -/
def NmOp.reportTouches (o : NmOp) : List Touch := (o.status.toList ++ o.flag.toList).map fun pa => ⟨pa, 8, true⟩

/-- The list of operations without those of a number. -/
def State.dropNmOp (s : State) (n : Nat) : State := { s with nmOps := s.nmOps.filter fun y => y.num != n }

/-- An operation that has run reports once. -/
theorem exec_nmOpComplete_of_done {s : State} {n : Nat} {o : NmOp} (sound : s.Sound)
    (done : (s.nmOps.find? fun y => y.num == n && y.done) = some o) (ecc : Ecc) (x : Contest) :
    exec (.nmOpComplete n ecc x) s =
      .next (((((s.nmContest o o.reportTouches x).nmStoreStatus o).nmAddFlag o ecc).dropNmOp n).nmReport o) := by
  change execNmOpComplete n ecc x s = _
  rw [execNmOpComplete, State.go_of_sound sound, done]
  rfl

/-! ### The statement -/

/-- Settles O39: a posted operation and one that a barge has handed over run by `State.nmOffer`, the first row of a barge by
`State.nmRow_first`, and an operation that has run reports by `exec_nmOpComplete_of_done`. -/
theorem nearMemory : Obligations.NearMemory := by
  unfold Obligations.NearMemory
  intro s c q n op native row b d o errs x ecc listed
  have path := fun who => exec_nmRow who errs x s (op, native, row) listed
  have opcode : nmNative op = native := nmNative_of_nmRows (op, native, row) listed
  refine ⟨fun sound accepted code free => ?posted, fun sound barge work accepted code free => ?carried,
    fun sound accepted blocked => ?blocked, fun begun fresh passes well code => ?first,
    fun sound done => exec_nmOpComplete_of_done sound done ecc x⟩
  case posted =>
    rw [path, State.nmRow_posted, State.go_of_sound sound, State.nmOffer_of_free errs x accepted code free]
    rfl
  case carried =>
    rw [path, State.nmRow_carried errs x barge work, State.go_of_sound sound,
      State.nmOffer_of_free errs x accepted code free]
    rfl
  case blocked =>
    rw [path, State.nmRow_posted, State.go_of_sound sound, State.nmOffer_of_blocked errs x accepted blocked]
  case first =>
    subst opcode
    rw [path, State.nmRow_first begun fresh passes well code]

end Sys2Proof.Machine

/-! PROOFS. The registers of the canals: their writes, and what a canal fault leaves (R351 to R354, R359). -/

namespace Sys2Proof.Machine

/-! ### Writes (R351 to R353, R359) -/

/-- A booted package performs the write of a canal's register. -/
theorem State.canalWrite_of_booted {t : State} (booted : t.booted = true) (n : Nat) (write : State → State) :
    t.canalWrite n write = write t := if_pos booted

section
variable {t : State} (booted : t.booted = true) (n v : Nat)
include booted

/-- A doorbell within the ring sets the tail; an active canal then has something to fetch, which wakes the package. -/
theorem State.writeDoorbell_of_within (enabled : t.flag (Reg.canalCtrl n) F.CANAL_CTRL_ENABLE = true)
    (within : (v % 2 ^ 32 + 2 ^ 32 - t.reg (Reg.canalHead n)) % 2 ^ 32 ≤ t.canalSlots n) :
    t.writeDoorbell n v = if (t.setReg (Reg.canalTail n) (v % 2 ^ 32)).canalActive n
      then (t.setReg (Reg.canalTail n) (v % 2 ^ 32)).wakeUp else t.setReg (Reg.canalTail n) (v % 2 ^ 32) := by
  unfold State.writeDoorbell
  rw [State.canalWrite_of_booted booted]
  dsimp only
  rw [enabled, if_neg (by decide), if_neg (Nat.not_lt.mpr within)]

theorem State.writeDoorbell_of_beyond (enabled : t.flag (Reg.canalCtrl n) F.CANAL_CTRL_ENABLE = true)
    (beyond : t.canalSlots n < (v % 2 ^ 32 + 2 ^ 32 - t.reg (Reg.canalHead n)) % 2 ^ 32) :
    t.writeDoorbell n v = t.canalFault n 0x01 := by
  unfold State.writeDoorbell
  rw [State.canalWrite_of_booted booted]
  dsimp only
  rw [enabled, if_neg (by decide), if_pos beyond]

theorem State.writeDoorbell_of_disabled (disabled : t.flag (Reg.canalCtrl n) F.CANAL_CTRL_ENABLE = false) :
    t.writeDoorbell n v = t.setFld (Reg.canalStatus n) F.CANAL_STATUS_DOORBELL_IGNORED 1 := by
  unfold State.writeDoorbell
  rw [State.canalWrite_of_booted booted]
  dsimp only
  rw [disabled, if_pos (by decide)]

/-- The tally head moves over tallies that have been written. -/
theorem State.writeTallyHead_of_written
    (written : (v % 2 ^ 32 + 2 ^ 32 - t.reg (Reg.canalTallyHead n)) % 2 ^ 32 ≤
      (t.reg (Reg.canalTallyTail n) + 2 ^ 32 - t.reg (Reg.canalTallyHead n)) % 2 ^ 32) :
    t.writeTallyHead n v = t.setReg (Reg.canalTallyHead n) (v % 2 ^ 32) :=
  (State.canalWrite_of_booted booted n _).trans (if_pos written)

theorem State.writeTallyHead_of_beyond
    (beyond : (t.reg (Reg.canalTallyTail n) + 2 ^ 32 - t.reg (Reg.canalTallyHead n)) % 2 ^ 32 <
      (v % 2 ^ 32 + 2 ^ 32 - t.reg (Reg.canalTallyHead n)) % 2 ^ 32) :
    t.writeTallyHead n v = t.setFld (Reg.canalStatus n) F.CANAL_STATUS_TALLY_HEAD_BAD 1 :=
  (State.canalWrite_of_booted booted n _).trans (if_neg (Nat.not_le.mpr beyond))

end

section
variable {s : State} {c : Fin 256} {rp : RegPath}

theorem exec_canalDoorbell_of_reaches (served : s.Reaches rp (Reg.canalDoorbell c.val)) (v : Word) :
    exec (.canalDoorbell c v rp) s = .next ((s.wakeFor (Reg.canalDoorbell c.val)).writeDoorbell c.val v.toNat) :=
  State.go_viaPath_of_reaches served _

theorem exec_canalTallyHead_of_reaches (served : s.Reaches rp (Reg.canalTallyHead c.val)) (v : Word) :
    exec (.canalTallyHead c v rp) s = .next ((s.wakeFor (Reg.canalTallyHead c.val)).writeTallyHead c.val v.toNat) :=
  State.go_viaPath_of_reaches served _

end

/-- Settles O27: a write that is served acts on the package that it woke, and what it does there follows from ENABLE and the
place of its index in the ring. -/
theorem canalRegisterWrites : Obligations.CanalRegisterWrites := by
  unfold Obligations.CanalRegisterWrites
  intro s c v rp n tail old
  refine ⟨fun served => State.go_viaPath_of_reaches served _, fun served => State.go_viaPath_of_reaches served _,
    fun t woken served booted enabled within => ?within, fun t woken served booted enabled beyond => ?beyond,
    fun t woken served booted written => ?written, fun t woken served booted beyond => ?bad,
    fun t woken served booted disabled => ?disabled⟩ <;> subst woken
  case within => rw [exec_canalDoorbell_of_reaches served, State.writeDoorbell_of_within booted _ _ enabled within]
  case beyond => rw [exec_canalDoorbell_of_reaches served, State.writeDoorbell_of_beyond booted _ _ enabled beyond]
  case written => rw [exec_canalTallyHead_of_reaches served, State.writeTallyHead_of_written booted _ _ written]
  case bad => rw [exec_canalTallyHead_of_reaches served, State.writeTallyHead_of_beyond booted _ _ beyond]
  case disabled => rw [exec_canalDoorbell_of_reaches served, State.writeDoorbell_of_disabled booted _ _ disabled]

/-! ### What an entry of the logbook leaves alone (R425 to R427) -/

/-- The canal and sequence number of each accepted barge, in order of acceptance. -/
def State.bargeIds (s : State) : List (Nat × Nat) := s.barges.map fun b => (b.canal, b.seq)

/-- A barge's record is replaced by one of the same canal and sequence number. -/
theorem State.setBarge_bargeIds (s : State) (b : Barge) : (s.setBarge b).bargeIds = s.bargeIds := by
  unfold State.bargeIds State.setBarge
  rw [List.map_map]
  refine List.map_congr_left fun x _ => ?_
  by_cases h : (x.canal == b.canal && x.seq == b.seq) = true
  · have same : x.canal = b.canal ∧ x.seq = b.seq := by simpa using h
    simp [same]
  · simp only [Function.comp_apply, if_neg h]

/-- CARRY entries change the places of the barges in the logbook, and no register. -/
theorem State.logCarry_keeps (n : Nat) (s : State) :
    (s.logCarry n).regs = s.regs ∧ (s.logCarry n).bargeIds = s.bargeIds := by
  induction n generalizing s with
  | zero => exact ⟨rfl, rfl⟩
  | succ n ih =>
    unfold State.logCarry
    split
    · exact ⟨rfl, rfl⟩
    · exact ⟨(ih _).1, (ih _).2.trans (State.setBarge_bargeIds _ _)⟩

theorem State.logGap_regs (s : State) : s.logGap.regs = s.regs := by
  unfold State.logGap
  split
  · rfl
  · dsimp only
    split <;> rfl

theorem State.logGap_barges (s : State) : s.logGap.barges = s.barges := by
  unfold State.logGap
  split
  · rfl
  · dsimp only
    split <;> rfl

section
variable (s : State) (kind canal seq status : Nat) (part : Option Nat) (barge tally event : List Byte)

theorem State.logEnter_regs : (s.logEnter kind canal seq status part barge tally event).regs = s.regs :=
  (State.logGap_regs _).trans (State.logCarry_keeps _ s).1

theorem State.logEnter_bargeIds : (s.logEnter kind canal seq status part barge tally event).bargeIds = s.bargeIds := by
  unfold State.logEnter
  rw [State.bargeIds, State.logGap_barges]
  exact (State.logCarry_keeps _ s).2

end

/-! ### What a host event leaves alone (R645, R652) -/

theorem State.interrupt_regs (s : State) (port fn entry : Nat) : (s.interrupt port fn entry).regs = s.regs := by
  unfold State.interrupt
  dsimp only
  split_ifs <;> rfl

theorem State.interrupt_barges (s : State) (port fn entry : Nat) : (s.interrupt port fn entry).barges = s.barges := by
  unfold State.interrupt
  dsimp only
  split_ifs <;> rfl

theorem State.alertMgmt_regs (s : State) (k : Nat) : (s.alertMgmt k).regs = s.regs := by
  unfold State.alertMgmt
  dsimp only
  split_ifs <;> rfl

theorem State.alertMgmt_barges (s : State) (k : Nat) : (s.alertMgmt k).barges = s.barges := by
  unfold State.alertMgmt
  dsimp only
  split_ifs <;> rfl

theorem State.reg_congr {s t : State} (h : t.regs = s.regs) (a : Nat) : t.reg a = s.reg a := by
  unfold State.reg
  rw [h]

/-- A host event changes HOST_EVENT and no other register. -/
theorem State.reg_hostEvt {a : Nat} (other : a ≠ Reg.hostEvent) (s : State) (f : Fld) : (s.hostEvt f).reg a = s.reg a := by
  cases raised : s.flag Reg.hostEvent f with
  | true => rw [State.hostEvt_of_set raised]
  | false =>
    have regs : (s.hostEvt f).regs = (s.setFld Reg.hostEvent f 1).regs := by
      rw [State.hostEvt_of_clear raised, foldl_same State.regs _ State.alertMgmt_regs, State.interrupt_regs,
        State.interrupt_regs]
    rw [State.reg_congr regs]
    exact s.reg_setReg_other other.symm _

theorem State.hostEvt_barges (s : State) (f : Fld) : (s.hostEvt f).barges = s.barges := by
  cases raised : s.flag Reg.hostEvent f with
  | true => rw [State.hostEvt_of_set raised]
  | false =>
    rw [State.hostEvt_of_clear raised, foldl_same State.barges _ State.alertMgmt_barges, State.interrupt_barges,
      State.interrupt_barges, State.setFld_barges]

/-! ### A canal fault (R354) -/

/-- CANAL_STATUS of one canal with FAULT set for a cause. -/
def State.faulted (s : State) (n cause : Nat) : State :=
  s.setFlds (Reg.canalStatus n) [(F.CANAL_STATUS_FAULT, 1), (F.CANAL_STATUS_FAULT_CAUSE, cause)]

/-- A field of a register reads the same in the 64 bits that the register keeps. -/
theorem bitsOf_mod_two_pow_64 {hi lo : Nat} (h : hi < 64) (n : Nat) : bitsOf (n % 2 ^ 64) hi lo = bitsOf n hi lo := by
  refine Nat.eq_of_testBit_eq fun i => ?_
  rw [testBit_bitsOf, testBit_bitsOf, Nat.testBit_mod_two_pow]
  by_cases field : i < hi + 1 - lo
  · simp [show lo + i < 64 by omega]
  · simp [field]

theorem State.reg_faulted (s : State) (n cause : Nat) : (s.faulted n cause).reg (Reg.canalStatus n) =
    withBits (withBits (s.reg (Reg.canalStatus n)) 7 7 1) 31 24 cause % 2 ^ 64 :=
  s.reg_setReg_same _ _

theorem State.fld_faulted_fault (s : State) (n cause : Nat) :
    (s.faulted n cause).fld (Reg.canalStatus n) F.CANAL_STATUS_FAULT = 1 := by
  unfold State.fld F.CANAL_STATUS_FAULT
  rw [State.reg_faulted, bitsOf_mod_two_pow_64 (by decide), bitsOf_withBits_other (by decide) (.inl (by decide)),
    bitsOf_withBits_same (by decide)]
  rfl

theorem State.fld_faulted_cause (s : State) (n : Nat) {cause : Nat} (small : cause < 256) :
    (s.faulted n cause).fld (Reg.canalStatus n) F.CANAL_STATUS_FAULT_CAUSE = cause := by
  unfold State.fld F.CANAL_STATUS_FAULT_CAUSE
  rw [State.reg_faulted, bitsOf_mod_two_pow_64 (by decide), bitsOf_withBits_same (by decide)]
  exact Nat.mod_eq_of_lt small

/-- The CANAL entry and the host event of a fault leave CANAL_STATUS as the fault set it. -/
theorem State.fld_canalFault (s : State) (c : Fin 256) (cause : Nat) (f : Fld) :
    (s.canalFault c.val cause).fld (Reg.canalStatus c.val) f = (s.faulted c.val cause).fld (Reg.canalStatus c.val) f := by
  have apart : Reg.canalStatus c.val ≠ Reg.hostEvent := by
    unfold Reg.canalStatus Reg.hostEvent
    omega
  unfold State.fld State.canalFault
  rw [State.reg_hostEvt apart]
  exact congrArg (bitsOf · f.hi f.lo) (State.reg_congr (State.logEnter_regs _ _ _ _ _ _ _ _ _) _)

theorem State.canalFault_bargeIds (s : State) (n cause : Nat) : (s.canalFault n cause).bargeIds = s.bargeIds :=
  calc (s.canalFault n cause).bargeIds
    _ = ((s.faulted n cause).logCanal n).bargeIds := congrArg (List.map _) (State.hostEvt_barges _ _)
    _ = (s.faulted n cause).bargeIds := State.logEnter_bargeIds _ _ _ _ _ _ _ _ _
    _ = s.bargeIds := congrArg (List.map _) (State.setFlds_barges _ _ _)

theorem State.flag_canalFault (s : State) (c : Fin 256) (cause : Nat) :
    (s.canalFault c.val cause).flag (Reg.canalStatus c.val) F.CANAL_STATUS_FAULT = true := by
  unfold State.flag
  rw [State.fld_canalFault, State.fld_faulted_fault]
  rfl

/-- Settles O28: the fault writes its two fields, and its entry and its event leave them and the accepted barges alone. -/
theorem canalFaultKeepsBarges : Obligations.CanalFaultKeepsBarges := by
  unfold Obligations.CanalFaultKeepsBarges
  intro s c cause small
  exact ⟨s.flag_canalFault c cause, (s.fld_canalFault c cause _).trans (s.fld_faulted_cause c.val small),
    s.canalFault_bargeIds c.val cause⟩

end Sys2Proof.Machine

/-! PROOFS. The life of a barge: how it is accepted, starts, meets its deadline and completes (R359 to R371, R385, R477). -/

namespace Sys2Proof.Machine

/-! ### Acceptance (R359, R385) -/

section
variable {s : State} {n : Nat} (size : Nat) (ring : List Byte) (k : List Byte → State)

/-- A slot of a ring in host memory is what the host answers, where the function may master the bus. -/
theorem State.fetchSlot_of_host (host : s.fld (Reg.canalCtrl n) F.CANAL_CTRL_RING_LOC ≠ 2)
    (master : s.canMaster n (s.canalPort n) = true) : s.fetchSlot n size ring k = k (sliceB ring 0 size) := by
  unfold State.fetchSlot
  dsimp only
  rw [if_neg (by simpa using host), if_pos master]

/-- A slot of a ring in device memory is read at its translated address. -/
theorem State.fetchSlot_of_device {p pa : Nat} (device : s.fld (Reg.canalCtrl n) F.CANAL_CTRL_RING_LOC = 2)
    (part : s.canalPart n = some p)
    (translates : s.execTranslate p false 1 (s.ringSlot n (s.reg (Reg.canalRing n)) size (s.reg (Reg.canalHead n))) = .ok pa)
    (sound : s.poisonIn pa size = none) : s.fetchSlot n size ring k = k (s.bytesAt pa size) := by
  unfold State.fetchSlot
  dsimp only
  rw [if_pos (by simp [device]), part]
  simp only [Option.map_some, translates, sound, Option.isSome_none, Bool.false_eq_true, if_false]

end

/-- The batch that an E4 packet joins; a canal that does not wait for more closes it at once (R385). -/
def State.packetBatch (s : State) (n : Nat) (packet : List Byte) : E4Batch :=
  let b := s.e4Join n (bitOf (packet.getD 1 0).toNat 0)
  if s.fld (Reg.canalE4Ctrl n) F.CANAL_E4_CTRL_BATCH_WAIT == 0 then { b with openB := false } else b

/-- An E4 packet joins its batch and is accepted as the barge that it translates to. -/
def State.acceptPacket (s : State) (n : Nat) (packet : List Byte) : State :=
  (({ s with e4 := spSet (fun _ => ({} : E4Batch)) n (s.packetBatch n packet) s.e4 } : State).acceptBarge n
    (s.e4Translate n packet) packet (s.packetBatch n packet).num).wakeUp

section
variable {s : State} {c : Fin 256} (sound : s.Sound)
include sound

theorem exec_bargeAccept_of_mayFetch (may : s.mayFetch c.val false = true) (ring : List Byte) :
    exec (.bargeAccept c ring) s =
      .next (s.fetchSlot c.val 128 ring fun bytes => (s.acceptBarge c.val bytes [] 0).wakeUp) :=
  (State.go_of_sound sound _).trans (congrArg _ (if_pos may))

theorem exec_e4Packet_of_mayFetch (may : s.mayFetch c.val true = true) (ring : List Byte) :
    exec (.e4Packet c ring) s = .next (s.fetchSlot c.val 64 ring (s.acceptPacket c.val)) :=
  (State.go_of_sound sound _).trans (congrArg _ (if_pos may))

end

/-! ### Start and deadline (R361, R366, R368) -/

section
variable {s : State} {b : Barge}

/-- A waiting barge whose deadline has passed completes with DEADLINE_MISSED where it would start. -/
theorem State.tryStart_of_missed (waiting : b.phase = .waiting) (bounded : b.deadline ≠ 0) (missed : b.deadline ≤ s.now) :
    s.tryStart b = (s.logStop b 0x03 none).finish b.canal b.seq St.deadlineMissed 0 0 := by
  unfold State.tryStart
  rw [if_neg (not_not.mpr waiting), if_pos ⟨bounded, missed⟩]

/-- A barge starts that is ready, acts for a live partition or for none that must be live, passes the checks that a cargo meets
at its start, and is admitted or forced. -/
theorem State.tryStart_of_ready (ready : s.ready b = true)
    (live : b.native = 0x800 ∨ b.native = 0x801 ∨ (b.actsFor.all fun p => s.live p) = true)
    (checks : b.native = 0x201 ∨ b.native = 0x202 → Passes (s.cargoChecks b)) (admitted : s.admits b = true ∨ b.forced = true)
    (time : b.deadline = 0 ∨ s.now < b.deadline) : s.tryStart b = s.startBarge b := by
  obtain ⟨⟨⟨waiting, ordered⟩, unheld⟩, free⟩ : ((b.phase = .waiting ∧ s.ordered b = true) ∧ s.partHolds b = false) ∧
      s.resourcesFree b = true := by simpa [State.ready] using ready
  have permitted : ¬ (b.native ≠ 0x800 ∧ b.native ≠ 0x801 ∧ (b.actsFor.any fun p => !s.live p) = true) := by
    rintro ⟨notCreate, notDestroy, dead⟩
    rcases live with create | destroy | all
    · exact notCreate create
    · exact notDestroy destroy
    · cases part : b.actsFor with
      | none => simp [part] at dead
      | some p =>
        rw [part] at all dead
        simp only [Option.all_some, Option.any_some] at all dead
        rw [all] at dead
        contradiction
  have passed : (if b.native = 0x201 ∨ b.native = 0x202 then firstFail (s.cargoChecks b) else none) = none := by
    split
    · exact checks ‹_›
    · rfl
  unfold State.tryStart
  rw [if_neg (not_not.mpr waiting), if_neg (by omega), if_neg (by simp [ordered, unheld]), if_neg permitted, passed]
  dsimp only
  rw [if_neg (by simp [free]), if_pos (by simpa using admitted)]

theorem State.runPaused_of_no_work (idle : b.work = .none) : s.runPaused b = false := by
  unfold State.runPaused
  rw [idle]

variable {c : Fin 256} {q : Nat} (sound : s.Sound) (barge : s.barge? c.val q = some b)
include sound barge

theorem exec_bargeStart_of_barge : exec (.bargeStart c q) s = .next (s.tryStart b) := by
  change execBargeStart c q s = _
  rw [execBargeStart, State.go_of_sound sound, barge]

theorem exec_bargeDeadline_of_waiting (waiting : b.phase = .waiting) (idle : b.work = .none) (bounded : b.deadline ≠ 0)
    (missed : b.deadline ≤ s.now) : exec (.bargeDeadline c q) s =
      .next ((s.logStop b 0x03 none).finish b.canal b.seq St.deadlineMissed 0 0) := by
  change execBargeDeadline c q s = _
  rw [execBargeDeadline, State.go_of_sound sound, barge]
  dsimp only
  rw [if_neg (by simpa [bounded, State.runPaused_of_no_work idle] using missed), waiting]

/-- A deadline leaves a barge whose work has ended alone (R368). -/
theorem exec_bargeDeadline_of_ended {st r0 r1 : Nat} (ended : b.phase = .ended st r0 r1) :
    exec (.bargeDeadline c q) s = .next s := by
  change execBargeDeadline c q s = _
  rw [execBargeDeadline, State.go_of_sound sound, barge]
  dsimp only
  rw [ended, ite_self]

end

/-! ### Completion (R364, R369, R371, R536) -/

section
variable {s : State} {b : Barge}

/-- The barge found under a canal and a sequence number has them. -/
theorem State.barge?_ids {c q : Nat} (barge : s.barge? c q = some b) : b.canal = c ∧ b.seq = q := by
  simpa using List.find?_some barge

/-- A barge that is no collective has no flag to add to. -/
theorem State.collFlag_of_not_coll (other : b.native < 0x510 ∨ 0x513 < b.native) (st : Nat) (ecc : Ecc) (x : Contest) :
    s.collFlag b st ecc x = s := by
  unfold State.collFlag
  dsimp only
  rw [if_pos (or_assoc.mp (.inl other))]

/-- A barge that is no collective breaks no communicator. -/
theorem State.collBreaks_of_not_coll (other : b.native < 0x510 ∨ 0x513 < b.native) (st : Nat) : s.collBreaks b st = s := by
  have noColl : b.isColl = false := decide_eq_false (by omega)
  unfold State.collBreaks
  simp [noColl]

/-- A barge whose work has ended completes with what its work left, after what its status does to a collective's flag and
communicator. -/
theorem exec_bargeCompletion_of_ended {t : State} {c : Fin 256} {q st r0 r1 : Nat} (sound : s.Sound)
    (steady : s.takingOver = false) (barge : s.barge? c.val q = some b) (ended : b.phase = .ended st r0 r1) (fail : Bool)
    (ecc : Ecc) (x : Contest) (coll : (s.collFlag b st ecc x).collBreaks b st = t) :
    exec (.bargeCompletion c q fail ecc x) s = .next
      (((t.complete1 ((t.barge? b.canal b.seq).getD b) fail st r0 r1).settle t.barges.length).heldLaunches) := by
  subst coll
  change execBargeCompletion c q fail ecc x s = _
  rw [execBargeCompletion, State.go_of_sound sound, if_neg (by simp [steady]), barge]
  dsimp only
  rw [ended]

end

/-! ### The statements -/

/-- Settles O29: what is fetched depends on where the ring lies alone, and a barge that nothing holds back starts. -/
theorem bargesAreAcceptedAndStart : Obligations.BargesAreAcceptedAndStart := by
  unfold Obligations.BargesAreAcceptedAndStart
  refine ⟨?acceptance, fun s c q b sound barge ready live checks admitted time => ?start⟩
  case acceptance =>
    intro s c ring p pa n at_ host device join
    refine ⟨fun sound may ⟨loc, master⟩ => ?host, fun sound may ⟨loc, part, translates, whole⟩ => ?device,
      fun sound may ⟨loc, master⟩ => ?packetHost, fun sound may ⟨loc, part, translates, whole⟩ => ?packetDevice,
      fun sound => State.go_of_sound sound _⟩
    case host => rw [exec_bargeAccept_of_mayFetch sound may, State.fetchSlot_of_host _ _ _ loc master]
    case device => rw [exec_bargeAccept_of_mayFetch sound may, State.fetchSlot_of_device _ _ _ loc part translates whole]
    case packetHost =>
      rw [exec_e4Packet_of_mayFetch sound may, State.fetchSlot_of_host _ _ _ loc master]
      rfl
    case packetDevice =>
      rw [exec_e4Packet_of_mayFetch sound may, State.fetchSlot_of_device _ _ _ loc part translates whole]
      rfl
  case start =>
    rw [exec_bargeStart_of_barge sound barge, State.tryStart_of_ready ready live checks admitted time]

/-- Settles O30: both rows find the deadline of a waiting barge missed. -/
theorem deadlineOfAWaitingBarge : Obligations.DeadlineOfAWaitingBarge := by
  unfold Obligations.DeadlineOfAWaitingBarge
  intro s c q b sound barge waiting idle bounded missed
  refine ⟨exec_bargeDeadline_of_waiting sound barge waiting idle bounded missed, ?start⟩
  case start => rw [exec_bargeStart_of_barge sound barge, State.tryStart_of_missed waiting bounded missed]

/-- Settles O31: the row of the deadline leaves an ended barge alone. -/
theorem endedBargeKeepsItsStatus : Obligations.EndedBargeKeepsItsStatus := by
  unfold Obligations.EndedBargeKeepsItsStatus
  intro s c q b st r0 r1 sound barge ended
  exact exec_bargeDeadline_of_ended sound barge ended

/-- Settles O32: a barge that is no collective completes in the state as it is; for a collective its flag and its communicator
come first. -/
theorem bargesComplete : Obligations.BargesComplete := by
  unfold Obligations.BargesComplete
  intro s c q b st r0 r1 fail ecc x sound steady barge ended
  refine ⟨fun other => ?plain,
    fun t coll => exec_bargeCompletion_of_ended sound steady barge ended fail ecc x coll.symm⟩
  case plain =>
    have same : (s.collFlag b st ecc x).collBreaks b st = s := by
      rw [State.collFlag_of_not_coll other, State.collBreaks_of_not_coll other]
    have found : s.barge? b.canal b.seq = some b := by
      obtain ⟨canal, seq⟩ := State.barge?_ids barge
      rw [canal, seq, barge]
    rw [exec_bargeCompletion_of_ended sound steady barge ended fail ecc x same, found, Option.getD_some]

end Sys2Proof.Machine

/-! PROOFS. Barges whose checks are one list, and NOP, FENCE, SIGNAL and WAIT (R362, R392 to R394). -/

namespace Sys2Proof.Machine

/-! ### The work of a started barge -/

/-- A started barge whose one list of checks passes does its work. -/
theorem State.work_of_passes {s : State} {c : Fin 256} {q : Nat} {b : Barge} {op : Nat} (begun : s.Begun c q b op)
    {checks : Barge → State → List (Bool × Nat × Nat)} {body : Barge → State → State} (passes : Passes (checks b s)) :
    s.work c.val q [op] (fun b t => t.checked b (checks b t) (body b)) = .next (body b s) :=
  (State.work_of_begun begun (List.mem_singleton_self op) _).trans (congrArg _ (State.checked_of_passes passes _))

theorem exec_nop_of_reserved {s : State} {c : Fin 256} {q : Nat} {b : Barge} (begun : s.Begun c q b 0x000)
    (reserved : b.reservedZero [(127, 32)] = true) : exec (.nop c q) s = .next (s.finish b.canal b.seq St.done 0 0) := by
  change execNop c q s = _
  exact State.work_of_passes begun (by simp [reserved])

theorem exec_fence_of_reserved {s : State} {c : Fin 256} {q : Nat} {b : Barge} (begun : s.Begun c q b 0x001)
    (reserved : b.reservedZero [(127, 32)] = true) :
    exec (.fence c q) s = .next (s.finish b.canal b.seq St.done 0 0) := by
  change execFence c q s = _
  exact State.work_of_passes begun (by simp [reserved])

/-- The state in which a SIGNAL or a WAIT makes its access: the reach of the word is awake, and the barge has used its page. -/
def State.wordUsed (s : State) (b : Barge) (pa : Nat) : State := (s.rouse [pa]).usePas (some (b.canal, b.seq)) [pa]

/-- A SIGNAL or a WAIT whose operands are well formed and whose address translates goes on to its access. -/
theorem State.signalWork_of_translates {s : State} {b : Barge} {write : Bool} {top pa : Nat}
    (reserved : b.reservedZero [(127, 49)] = true) (form : b.f 48 48 < top)
    (translates : s.execTranslate b.part write 8 (b.f 39 32) = .ok pa) (k : Nat → State → State) :
    s.signalWork b write top k = k pa (s.wordUsed b pa) := by
  have word : s.signalPA b write = some pa := by
    unfold State.signalPA
    rw [translates]
  unfold State.signalWork
  rw [State.checked_of_passes (by simpa [reserved] using form), word]
  rfl

/-! ### SIGNAL (R393) -/

section
variable {s : State} {c : Fin 256} {q : Nat} {b : Barge} {pa : Nat} (begun : s.Begun c q b 0x002)
  (reserved : b.reservedZero [(127, 49)] = true) (translates : s.execTranslate b.part true 8 (b.f 39 32) = .ok pa)
  (x : Contest)
include begun reserved translates

theorem exec_signalStore_of_store (store : b.f 48 48 = 0) :
    exec (.signalStore c q x) s = .next
      (((((s.wordUsed b pa).execContest b [⟨pa, 8, true⟩] x).meetAll x.errs).store8 pa (b.f 47 40)).finish b.canal b.seq
        St.done 0 0) := by
  change execSignalStore c q x s = _
  rw [execSignalStore, State.work_of_begun begun (List.mem_singleton_self _), if_neg (by omega),
    State.signalWork_of_translates reserved (by omega) translates]

theorem exec_signalAdd_of_add {u : State} (add : b.f 48 48 = 1) {ecc : Ecc}
    (met : ((s.wordUsed b pa).execContest b [⟨pa, 8, true⟩] x).meetEcc ecc pa = u) (whole : u.poisonedAt pa = false) :
    exec (.signalAdd c q ecc x) s = .next
      ((u.store8 pa ((u.numAt pa 8 + b.f 47 40) % 2 ^ 64)).finish b.canal b.seq St.done (u.numAt pa 8) 0) := by
  change execSignalAdd c q ecc x s = _
  rw [execSignalAdd, State.work_of_begun begun (List.mem_singleton_self _), if_neg (not_not.mpr add),
    State.signalWork_of_translates reserved (by omega) translates]
  dsimp only
  rw [met, if_neg (Bool.eq_false_iff.mp whole)]

end

/-! ### WAIT (R362, R394) -/

/-- The state in which a WAIT judges the word at `pa`. -/
def State.waitMet (s : State) (b : Barge) (ecc : Ecc) (x : Contest) (pa : Nat) : State :=
  (s.execContest b [⟨pa, 8, false⟩] x).meetEcc ecc pa

/-- The word at `pa` can be read, and the condition of the WAIT holds of it. -/
def State.WaitHolds (s : State) (b : Barge) (ecc : Ecc) (x : Contest) (pa : Nat) : Prop :=
  (s.waitMet b ecc x pa).poisonedAt pa = false ∧
    condHolds (b.f 48 48 % 8) (BitVec.ofNat 64 ((s.waitMet b ecc x pa).numAt pa 8)) (BitVec.ofNat 64 (b.f 47 40)) = true

/-- The WAIT completes with DONE and the word that it read. -/
def State.waitDone (s : State) (b : Barge) (ecc : Ecc) (x : Contest) (pa : Nat) : State :=
  (s.waitMet b ecc x pa).finish b.canal b.seq St.done ((s.waitMet b ecc x pa).numAt pa 8) 0

theorem State.waitRead_of_holds {s : State} {b : Barge} {ecc : Ecc} {x : Contest} {pa : Nat} (holds : s.WaitHolds b ecc x pa)
    (again : State → State) : s.waitRead b ecc x pa again = s.waitDone b ecc x pa := by
  obtain ⟨whole, met⟩ := holds
  exact (if_neg (Bool.eq_false_iff.mp whole)).trans (if_pos met)

theorem State.waiter_of_wait {s : State} {c q : Nat} {b : Barge} {w : WaitWork} (barge : s.barge? c q = some b)
    (work : b.work = .wait w) : s.waiter c q = some (b, w) := by
  simp only [State.waiter, barge, work]

section
variable {s : State} {c : Fin 256} {q : Nat} {b : Barge} {ecc : Ecc} {x : Contest}

theorem exec_wait_of_holds {pa : Nat} (begun : s.Begun c q b 0x003) (reserved : b.reservedZero [(127, 49)] = true)
    (form : b.f 48 48 < 8) (translates : s.execTranslate b.part false 8 (b.f 39 32) = .ok pa)
    (holds : (s.wordUsed b pa).WaitHolds b ecc x pa) :
    exec (.wait c q ecc x) s = .next ((s.wordUsed b pa).waitDone b ecc x pa) := by
  change execWait c q ecc x s = _
  rw [execWait, State.work_of_begun begun (List.mem_singleton_self _),
    State.signalWork_of_translates reserved form translates, State.waitRead_of_holds holds]

variable {w : WaitWork} (sound : s.Sound) (barge : s.barge? c.val q = some b) (work : b.work = .wait w)
  (holds : s.WaitHolds b ecc x w.pa)
include sound barge work holds

theorem exec_waitConditionMet_of_holds (watched : w.watched = true) :
    exec (.waitConditionMet c q ecc x) s = .next (s.waitDone b ecc x w.pa) := by
  change execWaitConditionMet c q ecc x s = _
  rw [execWaitConditionMet, State.go_of_sound sound, State.waiter_of_wait barge work]
  dsimp only
  rw [if_pos watched, State.waitRead_of_holds holds]

theorem exec_waitPoll_of_holds (unwatched : w.watched = false) :
    exec (.waitPoll c q ecc x) s = .next (s.waitDone b ecc x w.pa) := by
  change execWaitPoll c q ecc x s = _
  rw [execWaitPoll, State.go_of_sound sound, State.waiter_of_wait barge work]
  dsimp only
  rw [if_neg (Bool.eq_false_iff.mp unwatched), State.waitRead_of_holds holds]

end

/-- Settles O33: each row passes its checks and ends its barge, at the access that its address leads to where it makes one. -/
theorem nopFenceSignalAndWait : Obligations.NopFenceSignalAndWait := by
  unfold Obligations.NopFenceSignalAndWait
  refine ⟨?signal, ?wait⟩
  case signal =>
    intro s c q b pa ecc x own asked u shape
    exact ⟨fun begun reserved => exec_nop_of_reserved begun reserved,
      fun begun reserved => exec_fence_of_reserved begun reserved,
      fun begun ⟨reserved, translates⟩ store => exec_signalStore_of_store begun reserved translates x store,
      fun begun ⟨reserved, translates⟩ add whole => exec_signalAdd_of_add begun reserved translates x add rfl whole⟩
  case wait =>
    intro s c q b pa w ecc x first u holds done
    exact ⟨fun begun reserved form translates met => exec_wait_of_holds begun reserved form translates met,
      fun sound barge work watched met => exec_waitConditionMet_of_holds sound barge work met watched,
      fun sound barge work unwatched met => exec_waitPoll_of_holds sound barge work met unwatched⟩

end Sys2Proof.Machine

/-! PROOFS. LOG_QUERY, ERR_QUERY, CANAL_DRAIN and CARGO_ABORT (R107, R367, R369, R396, R415, R419, R430 to R432). -/

namespace Sys2Proof.Machine

/-! ### CANAL_DRAIN (R369, R396) -/

/-- The barges of its target that a CANAL_DRAIN acts on: those accepted before it. -/
def State.drainSet (s : State) (b : Barge) : List Barge :=
  (s.canalBarges (b.f 32 32)).filter fun y => decide (y.acc < b.acc)

/-- The solver barges among them that it asks to stop. -/
def State.drainAsked (s : State) (b : Barge) : List (Nat × Nat) :=
  ((s.drainSet b).filter fun y => y.executing && y.native / 256 == 3 && y.stopBy == 0).map fun y => (y.canal, y.seq)

/-- The CANAL_DRAIN waits for its barges, `n` of which it cancelled or stopped. -/
def State.drainWaits (s t : State) (b : Barge) (n : Nat) : State :=
  t.working b.canal b.seq fun e => { e with
    work := .drain ((s.drainSet b).map fun y => (y.canal, y.seq)) n (s.drainAsked b) }

theorem exec_canalDrain_of_passes {s t : State} {c : Fin 256} {q n : Nat} {b : Barge} (begun : s.Begun c q b 0x005)
    (passes : Passes [(!b.reservedZero [(127, 33)], St.malformed, 0),
      ((s.canalPart b.canal).isSome && s.canalPart (b.f 32 32) != s.canalPart b.canal, St.notPermitted, 0)])
    (going : (s.drainSet b).any s.runPaused = false)
    (drained : s.drainAll (b.canal, b.seq) ((s.drainSet b).map fun y => (y.canal, y.seq)) = (n, t)) :
    exec (.canalDrain c q) s = .next ((s.drainWaits t b n).settle (s.drainWaits t b n).barges.length) := by
  change execCanalDrain c q s = _
  rw [execCanalDrain, State.work_of_begun begun (List.mem_singleton_self _)]
  dsimp only
  rw [State.checked_of_passes passes]
  unfold State.drainSet at going drained
  rw [if_neg (Bool.eq_false_iff.mp going), drained]
  rfl

/-! ### CARGO_ABORT (R107, R415) -/

/-- What a CARGO_ABORT does with its target, none for one that has completed. -/
def State.abort (s : State) (b : Barge) (target : Option Barge) : State :=
  match target with
  | none => s.finish b.canal b.seq St.done 0 0
  | some x =>
    if x.native ≠ 0x201 ∧ x.native ≠ 0x202 then s.finish b.canal b.seq 0x0219 0 0
    else if s.runPaused x then s
    else
      let u := s.working b.canal b.seq fun e => { e with work := .abort x.canal x.seq }
      match x.phase with
      | .waiting => (u.logStop x 0x02 (some (b.canal, b.seq))).finish x.canal x.seq St.cancelled 0 0
      | .ended _ _ _ => u
      | _ => (u.stopNow x 0x02 (some (b.canal, b.seq)) St.cancelled).2

/-- The barge that the token of a CARGO_ABORT names. -/
def Barge.abortDep (b : Barge) (s : State) : Dep :=
  tokenOf (b.f 35 32) (((b.headAt.find? fun y => y.1 == b.f 35 32 / 2 ^ 24).map (·.2)).getD
    (s.reg (Reg.canalHead (b.f 35 32 / 2 ^ 24))))

theorem exec_cargoAbort_of_passes {s : State} {c : Fin 256} {q : Nat} {b : Barge} {target : Option Barge}
    (begun : s.Begun c q b 0x203)
    (passes : Passes [(!b.reservedZero [(127, 36)], St.malformed, 0),
      ((s.canalPart b.canal).isSome && s.canalPart (b.f 35 32 / 2 ^ 24) != s.canalPart b.canal, St.notPermitted, 0)])
    (names : s.barge? (b.abortDep s).canal (b.abortDep s).seq = target) :
    exec (.cargoAbort c q) s = .next (s.abort b target) := by
  subst names
  change execCargoAbort c q s = _
  exact State.work_of_passes begun passes

/-- The CARGO_ABORT waits for its target. -/
def State.aborting (s : State) (b x : Barge) : State :=
  s.working b.canal b.seq fun e => { e with work := .abort x.canal x.seq }

section
variable {s : State} {b x : Barge}

theorem State.abort_of_other (other : ¬ (x.native = 0x201 ∨ x.native = 0x202)) :
    s.abort b (some x) = s.finish b.canal b.seq 0x0219 0 0 := if_pos (not_or.mp other)

variable (cargo : x.native = 0x201 ∨ x.native = 0x202) (going : s.runPaused x = false)
include cargo going

theorem State.abort_of_waiting (waiting : x.phase = .waiting) : s.abort b (some x) =
    ((s.aborting b x).logStop x 0x02 (some (b.canal, b.seq))).finish x.canal x.seq St.cancelled 0 0 := by
  unfold State.abort
  dsimp only
  rw [if_neg fun other => cargo.elim other.1 other.2, if_neg (Bool.eq_false_iff.mp going), waiting]
  rfl

theorem State.abort_of_working (working : x.phase = .working) : s.abort b (some x) =
    ((s.aborting b x).stopNow x 0x02 (some (b.canal, b.seq)) St.cancelled).2 := by
  unfold State.abort
  dsimp only
  rw [if_neg fun other => cargo.elim other.1 other.2, if_neg (Bool.eq_false_iff.mp going), working]
  rfl

end

/-- A cargo that no trap has stopped is stopped. -/
theorem State.stopNow_of_whole {x : Barge} (whole : x.fault? = none) (u : State) (what : Nat) (acting : Option (Nat × Nat))
    (status : Nat) : (u.stopNow x what acting status).2 = (u.logStop x what acting).stopCargo x status := by
  unfold State.stopNow
  rw [whole]
  rfl

/-- A cargo that a trap has stopped ends with its own outcome. -/
theorem State.stopNow_of_faulted {x : Barge} (faulted : x.fault? ≠ none) (u : State) (what : Nat)
    (acting : Option (Nat × Nat)) (status : Nat) : (u.stopNow x what acting status).2 = u.endFault x.canal x.seq := by
  unfold State.stopNow
  rw [if_pos (Option.isSome_iff_ne_none.mpr faulted)]

/-! ### The statement -/

/-- Settles O34: the two queries write what they found once their checks pass, and the two stopping barges act on their
targets by `exec_canalDrain_of_passes` and by the phase that `State.abort` finds. -/
theorem queriesDrainAndAbort : Obligations.QueriesDrainAndAbort := by
  unfold Obligations.QueriesDrainAndAbort
  refine ⟨?queries, ?stops⟩
  case queries =>
    intro s c q b x cp bp filt lf sel found ef recs own logs t errs u
    refine ⟨fun begun passes => ?log, fun begun passes => ?err⟩
    case log =>
      change execLogQuery c q x s = _
      exact State.work_of_passes begun passes
    case err =>
      change execErrQuery c q x s = _
      exact State.work_of_passes begun passes
  case stops =>
    intro s c q b x k old set asked cp tok d target cargo ok u
    refine ⟨fun begun passes going n t drained => exec_canalDrain_of_passes begun passes going drained,
      fun begun passes gone => exec_cargoAbort_of_passes begun passes gone,
      fun begun passes names other => ?other, fun begun passes names cargo going waiting => ?waiting,
      fun begun passes names cargo going working whole => ?working,
      fun begun passes names cargo going working faulted => ?faulted⟩
    case other => rw [exec_cargoAbort_of_passes begun passes names, State.abort_of_other other]
    case waiting =>
      rw [exec_cargoAbort_of_passes begun passes names, State.abort_of_waiting cargo going waiting]
      rfl
    case working =>
      rw [exec_cargoAbort_of_passes begun passes names, State.abort_of_working cargo going working,
        State.stopNow_of_whole whole]
      rfl
    case faulted =>
      rw [exec_cargoAbort_of_passes begun passes names, State.abort_of_working cargo going working,
        State.stopNow_of_faulted faulted]
      rfl

end Sys2Proof.Machine

/-! PROOFS. The cargo barges: loading, running, arming behind a gate, and freeing (R377 to R381, R407 to R416). -/

namespace Sys2Proof.Machine

/-! ### What a contested grant leaves alone (R53) -/

theorem State.addNote_maps (s : State) (k q note : Nat) : (s.addNote k q note).maps = s.maps := by
  unfold State.addNote
  split <;> rfl

theorem State.choice_maps (s : State) (part : Nat) (who : Option (List (Nat × Nat))) : (s.choice part who).maps = s.maps := by
  cases who with
  | none => rfl
  | some l => exact foldl_same State.maps _ (fun t b => t.addNote_maps b.1 b.2 _) l _

theorem State.grant_maps (s : State) (me : Requester) (ts : List Touch) (g : Grant) : (s.grant me ts g).maps = s.maps := by
  unfold State.grant
  split
  · rfl
  · dsimp only
    split
    · rfl
    · exact State.choice_maps _ _ _

theorem State.stall_of_sound {s : State} (sound : s.Sound) (l : List (Nat × Nat)) : s.stall l = s := by
  obtain ⟨-, -, -, cool, still⟩ := sound
  simp [State.stall, State.holds, cool, still]

/-- An access of a barge leaves the page map alone, whoever contests it. -/
theorem State.execContest_maps {s : State} (sound : s.Sound) (b : Barge) (ts : List Touch) (x : Contest) :
    (s.execContest b ts x).maps = s.maps := by
  unfold State.execContest State.contest
  rw [State.stall_of_sound sound]
  exact foldl_same State.maps _ (fun t g => t.grant_maps _ ts g) x.grants _

/-! ### CARGO_LOAD (R377, R410) -/

/-- The state in which a CARGO_LOAD judges its image: its range has been read. -/
def State.imageRead (s : State) (b : Barge) (errs : List (Nat × Ecc)) (x : Contest) : State :=
  ((s.execContest b (s.touches b.part (b.f 39 32) (b.f 47 40) false) x).useRange (some (b.canal, b.seq)) s.maps b.part
    (b.f 39 32) (b.f 47 40)).meetAll errs

/-- The image that a CARGO_LOAD reads. -/
def State.loadImage (t : State) (b : Barge) : List Byte := t.localBytes t.maps b.part (b.f 39 32) (b.f 47 40)

/-- The range of a CARGO_LOAD passes the checks made before it is read. -/
structure State.LoadRangeOk (s : State) (b : Barge) : Prop where
  reserved : b.reservedZero [(127, 48)] = true
  aligned : b.f 39 32 % 128 = 0
  mapped : 2 ^ 32 ≤ b.f 39 32
  whole : b.f 47 40 % 128 = 0
  nonzero : b.f 47 40 ≠ 0
  small : b.f 47 40 ≤ 8 * 2 ^ 20
  readable : s.rangeFault s.maps b.part false (b.f 39 32) (b.f 47 40) = none

/-- Does the CHECK section of an image, or the want of one, make it unfit (check 0x0212)? -/
def passUnfit (image : List Byte) : Bool :=
  match passBytes image with
  | some y => passBad y
  | none => usesDefer image

/-- The image that a CARGO_LOAD has read passes the checks of R410. -/
structure State.LoadImageOk (t : State) (b : Barge) : Prop where
  whole : t.localPoison t.maps b.part (b.f 39 32) (b.f 47 40) = none
  valid : Machine.imageFault (t.loadImage b) (b.f 47 40) = none
  pass : passUnfit (t.loadImage b) = false
  untied : t.tied b.part (t.loadImage b) = none
  slot : (t.freeSlot b.part).isSome = true
  room : t.storeUsed b.part + b.f 47 40 ≤ 64 * 2 ^ 20

/-- A CARGO_LOAD that passes every check stores its image in the lowest free slot and reports the handle of that slot. -/
theorem exec_cargoLoad_of_passes {s t : State} {c : Fin 256} {q : Nat} {b : Barge} {errs : List (Nat × Ecc)} {x : Contest}
    (begun : s.Begun c q b 0x200) (first : s.startedBefore b [0x200] (fun y => y.part == b.part) = false)
    (range : s.LoadRangeOk b) (read : s.imageRead b errs x = t) (image : t.LoadImageOk b) :
    let k := (t.freeSlot b.part).getD 0
    let gen := (t.cargoSlot b.part k).gen
    exec (.cargoLoad c q errs x) s = .next ((t.setCargoSlot ⟨b.part, k, gen, true, t.loadImage b, t.mapVersion b.part⟩).finish
      b.canal b.seq St.done (k + gen * 256) 0) := by
  intro k gen
  change execCargoLoad c q errs x s = _
  unfold State.imageRead at read
  rw [execCargoLoad, State.work_of_begun begun (List.mem_singleton_self _)]
  dsimp only
  rw [if_neg (Bool.eq_false_iff.mp first), State.checked_of_passes ?range]
  rw [read, State.checked_of_passes ?image]
  case range =>
    obtain ⟨reserved, aligned, mapped, whole, nonzero, small, readable⟩ := range
    simpa [reserved, aligned, whole, nonzero, readable] using And.intro mapped small
  case image =>
    obtain ⟨whole, valid, pass, untied, slot, room⟩ := image
    unfold State.loadImage at valid pass untied
    generalize t.localBytes t.maps b.part (b.f 39 32) (b.f 47 40) = img at valid pass untied ⊢
    have full : ((t.freeSlot b.part).isNone || decide (64 * 2 ^ 20 < t.storeUsed b.part + b.f 47 40)) = false := by
      rw [Bool.or_eq_false_iff]
      exact ⟨by simpa using slot, decide_eq_false (Nat.not_lt.mpr room)⟩
    simp only [passes_cons, passes_nil, whole, valid, untied, full, Option.isSome_none, and_true, true_and]
    exact pass
  rfl

/-! ### CARGO_RUN and CARGO_ARM (R378, R411, R413) -/

/-- The gate of a CARGO_ARM whose word is at `pa`. -/
def Barge.gateAt (b : Barge) (pa : Nat) (watched : Bool) : Gate :=
  ⟨b.f 55 48, pa, b.f 39 36 % 8, BitVec.ofNat 64 (b.f 63 56), watched, false, false⟩

section
variable {s : State} {c : Fin 256} {q : Nat} {b : Barge} {slot : CargoSlot} (passes : Passes (s.cargoChecks b))
  (cargo : s.cargoOf b.part (b.f 35 32) = some slot)
include passes cargo

theorem exec_cargoRun_of_passes (begun : s.Begun c q b 0x201) :
    exec (.cargoRun c q) s = .next ((s.placeCargo b slot .running none).finishRun b.canal b.seq) := by
  change execCargoRun c q s = _
  rw [execCargoRun, State.work_of_passes begun passes, cargo]

/-- A CARGO_ARM that passes its checks takes a watch on its word, places its cargo behind the gate and reads the word. -/
theorem exec_cargoArm_of_passes {pa : Nat} (begun : s.Begun c q b 0x202)
    (translates : s.execTranslate b.part true 8 (b.f 55 48) = .ok pa) (ecc : Ecc) :
    exec (.cargoArm c q ecc) s = .next
      (((s.takeWatch pa (.barge b.canal b.seq)).2.placeCargo b slot .armed
        (some (b.gateAt pa (s.takeWatch pa (.barge b.canal b.seq)).1))).readGate b.canal b.seq ecc) := by
  change execCargoArm c q ecc s = _
  rw [execCargoArm, State.work_of_passes begun passes, cargo, translates]
  rfl

end

/-! ### The gate (R379, R380, R413) -/

/-- The gate of an armed barge is closed, and its condition holds of its word, which can be read. -/
structure State.GateOpens (s : State) (b : Barge) (w : RunWork) (g : Gate) (ecc : Ecc) : Prop where
  work : b.work = .run w
  gate : w.gate = some g
  closed : g.released = false
  untripped : g.tripped = false
  whole : (s.meetEcc ecc g.pa).poisonedAt g.pa = false
  holds : condHolds g.cond (BitVec.ofNat 64 ((s.meetEcc ecc g.pa).numAt g.pa 8)) g.ref = true

section
variable {s : State} {c q : Nat} {b : Barge} {w : RunWork} {g : Gate} {ecc : Ecc} (barge : s.barge? c q = some b)
  (opens : s.GateOpens b w g ecc)
include barge opens

theorem State.gateWatched_of_gate : s.gateWatched c q = some g.watched := by
  simp [State.gateWatched, Barge.run?, barge, opens.work, opens.gate]

/-- A read of the gate's word that finds the condition releases the cargo. -/
theorem State.readGate_of_opens (sound : s.Sound) : s.readGate c q ecc = (s.meetEcc ecc g.pa).release b w g := by
  obtain ⟨work, gate, closed, untripped, whole, holds⟩ := opens
  simp only [State.readGate, Barge.run?, barge, work, gate, closed, untripped, State.stall_of_sound sound, whole, holds,
    Bool.false_eq_true, if_false, if_true]

end

section
variable {s : State} {c : Fin 256} {q : Nat} {b : Barge} {w : RunWork} {g : Gate} {ecc : Ecc} (sound : s.Sound)
  (barge : s.barge? c.val q = some b) (opens : s.GateOpens b w g ecc)
include sound barge opens

theorem exec_lockGateRelease_of_opens : exec (.lockGateRelease c q ecc) s = .next ((s.meetEcc ecc g.pa).release b w g) := by
  change execLockGateRelease c q ecc s = _
  rw [execLockGateRelease, State.go_of_sound sound, State.gateWatched_of_gate barge opens, if_pos (Option.isSome_some),
    State.readGate_of_opens barge opens sound]

theorem exec_lockGatePoll_of_opens (unwatched : g.watched = false) :
    exec (.lockGatePoll c q ecc) s = .next ((s.meetEcc ecc g.pa).release b w g) := by
  change execLockGatePoll c q ecc s = _
  rw [execLockGatePoll, State.go_of_sound sound, State.gateWatched_of_gate barge opens, unwatched, if_pos (by decide),
    State.readGate_of_opens barge opens sound]

end

/-! ### The statement -/

/-- Settles O37: each barge acts once its checks pass, and both rows of a gate release the cargo whose condition they find. -/
theorem cargoBarges : Obligations.CargoBarges := by
  unfold Obligations.CargoBarges
  intro s c q b errs x ecc slot pa w g p base n asked t img k h gate opens
  have opened : opens → s.Sound ∧ s.barge? c.val q = some b ∧ s.GateOpens b w g ecc :=
    fun ⟨sound, barge, work, gated, closed, untripped, whole, holds⟩ =>
      ⟨sound, barge, work, gated, closed, untripped, whole, holds⟩
  refine ⟨fun begun first reserved aligned mapped whole nonzero small readable clean valid pass untied free room => ?load,
    fun begun passes cargo => exec_cargoRun_of_passes passes cargo begun,
    fun begun passes cargo translates => exec_cargoArm_of_passes passes cargo begun translates ecc,
    fun armed => ?release, fun armed unwatched => ?poll, fun begun reserved loaded unnamed => ?free⟩
  case load =>
    have ⟨sound, _⟩ := begun
    have read : s.imageRead b errs x = t :=
      congrArg (fun maps => (asked.useRange (some (b.canal, b.seq)) maps p base n).meetAll errs)
        (State.execContest_maps sound b _ x).symm
    -- Under its own name the image is compared as a term, and not evaluated.
    have fit : passUnfit img = false := by
      clear_value img
      exact pass
    exact exec_cargoLoad_of_passes begun first ⟨reserved, aligned, mapped, whole, nonzero, small, readable⟩ read
      ⟨clean, valid, fit, untied, free, room⟩
  case release =>
    obtain ⟨sound, barge, opens⟩ := opened armed
    exact exec_lockGateRelease_of_opens sound barge opens
  case poll =>
    obtain ⟨sound, barge, opens⟩ := opened armed
    exact exec_lockGatePoll_of_opens sound barge opens unwatched
  case free =>
    change execCargoFree c q s = _
    have loaded' : (s.cargoOf b.part (b.f 35 32)).isNone = false := by simpa using loaded
    exact State.work_of_passes begun (by simpa [reserved] using And.intro loaded' unnamed)

end Sys2Proof.Machine

/-! PROOFS. The memory barges: MEM_COPY, MEM_FILL and MEM_SCRUB, which no deadline has stopped (R397 to R401). -/

namespace Sys2Proof.Machine

/-! ### Errors that a read meets leave the page map alone (R284, R285) -/

theorem State.setPoison_maps (s : State) (pa : Nat) : (s.setPoison pa).maps = s.maps := by
  unfold State.setPoison
  rw [State.touch_eq]

/-- A corrected error that writes a record leaves the page map alone where its detail does. -/
theorem State.recordCorrected_maps_of_detail {detail : State → Nat × State} (keeps : ∀ u, (detail u).2.maps = u.maps)
    (s : State) (unit : Nat) (part : Option Nat) (addr : Nat) :
    (s.recordCorrected unit part addr detail).maps = s.maps := by
  unfold State.recordCorrected
  split
  · exact keeps _
  · rfl

theorem State.memDetail_maps (s : State) (pa : Nat) : (s.memDetail pa).2.maps = s.maps := rfl

theorem State.meetEcc_maps (s : State) (e : Ecc) (pa : Nat) : (s.meetEcc e pa).maps = s.maps := by
  unfold State.meetEcc
  cases e with
  | clean | cache => rfl
  | corrected =>
    refine (State.recordCorrected_maps_of_detail (fun _ => rfl) _ _ _ _).trans ?_
    split
    · rfl
    · exact State.satAdd_maps _ _ _ _
  | uncorrectable =>
    refine (State.setPoison_maps _ pa).trans ?_
    refine (State.memDetail_maps _ pa).trans ?_
    split
    · rfl
    · exact (State.setFld_maps _ _ _ _).trans (State.satAdd_maps _ _ _ _)
  | buffer bad =>
    dsimp only
    split_ifs
    · rfl
    · exact State.setPoison_maps _ pa
    · exact State.recordCorrected_maps_of_detail (fun _ => rfl) _ _ _ _

theorem State.meetAll_maps (s : State) (errs : List (Nat × Ecc)) : (s.meetAll errs).maps = s.maps := by
  unfold State.meetAll
  exact foldl_same State.maps _ (fun t e => t.meetEcc_maps e.2 e.1) errs s

/-! ### A barge that runs to its end (R400) -/

/-- A memory barge that no deadline has stopped writes its whole destination. -/
theorem Barge.memDone_of_unstopped {b : Barge} (unstopped : b.stopBy = 0) (dst len k : Nat) : b.memDone dst len k = len :=
  if_neg (by omega)

/-- A memory barge that wrote its whole destination ends with its own status. -/
theorem State.memEnd_of_whole (s : State) (b : Barge) (dst len status r1 : Nat) :
    s.memEnd b dst len len status r1 = s.endBarge b.canal b.seq status len r1 := if_neg (Nat.lt_irrefl len)

/-! ### The three barges (R398, R400, R401) -/

/-- What a MEM_COPY leaves: the units that it poisoned, and the state in which its destination is written. -/
def State.copied (s : State) (b : Barge) (errs : List (Nat × Ecc)) (x : Contest) : Nat × State :=
  ((s.execContest b (s.touches b.part (b.f 47 40) (b.f 55 48) false ++ s.touches b.part (b.f 39 32) (b.f 55 48) true)
    x).meetAll errs).copyRange b.part (b.f 39 32) (b.f 47 40) (b.f 55 48)

/-- The state in which a MEM_FILL or a MEM_SCRUB writes its destination. -/
def State.destMet (s : State) (b : Barge) (x : Contest) : State :=
  (s.execContest b (s.touches b.part (b.f 39 32) (b.f 47 40) true) x).meetAll x.errs

theorem State.destMet_maps {s : State} (sound : s.Sound) (b : Barge) (x : Contest) : (s.destMet b x).maps = s.maps :=
  (State.meetAll_maps _ _).trans (State.execContest_maps sound b _ x)

/-- The bytes are written over the destination of a MEM_FILL or a MEM_SCRUB. -/
def State.destWritten (s : State) (b : Barge) (x : Contest) (bytes : List Byte) : State :=
  (s.destMet b x).storeLocal (s.destMet b x).maps b.part (b.f 39 32) bytes

/-- The bytes that a MEM_FILL writes: its pattern, over and over. -/
def Barge.fillBytes (b : Barge) : List Byte :=
  (List.range (b.f 47 40)).map fun i => (bytesLE 8 (b.f 55 48)).getD (i % 8) 0

/-- A MEM_SCRUB has written its zeros and read every line back. -/
def State.scrubbed (s : State) (b : Barge) (errs : List (Nat × Ecc)) (x : Contest) : State :=
  (s.destWritten b x (List.replicate (b.f 47 40) 0)).meetAll errs

/-- The lines of its destination that a MEM_SCRUB reads back poisoned or changed. -/
def State.badLines (t : State) (b : Barge) : List Nat :=
  (List.range (b.f 47 40 / 128)).filter fun i =>
    (t.poisonIn (t.paOf t.maps b.part (b.f 39 32 + 128 * i)) 128).isSome ||
      (t.bytesAt (t.paOf t.maps b.part (b.f 39 32 + 128 * i)) 128).any (· != 0)

section
variable {s : State} {c : Fin 256} {q : Nat} {b : Barge} (passes : Passes (s.memChecks b)) (unstopped : b.stopBy = 0)
  (k : Nat) (errs : List (Nat × Ecc)) (x : Contest)
include passes unstopped

theorem exec_memCopy_of_passes (begun : s.Begun c q b 0x100) :
    exec (.memCopy c q k errs x) s = .next ((s.copied b errs x).2.endBarge b.canal b.seq
      (if (s.copied b errs x).1 = 0 then St.done else 0x0116) (b.f 55 48) (s.copied b errs x).1) := by
  change execMemCopy c q k errs x s = _
  rw [execMemCopy, State.work_of_passes begun passes]
  dsimp only
  rw [Barge.memDone_of_unstopped unstopped, State.memEnd_of_whole]
  rfl

/-- A MEM_FILL stores under the page map that it started with, which its accesses leave as it was. -/
theorem exec_memFill_of_passes (begun : s.Begun c q b 0x101) :
    exec (.memFill c q k x) s = .next
      ((s.destWritten b x b.fillBytes).endBarge b.canal b.seq St.done (b.f 47 40) 0) := by
  have ⟨sound, _⟩ := begun
  change execMemFill c q k x s = _
  rw [execMemFill, State.work_of_passes begun passes, State.destWritten, State.destMet_maps sound]
  dsimp only
  rw [Barge.memDone_of_unstopped unstopped, State.memEnd_of_whole]
  rfl

theorem exec_memScrub_of_passes (begun : s.Begun c q b 0x102) :
    exec (.memScrub c q k errs x) s = .next ((s.scrubbed b errs x).endBarge b.canal b.seq
      (if ((s.scrubbed b errs x).badLines b).isEmpty then St.done else 0x0117) (b.f 47 40)
      ((s.scrubbed b errs x).badLines b).length) := by
  have ⟨sound, _⟩ := begun
  change execMemScrub c q k errs x s = _
  rw [execMemScrub, State.work_of_passes begun passes, State.scrubbed, State.destWritten, State.destMet_maps sound]
  dsimp only
  rw [Barge.memDone_of_unstopped unstopped, State.memEnd_of_whole]
  rfl

end

/-! ### The statement -/

/-- Settles O35: each barge passes its checks, and with no stop pending it writes its whole destination and ends. -/
theorem memoryBarges : Obligations.MemoryBarges := by
  unfold Obligations.MemoryBarges
  intro s c q k b errs x dst len t scrubbed bad copied
  exact ⟨fun begun passes unstopped => exec_memCopy_of_passes passes unstopped k errs x begun,
    fun begun passes unstopped => exec_memFill_of_passes passes unstopped k x begun,
    fun begun passes unstopped => exec_memScrub_of_passes passes unstopped k errs x begun⟩

end Sys2Proof.Machine

/-! PROOFS. The barges of power: WEIR_SET, SLEEP, DOMAIN_ENABLE and DOMAIN_DISABLE (R456, R462 to R466). -/

namespace Sys2Proof.Machine

/-! ### WEIR_SET and SLEEP (R456, R466) -/

section
variable {s : State} {c : Fin 256} {q : Nat} {b : Barge}

/-- A WEIR_SET whose settings are all in range applies the groups that it selects. -/
theorem exec_weirSet_of_inRange (begun : s.Begun c q b 0x700) (reserved : b.reservedZero [(127, 50), (39, 39)] = true)
    (dies : b.f 48 48 < 16) (groups : b.f 49 49 < 16) (inRange : s.weirSetBad b = none) :
    exec (.weirSet c q) s = .next ((s.weirApply b).finish b.canal b.seq St.done 0 0) := by
  change execWeirSet c q s = _
  exact State.work_of_passes begun (by simpa [reserved, inRange] using And.intro dies groups)

/-- A SLEEP that names a state of Table 15-5 completes and begins the entry, where every partition can bear the wake latency or
the barge forces it. -/
theorem exec_sleep_of_borne (begun : s.Begun c q b 0x701) (reserved : b.reservedZero [(127, 34)] = true)
    (force : b.f 33 33 < 2) (low : 1 ≤ b.f 32 32) (high : b.f 32 32 ≤ 4)
    (borne : s.intolerant (b.f 32 32) = none ∨ b.f 33 33 = 1) :
    exec (.sleep c q) s =
      .next ((s.finish b.canal b.seq St.done (b.f 32 32) 0).sleep (b.f 32 32) (b.f 33 33 == 1)) := by
  have formed : decide (2 ≤ b.f 33 33 ∨ b.f 32 32 = 0 ∨ 4 < b.f 32 32) = false := decide_eq_false (by omega)
  have admitted : ((s.intolerant (b.f 32 32)).isSome && b.f 33 33 == 0) = false := by
    rcases borne with bearable | forced
    · simp [bearable]
    · simp [forced]
  change execSleep c q s = _
  exact State.work_of_passes begun (by simp [reserved, formed, admitted])

end

/-! ### The domain barges (R462 to R464) -/

/-- Is the domain of a unit of this KIND off? -/
def State.unitOff (s : State) (kind u : Nat) : Bool := if kind = 3 then s.portOff u else s.domainOf kind u == 2

theorem State.unitOff_of_not_port (s : State) {kind : Nat} (other : kind ≠ 3) (u : Nat) :
    s.unitOff kind u = (s.domainOf kind u == 2) := if_neg other

/-- The unit of a DOMAIN_ENABLE has its power. -/
def State.unitOn (s : State) (kind u : Nat) : State := if s.unitOff kind u then s.powerOn kind u else s

/-- The reaches that must rest before a domain shuts down. -/
def domainReaches (kind u : Nat) : List Nat := if kind = 1 then [u] else reachesOfDie u

/-- A DOMAIN_DISABLE works, and its domain shows that it shuts down (R463). -/
def State.shutBegun (s : State) (b : Barge) : State := (s.working b.canal b.seq id).setDomain (b.f 32 32) (b.f 39 36) 1

theorem State.tryShut_of_rest {s : State} {b : Barge}
    (rest : (domainReaches (b.f 32 32) (b.f 39 36)).all s.atRest = true) :
    s.tryShut b = (s.shutDown (b.f 32 32) (b.f 39 36) (bitOf (b.f 33 33) 1)).endBarge b.canal b.seq St.done 0 0 := if_pos rest

/-- A shut-down waits while a reach of its domain is busy. -/
theorem State.tryShut_of_busy {s : State} {b : Barge}
    (busy : (domainReaches (b.f 32 32) (b.f 39 36)).all s.atRest = false) : s.tryShut b = s :=
  if_neg (Bool.eq_false_iff.mp busy)

section
variable {s : State} {c : Fin 256} {q : Nat} {b : Barge} (passes : Passes (s.domainChecks b))
include passes

theorem exec_domainEnable_of_direct (begun : s.Begun c q b 0x702) (direct : b.waitFrom = none) :
    exec (.domainEnable c q) s =
      .next ((s.unitOn (b.f 32 32) (b.f 39 36)).endBarge b.canal b.seq St.done 0 0) := by
  change execDomainEnable c q s = _
  rw [execDomainEnable, State.work_of_passes begun passes, direct]
  rfl

/-- A DOMAIN_ENABLE that waited for a shut-down says so, and for how long. -/
theorem exec_domainEnable_of_deferred {w : Nat} (begun : s.Begun c q b 0x702) (deferred : b.waitFrom = some w) :
    exec (.domainEnable c q) s =
      .next ((s.unitOn (b.f 32 32) (b.f 39 36)).endBarge b.canal b.seq 0x0701 (b.startAt - w) 0) := by
  change execDomainEnable c q s = _
  rw [execDomainEnable, State.work_of_passes begun passes, deferred]
  rfl

/-- A DOMAIN_DISABLE switches a port at once, ends at a domain that is off already, and starts the shut-down of another. -/
theorem exec_domainDisable_of_passes (begun : s.Begun c q b 0x703) :
    exec (.domainDisable c q) s = .next (
      if b.f 32 32 = 3 then
        (if s.portOff (b.f 39 36) then s else s.portDown (b.f 39 36)).endBarge b.canal b.seq St.done 0 0
      else if s.domainOf (b.f 32 32) (b.f 39 36) = 2 then s.endBarge b.canal b.seq St.done 0 0
      else (s.shutBegun b).tryShut b) := by
  obtain ⟨sound, barge, phase, native⟩ := begun
  change execDomainDisable c q s = _
  rw [execDomainDisable, State.go_of_sound sound, barge]
  dsimp only
  rw [if_neg (not_not.mpr native), phase]
  dsimp only
  rw [State.checked_of_passes passes]
  rfl

/-- A domain that is on, and is no port's, starts to shut down. -/
theorem exec_domainDisable_of_on (begun : s.Begun c q b 0x703) (other : b.f 32 32 ≠ 3)
    (on : s.unitOff (b.f 32 32) (b.f 39 36) = false) :
    exec (.domainDisable c q) s = .next ((s.shutBegun b).tryShut b) := by
  rw [State.unitOff_of_not_port s other] at on
  rw [exec_domainDisable_of_passes passes begun, if_neg other, if_neg (by simpa using on)]

end

/-! ### The statement -/

/-- Settles O44: each barge acts once its checks pass; a shut-down goes on as far as the reaches of its domain rest. -/
theorem powerBarges : Obligations.PowerBarges := by
  unfold Obligations.PowerBarges
  intro s c q b target kind u off w rs
  refine ⟨exec_weirSet_of_inRange, exec_sleep_of_borne,
    fun begun passes direct => exec_domainEnable_of_direct passes begun direct,
    fun w begun passes deferred => exec_domainEnable_of_deferred passes begun deferred,
    fun begun passes port => ?port, fun begun passes other isOff => ?already, fun begun passes other on rest => ?shut,
    fun begun passes other on busy => ?waits⟩
  case port =>
    have shown : off = s.portOff u := if_pos port
    rw [exec_domainDisable_of_passes passes begun, if_pos port, shown]
  case already =>
    have shown : (s.domainOf kind u == 2) = true := (s.unitOff_of_not_port other u).symm.trans isOff
    rw [exec_domainDisable_of_passes passes begun, if_neg other, if_pos (by simpa using shown)]
  case shut =>
    rw [exec_domainDisable_of_on passes begun other on]
    exact congrArg _ (State.tryShut_of_rest rest)
  case waits =>
    rw [exec_domainDisable_of_on passes begun other on]
    exact congrArg _ (State.tryShut_of_busy busy)

end Sys2Proof.Machine

/-! PROOFS. The events of the weir: its tick, the voltage of a core, retained reaches, the latency ceiling and the wakes (R440
to R454, R459, R460). -/

namespace Sys2Proof.Machine

/-! ### The tick (R441 to R444, R595) -/

/-- The package once a tick has measured it: the bucket stands at its new level, a core that issues work again after an idle drop
is back at its target, and each core with paced reaches keeps to their floor. -/
def State.ticked (s : State) (e : WeirEnv) : State :=
  (List.range 4).foldl (fun u d => (if u.dieIssues d then u.firstIssue d else u).holdFloor d)
    ((s.measure e).showBucket (s.measure e).bucketNext)

/-- What the package may draw: A of R442. -/
def State.allowed (s : State) : Nat := s.fld Reg.weirStatus F.WEIR_STATUS_ALLOWED

/-- What the package has drawn over the last 100 µs: P100 of R441. -/
def State.drawn (s : State) : Nat := s.fld Reg.weirPower F.WEIR_POWER_P100

theorem exec_weirTick_of_takingOver {s : State} (sound : s.Sound) (e : WeirEnv) (takingOver : s.takingOver = true) :
    exec (.weirTick e) s = .next s.endTakeover := by
  change execWeirTick e s = _
  rw [execWeirTick, if_pos takingOver, State.go_of_sound sound]

section
variable {s : State} {e : WeirEnv} (sound : s.Sound) (steady : s.takingOver = false)
include sound steady

/-- With no takeover a tick moves the cores as the power drawn lies above A, 300 W or more below it, or between. -/
theorem exec_weirTick_of_steady :
    exec (.weirTick e) s = .next (
      if (s.ticked e).allowed < (s.ticked e).drawn then (s.ticked e).lowerTick
      else if (s.ticked e).drawn + 300 ≤ (s.ticked e).allowed then (s.ticked e).raiseTick else s.ticked e).excessEnds := by
  change execWeirTick e s = _
  rw [execWeirTick, if_neg (Bool.eq_false_iff.mp steady), State.go_of_sound sound]
  rfl

theorem exec_weirTick_of_above (above : (s.ticked e).allowed < (s.ticked e).drawn) :
    exec (.weirTick e) s = .next (s.ticked e).lowerTick.excessEnds := by
  rw [exec_weirTick_of_steady sound steady, if_pos above]

theorem exec_weirTick_of_free (free : (s.ticked e).drawn + 300 ≤ (s.ticked e).allowed) :
    exec (.weirTick e) s = .next (s.ticked e).raiseTick.excessEnds := by
  rw [exec_weirTick_of_steady sound steady, if_neg (by omega), if_pos free]

theorem exec_weirTick_of_between (within : (s.ticked e).drawn ≤ (s.ticked e).allowed)
    (near : (s.ticked e).allowed < (s.ticked e).drawn + 300) :
    exec (.weirTick e) s = .next (s.ticked e).excessEnds := by
  rw [exec_weirTick_of_steady sound steady, if_neg within.not_gt, if_neg near.not_ge]

end

/-! ### The voltage of a core (R449, R450, R452) -/

/-- The target of a core is set, and its voltage follows (R450). -/
def State.aimVcore (s : State) (d v : Nat) : State :=
  ({ s with weir := { s.weir with target := spPut d v s.weir.target } } : State).follow d

/-- May the target of a core rise: no sensor of its die is above TJ_TARGET − 5 °C, and 300 W of the budget are free (R450)? -/
def State.mayRaise (s : State) (d : Nat) : Bool :=
  let lim := (s.fld Reg.weirLimits F.WEIR_LIMITS_TJ_TARGET - 5) * 4
  ((reachesOfDie d).all fun r => decide (s.fld (Reg.sensorReach r) F.SENSOR_REACH_TJ ≤ lim)) &&
    decide (s.fld (Reg.sensorDie d) F.SENSOR_DIE_TJ ≤ lim) && decide (s.drawn + 300 ≤ s.allowed)

theorem State.mayRaise_iff (s : State) (d : Nat) : s.mayRaise d = true ↔
    (∀ r ∈ reachesOfDie d,
      s.fld (Reg.sensorReach r) F.SENSOR_REACH_TJ ≤ (s.fld Reg.weirLimits F.WEIR_LIMITS_TJ_TARGET - 5) * 4) ∧
    s.fld (Reg.sensorDie d) F.SENSOR_DIE_TJ ≤ (s.fld Reg.weirLimits F.WEIR_LIMITS_TJ_TARGET - 5) * 4 ∧
    s.drawn + 300 ≤ s.allowed := by
  unfold State.mayRaise
  simp only [Bool.and_eq_true, List.all_eq_true, decide_eq_true_eq, and_assoc]

section
variable {s : State} {d : Fin 4} {r : Fin 64} {c : Fin 256} {q p : Nat} {b : Barge} (sound : s.Sound)
include sound

/-- With VMODE 0b01 the target of a core moves by 5 mV, between VSET and VMAX. -/
theorem exec_vmodeAdjust_of_adaptive (adaptive : s.fld (Reg.vcoreCtrl d.val) F.VCORE_CTRL_VMODE = 1) :
    exec (.vmodeAdjust d) s = .next (s.aimVcore d.val (
      if s.mayRaise d.val then min (s.fld (Reg.vcoreCtrl d.val) F.VCORE_CTRL_VMAX) (s.vTarget d.val + 5)
      else max (s.fld (Reg.vcoreCtrl d.val) F.VCORE_CTRL_VSET) (s.vTarget d.val - 5))) :=
  (State.goDie_of_sound sound _ _).trans (congrArg _ (if_neg (not_not.mpr adaptive)))

theorem exec_idleDrop_of_idle (drops : s.fld (Reg.vcoreCtrl d.val) F.VCORE_CTRL_IDLE_DROP_US ≠ 0)
    (idle : s.dieIssues d.val = false) (on : s.coreOn d.val = true) :
    exec (.idleDrop d) s =
      .next ((s.placeVcore d.val (min (s.vcore d.val) (s.fld (Reg.vcoreCtrl d.val) F.VCORE_CTRL_VIDLE))).setFld
        (Reg.vcoreStatus d.val) F.VCORE_STATUS_LENT 1) :=
  (State.goDie_of_sound sound _ _).trans (congrArg _ (if_neg (by simp [drops, idle, on])))

/-! ### Retained reaches and the latency ceiling (R453, R454, R479) -/

theorem exec_reachRetain_of_quiet (quiet : s.mayRetain r.val = true) :
    exec (.reachRetain r) s = .next
      ((s.setFlds (Reg.reachDepth r.val) [(F.REACH_DEPTH_DEPTH, 2), (F.REACH_DEPTH_DOMAIN, 2)]).satAdd (Reg.reachDepth r.val)
        F.REACH_DEPTH_RETAINS 1) :=
  (State.goDie_of_sound sound _ _).trans (congrArg _ (if_pos quiet))

theorem exec_reachWake_of_retained (retained : s.retained r.val = true) :
    exec (.reachWake r) s = .next (s.setFlds (Reg.reachDepth r.val)
      [(F.REACH_DEPTH_DEPTH, 1), (F.REACH_DEPTH_DOMAIN, 0), (F.REACH_DEPTH_WAKING, 0)]) :=
  (State.goDie_of_sound sound _ _).trans (congrArg _ (if_pos retained))

theorem exec_latencyCeiling_of_met (barge : s.barge? c.val q = some b) (part : b.actsFor = some p)
    (met : s.ceilingMet b p = true) :
    exec (.latencyCeiling c q) s = .next (s.ceiling b p) := by
  change execLatencyCeiling c q s = _
  rw [execLatencyCeiling, State.go_of_sound sound, barge]
  dsimp only
  rw [part]
  exact congrArg _ (if_pos met)

end

theorem State.retained_of_depth {s : State} {r : Nat} (awake : s.fld Reg.weirStatus F.WEIR_STATUS_STATE = 0)
    (depth : s.fld (Reg.reachDepth r) F.REACH_DEPTH_DEPTH = 2) : s.retained r = true := by
  simp [State.retained, awake, depth]

/-! ### The wake register (R459) -/

/-- A write of WEIR_WAKE that is served and has bit 0 set is a wake event. -/
theorem exec_weirWake_of_reaches {s : State} {rp : RegPath} {v : Word} (served : s.Reaches rp Reg.weirWake)
    (set : bitOf v.toNat 0 = true) : exec (.weirWake v rp) s = .next (s.wakeFor Reg.weirWake).wakeUp :=
  (State.go_viaPath_of_reaches served _).trans (congrArg _ (if_pos set))

/-! ### The statement -/

/-- Settles O45: each event acts at once in a sound package; a tick goes by the power drawn, and VMODE by heat and budget. -/
theorem weirEvents : Obligations.WeirEvents := by
  unfold Obligations.WeirEvents
  intro s e d r c q p b v rp t allowed drawn ctrl lim cool aim idle depth
  -- Under its own name the measured package is compared as a term, and not evaluated.
  have named : t = s.ticked e := rfl
  clear_value t
  subst named
  refine ⟨exec_weirTick_of_above, exec_weirTick_of_free, exec_weirTick_of_between,
    fun sound takingOver => exec_weirTick_of_takingOver sound e takingOver, fun sound adaptive room => ?rises,
    fun sound adaptive tight => ?falls, fun sound => State.goDie_of_sound sound _ _,
    fun sound => State.goDie_of_sound sound _ _, exec_idleDrop_of_idle, exec_reachRetain_of_quiet,
    fun sound awake retained => exec_reachWake_of_retained sound (State.retained_of_depth awake retained),
    exec_latencyCeiling_of_met, fun sound => State.go_of_sound sound _, exec_weirWake_of_reaches⟩
  case rises =>
    rw [exec_vmodeAdjust_of_adaptive sound adaptive, if_pos ((s.mayRaise_iff d.val).mpr room)]
    rfl
  case falls =>
    rw [exec_vmodeAdjust_of_adaptive sound adaptive, if_neg (mt (s.mayRaise_iff d.val).mp tight)]
    rfl

end Sys2Proof.Machine

/-! PROOFS. What every command and every step keeps: one lemma per operation of the state that says that the operation
keeps the queue and the canonical form of memory (`K`), in the order of the model's files. Each proof follows its
definition: a chain of the lemmas about the operations that it is made of. -/

namespace Sys2Proof.Machine

variable {s₀ s t u : State}

namespace K

/-- An update of other fields keeps both. -/
theorem update {x1 x2 x3 x6 x7 x8 x9 x10 x11 x12 x13 x14 x15 x16 x17 x18 x19 x20 x21 x22 x23 x24 x25 x26
    x27 x28 x29 x30 x31 x32 x33 x34 x35 x36 x37 x38 x39 x40 x41 x42 x43} (h : K s₀ s) : K s₀ (State.mk s.pending x1 x2 x3
    s.mem s.fills x6 x7 x8 x9 x10 x11 x12 x13 x14 x15 x16 x17 x18 x19 x20 x21 x22 x23 x24 x25 x26 x27 x28 x29 x30 x31 x32 x33
    x34 x35 x36 x37 x38 x39 x40 x41 x42 x43) := fields.mpr h

/-- The state that a choice holds. -/
theorem iteOf {β : Type} (g : β → State) {c : Prop} [Decidable c] {x y : β} (hx : K s₀ (g x)) (hy : K s₀ (g y)) :
    K s₀ (g (if c then x else y)) := by
  split
  · exact hx
  · exact hy

theorem ite {c : Prop} [Decidable c] (ht : K s₀ t) (hu : K s₀ u) : K s₀ (if c then t else u) := iteOf id ht hu

theorem iteSnd {α : Type} {c : Prop} [Decidable c] {p q : α × State} (hp : K s₀ p.2) (hq : K s₀ q.2) :
    K s₀ (if c then p else q).2 := iteOf Prod.snd hp hq

/-- The state that a fold carries along. -/
theorem foldlOf {α β : Type} (g : β → State) {f : β → α → β} {l : List α} {p : β}
    (hf : ∀ q x, K s₀ (g q) → K s₀ (g (f q x))) (hp : K s₀ (g p)) : K s₀ (g (l.foldl f p)) := by
  induction l generalizing p with
  | nil => exact hp
  | cons x l ih => exact ih (hf _ _ hp)

/-- Names an intermediate state's fact. -/
theorem bind (h : K s₀ t) (f : K s₀ t → K s₀ u) : K s₀ u := f h

end K

theorem KO.ite {c : Prop} [Decidable c] {x y : Option State} (hx : KO s₀ x) (hy : KO s₀ y) : KO s₀ (if c then x else y) := by
  split
  · exact hx
  · exact hy

theorem KOE.ite {ε : Type} {c : Prop} [Decidable c] {x y : Option (Except ε State)} (hx : KOE s₀ x) (hy : KOE s₀ y) :
    KOE s₀ (if c then x else y) := by
  split
  · exact hx
  · exact hy

theorem KR.ite {c : Prop} [Decidable c] {x y : Res State} (hx : KR s₀ x) (hy : KR s₀ y) : KR s₀ (if c then x else y) := by
  split
  · exact hx
  · exact hy

/-! ### Ops -/

theorem K.setReg {a v} (h : K s₀ s) : K s₀ (s.setReg a v) := h.update
theorem K.setFld {a f v} (h : K s₀ s) : K s₀ (s.setFld a f v) := h.setReg
theorem K.setFlds {a l} (h : K s₀ s) : K s₀ (s.setFlds a l) := h.setReg
theorem K.satAdd {a f k} (h : K s₀ s) : K s₀ (s.satAdd a f k) := h.setFld
theorem K.count {a k} (h : K s₀ s) : K s₀ (s.count a k) := h.setReg
theorem K.countSat {a k} (h : K s₀ s) : K s₀ (s.countSat a k) := h.setReg
theorem K.dropLostFrames (h : K s₀ s) : K s₀ s.dropLostFrames := h.update
theorem K.syncDone (h : K s₀ s) : K s₀ s.syncDone := K.ite h.setFld.setFld.update.dropLostFrames h
theorem K.tickTime (h : K s₀ s) : K s₀ s.tickTime := K.ite h.update h.update.setReg
theorem K.idle (h : K s₀ s) : K s₀ s.idle := h.tickTime.syncDone
theorem K.draw (h : K s₀ s) : K s₀ s.draw.2 := h.update
theorem K.emit {o} (h : K s₀ s) : K s₀ (s.emit o) := h.update
theorem K.touch {pa} (h : K s₀ s) : K s₀ (s.touch pa) := K.ite h.update h
theorem K.setPoison {pa} (h : K s₀ s) : K s₀ (s.setPoison pa) := h.touch.update
theorem K.putByte {pa b} (h : K s₀ s) : K s₀ (s.putByte pa b) := ⟨h.pending, fun w => s.memWf_putByte pa b (h.memWf w)⟩

theorem K.putBytes {pa bs} (h : K s₀ s) : K s₀ (s.putBytes pa bs) := by
  induction bs generalizing s pa with
  | nil => exact h
  | cons x xs ih => exact ih h.putByte

theorem K.touchRange {pa n} (h : K s₀ s) : K s₀ (s.touchRange pa n) := K.foldl (fun _ _ h₁ => K.ite h₁.touch h₁) h

theorem K.fillRange {pa n gen} (h : K s₀ s) : K s₀ (s.fillRange pa n gen) := by
  refine ⟨?_, fun w => s.memWf_fillRange pa n gen (h.memWf w)⟩
  unfold State.fillRange
  split
  · exact h.pending
  · dsimp only
    split
    · exact h.pending
    · exact (K.refl _).touchRange.pending.trans h.pending

theorem K.zeroRange {pa n} (h : K s₀ s) : K s₀ (s.zeroRange pa n) := h.fillRange
theorem K.undefine {pa n} (h : K s₀ s) : K s₀ (s.undefine pa n) := h.fillRange.update
theorem K.store {pa bs} (h : K s₀ s) : K s₀ (s.store pa bs) := K.ite h h.putBytes.touchRange.update
theorem K.storeFrom {d pa bs} (h : K s₀ s) : K s₀ (s.storeFrom d pa bs) := K.ite h.store h
theorem K.store8 {pa v} (h : K s₀ s) : K s₀ (s.store8 pa v) := h.store
theorem K.setCl {P c} (h : K s₀ s) : K s₀ (s.setCl P c) := h.update

theorem K.storeLocalIf {maps part la bs on} (h : K s₀ s) : K s₀ (s.storeLocalIf maps part la bs on) :=
  K.foldl (fun _ _ h₁ => K.ite h₁.store h₁) h

theorem K.storeLocal {maps part la bs} (h : K s₀ s) : K s₀ (s.storeLocal maps part la bs) := h.storeLocalIf
theorem K.noteFault {unit kind place} (h : K s₀ s) : K s₀ (s.noteFault unit kind place) := h.update

theorem K.errRecord {unit kind level action part logEntry addr detail time} (h : K s₀ s) : K s₀ (s.errRecord unit kind level
    action part logEntry addr detail time) :=
  h.count.update

theorem K.memDetail {pa} (h : K s₀ s) : K s₀ (s.memDetail pa).2 := h.draw

theorem K.recordCorrected {unit part addr detail} (h : K s₀ s) (hdetail : ∀ v, K s₀ v → K s₀ (detail v).2) : K s₀
    (s.recordCorrected unit part addr detail) :=
  K.ite (hdetail _ h.noteFault).errRecord h

theorem K.syndrome (h : K s₀ s) : K s₀ s.syndrome.2 := h.draw

theorem K.meetEcc {e pa} (h : K s₀ s) : K s₀ (s.meetEcc e pa) := by
  dsimp only [State.meetEcc]
  split
  · exact h
  · exact h
  · exact (K.ite h.noteFault h.noteFault.satAdd).recordCorrected fun _ h₁ => h₁.memDetail
  · exact (K.ite h.noteFault h.noteFault.satAdd.setFld).memDetail.setPoison.errRecord
  · exact K.ite h (K.ite h.noteFault.syndrome.setPoison.errRecord (h.noteFault.recordCorrected fun _ h₁ => h₁.syndrome))

theorem K.meetAll {errs} (h : K s₀ s) : K s₀ (s.meetAll errs) := K.foldl (fun _ _ h₁ => h₁.meetEcc) h
theorem K.mergeRead {e pa n} (h : K s₀ s) : K s₀ (s.mergeRead e pa n) := K.ite h h.meetEcc

theorem K.regEcc {P e} (h : K s₀ s) : K s₀ (s.regEcc P e) := by
  dsimp only [State.regEcc]
  split
  · exact h.noteFault.recordCorrected fun _ h₁ => h₁.syndrome
  · exact h.noteFault.syndrome.setCl.errRecord
  · exact h

theorem K.cacheEcc {P e} (h : K s₀ s) : K s₀ (s.cacheEcc P e) := by
  unfold State.cacheEcc
  split
  · exact h.noteFault.recordCorrected fun _ h₁ => h₁.syndrome
  · exact h

theorem K.logPut {kind canal seq status part barge tally event} (h : K s₀ s) : K s₀ (s.logPut kind canal seq status part
    barge tally event) :=
  h.update

theorem K.logGap (h : K s₀ s) : K s₀ s.logGap := by
  unfold State.logGap
  split
  · exact h
  · dsimp only
    split
    · exact h.update.logPut
    · exact h.update.logPut.update

theorem K.setBarge {b} (h : K s₀ s) : K s₀ (s.setBarge b) := h.update

theorem K.logCarry {n} (h : K s₀ s) : K s₀ (s.logCarry n) := by
  induction n generalizing s with
  | zero => exact h
  | succ n ih =>
    unfold State.logCarry
    split
    · exact h
    · exact ih h.logPut.setBarge.update

theorem K.logEnter {kind canal seq status part barge tally event} (h : K s₀ s) : K s₀ (s.logEnter kind canal seq status part
    barge tally event) :=
  h.logCarry.logPut.logGap

theorem K.logLose (h : K s₀ s) : K s₀ s.logLose := K.foldl (fun _ _ h₁ => h₁.logEnter) h.dropLostFrames
theorem K.setHost {k x} (h : K s₀ s) : K s₀ (s.setHost k x) := h.update
theorem K.setMgmt {k m} (h : K s₀ s) : K s₀ (s.setMgmt k m) := h.update
theorem K.interrupt {port fn entry} (h : K s₀ s) : K s₀ (s.interrupt port fn entry) := K.ite h (K.ite h.emit h.setHost)

theorem K.hostEvt {f} (h : K s₀ s) : K s₀ (s.hostEvt f) :=
  K.ite h (K.foldl (fun _ _ h₁ => K.ite (K.ite h₁.emit h₁) h₁.emit) h.setFld.interrupt.interrupt)

theorem K.logCanal {c} (h : K s₀ s) : K s₀ (s.logCanal c) := h.logEnter
theorem K.canalFault {c cause} (h : K s₀ s) : K s₀ (s.canalFault c cause) := h.setFlds.logCanal.hostEvt

theorem K.addNote {canal seq note} (h : K s₀ s) : K s₀ (s.addNote canal seq note) := by
  unfold State.addNote
  split
  · exact h.setBarge
  · exact h

theorem K.endBarge {canal seq status r0 r1} (h : K s₀ s) : K s₀ (s.endBarge canal seq status r0 r1) := by
  unfold State.endBarge
  split
  · split
    · exact h
    · exact h.setBarge
  · exact h

theorem K.yieldG {p guar cause site winner sel} (h : K s₀ s) : K s₀ (s.yieldG p guar cause site winner sel) :=
  (K.ite h h.count.setFlds.update).update

theorem K.yieldEnd {past} (h : K s₀ s) : K s₀ (s.yieldEnd past) := (K.foldl (fun _ _ h₁ => h₁.setFld) h).update
theorem K.stall {l} (h : K s₀ s) : K s₀ (s.stall l) := K.ite h.update h
theorem K.rouse {pas} (h : K s₀ s) : K s₀ (s.rouse pas) := K.ite h.stall (K.foldl (fun _ _ h₁ => h₁.setFlds) h.stall)

theorem K.slowStacks {b pas} (h : K s₀ s) : K s₀ (s.slowStacks b pas) := by
  unfold State.slowStacks
  split
  · exact h
  · exact K.ite h (K.foldl (fun _ _ h₁ => h₁.yieldG) h)

theorem K.usePas {who pas} (h : K s₀ s) : K s₀ (s.usePas who pas) := by
  unfold State.usePas
  split
  · exact h
  · exact h.setBarge.slowStacks

theorem K.useRange {who maps part la len} (h : K s₀ s) : K s₀ (s.useRange who maps part la len) := h.rouse.usePas

theorem K.choice {part who} (h : K s₀ s) : K s₀ (s.choice part who) := by
  dsimp only [State.choice]
  split
  · exact K.foldl (fun _ _ h₁ => h₁.addNote) h.countSat
  · exact h.countSat.update

theorem K.grant {me ts g} (h : K s₀ s) : K s₀ (s.grant me ts g) := by
  unfold State.grant
  split
  · exact h
  · exact K.ite h h.choice

theorem K.contest {me ts x} (h : K s₀ s) : K s₀ (s.contest me ts x) := K.foldl (fun _ _ h₁ => h₁.grant) h.stall
theorem K.contested {P ts x} (h : K s₀ s) : K s₀ (s.contested P ts x) := h.contest
theorem K.tick {P hc} (h : K s₀ s) : K s₀ (s.tick P hc) := h.setCl
theorem K.modCl {P f} (h : K s₀ s) : K s₀ (s.modCl P f) := h.setCl
theorem K.markStale {P pa n} (h : K s₀ s) : K s₀ (s.markStale P pa n) := K.ite h.setCl h

/-! ### MatrixArith -/

theorem K.mmaEffect {P m} (h : K s₀ s) : K s₀ (s.mmaEffect P m) := h.setCl

theorem K.ownStore {P off bs} (h : K s₀ s) : K s₀ (s.ownStore P off bs) :=
  K.foldl (fun _ _ h₁ => K.ite h₁.markStale.store h₁) h

theorem K.ownPanel {P base l} (h : K s₀ s) : K s₀ (s.ownPanel P base l) := (K.foldl (fun _ _ h₁ => h₁.ownStore) h).update

theorem K.moutEffect {P m} (h : K s₀ s) : K s₀ (s.moutEffect P m) := by
  unfold State.moutEffect
  split
  · exact h
  · exact
      have h₁ := (K.ite h.setCl h.ownStore).ownPanel
      (K.ite h₁.ownStore.ownPanel h₁).setCl

theorem K.matFinish {P m} (h : K s₀ s) : K s₀ (s.matFinish P m) := by
  unfold State.matFinish
  exact K.modCl (by split; exacts [h.mmaEffect, h.moutEffect, h.modCl, h.modCl])

theorem K.drainMat {P} (h : K s₀ s) : K s₀ (s.drainMat P) :=
  K.foldl (fun _ _ h₁ => K.ite h₁ (by split; exacts [h₁.modCl, h₁.matFinish])) h

/-! ### Voltage -/

theorem K.setVcore {d v} (h : K s₀ s) : K s₀ (s.setVcore d v) := h.setFld
theorem K.placeVcore {d v} (h : K s₀ s) : K s₀ (s.placeVcore d v) := h.setVcore.setFld
theorem K.follow {d} (h : K s₀ s) : K s₀ (s.follow d) := K.ite h h.placeVcore
theorem K.firstIssue {d} (h : K s₀ s) : K s₀ (s.firstIssue d) := K.ite h.setFld.follow h

/-! ### Traps -/

theorem K.unwatch {w} (h : K s₀ s) : K s₀ (s.unwatch w) := h.update

theorem K.leaveRun {P exit} (h : K s₀ s) : K s₀ (s.leaveRun P exit) := by
  dsimp only [State.leaveRun]
  split
  · exact h
  · split
    · exact h
    · split
      · exact h
      · exact h.setBarge

theorem K.stopOne {P} (h : K s₀ s) : K s₀ (s.stopOne P) := h.drainMat.leaveRun.setCl.unwatch

theorem K.stopRun {k q} (h : K s₀ s) : K s₀ (s.stopRun k q) := by
  unfold State.stopRun
  split
  · exact h
  · exact K.foldl (fun _ _ h₁ => h₁.stopOne) h

theorem K.endFault {k q} (h : K s₀ s) : K s₀ (s.endFault k q) := by
  unfold State.endFault
  split
  · exact h
  · exact h.stopRun.endBarge

theorem K.endFaults (h : K s₀ s) : K s₀ s.endFaults := K.foldl (fun _ _ h₁ => h₁.endFault) h

theorem K.finishRun {k q} (h : K s₀ s) : K s₀ (s.finishRun k q) := by
  unfold State.finishRun
  split
  · exact h
  · split
    · exact h
    · exact K.ite h (K.ite h.endFault h.endBarge)

theorem K.faultRun {P cause tval} (h : K s₀ s) : K s₀ (s.faultRun P cause tval) := by
  unfold State.faultRun
  split
  · exact h
  · dsimp only
    split
    · exact h.leaveRun.modCl
    · split
      · exact h.leaveRun.modCl
      · exact (K.ite h.leaveRun.modCl h.leaveRun.modCl.logEnter).setBarge.finishRun

theorem K.stopCluster {P cause tval epc shown} (h : K s₀ s) : K s₀ (s.stopCluster P cause tval epc shown) :=
  h.modCl.unwatch.faultRun

theorem K.trap {P cause tval} (h : K s₀ s) : K s₀ (s.trap P cause tval) :=
  K.ite h.setCl (K.ite h.drainMat.unwatch.faultRun h.drainMat.stopCluster)

theorem K.deliverDeferred {P} (h : K s₀ s) : K s₀ (s.deliverDeferred P) := h.setCl.trap
theorem K.issueAt {P env} (h : K s₀ s) : K s₀ (s.issueAt P env) := h.firstIssue.tick.regEcc.cacheEcc

theorem K.atBoundary {P} (_ : K s₀ s) (h₁ : K s₀ t) : K s₀ (s.atBoundary t P) :=
  K.ite h₁ (by split; exacts [h₁.stopOne.finishRun, h₁])

theorem K.instr {P g env body} (h : K s₀ s) (hbody : ∀ x0 v, K s₀ v → K s₀ (body x0 v)) : KR s₀ (s.instr P g env body) :=
  h.goDie
    (K.ite h
       (K.ite (h.atBoundary h.tick.trap)
          (K.ite h.tick.stopCluster (
                have h₁ := K.ite h.issueAt.update h.issueAt
                by dsimp only; split; exacts [h.atBoundary h₁.trap, K.ite (h.atBoundary (hbody _ _ h₁)) h]))))

theorem K.regPoison {P n} (h : K s₀ s) : K s₀ (s.regPoison P n) := h.stopCluster

theorem K.access {P env ts} (h : K s₀ s) : K s₀ (s.access P env ts) := by
  dsimp only [State.access]
  split
  · exact K.ite h.contested.rouse.usePas.addNote h.contested.rouse.usePas
  · exact h.contested.rouse.usePas

/-! ### Barges -/

theorem K.canalIrq {c} (h : K s₀ s) : K s₀ (s.canalIrq c) := h.interrupt

theorem K.writeTally {c fail x} (h : K s₀ s) : K s₀ (s.writeTally c fail x) :=
  K.ite
    (by
       split
       · exact h.canalFault.logEnter
       · split
         · exact h.canalFault.logEnter
         · exact K.ite h.store.setReg.canalIrq h.store.setReg)
    (K.ite h.canalFault.logEnter (K.ite h.emit.setReg.canalIrq h.emit.setReg))

theorem K.flushReplies {c fail n} (h : K s₀ s) : K s₀ (s.flushReplies c fail n) := by
  induction n generalizing s with
  | zero => exact h
  | succ n ih =>
    unfold State.flushReplies
    split
    · exact h
    · exact ih (K.ite h.update.writeTally h.update)

theorem K.pruneDone {c} (h : K s₀ s) : K s₀ (s.pruneDone c) := h.update
theorem K.logStop {b what acting} (h : K s₀ s) : K s₀ (s.logStop b what acting) := h.logEnter
theorem K.disarm {w} (h : K s₀ s) : K s₀ (s.disarm w) := K.foldl (fun _ _ h₁ => h₁.modCl.unwatch) h

theorem K.freeGates (h : K s₀ s) : K s₀ s.freeGates :=
  K.foldl
    (fun _ _ h₁ =>
       by
         split
         · exact h₁
         · exact K.ite h₁ (K.ite h₁.logStop.disarm.unwatch.endBarge (K.foldl (fun _ _ h₂ => h₂.modCl) h₁.unwatch.setBarge))) h

theorem K.doom {b status} (h : K s₀ s) : K s₀ (s.doom b status) := K.ite h.update h

theorem K.complete1 {b fail status r0 r1} (h : K s₀ s) : K s₀ (s.complete1 b fail status r0 r1) :=
  have h₁ := h.logEnter.unwatch.update.pruneDone.setReg
  K.bind (by split; exacts [K.ite h₁.count h₁, h₁]) fun h₁ =>
      have h₁ := K.ite (K.ite h₁ h₁.writeTally) h₁.update.flushReplies
      have h₁ := K.ite h₁.logCanal h₁
      K.ite h₁.freeGates h₁.doom

theorem K.settle {n} (h : K s₀ s) : K s₀ (s.settle n) := by
  induction n generalizing s with
  | zero => exact h
  | succ n ih =>
    unfold State.settle
    split
    · exact h
    · exact ih h.complete1

theorem K.finish {c q status r0 r1} (h : K s₀ s) : K s₀ (s.finish c q status r0 r1) := by
  unfold State.finish
  split
  · exact h
  · exact h.complete1.settle

theorem K.alsoYields {b} (h : K s₀ s) : K s₀ (s.alsoYields b) := by
  unfold State.alsoYields
  split
  · exact h.setBarge
  · exact h

theorem K.passYields {b} (h : K s₀ s) : K s₀ (s.passYields b) := by
  unfold State.passYields
  split
  · exact h
  · exact K.ite h.alsoYields (by split; exacts [h, h.yieldG])

/-! ### Power -/

theorem K.zeroBasin {P} (h : K s₀ s) : K s₀ (s.zeroBasin P) := h.zeroRange
theorem K.resetCluster {P} (h : K s₀ s) : K s₀ (s.resetCluster P) := h.setCl.unwatch
theorem K.clearReach {r} (h : K s₀ s) : K s₀ (s.clearReach r) := K.foldl (fun _ _ h₁ => h₁.resetCluster) h
theorem K.zeroReach {r} (h : K s₀ s) : K s₀ (s.zeroReach r) := K.foldl (fun _ _ h₁ => h₁.zeroBasin) h
theorem K.resetSolver {r} (h : K s₀ s) : K s₀ (s.resetSolver r) := h.update
theorem K.resetReach {r} (h : K s₀ s) : K s₀ (s.resetReach r) := h.clearReach.resetSolver
theorem K.throttleDie {d} (h : K s₀ s) : K s₀ (s.throttleDie d) := h.update
theorem K.ramp {d} (h : K s₀ s) : K s₀ (s.ramp d) := K.ite h.update.setFlds h.update.setFlds.setVcore.follow
theorem K.depthAll {v} (h : K s₀ s) : K s₀ (s.depthAll v) := K.foldl (fun _ _ h₁ => K.ite h₁ h₁.setFld) h
theorem K.domainAll {v} (h : K s₀ s) : K s₀ (s.domainAll v) := K.foldl (fun _ _ h₁ => K.ite h₁ h₁.setFld) h

theorem K.enterSleep {target} (h : K s₀ s) : K s₀ (s.enterSleep target) :=
  have h₁ := K.ite ((K.foldl (fun _ _ h₁ => h₁.clearReach) h.setFlds).depthAll).domainAll h.setFlds
  have h₁ := K.ite (K.foldl (fun _ _ h₁ => h₁.setFlds) (K.foldl (fun _ _ h₁ => h₁.zeroReach.setFld) h₁).depthAll) h₁
  K.ite (K.foldl (fun _ _ h₁ => h₁.setFld) (K.foldl (fun _ _ h₁ => h₁.setFld) (K.foldl (fun _ _ h₁ => h₁.setFld) h₁))) h₁

theorem K.portsOn (h : K s₀ s) : K s₀ s.portsOn := K.foldl (fun _ _ h₁ => K.ite h₁ (K.ite h₁.setFld h₁.setFld.setFld)) h
theorem K.portsTrain (h : K s₀ s) : K s₀ s.portsTrain := K.foldl (fun _ _ h₁ => K.ite h₁.setFld h₁) h

theorem K.exitBegin (h : K s₀ s) : K s₀ s.exitBegin :=
  K.ite h (
       have h₁ := K.ite (K.foldl (fun _ _ h₁ => h₁.setFld) h.setFlds) h.setFlds
       K.ite h₁.domainAll h₁)

theorem K.exitEnd (h : K s₀ s) : K s₀ s.exitEnd :=
  K.ite h (
       have h₁ := K.ite ((K.foldl (fun _ _ h₁ => h₁.setFld) h.setFlds).portsOn).portsTrain h.setFlds
       have h₁ := K.ite (K.foldl (fun _ _ h₁ => K.foldl (fun _ _ h₂ => h₂.resetReach) h₁.ramp) h₁) h₁
       have h₁ := K.ite h₁.domainAll.depthAll h₁
       K.ite h₁.update h₁)

theorem K.wakeUp (h : K s₀ s) : K s₀ s.wakeUp := K.ite h.update h.exitBegin
theorem K.wakeFirst (h : K s₀ s) : K s₀ s.wakeFirst := h.wakeUp.exitEnd
theorem K.reachUp {r} (h : K s₀ s) : K s₀ (s.reachUp r) := K.ite h.setFlds h
theorem K.wakeBasin {pa} (h : K s₀ s) : K s₀ (s.wakeBasin pa) := K.ite h.wakeFirst h.rouse

/-! ### Scalar -/

theorem execIntegerRegOp_keeps {p env} (h : K s₀ s) : KR s₀ (execIntegerRegOp p env s) := h.instr fun _ _ h₁ => h₁.modCl
theorem execImmediateOp_keeps {p env} (h : K s₀ s) : KR s₀ (execImmediateOp p env s) := h.instr fun _ _ h₁ => h₁.modCl
theorem K.jumpTo {P rd target} (h : K s₀ s) : K s₀ (s.jumpTo P rd target) := K.ite h.trap h.modCl
theorem execBranch_keeps {p env} (h : K s₀ s) : KR s₀ (execBranch p env s) := h.instr fun _ _ h₁ => K.ite h₁.jumpTo h₁.modCl
theorem execJal_keeps {p env} (h : K s₀ s) : KR s₀ (execJal p env s) := h.instr fun _ _ h₁ => h₁.jumpTo
theorem execJalr_keeps {p env} (h : K s₀ s) : KR s₀ (execJalr p env s) := h.instr fun _ _ h₁ => h₁.jumpTo

theorem K.withF {P rd wr} (h : K s₀ s) (h₁ : K s₀ u) (h₂ : K s₀ t) : K s₀ (s.withF u P rd wr t) :=
  K.ite h (by split; exacts [h₁.trap, h₂])

theorem execFpArithmetic_keeps {p env} (h : K s₀ s) : KR s₀ (execFpArithmetic p env s) :=
  h.instr fun _ _ h₁ => K.ite (h.withF h₁ h₁.modCl) (K.ite (h.withF h₁ h₁.modCl) (h.withF h₁ h₁.modCl))

theorem execFusedMultiplyAdd_keeps {p env} (h : K s₀ s) : KR s₀ (execFusedMultiplyAdd p env s) :=
  h.instr fun _ _ h₁ => h.withF h₁ h₁.modCl

theorem execConversionMove_keeps {p env} (h : K s₀ s) : KR s₀ (execConversionMove p env s) :=
  h.instr fun _ _ h₁ => K.ite (h.withF h₁ h₁.modCl) (h.withF h₁ h₁.modCl)

theorem K.cwStore {P k w} (h : K s₀ s) : K s₀ (s.cwStore P k w) := by
  dsimp only [State.cwStore]
  split
  · exact h.setCl
  · exact h.trap

theorem execCwRd_keeps {p env} (h : K s₀ s) : KR s₀ (execCwRd p env s) :=
  h.instr fun _ _ h₁ => by split; exacts [h₁.modCl, h₁.trap]

theorem execCwWr_keeps {p env} (h : K s₀ s) : KR s₀ (execCwWr p env s) := h.instr fun _ _ h₁ => h₁.cwStore
theorem execCwSet_keeps {p env} (h : K s₀ s) : KR s₀ (execCwSet p env s) := h.instr fun _ _ h₁ => h₁.cwStore
theorem execCwClr_keeps {p env} (h : K s₀ s) : KR s₀ (execCwClr p env s) := h.instr fun _ _ h₁ => h₁.cwStore
theorem execBrk_keeps {p env} (h : K s₀ s) : KR s₀ (execBrk p env s) := h.instr fun _ _ h₁ => h₁.trap
theorem execEret_keeps {p env} (h : K s₀ s) : KR s₀ (execEret p env s) := h.instr fun _ _ h₁ => K.ite h₁.modCl h₁.trap

/-! ### ScalarMem -/

theorem K.loadVia {P env n la k} (h : K s₀ s) (h₁ : K s₀ t) (hk : ∀ x0 v, K s₀ v → K s₀ (k x0 v)) : K s₀ (s.loadVia t P env n
    la k) := by
  unfold State.loadVia
  split
  · exact h₁.trap
  · exact K.ite h (K.ite h₁.trap (K.ite h₁.access.meetEcc.trap (hk _ _ h₁.access.meetEcc)))

theorem K.storeAt {P env la pa bs k} (h : K s₀ s) (hk : ∀ v, K s₀ v → K s₀ (k v)) : K s₀ (s.storeAt P env la pa bs k) :=
  K.ite h.stopCluster (hk _ h.markStale.store)

theorem K.storeVia {P env n la v k} (h : K s₀ s) (h₁ : K s₀ t) (hk : ∀ v, K s₀ v → K s₀ (k v)) : K s₀ (s.storeVia t P env n
    la v k) := by
  unfold State.storeVia
  split
  · exact h₁.trap
  · exact K.ite h (h₁.access.mergeRead.storeAt fun _ h₂ => hk _ h₂)

theorem K.atomicVia {P env la upd k} (h : K s₀ s) (h₁ : K s₀ t) (hk : ∀ x0 v, K s₀ v → K s₀ (k x0 v)) : K s₀ (s.atomicVia t P
    env la upd k) := by
  unfold State.atomicVia
  split
  · exact h₁.trap
  · exact K.ite h
      (K.ite h₁.trap
         (K.ite h₁.access.meetEcc.trap (by
               dsimp only
               split
               · exact hk _ _ h₁.access.meetEcc
               · exact h₁.access.meetEcc.storeAt fun _ h₂ => hk _ _ h₂)))

theorem execIntegerLoad_keeps {p env} (h : K s₀ s) : KR s₀ (execIntegerLoad p env s) :=
  h.instr fun _ _ h₁ => h.loadVia h₁ fun _ _ h₂ => h₂.modCl

theorem execIntegerStore_keeps {p env} (h : K s₀ s) : KR s₀ (execIntegerStore p env s) :=
  h.instr fun _ _ h₁ => h.storeVia h₁ fun _ h₂ => h₂.modCl

theorem execFpLoad_keeps {p env} (h : K s₀ s) : KR s₀ (execFpLoad p env s) :=
  h.instr fun _ _ h₁ => h.withF h₁ (h.loadVia h₁ fun _ _ h₂ => h₂.modCl)

theorem execFpStore_keeps {p env} (h : K s₀ s) : KR s₀ (execFpStore p env s) :=
  h.instr fun _ _ h₁ => h.withF h₁ (h.storeVia h₁ fun _ h₂ => h₂.modCl)

theorem K.claimed {P word} (h : K s₀ s) : K s₀ (s.claimed P word) := by
  unfold State.claimed
  split
  · exact h
  · split
    · exact h
    · exact h.setBarge

theorem execAtomic_keeps {p env} (h : K s₀ s) : KR s₀ (execAtomic p env s) :=
  h.instr fun _ _ h₁ => by
    dsimp only
    split
    · exact h.atomicVia h₁ fun _ _ h₂ => h₂.modCl
    · exact K.ite h (h.atomicVia h₁ fun _ _ h₂ => h₂.claimed.modCl)

theorem execStFlag_keeps {p env} (h : K s₀ s) : KR s₀ (execStFlag p env s) :=
  h.instr fun _ _ h₁ => K.ite h (h.storeVia h₁ fun _ h₂ => h₂.modCl)

theorem execStFlagAdd_keeps {p env} (h : K s₀ s) : KR s₀ (execStFlagAdd p env s) :=
  h.instr fun _ _ h₁ => K.ite h (h.atomicVia h₁ fun _ _ h₂ => h₂.modCl)

theorem K.takeWatch {pa who} (h : K s₀ s) : K s₀ (s.takeWatch pa who).2 := K.iteSnd h (K.iteSnd h.update h)
theorem K.endWait {P f v} (h : K s₀ s) : K s₀ (s.endWait P f v) := h.modCl.unwatch

theorem execWaitFlag_keeps {p env} (h : K s₀ s) : KR s₀ (execWaitFlag p env s) :=
  h.instr fun _ _ h₁ => h.loadVia h₁ fun _ _ h₂ => K.ite h₂.modCl h₂.takeWatch.modCl

theorem K.reread {P env f again} (h : K s₀ s) (hagain : ∀ x0 v, K s₀ v → K s₀ (again x0 v)) : K s₀ (s.reread P env f again) :=
  K.ite h.tick.unwatch.trap
    (K.ite h.tick.access.meetEcc.unwatch.trap (K.ite h.tick.access.meetEcc.endWait (hagain _ _ h.tick.access.meetEcc)))

theorem execWaitFlagComplete_keeps {p env} (h : K s₀ s) : KR s₀ (execWaitFlagComplete p env s) :=
  h.goDie (by split; exacts [K.ite (h.atBoundary (h.reread fun _ _ h₁ => h₁.modCl)) h, h])

theorem execWaitFlagPoll_keeps {p env} (h : K s₀ s) : KR s₀ (execWaitFlagPoll p env s) :=
  h.goDie (by split; exacts [K.ite h (h.atBoundary (h.reread fun _ _ h₁ => h₁.takeWatch.modCl)), h])

theorem execWaitFlagTimeout_keeps {p env} (h : K s₀ s) : KR s₀ (execWaitFlagTimeout p env s) :=
  h.goDie (by split; exacts [K.ite (h.atBoundary h.tick.endWait) h, h])

theorem K.endCargo {P exit} (h : K s₀ s) : K s₀ (s.endCargo P exit) := by
  dsimp only [State.endCargo]
  split
  · exact h.modCl.leaveRun.modCl.finishRun
  · exact h.modCl.leaveRun.modCl

theorem K.endHalt {P exit} (h : K s₀ s) : K s₀ (s.endHalt P exit) := K.ite h.deliverDeferred h.endCargo
theorem execFenceInstruction_keeps {p env} (h : K s₀ s) : KR s₀ (execFenceInstruction p env s) := h.instr fun _ _ h₁ => h₁.modCl

theorem execFenceR_keeps {p env} (h : K s₀ s) : KR s₀ (execFenceR p env s) :=
  h.instr fun _ _ h₁ => K.ite h₁.deliverDeferred h₁.modCl

theorem execFenceNm_keeps {p env} (h : K s₀ s) : KR s₀ (execFenceNm p env s) := h.instr fun _ _ h₁ => h₁.modCl
theorem execFenceI_keeps {p env} (h : K s₀ s) : KR s₀ (execFenceI p env s) := h.instr fun _ _ h₁ => K.ite h h₁.modCl

theorem execFenceWaitEnd_keeps {p env} (h : K s₀ s) : KR s₀ (execFenceWaitEnd p env s) := by
  have pass := h.atBoundary ((h.tick (P := p.val) (hc := env.hc)).modCl (P := p.val) (f := fun d => { d with wait := .none }.retire))
    (P := p.val)
  refine h.goDie ?_
  dsimp only
  split
  · exact K.ite pass h
  · exact K.ite h (K.ite (h.atBoundary h.tick.modCl.deliverDeferred) pass)
  · exact K.ite pass h
  · exact h

theorem execHalt_keeps {p env} (h : K s₀ s) : KR s₀ (execHalt p env s) :=
  h.instr fun _ _ h₁ => K.ite h₁.deliverDeferred (K.ite h₁.endHalt h₁.modCl)

theorem execHaltWaitEnd_keeps {p env} (h : K s₀ s) : KR s₀ (execHaltWaitEnd p env s) :=
  h.goDie (by dsimp only; split; exacts [K.ite (h.atBoundary h.tick.modCl.endHalt) h, h])

/-! ### CargoImage -/

theorem K.setCargoSlot {x} (h : K s₀ s) : K s₀ (s.setCargoSlot x) := h.update

theorem K.placeIn {img P} (h : K s₀ s) : K s₀ (s.placeIn img P) :=
  K.foldl (fun _ _ h₁ => K.ite h₁.store (K.ite h₁.zeroRange h₁)) h

theorem K.undefineIn {img P} (h : K s₀ s) : K s₀ (s.undefineIn img P) := K.foldl (fun _ _ h₁ => K.ite h₁.undefine h₁) h

theorem K.unplace {b} (h : K s₀ s) : K s₀ (s.unplace b) :=
  K.ite (by split; exacts [K.foldl (fun _ _ h₁ => h₁.undefineIn) h, h]) h

/-! ### Control -/

theorem K.work {c q ops body} (h : K s₀ s) (hbody : ∀ x0 v, K s₀ v → K s₀ (body x0 v)) : KR s₀ (s.work c q ops body) :=
  h.go (by split; exacts [K.ite (hbody _ _ h) h, h])

theorem K.working {c q f} (h : K s₀ s) : K s₀ (s.working c q f) := by
  unfold State.working
  split
  · exact h.setBarge
  · exact h

theorem K.checked {b l k} (h : K s₀ s) (hk : ∀ v, K s₀ v → K s₀ (k v)) : K s₀ (s.checked b l k) := by
  unfold State.checked
  split
  · exact h.finish
  · exact hk _ h

theorem K.execContest {b ts x} (h : K s₀ s) : K s₀ (s.execContest b ts x) := h.contest

theorem K.asHeld {b f} (h : K s₀ s) (hf : ∀ v, K s₀ v → K s₀ (f v)) : K s₀ (s.asHeld b f) :=
  K.ite (hf _ h) (hf _ h.update).update

theorem execNop_keeps {c q} (h : K s₀ s) : KR s₀ (execNop c q s) := h.work fun _ _ h₁ => h₁.checked fun _ h₂ => h₂.finish
theorem execFence_keeps {c q} (h : K s₀ s) : KR s₀ (execFence c q s) := h.work fun _ _ h₁ => h₁.checked fun _ h₂ => h₂.finish

theorem K.signalWork {b write top k} (h : K s₀ s) (hk : ∀ x0 v, K s₀ v → K s₀ (k x0 v)) : K s₀ (s.signalWork b write top k) :=
  h.checked fun _ h₁ => by split; exacts [h₁.finish, hk _ _ h₁.rouse.usePas]

theorem execSignalStore_keeps {c q x} (h : K s₀ s) : KR s₀ (execSignalStore c q x s) :=
  h.work fun _ _ h₁ => K.ite h₁ (h₁.signalWork fun _ _ h₂ => h₂.execContest.meetAll.store8.finish)

theorem execSignalAdd_keeps {c q ecc x} (h : K s₀ s) : KR s₀ (execSignalAdd c q ecc x s) :=
  h.work fun _ _ h₁ =>
      K.ite h₁ (h₁.signalWork fun _ _ h₂ => K.ite h₂.execContest.meetEcc.finish h₂.execContest.meetEcc.store8.finish)

theorem K.waitRead {b ecc x pa again} (h : K s₀ s) (hagain : ∀ v, K s₀ v → K s₀ (again v)) : K s₀ (s.waitRead b ecc x pa
    again) :=
  K.ite h.execContest.meetEcc.finish (K.ite h.execContest.meetEcc.finish (hagain _ h.execContest.meetEcc))

theorem execWait_keeps {c q ecc x} (h : K s₀ s) : KR s₀ (execWait c q ecc x s) :=
  h.work fun _ _ h₁ => h₁.signalWork fun _ _ h₂ => h₂.waitRead fun _ h₃ => h₃.takeWatch.working

theorem execWaitConditionMet_keeps {c q ecc x} (h : K s₀ s) : KR s₀ (execWaitConditionMet c q ecc x s) :=
  h.go (by split; exacts [K.ite (h.waitRead fun _ h₁ => h₁) h, h])

theorem execWaitPoll_keeps {c q ecc x} (h : K s₀ s) : KR s₀ (execWaitPoll c q ecc x s) :=
  h.go (by split; exacts [K.ite h (h.waitRead fun _ h₁ => h₁.takeWatch.working), h])

theorem execLogQuery_keeps {c q x} (h : K s₀ s) : KR s₀ (execLogQuery c q x s) :=
  h.work fun _ _ h₁ => h₁.checked fun _ h₂ => h₂.contest.useRange.storeLocal.finish

theorem K.stopCargo {b status} (h : K s₀ s) : K s₀ (s.stopCargo b status) := by
  unfold State.stopCargo
  split
  · exact h.unplace.finish
  · exact K.ite h.disarm.finish (K.ite h.endFault h.stopRun.finish)

theorem K.stopNow {b what acting status} (h : K s₀ s) : K s₀ (s.stopNow b what acting status).2 :=
  K.iteSnd h.endFault h.logStop.stopCargo

theorem K.drainOne {b acting} (h : K s₀ s) : K s₀ (s.drainOne b acting).2 := by
  unfold State.drainOne
  split
  · exact h.logStop.finish
  · exact h
  · refine K.iteSnd h.stopNow (K.iteSnd ?_ h)
    dsimp only
    split
    · exact h.logStop.setBarge
    · exact h.logStop

theorem K.drainAll {acting set} (h : K s₀ s) : K s₀ (s.drainAll acting set).2 := by
  refine K.foldlOf Prod.snd (fun _ _ h => ?_) h
  split
  · exact h.drainOne
  · exact h

theorem execCanalDrain_keeps {c q} (h : K s₀ s) : KR s₀ (execCanalDrain c q s) :=
  h.work fun _ _ h₁ => h₁.checked fun _ h₂ => K.ite h₂ h₂.drainAll.working.settle

/-! ### MemBarges -/

theorem K.storeFree {p la n} (h : K s₀ s) : K s₀ (s.storeFree p la n) := K.foldl (fun _ _ h₁ => h₁.undefine) h
theorem K.storeTagged {p la n what} (h : K s₀ s) : K s₀ (s.storeTagged p la n what) := K.foldl (fun _ _ h₁ => h₁.fillRange) h

theorem K.copyRange {p dst src n} (h : K s₀ s) : K s₀ (s.copyRange p dst src n).2 :=
  K.foldl (fun _ _ h₁ => h₁.setPoison) h.storeLocal

theorem K.memEnd {b dst len n status r1} (h : K s₀ s) : K s₀ (s.memEnd b dst len n status r1) :=
  K.ite h.storeFree.endBarge h.endBarge

theorem execMemCopy_keeps {c q k errs x} (h : K s₀ s) : KR s₀ (execMemCopy c q k errs x s) :=
  h.work fun _ _ h₁ => h₁.checked fun _ h₂ => h₂.execContest.meetAll.copyRange.memEnd

theorem execMemFill_keeps {c q k x} (h : K s₀ s) : KR s₀ (execMemFill c q k x s) :=
  h.work fun _ _ h₁ => h₁.checked fun _ h₂ => h₂.execContest.meetAll.storeLocal.memEnd

theorem execMemScrub_keeps {c q k errs x} (h : K s₀ s) : KR s₀ (execMemScrub c q k errs x s) :=
  h.work fun _ _ h₁ => h₁.checked fun _ h₂ => h₂.execContest.meetAll.storeLocal.meetAll.memEnd

theorem K.setMaps {p maps} (h : K s₀ s) : K s₀ (s.setMaps p maps) := h.update

theorem execMapSet_keeps {c q x} (h : K s₀ s) : KR s₀ (execMapSet c q x s) :=
  h.work fun _ _ h₁ =>
      K.ite h₁
        (h₁.checked fun _ h₂ =>
             (K.ite h₂.execContest.meetAll h₂).checked fun _ h₃ => h₃.checked fun _ h₄ => h₄.setMaps.finish)

theorem execMapClear_keeps {c q} (h : K s₀ s) : KR s₀ (execMapClear c q s) :=
  h.work fun _ _ h₁ => K.ite h₁ (h₁.checked fun _ h₂ => (K.ite h₂ h₂.setMaps.update).working)

theorem execMapClearComplete_keeps {c q} (h : K s₀ s) : KR s₀ (execMapClearComplete c q s) :=
  h.go (by split; exacts [by split; exacts [K.ite h h.update.finish, h], h])

/-! ### NearMem -/

theorem K.nmAccept {o} (h : K s₀ s) : K s₀ (s.nmAccept o) := h.update

theorem execNmPost_keeps {p env} (h : K s₀ s) : KR s₀ (execNmPost p env s) :=
  h.instr fun _ _ h₁ =>
      K.ite h
        (K.ite h₁.trap
           (K.ite h₁.trap
              (K.ite h₁.access.meetEcc.trap (by
                    dsimp only
                    split
                    · exact h₁.access.meetEcc.trap
                    · split
                      · exact h₁.access.meetEcc.trap
                      · split
                        · exact h₁.access.meetEcc.trap
                        · exact K.ite h (K.ite h₁.access.meetEcc.stopCluster h₁.access.meetEcc.nmAccept.store8.modCl)))))

theorem K.nmWrite {v o} (h : K s₀ s) : K s₀ (s.nmWrite v o) :=
  K.foldl (fun _ _ h₁ => h₁.setPoison.setPoison) (K.foldl (fun _ _ h₁ => h₁.storeLocalIf) h)

theorem K.nmTrack {v} (h : K s₀ s) : K s₀ (s.nmTrack v) := K.ite h.update (K.ite h.update (K.ite h.update h))
theorem K.nmCount {l} (h : K s₀ s) : K s₀ (s.nmCount l) := K.foldl (fun _ _ h₁ => h₁.count.count) h
theorem K.setNmOp {o} (h : K s₀ s) : K s₀ (s.setNmOp o) := h.update
theorem K.nmUses {o} (h : K s₀ s) : K s₀ (s.nmUses o) := K.foldl (fun _ _ h₁ => h₁.useRange) h

theorem K.nmRun {o} (h : K s₀ s) : K s₀ (s.nmRun o) :=
  (K.iteOf Prod.fst h.nmUses.nmTrack.nmWrite
     (K.foldl (fun _ _ h₁ => K.foldl (fun _ _ h₂ => h₂.undefine) h₁) h.nmUses)).nmCount.setNmOp

theorem K.nmBegin {b d} (h : K s₀ s) : K s₀ (s.nmBegin b d) := by
  unfold State.nmBegin
  exact h.nmAccept.working

theorem K.nmContest {o ts x} (h : K s₀ s) : K s₀ (s.nmContest o ts x) := h.contest

theorem K.nmRow {op who errs x} (h : K s₀ s) : KR s₀ (s.nmRow op who errs x) := by
  have run : ∀ n, K s₀ (match s.nmOp? n with
      | .some o => if fieldB o.desc 1 0 = op ∧ !s.nmBlocked o then ((s.nmContest o (s.nmEnv o).touches x).meetAll errs).nmRun o else s
      | .none => s) := fun n => by
    split
    · exact K.ite h.nmContest.meetAll.nmRun h
    · exact h
  unfold State.nmRow
  cases who with
  | op n => exact h.go (run n)
  | barge c q =>
    dsimp only
    split
    · exact h.go (run _)
    · refine h.work fun _ _ h₁ => h₁.checked fun _ h₂ => ?_
      split
      · exact K.ite h₂.nmBegin h
      · exact h

theorem execAxpby_keeps {w errs x} (h : K s₀ s) : KR s₀ (execAxpby w errs x s) := h.nmRow
theorem execMul_keeps {w errs x} (h : K s₀ s) : KR s₀ (execMul w errs x s) := h.nmRow
theorem execReduce_keeps {w errs x} (h : K s₀ s) : KR s₀ (execReduce w errs x s) := h.nmRow
theorem execScan_keeps {w errs x} (h : K s₀ s) : KR s₀ (execScan w errs x s) := h.nmRow
theorem execGather_keeps {w errs x} (h : K s₀ s) : KR s₀ (execGather w errs x s) := h.nmRow
theorem execScatter_keeps {w errs x} (h : K s₀ s) : KR s₀ (execScatter w errs x s) := h.nmRow
theorem execScatterAdd_keeps {w errs x} (h : K s₀ s) : KR s₀ (execScatterAdd w errs x s) := h.nmRow
theorem execBridgeNarrow_keeps {w errs x} (h : K s₀ s) : KR s₀ (execBridgeNarrow w errs x s) := h.nmRow
theorem execBridgeWiden_keeps {w errs x} (h : K s₀ s) : KR s₀ (execBridgeWiden w errs x s) := h.nmRow
theorem execDualOrderWrite_keeps {w errs x} (h : K s₀ s) : KR s₀ (execDualOrderWrite w errs x s) := h.nmRow
theorem execDirtyArm_keeps {w errs x} (h : K s₀ s) : KR s₀ (execDirtyArm w errs x s) := h.nmRow
theorem execDirtyCollect_keeps {w errs x} (h : K s₀ s) : KR s₀ (execDirtyCollect w errs x s) := h.nmRow
theorem execDirtyDisarm_keeps {w errs x} (h : K s₀ s) : KR s₀ (execDirtyDisarm w errs x s) := h.nmRow
theorem execHash_keeps {w errs x} (h : K s₀ s) : KR s₀ (execHash w errs x s) := h.nmRow
theorem K.flagAdd {d pa ecc} (h : K s₀ s) : K s₀ (s.flagAdd d pa ecc) := K.ite h.meetEcc h.meetEcc.store8

theorem K.nmReport {o} (h : K s₀ s) : K s₀ (s.nmReport o) := by
  unfold State.nmReport
  split
  · dsimp only
    split
    · exact h.modCl.addNote
    · exact h.modCl
  · exact h.addNote.endBarge

theorem execNmOpComplete_keeps {n ecc x} (h : K s₀ s) : KR s₀ (execNmOpComplete n ecc x s) := by
  refine h.go ?_
  split
  · exact h
  next o _ =>
    refine K.nmReport (K.update ?_)
    have h₁ : K s₀ (match o.status with
        | .some pa => (s.nmContest o ((o.status.toList ++ o.flag.toList).map fun pa => ⟨pa, 8, true⟩) x).storeFrom (o.lead / 64) pa (bytesLE 8 o.statusWord)
        | .none => s.nmContest o ((o.status.toList ++ o.flag.toList).map fun pa => ⟨pa, 8, true⟩) x) := by
      split
      · exact h.nmContest.storeFrom
      · exact h.nmContest
    split
    · exact h₁.flagAdd
    · exact h₁

/-! ### Fabric -/

theorem K.modFab {f} (h : K s₀ s) : K s₀ (s.modFab f) := h.update
theorem K.setLink {k l} (h : K s₀ s) : K s₀ (s.setLink k l) := h.modFab
theorem K.putPkt {k p} (h : K s₀ s) : K s₀ (s.putPkt k p) := h.setLink.emit
theorem K.sendFlit {k} (h : K s₀ s) : K s₀ (s.sendFlit k) := K.ite h (by split; exacts [h.setLink.emit, h])
theorem K.sendFlits (h : K s₀ s) : K s₀ s.sendFlits := K.foldl (fun _ _ h₁ => h₁.sendFlit) h
theorem K.sendControl {k ftype notice} (h : K s₀ s) : K s₀ (s.sendControl k ftype notice) := h.setLink.emit
theorem K.sendTimes (h : K s₀ s) : K s₀ s.sendTimes := K.ite h (K.foldl (fun _ _ h₁ => h₁.putPkt) h)

theorem K.emitPkt {p} (h : K s₀ s) : K s₀ (s.emitPkt p) := by
  unfold State.emitPkt
  split
  · exact h.putPkt
  · exact h

theorem K.sendAck {p seq} (h : K s₀ s) : K s₀ (s.sendAck p seq) := h.emitPkt
theorem K.sendNack {p code} (h : K s₀ s) : K s₀ (s.sendNack p code) := h.emitPkt
theorem K.setSeqOut {node vc v} (h : K s₀ s) : K s₀ (s.setSeqOut node vc v) := h.modFab
theorem K.setSeqIn {node vc v} (h : K s₀ s) : K s₀ (s.setSeqIn node vc v) := h.modFab

theorem K.resyncTo {node} (h : K s₀ s) : K s₀ (s.resyncTo node) :=
  K.ite (K.foldl (fun _ _ h₁ => h₁.setSeqOut) h).modFab.emitPkt h

theorem K.sendReq {owner p} (h : K s₀ s) : K s₀ (s.sendReq owner p) := h.resyncTo.setSeqOut.modFab.emitPkt
theorem K.countReject {part code offset} (h : K s₀ s) : K s₀ (s.countReject part code offset) := h.satAdd.setFlds
theorem K.unwithhold {src unit} (h : K s₀ s) : K s₀ (s.unwithhold src unit) := h.modFab
theorem K.rejectReq {p code part} (h : K s₀ s) : K s₀ (s.rejectReq p code part).2 := K.ite h.countReject.modFab h.countReject
theorem K.poisonLines {part la n} (h : K s₀ s) : K s₀ (s.poisonLines part la n) := K.foldl (fun _ _ h₁ => h₁.setPoison) h

theorem K.performAt {p e la} (h : K s₀ s) : K s₀ (s.performAt p e la).2 :=
  K.iteSnd h (
       have h₁ := K.ite h.storeLocal.unwithhold h.storeLocal
       K.ite h₁.poisonLines h₁)

theorem K.remoteContest {part la n write x} (h : K s₀ s) : K s₀ (s.remoteContest part la n write x) := h.contest

theorem K.landReq {p errs x} (h : K s₀ s) : K s₀ (s.landReq p errs x).2 := by
  unfold State.landReq
  split
  · exact h.countReject.unwithhold
  · split
    · exact h.rejectReq
    · exact h.wakeBasin.remoteContest.meetAll.performAt

theorem K.answerReq {p r} (h : K s₀ s) : K s₀ (s.answerReq p r) := by
  unfold State.answerReq
  split
  · exact h.sendNack
  · exact K.ite h.emitPkt (K.ite h.emitPkt h.sendAck)

theorem K.drainSeq {act p n} (h : K s₀ s) (hact : ∀ x v, K s₀ v → K s₀ (act x v)) : K s₀ (s.drainSeq act p n) := by
  induction n generalizing s p with
  | zero => exact h
  | succ n ih =>
    dsimp only [State.drainSeq]
    split
    · exact hact _ _ h.setSeqIn
    · exact ih (hact _ _ h.setSeqIn).modFab

theorem K.receiveSeq {p act} (h : K s₀ s) (hact : ∀ x0 v, K s₀ v → K s₀ (act x0 v)) : K s₀ (s.receiveSeq p act) :=
  K.ite h (K.ite (h.drainSeq fun _ _ h₁ => hact _ _ h₁) (K.ite (K.ite (hact _ _ h) h.sendAck) (K.ite h h.modFab)))

theorem K.deferFault {P cause addr} (h : K s₀ s) : K s₀ (s.deferFault P cause addr) := h.modCl

theorem K.noteRefusal {p code} (h : K s₀ s) : K s₀ (s.noteRefusal p code) :=
  K.ite (K.ite h.modFab h) (by split; exacts [K.ite h.modFab h, h])

theorem K.storeSettled {P run p code} (h : K s₀ s) : K s₀ (s.storeSettled P run p code) := by
  refine K.ite h.noteRefusal ?_
  split
  · exact h.noteRefusal.modCl
  · exact h.noteRefusal.modCl.deferFault

theorem K.loadFailed {P p cause} (h : K s₀ s) : K s₀ (s.loadFailed P p cause) :=
  K.ite h (K.ite (h.atBoundary h.modCl.trap) h.modCl)

theorem K.unsend {r} (h : K s₀ s) : K s₀ (s.unsend r) := h.modFab

theorem execLdR_keeps {p env} (h : K s₀ s) : KR s₀ (execLdR p env s) := by
  refine h.instr fun _ _ h₁ => K.ite h₁.trap (K.ite h₁.trap ?_)
  split
  · exact h₁.trap
  · refine K.ite ?_ h₁.resyncTo.sendReq.modCl
    split
    next hp =>
      have h₂ := K.snd hp h₁.landReq
      split
      · exact h₂.trap
      · exact K.ite h₂.trap h₂.modCl

theorem K.postRemote {P ptype a data x} (h : K s₀ s) : K s₀ (s.postRemote P ptype a data x) :=
  K.ite h.stopCluster (by
       split
       · exact h.deferFault.modCl
       · exact K.ite
           (K.modCl (by split; exacts [h.landReq.noteRefusal.deferFault, h.landReq.noteRefusal])) h.sendReq.modCl)

theorem execStR_keeps {p env} (h : K s₀ s) : KR s₀ (execStR p env s) := h.instr fun _ _ h₁ => K.ite h₁.trap h₁.postRemote

theorem execStRflag_keeps {p env} (h : K s₀ s) : KR s₀ (execStRflag p env s) :=
  h.instr fun _ _ h₁ => K.ite h₁.deliverDeferred (K.ite h₁.trap (K.ite h h₁.postRemote))

theorem execLandingSet_keeps {c q} (h : K s₀ s) : KR s₀ (execLandingSet c q s) :=
  h.work fun _ _ h₁ => h₁.checked fun _ h₂ => h₂.modFab.finish

theorem K.revoke {sel} (h : K s₀ s) : K s₀ (s.revoke sel).2 := h.update

theorem K.revokeRow {c q m sel} (h : K s₀ s) : KR s₀ (s.revokeRow c q m sel) :=
  h.work fun _ _ h₁ => K.ite h (h₁.checked fun _ h₂ => h₂.revoke.finish)

theorem execLandingRevokeIndex_keeps {c q} (h : K s₀ s) : KR s₀ (execLandingRevokeIndex c q s) := h.revokeRow
theorem execLandingRevokeJob_keeps {c q} (h : K s₀ s) : KR s₀ (execLandingRevokeJob c q s) := h.revokeRow
theorem execLandingRevokeJobId_keeps {c q} (h : K s₀ s) : KR s₀ (execLandingRevokeJobId c q s) := h.revokeRow

/-! ### Coll -/

theorem K.setSlot {k c} (h : K s₀ s) : K s₀ (s.setSlot k c) := h.modFab
theorem K.setSlotState {k v} (h : K s₀ s) : K s₀ (s.setSlotState k v) := h.setFld
theorem K.showSlot {k p id rank size radix} (h : K s₀ s) : K s₀ (s.showSlot k p id rank size radix) := h.setReg.setFlds

theorem execCommForm_keeps {c q errs} (h : K s₀ s) : KR s₀ (execCommForm c q errs s) :=
  h.work fun _ _ h₁ => h₁.checked fun _ h₂ => h₂.meetAll.checked fun _ h₃ => h₃.setSlot.showSlot.finish

theorem K.freeSlot' {k} (h : K s₀ s) : K s₀ (s.freeSlot' k) := h.modFab.setSlotState

theorem execCommShrink_keeps {c q errs} (h : K s₀ s) : KR s₀ (execCommShrink c q errs s) :=
  h.work fun _ _ h₁ =>
      h₁.checked fun _ h₂ =>
          K.ite h₂.freeSlot'.finish (by split; exacts [h₂, h₂.meetAll.checked fun _ h₃ => h₃.setSlot.showSlot.finish])

theorem K.setRun {v r} (h : K s₀ s) : K s₀ (s.setRun v r) := by
  unfold State.setRun
  split
  · exact h.setSlot
  · exact h

theorem K.sendColl {k id job sl j unit offset low poison body} (h : K s₀ s) : K s₀ (s.sendColl k id job sl j unit offset low
    poison body) :=
  h.sendReq

theorem K.sendAborts {v js reason rank} (h : K s₀ s) : K s₀ (s.sendAborts v js reason rank) :=
  K.foldl (fun _ _ h₁ => h₁.sendColl) h

theorem K.setLast {k status reason rank} (h : K s₀ s) : K s₀ (s.setLast k status reason rank) := h.setFlds

theorem K.collWipe {b sl rl} (h : K s₀ s) : K s₀ (s.collWipe b sl rl) := by
  have wipe : ∀ (u : State) o n, K s₀ u → K s₀ (match u.windowLocal b.part sl o n with
      | .some la => if n = 0 then u else u.storeFree b.part la n
      | .none => u) := fun u o n hu => by
    split
    · exact K.ite hu hu.storeFree
    · exact hu
  exact h.asHeld fun _ h₁ => wipe _ _ _ (wipe _ _ _ h₁)

theorem K.collFail {v status reason rank js} (h : K s₀ s) : K s₀ (s.collFail v status reason rank js) :=
  K.endBarge
    (K.setLast
       (K.setSlotState (by split; exacts [h.sendAborts.collWipe.setSlot, h.sendAborts.collWipe])))

theorem K.collDone {v} (h : K s₀ s) : K s₀ (s.collDone v) :=
  K.ite
    (
       have h₁ := K.setFld (K.setSlotState (by split; exacts [h.setSlot, h]))
       K.ite h₁.endBarge h₁.endBarge) h

theorem K.takeReady {v j} (h : K s₀ s) : KOE s₀ (CollEnv.takeReady v s j) :=
  KOE.ite (K.ok h) (by split; exacts [K.noneE, by split; exacts [K.noneE, KOE.ite K.error (K.ok h.setSlot)]])

theorem K.sendStream {v j la off len} (h : K s₀ s) : K s₀ (s.sendStream v j la off len) :=
  K.foldl (fun _ _ h₁ => by dsimp only; split; exacts [h₁.sendColl.setRun, h₁.sendColl]) h

theorem K.sendEnd {v j off} (h : K s₀ s) : K s₀ (s.sendEnd v j off) := by
  dsimp only [State.sendEnd]
  split
  · exact h.sendColl.setRun
  · exact h.sendColl

theorem K.stepAll {v} (h : K s₀ s) : KOE s₀ (s.stepAll v) := by
  unfold State.stepAll
  split
  · exact K.noneE
  · exact KOE.ite K.noneE (by split; exacts [K.noneE, K.error, K.ok ((K.getOE h.takeReady ‹_›).sendStream).sendEnd])

theorem K.combineKid {v j} (h : K s₀ s) : K s₀ (s.combineKid v j) := by
  unfold State.combineKid
  split
  · exact h
  · split
    · exact h
    · exact (K.ite h.choice h).setRun

theorem K.partialLines {v} (h : K s₀ s) : K s₀ (s.partialLines v).2 := K.ite h h.update

theorem K.partialUp {v} (h : K s₀ s) : KOE s₀ (s.partialUp v) := by
  unfold State.partialUp
  split
  · split
    · exact K.noneE
    · exact K.ok (K.foldl (fun _ _ h₁ => h₁.poisonLines) h.storeLocal).setRun
  · split
    · exact K.noneE
    · exact K.error
    next t ht =>
      split
      next hp =>
        have h₁ := K.snd hp (K.getOE h.takeReady ht).partialLines
        dsimp only
        split
        · refine K.ok (K.setRun (K.sendEnd (K.foldl (fun _ _ h₂ => ?_) h₁)))
          split
          · exact h₂.sendColl.setRun
          · exact h₂.sendColl
        · refine K.ok (K.sendEnd (K.foldl (fun _ _ h₂ => ?_) h₁))
          split
          · exact h₂.sendColl.setRun
          · exact h₂.sendColl

theorem K.forward {v j} (h : K s₀ s) : KOE s₀ (s.forward v j) := by
  unfold State.forward
  extract_lets
  split
  next have_ all _ =>
    split
    · exact K.noneE
    · split
      · exact K.noneE
      · exact K.error
      next t ht =>
        have h₁ := K.getOE h.takeReady ht
        split
        · exact K.noneE
        · extract_lets t₁ t₂
          have h₂ : K s₀ t₂ := by
            unfold t₂
            split
            · exact h₁.sendStream.setRun
            · exact h₁.sendStream
          exact K.ok (K.ite h₂.sendEnd h₂)

theorem K.parentReady {v} (h : K s₀ s) : KOE s₀ (s.parentReady v) := by
  unfold State.parentReady
  split
  · exact KOE.ite K.noneE (by split; exacts [K.noneE, K.error, K.ok (K.getOE h.takeReady ‹_›)])
  · exact K.noneE

theorem K.collNext {v} (h : K s₀ s) : KOE s₀ (s.collNext v) := by
  refine KOE.ite h.stepAll (KOE.ite ?_ ?_)
  · split
    · exact K.ok h.combineKid
    · exact KOE.ite h.partialUp K.noneE
  · split
    next r hr =>
      obtain ⟨j, -, hj⟩ := List.exists_of_findSome?_eq_some hr
      exact fun t ht => h.forward t (hj.trans ht)
    · exact h.parentReady

theorem K.collSteps {k n} (h : K s₀ s) : K s₀ (s.collSteps k n) := by
  induction n generalizing s with
  | zero => exact h
  | succ n ih =>
    unfold State.collSteps
    split
    · exact h
    · split
      next ht => exact ih (K.getOE h.collNext ht)
      · exact h.collFail
      · exact h.collDone

theorem K.collGo {k fuel} (h : K s₀ s) : K s₀ (s.collGo k fuel) := by
  unfold State.collGo
  split
  · exact h
  · exact h.asHeld fun _ h₁ => h₁.collSteps

theorem K.throttleColls (h : K s₀ s) : K s₀ s.throttleColls :=
  K.foldl (fun _ _ h₁ => by split; exacts [K.ite h₁.addNote h₁, h₁]) h

theorem K.selfCopy {v} (h : K s₀ s) : KO s₀ (s.selfCopy v) := by
  have copy : ∀ src o n, KO s₀ (if n = 0 then Option.some s else
      (s.windowLocal v.b.part v.sl o n).map fun la => (s.copyRange v.b.part la src n).2) := fun src o n => by
    refine KO.ite (K.some h) fun t ht => ?_
    obtain ⟨la, -, rfl⟩ := Option.map_eq_some_iff.mp ht
    exact h.copyRange
  exact KO.ite (copy _ _ _) (KO.ite (KO.ite (copy _ _ _) K.none) (KO.ite (copy _ _ _) (K.some h)))

theorem K.collUse {b sl n me} (h : K s₀ s) : K s₀ (s.collUse b sl n me) := K.foldl (fun _ _ h₁ => h₁.useRange) h

theorem K.collStart {c q op errs x} (h : K s₀ s) : KR s₀ (s.collStart c q op errs x) :=
  h.work fun _ _ h₁ =>
      h₁.checked fun _ h₂ =>
          by
            split
            · exact h₂
            · exact h₂.checked fun _ h₃ =>
                  have h₄ := h₃.execContest.meetAll.collUse.setSlot.setSlotState.setFld.working
                  by
                    dsimp only
                    split
                    · exact h₄
                    · exact K.ite h₄.collFail (by
                           split
                           · exact h₄.collFail
                           · exact (K.foldl (fun _ _ h₄ => h₄.sendColl) (K.getO h₄.selfCopy ‹_›).throttleColls).collGo)

theorem execCollAlltoall_keeps {c q errs x} (h : K s₀ s) : KR s₀ (execCollAlltoall c q errs x s) := h.collStart
theorem execCollAlltoallv_keeps {c q errs x} (h : K s₀ s) : KR s₀ (execCollAlltoallv c q errs x s) := h.collStart
theorem execCollAllreduceSmall_keeps {c q errs x} (h : K s₀ s) : KR s₀ (execCollAllreduceSmall c q errs x s) := h.collStart
theorem execCollBcast_keeps {c q errs x} (h : K s₀ s) : KR s₀ (execCollBcast c q errs x s) := h.collStart

theorem K.hear {k j} (h : K s₀ s) : K s₀ (s.hear k j) := by
  unfold State.hear
  split
  · exact h.setSlot
  · exact h

theorem K.takeReadyPkt {k j sig} (h : K s₀ s) : K s₀ (s.takeReadyPkt k j sig) := by
  unfold State.takeReadyPkt
  split
  · exact h
  · exact K.ite (by split; exacts [h.collFail, h]) h.setSlot.collGo

theorem K.takeData {k j p la} (h : K s₀ s) : K s₀ (s.takeData k j p la) := by
  unfold State.takeData
  split
  · exact h
  · exact K.ite h.collFail (by
         split
         · exact h
         · exact K.ite (K.ite h.collFail h) (K.ite h (K.ite h.storeLocal.poisonLines h.storeLocal).setRun.collGo))

theorem K.takeEnd {k j p} (h : K s₀ s) : K s₀ (s.takeEnd k j p) := by
  unfold State.takeEnd
  split
  · exact h
  · exact K.ite h.collFail (by split; exacts [h, K.ite h.collFail (K.ite h h.setRun.collGo)])

theorem K.takeAbort {k j p} (h : K s₀ s) : K s₀ (s.takeAbort k j p) := by
  unfold State.takeAbort
  split
  split
  · exact h.collFail
  · refine K.ite h ?_
    extract_lets bs
    split
    · extract_lets t
      have ht : K s₀ t := by
        unfold t
        split
        · exact h.collWipe
        · exact h
      exact ht.setBarge.setSlotState.setLast
    · refine K.ite ?_ h.setSlotState.setFlds
      split
      · exact h.setSlot
      · exact h

theorem K.collAct {errs x p} (h : K s₀ s) : K s₀ (State.collAct errs x p s) := by
  unfold State.collAct
  split
  · exact h.countReject.sendNack
  · dsimp only
    split
    · exact (K.ite h.remoteContest.meetAll h.remoteContest.meetAll.count).sendAck
    · split
      · exact h.remoteContest.meetAll.sendAck
      · exact
          have h₁ := h.remoteContest.meetAll.hear
          have h₁ := K.ite h₁.wakeBasin h₁
          (K.ite h₁.takeData (K.ite h₁.takeReadyPkt (K.ite h₁.takeEnd h₁.takeAbort))).sendAck

theorem execCollStallTimeout_keeps {k j} (h : K s₀ s) : KR s₀ (execCollStallTimeout k j s) :=
  h.go (by split; exacts [h, K.ite h.collFail h])

theorem K.slotsRetag {p} (h : K s₀ s) : K s₀ (s.slotsRetag p) :=
  K.foldl
    (fun _ _ h₁ =>
       by split; exacts [K.ite (by split; exacts [h₁.collFail, h₁.setSlotState]) h₁, h₁]) h

theorem K.collDeadline {b} (h : K s₀ s) : K s₀ (s.collDeadline b) := by
  unfold State.collDeadline
  split
  · exact K.ite h.logStop.collFail h
  · exact h

theorem K.freeSlots {p} (h : K s₀ s) : K s₀ (s.freeSlots p) := K.foldl (fun _ _ h₁ => K.ite h₁.freeSlot' h₁) h

theorem K.collRefused {k node code} (h : K s₀ s) : K s₀ (s.collRefused k node code) := by
  unfold State.collRefused
  split
  · exact h
  · exact K.ite h.collFail h.collFail

theorem K.collBreaks {b status} (h : K s₀ s) : K s₀ (s.collBreaks b status) := by
  unfold State.collBreaks
  split
  · exact K.ite h.setSlotState.setFld h
  · exact h

/-! ### Jobs -/

theorem K.setJob {k j} (h : K s₀ s) : K s₀ (s.setJob k j) := h.modFab

theorem K.sendMgmt {owner tag node unit offset data body} (h : K s₀ s) : K s₀ (s.sendMgmt owner tag node unit offset data
    body) :=
  h.sendReq

theorem K.sendDown {k j d r} (h : K s₀ s) : K s₀ (s.sendDown k j d r) := by
  dsimp only [State.sendDown]
  split <;> exact h.sendMgmt

theorem K.downTo {k d l n} (h : K s₀ s) : K s₀ (s.downTo k d l n) := by
  induction n generalizing s l with
  | zero => cases l <;> exact h
  | succ n ih =>
    cases l with
    | nil => exact h
    | cons r rest =>
      unfold State.downTo
      split
      · exact h
      · exact K.ite (ih (K.ite h h.setJob)) (ih (K.ite h h.setJob).sendDown)

theorem K.lostBytes {lost} (h : K s₀ s) : K s₀ (s.lostBytes lost).2 := K.ite h h.update
theorem K.sendReport {k j dest} (h : K s₀ s) : K s₀ (s.sendReport k j dest) := h.lostBytes.sendMgmt
theorem K.sendRefusal {p rank reason} (h : K s₀ s) : K s₀ (s.sendRefusal p rank reason) := h.sendMgmt
theorem K.takeTag {p tag} (h : K s₀ s) : K s₀ (s.takeTag p tag) := h.setFlds.slotsRetag
theorem K.dropTag {p} (h : K s₀ s) : K s₀ (s.dropTag p) := h.setFld.slotsRetag
theorem K.applyJob {k j} (h : K s₀ s) : K s₀ (s.applyJob k j) := (K.ite h.takeTag.revoke h.takeTag).setJob
theorem K.putLost {b lost} (h : K s₀ s) : K s₀ (s.putLost b lost) := K.ite h h.storeLocal

theorem K.abortJob {k j r0} (h : K s₀ s) : K s₀ (s.abortJob k j r0) :=
  have h₁ := K.ite h.dropTag h
  K.downTo (K.setJob (by split; exacts [h₁.endBarge, h₁]))

theorem K.rootDone {k j} (h : K s₀ s) : K s₀ (s.rootDone k j) := by
  unfold State.rootDone
  split
  · exact h
  · split
    · exact h.abortJob
    · exact K.ite h.setJob.endBarge (K.endBarge (by split; exacts [h.setJob.putLost, h.setJob]))

theorem K.jobGo {k} (h : K s₀ s) : K s₀ (s.jobGo k) := by
  unfold State.jobGo
  split
  · exact h
  · exact K.ite h (K.ite h.rootDone h.setJob.sendReport)

theorem K.forwardJob {k d} (h : K s₀ s) : K s₀ (s.forwardJob k d) := by
  unfold State.forwardJob
  split
  · exact h
  · exact h.downTo.jobGo

theorem K.jobChecked {b tear errs k} (h : K s₀ s) (hk : ∀ v, K s₀ v → K s₀ (k v)) : K s₀ (s.jobChecked b tear errs k) :=
  h.checked fun _ h₁ => h₁.meetAll.checked fun _ h₂ => h₂.checked fun _ h₃ => hk _ h₃

theorem K.dropJobs {p tag} (h : K s₀ s) : K s₀ (s.dropJobs p tag) := h.modFab

theorem execJobLaunchRoot_keeps {c q errs} (h : K s₀ s) : KR s₀ (execJobLaunchRoot c q errs s) :=
  h.work fun _ _ h₁ => K.ite h₁ (h₁.jobChecked fun _ h₂ => h₂.checked fun _ h₃ => h₃.dropJobs.working.applyJob.forwardJob)

theorem K.meetLaunch {p} (h : K s₀ s) : K s₀ (s.meetLaunch p) := by
  dsimp only [State.meetLaunch]
  split
  · exact h.sendRefusal
  · exact K.ite h.modFab (K.ite h.sendRefusal (K.ite h.sendRefusal (K.ite h h.applyJob.forwardJob)))
  · exact h.modFab

theorem K.heldLaunches (h : K s₀ s) : K s₀ s.heldLaunches := K.foldl (fun _ _ h₁ => h₁.meetLaunch) h.modFab

theorem execJobLaunchJoin_keeps {c q errs} (h : K s₀ s) : KR s₀ (execJobLaunchJoin c q errs s) :=
  h.work fun _ _ h₁ => K.ite h₁ (h₁.jobChecked fun _ h₂ => h₂.checked fun _ h₃ => h₃.working.setJob).heldLaunches

theorem K.tearHere {p tag} (h : K s₀ s) : K s₀ (s.tearHere p tag) := h.dropTag.revoke

theorem execJobTeardownRoot_keeps {c q errs} (h : K s₀ s) : KR s₀ (execJobTeardownRoot c q errs s) :=
  h.work fun _ _ h₁ => K.ite h₁ (h₁.jobChecked fun _ h₂ => h₂.checked fun _ h₃ => h₃.working.tearHere.setJob.forwardJob)

theorem execJobTeardownLocal_keeps {c q} (h : K s₀ s) : KR s₀ (execJobTeardownLocal c q s) :=
  h.work fun _ _ h₁ => K.ite h₁ (h₁.checked fun _ h₂ => h₂.tearHere.finish)

theorem K.meetTeardown {p} (h : K s₀ s) : K s₀ (s.meetTeardown p) := by
  dsimp only [State.meetTeardown]
  split
  · exact h.sendRefusal
  · exact K.ite h.tearHere.lostBytes.sendMgmt h.tearHere.setJob.forwardJob

theorem K.adopt {k r d} (h : K s₀ s) : K s₀ (s.adopt k r d) := by
  unfold State.adopt
  split
  · exact h
  · exact (K.ite h h.setJob).downTo.jobGo

theorem K.relay {k j p} (h : K s₀ s) : K s₀ (s.relay k j p) := K.ite h h.sendMgmt

theorem K.meetReport {p} (h : K s₀ s) : K s₀ (s.meetReport p) := by
  dsimp only [State.meetReport]
  split
  · exact K.ite (K.ite h.setJob.jobGo (K.ite h.setJob.relay.jobGo (K.ite h.adopt h)))
      (K.ite h.setJob.jobGo (K.ite h.setJob.relay.jobGo (K.ite h.adopt h)))
  · exact K.ite h.setJob.jobGo (K.ite h.setJob.relay.jobGo (K.ite h.adopt h))
  · exact K.ite h.setJob.jobGo (K.ite h.setJob.relay.jobGo (K.ite h.adopt h))
  · exact h

theorem K.meetAbort {p} (h : K s₀ s) : K s₀ (s.meetAbort p) := by
  unfold State.meetAbort
  split
  · exact K.ite h.abortJob h
  · exact h

theorem K.jobAct {p} (h : K s₀ s) : K s₀ (State.jobAct p s) :=
  (K.ite h.meetLaunch (K.ite h.meetReport (K.ite h.meetAbort h.meetTeardown))).sendAck

theorem K.jobAcked {k p} (h : K s₀ s) : K s₀ (s.jobAcked k p) :=
  K.ite h (by split; exacts [by split; exacts [K.ite h h.setJob.endBarge, h], h])

theorem K.jobUndelivered {k r p} (h : K s₀ s) : K s₀ (s.jobUndelivered k r p) := by
  unfold State.jobUndelivered
  split
  · exact h
  · exact K.ite (K.ite h h.sendMgmt) (K.ite h.adopt (K.ite h.adopt h.adopt))

theorem K.jobDeadline {b} (h : K s₀ s) : K s₀ (s.jobDeadline b) := by
  unfold State.jobDeadline
  split
  · exact h
  · exact K.ite h.logStop.abortJob (K.ite h h.logStop.modFab.endBarge)

theorem K.settleReq {r code} (h : K s₀ s) : K s₀ (s.settleReq r code) := by
  unfold State.settleReq
  split
  · exact K.ite h.loadFailed h.storeSettled
  · exact h.storeSettled
  · exact h.collRefused
  · exact h.collGo
  · exact K.ite h.jobUndelivered h
  · exact h.jobAcked
  · exact h

theorem K.abandonNode {node} (h : K s₀ s) : K s₀ (s.abandonNode node) := K.foldl (fun _ _ h₁ => h₁.settleReq) h.modFab

/-! ### Ckpt -/

theorem K.chSend {far x b p} (h : K s₀ s) : K s₀ (s.chSend far x b p).2 :=
  K.iteSnd h
    (K.iteSnd h
       (K.iteSnd h.landReq (by
             split
             · exact h
             · exact
                 have h₁ := K.ite h.sendReq.modFab.addNote h.sendReq.modFab
                 by dsimp only; split; exacts [K.ite h₁.abandonNode h₁, K.iteSnd h₁ h₁])))

theorem K.chRead {e b addr n k acc bad} (h : K s₀ s) : K s₀ (s.chRead e b addr n k acc bad).2 := by
  induction k generalizing s addr n acc bad with
  | zero => cases n <;> exact h
  | succ k ih =>
    unfold State.chRead
    split
    · exact h
    · exact h
    next hk =>
      cases hk
      extract_lets
      split
      next hp =>
        have h₁ := K.snd hp h.chSend
        split
        · exact h₁
        · exact ih h₁

theorem K.chBytes {e b addr n} (h : K s₀ s) : K s₀ (s.chBytes e b addr n).2 := h.chRead

theorem K.chWrite {e b l} (h : K s₀ s) : K s₀ (s.chWrite e b l).2 := by
  induction l generalizing s with
  | nil => exact h
  | cons p rest ih =>
    dsimp only [State.chWrite]
    split
    · exact h.chSend
    · exact ih h.chSend

theorem K.chMan {e b chamber ngran a} (h : K s₀ s) : K s₀ (s.chMan e b chamber ngran a).2 := by
  refine K.iteSnd h ?_
  dsimp only
  split
  next ht => exact K.snd ht h.chBytes
  next ht =>
    split
    next hu => exact K.snd hu (K.snd ht h.chBytes).chBytes
    next hu => exact K.snd hu (K.snd ht h.chBytes).chBytes

theorem K.manifests {e b addr x} (h : K s₀ s) : K s₀ (s.manifests e b addr x).2 := by
  dsimp only [State.manifests]
  split
  · exact K.snd ‹_› h.chMan
  · split <;> exact K.snd ‹_› (K.snd ‹_› h.chMan).chMan

theorem K.chamber {e b addr} (h : K s₀ s) : K s₀ (s.chamber e b addr).2 := by
  unfold State.chamber
  split
  · exact K.snd ‹_› h.chBytes
  · exact K.iteSnd (K.snd ‹_› h.chBytes) (by split <;> exact K.snd ‹_› (K.snd ‹_› h.chBytes).manifests)

theorem K.setStream {k t} (h : K s₀ s) : K s₀ (s.setStream k t) := h.update
theorem K.showStream {k st t} (h : K s₀ s) : K s₀ (s.showStream k st t) := h.setStream.setFlds.setFlds.setFlds.setReg
theorem K.armAll {ks} (h : K s₀ s) : K s₀ (s.armAll ks) := K.foldl (fun _ _ h₁ => h₁.update) h
theorem K.disarmAll {ks} (h : K s₀ s) : K s₀ (s.disarmAll ks) := K.foldl (fun _ _ h₁ => h₁.update) h

theorem K.redirty {t g} (h : K s₀ s) : K s₀ (s.redirty t g) := by
  unfold State.redirty
  split
  · exact h.touch
  · exact h

theorem K.collectGranule {pa} (h : K s₀ s) : K s₀ (s.collectGranule pa).2 := h.update

theorem K.openStream {e b k t ch} (h : K s₀ s) : K s₀ (s.openStream e b k t ch) := by
  unfold State.openStream
  extract_lets n format done
  have hdone : ∀ u t, K s₀ u → K s₀ (done u t) := fun _ _ hu => (K.ite hu.armAll hu).showStream.endBarge
  refine K.ite ?_ (hdone _ _ h)
  extract_lets
  split
  next hp =>
    have h₁ := K.snd hp h.chWrite
    split
    · exact h₁.endBarge
    · exact hdone _ _ h₁

theorem execCkptBegin_keeps {c q e} (h : K s₀ s) : KR s₀ (execCkptBegin c q e s) := by
  refine h.work fun _ _ h₁ => h₁.checked fun _ h₂ => h₂.execContest.meetAll.checked fun _ h₃ => h₃.checked fun _ h₄ => ?_
  split
  next hp =>
    have h₅ := K.snd hp h₄.chBytes
    split
    · exact h₅.finish
    · refine h₅.checked fun _ h₆ => ?_
      split
      next hq =>
        have h₇ := K.snd hq (K.iteSnd h₆ h₆.manifests)
        split
        · exact h₇.finish
        · exact h₇.checked fun _ h₈ => h₈.openStream

theorem K.diffOne {env b k g d} (h : K s₀ s) : K s₀ (s.diffOne env b k g d).2 := by
  unfold State.diffOne
  split
  · exact h
  · extract_lets la
    split
    · exact h
    · split
      next hp =>
        have h₁ := K.snd hp h.useRange.collectGranule
        extract_lets
        refine K.iteSnd h₁.touch.setStream ?_
        extract_lets
        split
        next hq =>
          have h₂ := K.snd hq h₁.chWrite
          extract_lets
          split
          · exact h₂.touch.setStream
          · exact (K.ite h₂.touch h₂).setStream

theorem K.diffAll {env b k l d} (h : K s₀ s) : K s₀ (s.diffAll env b k l d).2 := by
  induction l generalizing s d with
  | nil => exact h
  | cons g rest ih => exact K.iteSnd h (ih h.diffOne)

theorem execCkptDiff_keeps {c q e} (h : K s₀ s) : KR s₀ (execCkptDiff c q e s) := by
  refine h.work fun _ _ h₁ => h₁.asHeld fun _ h₂ => ?_
  extract_lets
  refine h₂.checked fun _ h₃ => ?_
  extract_lets t m
  split
  next d u hp =>
    extract_lets u'
    have h₄ := K.snd hp h₃.execContest.meetAll.diffAll
    have h₅ : K s₀ u' := by
      unfold u'
      split
      · exact h₄.showStream
      · exact h₄
    split
    · exact h₅.endBarge
    · exact h₅.endBarge
    · exact K.ite h₅.endBarge h₅.endBarge

theorem K.commitStream {e b k t} (h : K s₀ s) : K s₀ (s.commitStream e b k t) := by
  unfold State.commitStream
  extract_lets n job area hd entries sealW incomplete
  have hinc : ∀ u, K s₀ u → K s₀ (incomplete u) := fun _ hu => hu.showStream.endBarge
  split
  next hp => exact hinc _ (K.snd hp h.chWrite)
  next u hp =>
    have h₁ := K.snd hp h.chWrite
    extract_lets flag
    split
    next r u₁ hp =>
      have h₂ := K.snd hp h₁.chSend
      split
      next ok u₂ hq =>
        have h₃ : K s₀ u₂ := by
          refine K.snd hq ?_
          split
          · exact h₂
          · split
            · split
              next hr => exact K.snd hr h₂.chSend
            · dsimp only
              exact h₂.sendReq.modFab
          · exact h₂
        refine K.ite (hinc _ h₃) ?_
        split
        next hs =>
          have h₄ := K.snd hs h₃.chSend
          split
          · exact h₄.showStream.endBarge
          · exact hinc _ h₄
          · exact h₄.showStream.endBarge

theorem K.commitBegins {b} (h : K s₀ s) : K s₀ (s.commitBegins b) := by
  unfold State.commitBegins
  split
  · exact h
  · split
    · exact h
    · exact K.ite h.showStream h

theorem execCkptCommit_keeps {c q e} (h : K s₀ s) : KR s₀ (execCkptCommit c q e s) := by
  refine h.work fun _ _ h₁ => ?_
  dsimp only
  split
  · exact h₁.checked fun _ h₂ => h₂
  · refine h₁.checked fun _ h₂ => ?_
    split
    · exact h₂.finish
    · exact h₂.meetAll.commitStream

theorem K.abandon {k release} (h : K s₀ s) : K s₀ (s.abandon k release) := by
  unfold State.abandon
  split
  · exact h
  · exact
      have h₁ := K.ite h (K.foldl (fun _ _ h₁ => h₁.redirty) h)
      K.ite h₁.disarmAll.update.setReg.setReg.setReg.setReg h₁.showStream

theorem execCkptAbandon_keeps {c q} (h : K s₀ s) : KR s₀ (execCkptAbandon c q s) :=
  h.work fun _ _ h₁ => h₁.checked fun _ h₂ => h₂.abandon.finish

theorem K.abandonAll {p} (h : K s₀ s) : K s₀ (s.abandonAll p) :=
  K.foldl (fun _ _ h₁ => by split; exacts [K.ite h₁.abandon h₁, h₁]) h

theorem K.surveyOne {e b addr} (h : K s₀ s) : K s₀ (s.surveyOne e b addr).2 := by
  unfold State.surveyOne
  extract_lets
  split
  next hp => exact K.snd hp h.chBytes
  next hp =>
    have h₁ := K.snd hp h.chBytes
    refine K.iteSnd h₁ ?_
    extract_lets step
    have hstep : ∀ u a, K s₀ u → K s₀ (step u a).2 := fun u a hu => by
      refine K.iteSnd hu ?_
      split
      next hp => exact K.snd hp hu.chBytes
      next hp => exact K.snd hp hu.chBytes
    split
    next hp =>
      have h₂ := K.snd hp (hstep _ _ h₁)
      split
      next hq =>
        have h₃ := K.snd hq (hstep _ _ h₂)
        split
        · exact h₃
        · exact h₃

theorem K.surveyAll {e b l acc} (h : K s₀ s) : K s₀ (s.surveyAll e b l acc).2 := by
  induction l generalizing s acc with
  | nil => exact h
  | cons a rest ih => exact ih h.surveyOne

theorem execCkptSurvey_keeps {c q e} (h : K s₀ s) : KR s₀ (execCkptSurvey c q e s) :=
  h.work fun _ _ h₁ =>
      K.ite h₁
        (h₁.checked fun _ h₂ =>
             h₂.execContest.meetAll.checked fun _ h₃ =>
                 have h₄ := h₃.useRange.useRange.surveyAll.storeLocal
                 K.ite h₄.endBarge (K.ite h₄.endBarge h₄.endBarge))

theorem K.holders {e b repl step l acc} (h : K s₀ s) : K s₀ (s.holders e b repl step l acc).2 := by
  induction l generalizing s acc with
  | nil => exact h
  | cons a rest ih =>
    unfold State.holders
    split
    next ht => exact K.snd ht h.chamber
    next ht => exact K.snd ht h.chamber
    next ht =>
      split
      · exact ih (K.snd ht h.chamber)
      · exact K.snd ht h.chamber

theorem K.loadOne {e b l chamber g m} (h : K s₀ s) : K s₀ (s.loadOne e b l chamber g m).2 := by
  dsimp only [State.loadOne]
  split
  · exact K.snd ‹_› h.chBytes
  · exact
      have h₁ := ((K.snd ‹_› h.chBytes).useRange).storeLocal
      K.ite h₁ h₁.poisonLines

theorem K.loadAll {e b l chamber ms bad} (h : K s₀ s) : K s₀ (s.loadAll e b l chamber ms bad).2 := by
  induction ms generalizing s bad with
  | nil => exact h
  | cons x rest ih =>
    unfold State.loadAll
    split
    next ht => exact K.snd ht h.loadOne
    next ht => exact ih (K.snd ht h.loadOne)

theorem K.loadMan {e b l repl m} (h : K s₀ s) : K s₀ (s.loadMan e b l repl m) := by
  unfold State.loadMan
  extract_lets step done
  have hdone : ∀ u st r0 r1, K s₀ u → K s₀ (done u st r0 r1) := fun _ _ _ _ hu => hu.endBarge
  split
  next rank rc _ =>
    refine K.ite (hdone _ _ _ _ h) ?_
    extract_lets others
    have h₁ : K s₀ (s.holders e b repl step others []).2 := h.holders
    generalize s.holders e b repl step others [] = r at h₁
    obtain ⟨_ | hs, t⟩ := r
    · exact hdone _ _ _ _ h₁
    · dsimp only
      split
      · exact hdone _ _ _ _ h₁
      · refine K.ite (hdone _ _ _ _ h₁) ?_
        split
        next hq => exact hdone _ _ _ _ (K.foldl (fun _ _ h₂ => h₂.storeFree) (K.snd hq h₁.loadAll))
        next hq => exact hdone _ _ _ _ (K.snd hq h₁.loadAll)
        next hq => exact hdone _ _ _ _ (K.snd hq h₁.loadAll)

theorem execCkptLoad_keeps {c q e} (h : K s₀ s) : KR s₀ (execCkptLoad c q e s) := by
  unfold execCkptLoad
  extract_lets e
  refine h.work fun b _ h₁ => ?_
  extract_lets
  refine K.ite h₁ (h₁.checked fun _ h₂ => ?_)
  extract_lets
  refine h₂.meetAll.checked fun _ h₃ => ?_
  extract_lets
  refine h₃.checked fun _ h₄ => ?_
  split
  next hp => exact (K.snd hp h₄.chamber).endBarge
  next hp =>
    have h₅ := K.snd hp h₄.chamber
    split
    · exact h₅.endBarge
    · exact h₅.loadMan

/-! ### RegAccess -/

theorem K.accessErr {rp kind off} (h : K s₀ s) : K s₀ (s.accessErr rp kind off) := K.ite h.satAdd h.setFlds
theorem K.wakeFor {a} (h : K s₀ s) : K s₀ (s.wakeFor a) := K.ite h.wakeFirst h

theorem K.viaPath {rp a write} (h : K s₀ s) (hwrite : ∀ v, K s₀ v → K s₀ (write v)) : K s₀ (s.viaPath rp a write) :=
  K.ite h (by
       split
       · exact hwrite _ h.wakeFor
       · exact K.ite h (K.ite h.accessErr (K.ite (hwrite _ h.wakeFor) h.wakeFor)))

/-! ### Guarantee -/

theorem K.rebase {p} (h : K s₀ s) : K s₀ (s.rebase p) := K.ite h (K.ite h h.setReg.update)
theorem K.rebaseAll (h : K s₀ s) : K s₀ s.rebaseAll := K.foldl (fun _ _ h₁ => h₁.rebase) h
theorem K.setRate {r v} (h : K s₀ s) : K s₀ (s.setRate r v) := K.ite h.setFld.setFld h.setFld

theorem K.losePace {r cause} (h : K s₀ s) : K s₀ (s.losePace r cause) :=
  K.ite h (
       have h₁ := h.setFld.countSat.setRate
       by dsimp only; split; exacts [K.ite h₁.yieldG h₁.yieldG, h₁])

theorem K.slipYields {p r} (h : K s₀ s) : K s₀ (s.slipYields p r) := h.yieldG.yieldEnd

theorem K.changeMode {r} (h : K s₀ s) : K s₀ (s.changeMode r) :=
  K.ite h (K.ite (K.ite h.setFld h.setFld.follow.setFld.setRate.yieldEnd) (K.ite h.setFld.setFld.setRate.follow h.setFld))

theorem K.lockClass {r cls} (h : K s₀ s) : K s₀ (s.lockClass r cls) :=
  have h₁ := K.ite h.setFlds h.setFlds.setFld
  K.ite h₁.setFld.reachUp.follow h₁

theorem K.setPaceReq {r v} (h : K s₀ s) : K s₀ (s.setPaceReq r v) := K.ite h h.setFld.follow
theorem K.setOrderReq {r v} (h : K s₀ s) : K s₀ (s.setOrderReq r v) := K.ite h h.setFld
theorem execPaceReq_keeps {r v rp} (h : K s₀ s) : KR s₀ (execPaceReq r v rp s) := h.go (h.viaPath fun _ h₁ => h₁.setPaceReq)
theorem execOrderReq_keeps {r v rp} (h : K s₀ s) : KR s₀ (execOrderReq r v rp s) := h.go (h.viaPath fun _ h₁ => h₁.setOrderReq)
theorem execTimingModeChange_keeps {r} (h : K s₀ s) : KR s₀ (execTimingModeChange r s) := h.goDie (K.ite h.changeMode h)

theorem execHcRateUpdate_keeps {r rate} (h : K s₀ s) : KR s₀ (execHcRateUpdate r rate s) :=
  h.goDie (K.ite h.setFld h.setFld.setRate)

theorem execPacingSlip_keeps {r} (h : K s₀ s) : KR s₀ (execPacingSlip r s) :=
  h.goDie (K.ite h (by dsimp only; split; exacts [h.countSat.slipYields, h.countSat]))

theorem K.lockLoss (h : K s₀ s) : K s₀ s.lockLoss := K.foldl (fun _ _ h₁ => h₁.losePace) h.update
theorem execPacingLockLoss_keeps (h : K s₀ s) : KR s₀ (execPacingLockLoss s) := h.go h.lockLoss

theorem execPacingLockRegained_keeps (h : K s₀ s) : KR s₀ (execPacingLockRegained s) :=
  h.go (K.foldl (fun _ _ h₁ => K.ite h₁.changeMode h₁) h.update)

/-! ### Reset -/

theorem K.resetRecord {cause level unit} (h : K s₀ s) : K s₀ (s.resetRecord cause level unit) := h.setReg.errRecord
theorem K.linkDown {k st} (h : K s₀ s) : K s₀ (s.linkDown k st) := K.foldl (fun _ _ h₁ => h₁.emitPkt) h.setFld.setLink.modFab
theorem K.linkLost {k} (h : K s₀ s) : K s₀ (s.linkLost k) := h.linkDown.setLink.noteFault

theorem K.faultCanals {cs cause} (h : K s₀ s) : K s₀ (s.faultCanals cs cause) :=
  K.foldl (fun _ _ h₁ => K.ite h₁.canalFault h₁) h

theorem K.clearReg {a} (h : K s₀ s) : K s₀ (s.clearReg a) := h.setReg
theorem K.resetHostPort {k} (h : K s₀ s) : K s₀ (s.resetHostPort k) := h.clearReg.clearReg.clearReg.setHost.setFld.faultCanals
theorem K.resetCdie {d} (h : K s₀ s) : K s₀ (s.resetCdie d) := (K.foldl (fun _ _ h₁ => h₁.resetReach) h).update
theorem K.clearScrub {st} (h : K s₀ s) : K s₀ (s.clearScrub st) := h.clearReg.clearReg
theorem K.retryOps {sel} (h : K s₀ s) : K s₀ (s.retryOps sel) := h.update
theorem K.dirtyAll {st} (h : K s₀ s) : K s₀ (s.dirtyAll st) := h.update
theorem K.resetStack {st} (h : K s₀ s) : K s₀ (s.resetStack st) := h.dirtyAll.clearScrub.retryOps

theorem K.loseSlots {f} (h : K s₀ s) : K s₀ (s.loseSlots f) :=
  K.foldl (fun _ _ h₁ => by split; exacts [K.ite h₁.collFail h₁, h₁]) h

theorem K.resetFdie {f} (h : K s₀ s) : K s₀ (s.resetFdie f) := (K.foldl (fun _ _ h₁ => K.ite h₁.linkLost h₁) h).loseSlots
theorem K.modSec {f} (h : K s₀ s) : K s₀ (s.modSec f) := h.update
theorem K.setFlash {k f} (h : K s₀ s) : K s₀ (s.setFlash k f) := h.modSec
theorem K.setRunning {k r} (h : K s₀ s) : K s₀ (s.setRunning k r) := h.setReg.setReg.modSec.setFld
theorem K.logRoast (h : K s₀ s) : K s₀ s.logRoast := h.logEnter
theorem K.logBoot {level} (h : K s₀ s) : K s₀ (s.logBoot level) := h.logEnter
theorem K.bootDone {k slot peer recovered idx} (h : K s₀ s) : K s₀ (s.bootDone k slot peer recovered idx) := h.setFlds
theorem K.bootStop {k cause} (h : K s₀ s) : K s₀ (s.bootStop k cause) := h.setFlds
theorem K.setRole {k role change} (h : K s₀ s) : K s₀ (s.setRole k role change) := h.setFlds
theorem K.beginSync {k change} (h : K s₀ s) : K s₀ (s.beginSync k change) := h.setRole.setFld.setFld
theorem K.noStandby {k st change} (h : K s₀ s) : K s₀ (s.noStandby k st change) := h.setRole.setFld.setFld
theorem K.clearPdie {k} (h : K s₀ s) : K s₀ (s.clearPdie k) := h.setFld.resetHostPort.setMgmt.clearReg.modSec.setFld
theorem K.startRoast {k r} (h : K s₀ s) : K s₀ (s.startRoast k r) := K.ite h.setRunning h.setRunning.logRoast

theorem K.bootStandby {k change} (h : K s₀ s) : K s₀ (s.bootStandby k change) :=
  K.ite h.logBoot.bootStop.noStandby
    (K.ite h.logBoot.setFld.setFld.setFld.noStandby (by
          split
          · exact h.logBoot.startRoast.bootDone.beginSync
          · exact h.logBoot.bootStop.noStandby))

theorem K.resetStandby {k source change} (h : K s₀ s) : K s₀ (s.resetStandby k source change) :=
  h.clearPdie.resetRecord.bootStandby

theorem K.swapRoles {change} (h : K s₀ s) : K s₀ (s.swapRoles change) := h.setFld.setRole.logEnter.hostEvt.rebaseAll
theorem K.handover (h : K s₀ s) : K s₀ s.handover := h.swapRoles.setRole

theorem K.resetPdie {k source} (h : K s₀ s) : K s₀ (s.resetPdie k source) :=
  K.ite h.resetStandby (K.ite h.handover.resetStandby h.resetHostPort.resetRecord)

/-- A choice of the listed bytes is canonical where it drops those that equal the new default. -/
theorem K.relisted {p : Nat × Byte → Bool} (h : K s₀ s) (hp : t.pending = s.pending)
    (hm : t.mem = s.mem.filter fun c => p c && c.2 != memDefault t.fills c.1) : K s₀ t := by
  refine ⟨hp.trans h.pending, fun w => (spWf_iff _ _).mpr ?_⟩
  rw [hm]
  refine ⟨spRising_filter _ _ ((spWf_iff _ _).mp (h.memWf w)).1, fun c hc => ?_⟩
  have hd := (List.mem_filter.mp hc).2
  rw [Bool.and_eq_true, bne_iff_ne] at hd
  exact hd.2

/-- Memory that lists nothing is canonical. -/
theorem K.emptied {x1 x2 x3 x5 x6 x7 x8 x9 x10 x11 x12 x13 x14 x15 x16 x17 x18 x19 x20 x21 x22 x23 x24 x25 x26
    x27 x28 x29 x30 x31 x32 x33 x34 x35 x36 x37 x38 x39 x40 x41 x42 x43} (h : K s₀ s) : K s₀ (State.mk s.pending x1 x2 x3
    [] x5 x6 x7 x8 x9 x10 x11 x12 x13 x14 x15 x16 x17 x18 x19 x20 x21 x22 x23 x24 x25 x26 x27 x28 x29 x30 x31 x32 x33
    x34 x35 x36 x37 x38 x39 x40 x41 x42 x43) := ⟨h.pending, fun _ => rfl⟩

theorem K.levelSeven {cold source short opt absorbed} (h : K s₀ s) : K s₀ (s.levelSeven cold source short opt absorbed) := by
  unfold State.levelSeven
  extract_lets was on again dev fills noticed cause log t t'
  have hn : noticed.pending = s.pending := (K.ite (K.refl s)
    (K.foldl (fun _ _ h₁ => K.ite h₁.sendControl h₁) (K.refl s))).pending
  have ht : K s₀ t := by
    cases cold with
    | false => exact h.relisted hn rfl
    | true => exact h.relisted (p := fun _ => false) hn (List.filter_eq_nil_iff.mpr (by simp)).symm
  exact (K.ite ht (K.foldl (fun _ _ h₁ => h₁.undefine) ht)).resetRecord

/-! ### Failover -/

theorem K.mapDone (h : K s₀ s) : K s₀ s.mapDone := K.ite h.setReg.rebaseAll.hostEvt h.setReg.rebaseAll

theorem K.unitDetail {unit kind detail} (h : K s₀ s) : K s₀ (s.unitDetail unit kind detail).2 := by
  unfold State.unitDetail
  split
  · exact K.iteSnd h.memDetail h
  · exact h

theorem K.mapEntry {unit taker level action bits e} (h : K s₀ s) : K s₀ (s.mapEntry unit taker level action bits e) :=
  h.logEnter.unitDetail.errRecord.update

theorem K.mapChange {unit taker level action bits e change} (h : K s₀ s) (hchange : ∀ v, K s₀ v → K s₀ (change v)) : K s₀
    (s.mapChange unit taker level action bits e change) :=
  ((hchange _ h.mapEntry).count).mapDone

theorem K.dropLost {P} (h : K s₀ s) : K s₀ (s.dropLost P) := h.leaveRun.modCl.unwatch

theorem K.loseRun {b ps L} (h : K s₀ s) : K s₀ (s.loseRun b ps L) := by
  unfold State.loseRun
  split
  · exact h
  · exact (K.foldl (fun _ _ h₁ => h₁.dropLost) (K.ite h h.logEnter).setBarge).finishRun

theorem K.loseCargo {ps L} (h : K s₀ s) : K s₀ (s.loseCargo ps L) :=
  K.foldl
    (fun _ _ h₁ =>
       by
         split
         · exact h₁
         · split
           · exact h₁
           · exact K.ite (K.ite h₁.disarm.endBarge h₁) (K.ite h₁.loseRun h₁)) h

theorem K.loseSolve {r} (h : K s₀ s) : K s₀ (s.loseSolve r) := h.update

theorem K.markReach {r cause part} (h : K s₀ s) : K s₀ (s.markReach r cause part) :=
  K.foldl (fun _ _ h₁ => K.ite h₁ h₁.setFlds) (K.ite h.setFlds.setFld (K.ite h.setFlds.setFld h.setFlds))

theorem K.stopReach {r} (h : K s₀ s) : K s₀ (s.stopReach r) := h.loseCargo.loseSolve
theorem K.reachLost {r part e} (h : K s₀ s) : K s₀ (s.reachLost r part e) := h.mapChange fun _ h₁ => h₁.markReach
theorem K.unitFailed {P bits cause} (h : K s₀ s) : K s₀ (s.unitFailed P bits cause) := h.setReg
theorem K.slotOut {P} (h : K s₀ s) : K s₀ (s.slotOut P) := h.setFld
theorem K.mapSlot {r x k} (h : K s₀ s) : K s₀ (s.mapSlot r x k) := h.setFld

theorem K.pauseYields {r} (h : K s₀ s) : K s₀ (s.pauseYields r) := by
  unfold State.pauseYields
  split
  · exact h
  · exact
      have h₁ := K.ite h.yieldG h
      K.ite h₁.yieldG h₁

theorem K.clusterLost {P bits e} (h : K s₀ s) : K s₀ (s.clusterLost P bits e) :=
  have h₁ := (h.loseCargo.mapChange fun _ h₁ =>
       by
         dsimp only
         split
         · exact h₁.unitFailed.slotOut.mapSlot.setFlds
         · exact h₁.unitFailed.slotOut).modCl
  K.ite h₁.stopReach.reachLost h₁

theorem K.spareLost {P bits e} (h : K s₀ s) : K s₀ (s.spareLost P bits e) :=
  h.mapChange fun _ h₁ => h₁.unitFailed.slotOut.setFld

theorem K.beginSubst {P spare bits e} (h : K s₀ s) : K s₀ (s.beginSubst P spare bits e) :=
  h.mapEntry.count.update.modCl.pauseYields

theorem K.resume {P was} (h : K s₀ s) : K s₀ (s.resume P was) := K.ite h (by split; exacts [h.setCl.unwatch, h.setCl])

theorem K.clusterChange {P bits e} (h : K s₀ s) : K s₀ (s.clusterChange P bits e) :=
  K.ite h.resume (by split; exacts [h.resume.clusterLost, K.ite h.resume.spareLost h.beginSubst])

theorem K.copyBasin {P Q} (h : K s₀ s) : K s₀ (s.copyBasin P Q) := (K.foldl (fun _ _ h₁ => h₁.putByte) h.zeroBasin).update
theorem K.moveRefs {P Q} (h : K s₀ s) : K s₀ (s.moveRefs P Q) := h.update
theorem K.spareNotes {P} (h : K s₀ s) : K s₀ (s.spareNotes P) := h.update
theorem K.moveCluster {x hc} (h : K s₀ s) : K s₀ (s.moveCluster x hc) := h.unwatch.setCl.resume.setCl

theorem K.endSubst {x hc} (h : K s₀ s) : K s₀ (s.endSubst x hc) :=
  have h₁ := h.copyBasin.spareNotes.moveCluster.moveRefs.unitFailed.setFld.slotOut.setFld
  K.yieldEnd (K.mapDone (K.count (K.update (by split; exacts [h₁.mapSlot, h₁]))))

theorem K.spareDone {kind unit taker} (h : K s₀ s) : K s₀ (s.spareDone kind unit taker) := by
  unfold State.spareDone
  split
  · exact h.endBarge
  · exact h

theorem K.stackChange {st e} (h : K s₀ s) : K s₀ (s.stackChange st e) := (h.mapChange fun _ h₁ => h₁.setFlds).logLose
theorem K.stackWorse {st cause} (h : K s₀ s) : K s₀ (s.stackWorse st cause) := K.ite h.setFlds h

theorem K.engineChange {n e} (h : K s₀ s) : K s₀ (s.engineChange n e) :=
  K.ite h (h.mapChange fun _ h₁ => h₁.setFld.stackWorse)

theorem K.showCopy {st} (h : K s₀ s) : K s₀ (s.showCopy st) := by
  unfold State.showCopy
  split
  · exact h.setFlds
  · exact h.setFld

theorem K.countSpared {st} (h : K s₀ s) : K s₀ (s.countSpared st) := h.setFld

theorem K.assignSpare {st c cause} (h : K s₀ s) : K s₀ (s.assignSpare st c cause) := by
  unfold State.assignSpare
  split
  · exact h.setFld.countSpared
  · exact h.stackWorse.countSpared

theorem K.markChannel {st c} (h : K s₀ s) : K s₀ (s.markChannel st c) := K.ite h.setFld h.setFlds

theorem K.channelChange {st c e} (h : K s₀ s) : K s₀ (s.channelChange st c e) := by
  unfold State.channelChange
  split
  · exact h.mapChange fun _ h₁ => h₁.markChannel
  · split
    · exact (h.mapChange fun _ h₁ => h₁.markChannel.assignSpare).update.showCopy
    · exact (h.mapChange fun _ h₁ => h₁.markChannel.assignSpare).update.showCopy.logLose

theorem K.portNotes {k} (h : K s₀ s) : K s₀ (s.portNotes k) :=
  K.foldl
    (fun _ _ h₁ =>
       K.ite h₁ (by split; exacts [h₁.addNote, by split; exacts [h₁.addNote, h₁], h₁])) h

theorem K.markPort {k cause} (h : K s₀ s) : K s₀ (s.markPort k cause) :=
  K.ite (K.ite (K.ite h.setFld.setFld.setFld.setFlds h.setFld.setFld.setFld) h.setFld.setFld)
    (K.ite h.setFld.setFld.setFld (K.ite h.setFld.setFlds h.setFld))

theorem K.portChange {k e} (h : K s₀ s) : K s₀ (s.portChange k e) := K.ite h (h.mapChange fun _ h₁ => h₁.markPort)
theorem K.retryCross (h : K s₀ s) : K s₀ s.retryCross := K.foldl (fun _ _ h₁ => K.ite h₁ (K.ite h₁.draw.retryOps h₁.draw)) h

theorem K.fdieFault {f} (h : K s₀ s) : K s₀ (s.fdieFault f) :=
  K.ite h (K.ite h.retryCross.noteFault.errRecord.resetFdie.resetRecord h.retryCross.noteFault)

theorem K.markFdie {f cause} (h : K s₀ s) : K s₀ (s.markFdie f cause) :=
  K.foldl (fun _ _ h₁ => K.ite h₁ h₁.setFld) (K.foldl (fun _ _ h₁ => h₁.setFld) h.setFlds.setFld)

theorem K.fdieChange {f e} (h : K s₀ s) : K s₀ (s.fdieChange f e) := h.mapChange fun _ h₁ => h₁.markFdie

theorem K.contain {u} (h : K s₀ s) : K s₀ (s.contain u) := by
  unfold State.contain
  split
  · exact h.modCl
  · exact h.stopReach
  · exact K.ite h.portNotes.linkDown h.portNotes
  · exact K.foldl (fun _ _ h₁ => h₁.linkDown) h.retryCross.resetFdie
  · exact h

theorem K.meetEvent {e} (h : K s₀ s) : K s₀ (s.meetEvent e) := by
  unfold State.meetEvent
  split
  · exact h.clusterChange
  · exact K.ite h h.reachLost
  · exact h.stackChange
  · exact h.engineChange
  · exact h.channelChange
  · exact h.portChange
  · exact h.fdieChange

theorem K.unitFail {what cause kind} (h : K s₀ s) : K s₀ (s.unitFail what cause kind) :=
  K.ite h (K.ite h.contain.meetEvent h.contain.update)

theorem K.meetWaiting {n} (h : K s₀ s) : K s₀ (s.meetWaiting n) := by
  induction n generalizing s with
  | zero => exact h
  | succ n ih =>
    refine K.ite h ?_
    split
    · exact h
    · exact ih h.update.meetEvent

theorem K.clusterFail {P bits cause kind} (h : K s₀ s) : K s₀ (s.clusterFail P bits cause kind) := h.unitFail
theorem K.reachDown {r kind cause part} (h : K s₀ s) : K s₀ (s.reachDown r kind cause part) := h.unitFail
theorem K.stackDown {st kind cause} (h : K s₀ s) : K s₀ (s.stackDown st kind cause) := h.unitFail
theorem K.nmeFail {n ops} (h : K s₀ s) : K s₀ (s.nmeFail n ops) := K.ite h h.retryOps.unitFail
theorem K.channelFail {st c cause kind} (h : K s₀ s) : K s₀ (s.channelFail st c cause kind) := h.unitFail
theorem K.portFail {k cause kind} (h : K s₀ s) : K s₀ (s.portFail k cause kind) := h.unitFail
theorem K.fdieDown {f kind} (h : K s₀ s) : K s₀ (s.fdieDown f kind) := h.unitFail
theorem K.fdieFail {f} (h : K s₀ s) : K s₀ (s.fdieFail f) := K.ite h.fdieFault h.fdieFault.fdieDown

theorem execSubstitutionResume_keeps {p hc} (h : K s₀ s) : KR s₀ (execSubstitutionResume p hc s) :=
  h.goDieOn (by split; exacts [h, h.endSubst.spareDone.meetWaiting])

theorem K.pdieFall {k} (h : K s₀ s) : K s₀ (s.pdieFall k) := h.clearPdie.resetRecord
theorem K.pdieGone {k} (h : K s₀ s) : K s₀ (s.pdieGone k) := h.update.noStandby
theorem K.pdieOut {k} (h : K s₀ s) : K s₀ (s.pdieOut k) := h.pdieFall.pdieGone

theorem K.standbyFail {k kind} (h : K s₀ s) : K s₀ (s.standbyFail k kind) :=
  K.ite h.noteFault.errRecord.resetStandby h.noteFault.errRecord.pdieOut

theorem K.takeover {kind} (h : K s₀ s) : K s₀ (s.takeover kind) :=
  K.ite (K.ite h.noteFault.errRecord.swapRoles.pdieOut h.noteFault.errRecord.pdieOut)
    (K.ite
       (
          have h₁ := h.noteFault.errRecord.pdieFall.logBoot
          by dsimp only; split; exacts [h₁.startRoast.bootDone.rebaseAll, h₁.bootStop])
       h.noteFault.setFld.swapRoles.errRecord.pdieFall.setRole.setFlds)

theorem K.endTakeover (h : K s₀ s) : K s₀ s.endTakeover := K.ite h.setFld.bootStandby h.setFld.pdieGone
theorem execHeartbeatMiss_keeps (h : K s₀ s) : KR s₀ (execHeartbeatMiss s) := h.go h.takeover
theorem execWatchdogExpiry_keeps (h : K s₀ s) : KR s₀ (execWatchdogExpiry s) := h.go h.takeover

theorem K.repairRows {st c} (h : K s₀ s) : K s₀ (s.repairRows st c) :=
  K.foldl (fun _ _ h₁ => K.ite h₁ (K.ite h₁.channelFail h₁.draw.noteFault.satAdd.errRecord)) h

theorem K.retireUnit {u} (h : K s₀ s) : K s₀ (s.retireUnit u) :=
  K.ite
    (by dsimp only; split; exacts [h.clusterFail, K.ite h.clusterFail (K.ite h.clusterFail h)])
    (K.ite (K.ite h (K.ite h.channelFail (K.ite h.channelFail h.repairRows))) h)

theorem K.retireDue (h : K s₀ s) : K s₀ s.retireDue := K.foldl (fun _ _ h₁ => h₁.retireUnit) h
theorem K.recompute {unit place} (h : K s₀ s) : K s₀ (s.recompute unit place) := h.noteFault.errRecord
theorem K.retriedOn {P} (h : K s₀ s) : K s₀ (s.retriedOn P) := h.update

theorem K.clusterResidue {P bit again} (h : K s₀ s) : K s₀ (s.clusterResidue P bit again) :=
  K.ite h.recompute.retriedOn.clusterFail h.recompute.retriedOn

theorem execResidueMismatch_keeps {w again} (h : K s₀ s) : KR s₀ (execResidueMismatch w again s) := by
  cases w with
  | matrix p => exact h.goDie h.clusterResidue
  | vector p => exact h.goDie h.clusterResidue
  | near e ops => exact h.goStack (K.ite h.recompute.retryOps.nmeFail h.recompute.retryOps)

theorem execLockstepMismatch_keeps {w} (h : K s₀ s) : KR s₀ (execLockstepMismatch w s) := by
  cases w with
  | sequencer p => exact h.goDie h.clusterFail
  | solver r => exact h.goDie h.reachDown
  | crossbar r => exact h.goDie h.reachDown
  | fdie f => exact h.go h.fdieFail
  | base st => exact h.goStack h.stackDown
  | pdie k => exact h.go (K.ite h.takeover h.standbyFail)

theorem K.cutStations {was kind} (h : K s₀ s) (_ : K s₀ was) : K s₀ (s.cutStations was kind) :=
  K.ite h (
       have h₂ := K.foldl (fun _ _ h₂ => h₂.reachDown)
         (K.foldl (fun _ _ h₂ => h₂.stackDown) (K.foldl (fun _ _ h₂ => h₂.fdieDown) h))
       K.ite h₂.standbyFail h₂)

theorem execDieLinkLost_keeps {l ops} (h : K s₀ s) : KR s₀ (execDieLinkLost l ops s) :=
  h.go
    (K.ite h (
          have h₁ := h.update.errRecord.cutStations h
          K.ite h₁.stackDown (K.ite h₁.retryOps (K.ite h₁.setFld.setFld h₁))))

theorem execTowpathBreak_keeps {g} (h : K s₀ s) : KR s₀ (execTowpathBreak g s) :=
  h.go (K.ite h (h.update.setFld.errRecord.cutStations h))

theorem execRailFault_keeps {r} (h : K s₀ s) : KR s₀ (execRailFault r s) := by
  have reaches : ∀ d, K s₀ ((reachesOfDie d).foldl (fun u r => u.reachDown r 4 3 0) s) := fun _ =>
    K.foldl (fun _ _ h₁ => h₁.reachDown) h
  cases r with
  | vcore d => exact h.goDie (reaches _)
  | vunc d => exact h.goDie (K.foldl (fun _ _ h₁ => h₁.stackDown) (reaches _))
  | vfab f => exact h.go h.fdieDown
  | vser f => exact h.go h.fdieDown
  | vserh f => exact h.go h.fdieDown

theorem execVcoreUndervolt_keeps {d} (h : K s₀ s) : KR s₀ (execVcoreUndervolt d s) := h.go h.update
theorem execBoardRailOutOfRange_keeps (h : K s₀ s) : KR s₀ (execBoardRailOutOfRange s) := h.go h.draw.update

theorem execSpareSubstitute_keeps {c q} (h : K s₀ s) : KR s₀ (execSpareSubstitute c q s) :=
  h.work fun _ _ h₁ =>
      K.ite h₁ (h₁.checked fun _ h₂ => K.ite h₂.working.clusterFail (K.ite h₂.channelFail.endBarge h₂.portFail.endBarge))

theorem K.showCup {r x} (h : K s₀ s) : K s₀ (s.showCup r x) := h.setFlds.satAdd

theorem K.cup {r x} (h : K s₀ s) : K s₀ (s.cup r x) :=
  K.ite h.showCup.reachDown (K.foldl (fun _ _ h₁ => h₁.clusterFail) h.showCup)

theorem K.cupReach {cup r} (h : K s₀ s) : K s₀ (s.cupReach cup r) := by
  unfold State.cupReach
  split
  · exact h.cup
  · exact h.draw.cup

theorem K.cupBegin {r} (h : K s₀ s) : K s₀ (s.cupBegin r) := h.setFld

theorem K.cupOn {rs cup} (h : K s₀ s) : K s₀ (s.cupOn rs cup) :=
  K.foldl (fun _ _ h₁ => by dsimp only; split; exacts [h₁.cupReach.cupBegin, h₁.cupReach]) h

theorem execDiagCupping_keeps {c q cup} (h : K s₀ s) : KR s₀ (execDiagCupping c q cup s) :=
  h.go (by
       split
       · exact h
       · exact K.ite (K.ite h.cupOn h.cupOn.endBarge)
           (h.checked fun _ h₁ => K.ite h₁ (K.foldl (fun _ _ h₂ => h₂.cupBegin) h₁.working)))

theorem execErrQuery_keeps {c q x} (h : K s₀ s) : KR s₀ (execErrQuery c q x s) :=
  h.work fun _ _ h₁ => h₁.checked fun _ h₂ => h₂.execContest.useRange.storeLocal.finish

theorem execRefresh_keeps {st} (h : K s₀ s) : KR s₀ (execRefresh st s) := h.goStack h
theorem execRefreshManagement_keeps {st} (h : K s₀ s) : KR s₀ (execRefreshManagement st s) := h.goStack h

theorem K.scrubLine {st half ecc} (h : K s₀ s) : K s₀ (s.scrubLine st half ecc) :=
  K.ite h (K.ite h.meetEcc.setFld.satAdd h.meetEcc.setFld)

theorem execPatrolScrub_keeps {st half ecc} (h : K s₀ s) : KR s₀ (execPatrolScrub st half ecc s) :=
  h.goStack h.scrubLine.retireDue

theorem execSelfRefreshScrubBurst_keeps {st lines} (h : K s₀ s) : KR s₀ (execSelfRefreshScrubBurst st lines s) :=
  h.goStack (K.ite (K.foldl (fun _ _ h₁ => h₁.scrubLine) h).retireDue h)

theorem execRefreshBandChange_keeps {st temp} (h : K s₀ s) : KR s₀ (execRefreshBandChange st temp s) :=
  h.goStack (K.ite h.setFlds.setFld h.setFlds)

theorem execChannelCopyComplete_keeps {st} (h : K s₀ s) : KR s₀ (execChannelCopyComplete st s) :=
  h.goStack (by split; exacts [h, h.update.showCopy.retireDue])

/-! ### Weir -/

theorem K.dropPace {d cause} (h : K s₀ s) : K s₀ (s.dropPace d cause) := K.foldl (fun _ _ h₁ => h₁.losePace) h.setFld

theorem K.lowerVcore {d v cause f} (h : K s₀ s) : K s₀ (s.lowerVcore d v cause f) :=
  have h₁ := h.setVcore.setFld.throttleDie
  K.ite (K.ite h₁.update h₁).dropPace h₁

theorem K.rePace {d} (h : K s₀ s) : K s₀ (s.rePace d) := K.ite h (K.foldl (fun _ _ h₁ => h₁.changeMode) h).yieldEnd
theorem K.holdFloor {d} (h : K s₀ s) : K s₀ (s.holdFloor d) := K.ite h (K.ite h.dropPace h.follow)
theorem K.showBucket {level} (h : K s₀ s) : K s₀ (s.showBucket level) := h.update.setFlds.setFlds
theorem K.scaleShares (h : K s₀ s) : K s₀ s.scaleShares := K.foldl (fun _ _ h₁ => K.ite h₁.setFld.yieldEnd h₁.setFld.yieldG) h
theorem K.restoreShares (h : K s₀ s) : K s₀ s.restoreShares := K.ite h.scaleShares h

theorem K.weirApply {b} (h : K s₀ s) : K s₀ (s.weirApply b) :=
  have h₁ := K.ite h.setFlds h
  have h₁ := K.ite h₁.setFld h₁
  K.foldl
    (fun _ _ h₁ =>
       have h₂ := K.ite h₁.setFlds h₁
       have h₂ := K.ite h₂.setFlds h₂
       K.ite h₂.follow h₂) (K.ite h₁.showBucket.scaleShares h₁)

theorem execWeirSet_keeps {c q} (h : K s₀ s) : KR s₀ (execWeirSet c q s) :=
  h.work fun _ _ h₁ => h₁.checked fun _ h₂ => h₂.weirApply.finish

theorem K.measureTj {a tj tjf peak} (h : K s₀ s) : K s₀ (s.measureTj a tj tjf peak) := h.setFlds

theorem K.measure {e} (h : K s₀ s) : K s₀ (s.measure e) :=
  (K.foldl (fun _ _ h₁ => K.ite h₁ h₁.measureTj.setFlds)
     (K.foldl (fun _ _ h₁ => K.ite h₁ h₁.measureTj) (K.foldl (fun _ _ h₁ => K.ite h₁ h₁.setFlds) h))).update.setFlds

theorem K.lowerDies {room l} (h : K s₀ s) : K s₀ (s.lowerDies room l).1 := by
  induction l generalizing s room with
  | nil => exact h
  | cons d ds ih => exact K.iteOf Prod.fst (ih h) (ih h.lowerVcore)

theorem K.lowerTick (h : K s₀ s) : K s₀ s.lowerTick := K.ite h.lowerDies.lowerDies h.lowerDies
theorem K.budgetOver {d} (h : K s₀ s) : K s₀ (s.budgetOver d) := h.update.setFld.follow.rePace

theorem K.raiseTick (h : K s₀ s) : K s₀ s.raiseTick :=
  K.foldl
    (fun _ _ h₁ =>
       K.ite h₁ (K.ite h₁.budgetOver (K.ite h₁.setVcore.budgetOver (K.ite h₁.setVcore.update.rePace h₁.setVcore)))) h

theorem K.excessEnds (h : K s₀ s) : K s₀ s.excessEnds := h.yieldEnd

theorem execWeirTick_keeps {e} (h : K s₀ s) : KR s₀ (execWeirTick e s) :=
  KR.ite (h.go h.endTakeover) (
       have h₁ := K.foldl (fun _ _ h₁ => (K.ite h₁.firstIssue h₁).holdFloor) h.measure.showBucket
       h.go (K.ite h₁.lowerTick (K.ite h₁.raiseTick h₁)).excessEnds)

theorem execVmodeAdjust_keeps {d} (h : K s₀ s) : KR s₀ (execVmodeAdjust d s) := h.goDie (K.ite h h.update.follow)
theorem execIssueGuard_keeps {d} (h : K s₀ s) : KR s₀ (execIssueGuard d s) := h.goDie h.update.throttleDie
theorem execIssueGuardEnd_keeps {d} (h : K s₀ s) : KR s₀ (execIssueGuardEnd d s) := h.goDie h.update
theorem execIdleDrop_keeps {d} (h : K s₀ s) : KR s₀ (execIdleDrop d s) := h.goDie (K.ite h h.placeVcore.setFld)
theorem execReachRetain_keeps {r} (h : K s₀ s) : KR s₀ (execReachRetain r s) := h.goDie (K.ite h.setFlds.satAdd h)
theorem execReachWake_keeps {r} (h : K s₀ s) : KR s₀ (execReachWake r s) := h.goDie h.reachUp
theorem K.wakeReaches (h : K s₀ s) : K s₀ s.wakeReaches := K.foldl (fun _ _ h₁ => K.ite h₁.reachUp (K.ite h₁.setFlds h₁)) h

theorem K.ceiling {b p} (h : K s₀ s) : K s₀ (s.ceiling b p) :=
  K.ite h
    (K.ite h.setBarge (by split; exacts [h.yieldG, K.foldl (fun _ _ h₁ => K.ite h₁.yieldG h₁) h.setBarge]))

theorem execLatencyCeiling_keeps {c q} (h : K s₀ s) : KR s₀ (execLatencyCeiling c q s) :=
  h.go (by split; exacts [by split; exacts [K.ite h.ceiling h, h], h])

theorem K.showHot (h : K s₀ s) : K s₀ s.showHot := K.ite h.setFld.hostEvt h.setFld
theorem K.modHeat {f} (h : K s₀ s) : K s₀ (s.modHeat f) := h.update

theorem execThermalTrip_keeps (h : K s₀ s) : KR s₀ (execThermalTrip s) :=
  h.go (K.foldl (fun _ _ h₁ => h₁.throttleDie.setVcore.dropPace) h.modHeat).update.showHot.emit

theorem execDramOver110_keeps {st} (h : K s₀ s) : KR s₀ (execDramOver110 st s) := h.goStack h.modHeat.showHot

theorem execDramOver105_keeps {st parts waiting} (h : K s₀ s) : KR s₀ (execDramOver105 st parts waiting s) :=
  h.goStack (K.ite h.modHeat.showHot (K.foldl (fun _ _ h₁ => K.ite h₁.yieldG h₁) h.modHeat.showHot))

theorem execCdieOver105_keeps {d} (h : K s₀ s) : KR s₀ (execCdieOver105 d s) := h.goDie h.modHeat.lowerVcore.showHot
theorem execFpdieOver105_keeps {k} (h : K s₀ s) : KR s₀ (execFpdieOver105 k s) := h.go h.modHeat.showHot.throttleColls

theorem execTjTargetExceeded_keeps {d} (h : K s₀ s) : KR s₀ (execTjTargetExceeded d s) :=
  h.goDie (K.ite h.modHeat h.modHeat.lowerVcore)

theorem K.coolDie {d} (h : K s₀ s) : K s₀ (s.coolDie d) := K.ite h h.setFld.follow.rePace

theorem execThermalResponseEnd_keeps {w} (h : K s₀ s) : KR s₀ (execThermalResponseEnd w s) := by
  cases w with
  | dram110 st => exact h.goStack h.modHeat.showHot
  | dram105 st => exact h.goStack h.modHeat.showHot.yieldEnd
  | cdie d => exact h.goDie h.modHeat.coolDie.showHot
  | fpdie k => exact h.go h.modHeat.showHot
  | target d => exact h.goDie h.modHeat.coolDie

theorem K.sleepDue (h : K s₀ s) : K s₀ s.sleepDue :=
  K.ite h.exitEnd
    (K.ite h (
          have h₁ := (K.ite (K.foldl (fun _ _ h₁ => K.ite h₁.sendControl.linkDown h₁) h) h).enterSleep.update
          K.ite h₁.exitBegin h₁))

theorem K.sleep {target force} (h : K s₀ s) : K s₀ (s.sleep target force) := h.update.setFlds.sleepDue

theorem execSleep_keeps {c q} (h : K s₀ s) : KR s₀ (execSleep c q s) :=
  h.work fun _ _ h₁ => h₁.checked fun _ h₂ => h₂.finish.sleep

theorem execWakeEvent_keeps (h : K s₀ s) : KR s₀ (execWakeEvent s) := h.go h.wakeUp
theorem execWeirWake_keeps {v rp} (h : K s₀ s) : KR s₀ (execWeirWake v rp s) := h.go (h.viaPath fun _ h₁ => K.ite h₁.wakeUp h₁)
theorem K.markReady (h : K s₀ s) : K s₀ s.markReady := h.update

theorem K.idleStep (h : K s₀ s) : K s₀ s.idleStep :=
  h.endFaults.retireDue.sleepDue.wakeReaches.markReady.sendTimes.sendFlits.idle

theorem K.setDomain {kind u v} (h : K s₀ s) : K s₀ (s.setDomain kind u v) := K.ite h.setFld h.setFld
theorem K.powerReach {r} (h : K s₀ s) : K s₀ (s.powerReach r) := h.resetReach.setFlds

theorem K.powerOn {kind u} (h : K s₀ s) : K s₀ (s.powerOn kind u) :=
  K.ite h.powerReach (K.ite (K.foldl (fun _ _ h₁ => K.ite h₁ h₁.resetReach.setFlds) h.ramp) h.update.setFld.setFld)

theorem execDomainEnable_keeps {c q} (h : K s₀ s) : KR s₀ (execDomainEnable c q s) :=
  h.work fun _ _ h₁ =>
      h₁.checked fun _ h₂ => by dsimp only; split <;> exact (K.ite h₂.powerOn h₂).endBarge

theorem K.shutReach {r depth retain} (h : K s₀ s) : K s₀ (s.shutReach r depth retain) :=
  (K.ite h.clearReach h.clearReach.zeroReach).setFlds

theorem K.shutDown {kind u retain} (h : K s₀ s) : K s₀ (s.shutDown kind u retain) :=
  K.ite h.shutReach.setFld (K.foldl (fun _ _ h₁ => h₁.shutReach) h).setFlds

theorem K.portDown {k} (h : K s₀ s) : K s₀ (s.portDown k) := (K.ite h.linkLost h).update.setFld.setFld
theorem K.tryShut {b} (h : K s₀ s) : K s₀ (s.tryShut b) := K.ite h.shutDown.endBarge h

theorem execDomainDisable_keeps {c q} (h : K s₀ s) : KR s₀ (execDomainDisable c q s) :=
  h.go (by
       split
       · exact h
       · exact K.ite h (by
              dsimp only
              split
              · exact h.checked fun _ h₁ =>
                    K.ite (K.ite h₁ h₁.portDown).endBarge (K.ite h₁.endBarge h₁.working.setDomain.tryShut)
              · exact h.tryShut
              · exact h))

theorem K.writeInterleave {k v} (h : K s₀ s) : K s₀ (s.writeInterleave k v) := K.foldl (fun _ _ h₁ => h₁.undefine) h.setReg

theorem execMemInterleaveWrite_keeps {k v rp} (h : K s₀ s) : KR s₀ (execMemInterleaveWrite k v rp s) :=
  h.go (h.viaPath fun _ h₁ => h₁.writeInterleave)

/-! ### Part -/

theorem K.partBuild {b} (h : K s₀ s) : K s₀ (s.partBuild b) :=
  K.foldl (fun _ _ h₁ => h₁.lockClass.changeMode)
    (K.foldl (fun _ _ h₁ => h₁.setFlds)
       (K.foldl (fun _ _ h₁ => h₁.clearReach.zeroReach.resetSolver)
          h.setFld).setReg).draw.update.setReg.setReg.setReg.setReg.setReg.setFlds.setReg

theorem K.partLive {p} (h : K s₀ s) : K s₀ (s.partLive p) := h.update.setReg.setFlds

theorem execPartCreate_keeps {c q} (h : K s₀ s) : KR s₀ (execPartCreate c q s) :=
  h.work fun _ _ h₁ =>
      h₁.checked fun _ h₂ => by dsimp only; split <;> exact h₂.partBuild.partLive.finish

theorem K.partStop {p} (h : K s₀ s) : K s₀ (s.partStop p) := K.foldl (fun _ _ h₁ => K.ite h₁.setFld.logCanal h₁) h.setFld

theorem K.partScrub {p} (h : K s₀ s) : K s₀ (s.partScrub p).2 :=
  (K.foldl (fun _ _ h₁ => h₁.setFlds)
     (K.foldl (fun _ _ h₁ => K.ite h₁.setFlds h₁)
        (K.foldl (fun _ _ h₁ => h₁.clearReach.zeroReach)
           (K.foldl (fun _ _ h₁ => h₁.zeroRange) h.revoke.abandonAll.freeSlots.update)))).setReg.setReg.setFld.restoreShares

theorem K.destroyOn {b} (h : K s₀ s) : K s₀ (s.destroyOn b) := K.ite h h.partScrub.endBarge

theorem execPartDestroy_keeps {c q} (h : K s₀ s) : KR s₀ (execPartDestroy c q s) :=
  h.go (by
       split
       · exact h
       · exact K.ite h (by
              split
              · exact h.checked fun _ h₁ => K.ite h₁ h₁.working.partStop.drainAll.destroyOn
              · exact h.destroyOn
              · exact h))

theorem K.partPend {p r} (h : K s₀ s) : K s₀ (s.partPend p r) := h.update.setFld

theorem K.writePartCtrl {p v} (h : K s₀ s) : K s₀ (s.writePartCtrl p v) :=
  K.ite h (
       have h₁ := K.ite h.setFld h
       have h₁ := K.ite h₁.setFld h₁.setFld
       K.ite h₁.partPend h₁)

theorem execPartCtrlWrite_keeps {p v rp} (h : K s₀ s) : KR s₀ (execPartCtrlWrite p v rp s) :=
  h.go (h.viaPath fun _ h₁ => h₁.writePartCtrl)

theorem K.writePartClaim {p v} (h : K s₀ s) : K s₀ (s.writePartClaim p v) := K.ite h (K.ite h h.partPend)

theorem execPartClaimWrite_keeps {p v rp} (h : K s₀ s) : KR s₀ (execPartClaimWrite p v rp s) :=
  h.go (h.viaPath fun _ h₁ => h₁.writePartClaim)

theorem K.partChange {p} (h : K s₀ s) : K s₀ (s.partChange p) :=
  K.ite h (
       have h₁ := K.foldl (fun _ _ h₁ => h₁.lockClass.changeMode) h.setFlds.update.setReg
       (K.ite h₁ h₁.yieldEnd).rebase)

theorem execPartChangeEffect_keeps {p} (h : K s₀ s) : KR s₀ (execPartChangeEffect p s) := h.go h.partChange

/-! ### Security -/

theorem K.authFailed {b r0} (h : K s₀ s) : K s₀ (s.authFailed b r0) := h.satAdd.finish
theorem K.takeNonce {b} (h : K s₀ s) : K s₀ (s.takeNonce b) := K.ite h.modSec h
theorem K.showKeys (h : K s₀ s) : K s₀ s.showKeys := h.setFlds

theorem K.keySet {b key} (h : K s₀ s) : K s₀ (s.keySet b key) :=
  K.showKeys (by split; exacts [h.modSec.setFld, h.modSec, h.modSec, h.modSec])

theorem K.keyRow {c q kind} (h : K s₀ s) : KR s₀ (s.keyRow c q kind) :=
  h.work fun _ _ h₁ =>
      K.ite h₁
        (h₁.checked fun _ h₂ =>
             by split; exacts [h₂.authFailed, h₂.takeNonce.checked fun _ h₃ => h₃.keySet.finish])

theorem execKeyLoadMk_keeps {c q} (h : K s₀ s) : KR s₀ (execKeyLoadMk c q s) := h.keyRow
theorem execKeyLoadCk_keeps {c q} (h : K s₀ s) : KR s₀ (execKeyLoadCk c q s) := h.keyRow
theorem execKeyClearCk_keeps {c q} (h : K s₀ s) : KR s₀ (execKeyClearCk c q s) := h.keyRow
theorem execKeyClearMk_keeps {c q} (h : K s₀ s) : KR s₀ (execKeyClearMk c q s) := h.keyRow

theorem execAttest_keeps {c q x} (h : K s₀ s) : KR s₀ (execAttest c q x s) :=
  h.work fun _ _ h₁ => h₁.checked fun _ h₂ => h₂.execContest.storeLocal.finish

theorem K.setStaged {k r} (h : K s₀ s) : K s₀ (s.setStaged k r) := h.setFlash

theorem K.stageImage {b} (h : K s₀ s) : K s₀ (s.stageImage b) := by
  dsimp only [State.stageImage]
  split
  · exact K.ite h.authFailed (K.ite h.finish (K.ite h.finish h.setStaged.finish))
  · exact h.authFailed

theorem execRoastStage_keeps {c q errs x} (h : K s₀ s) : KR s₀ (execRoastStage c q errs x s) :=
  h.work fun _ _ h₁ =>
      K.ite h₁ (
           have h₂ := K.ite h₁.setStaged h₁
           (K.ite h₂ h₂.execContest.meetAll).checked fun _ h₂ => h₂.stageImage)

theorem execRaiseFloor_keeps {c q} (h : K s₀ s) : KR s₀ (execRaiseFloor c q s) :=
  h.work fun _ _ h₁ => K.ite h₁ (h₁.checked fun _ h₂ => h₂.setFld.finish)

theorem execRoastSwitchLoad_keeps {c q} (h : K s₀ s) : KR s₀ (execRoastSwitchLoad c q s) :=
  h.work fun _ _ h₁ => K.ite h₁ (h₁.checked fun _ h₂ => h₂.setFlash.clearPdie.bootStandby.finish)

theorem execHandover_keeps {c q} (h : K s₀ s) : KR s₀ (execHandover c q s) :=
  h.work fun _ _ h₁ => K.ite h₁ (h₁.checked fun _ h₂ => h₂.handover.finish)

theorem K.writeLinkEnc {on} (h : K s₀ s) : K s₀ (s.writeLinkEnc on) := K.ite h h.setFld
theorem K.writeDebugLock {on} (h : K s₀ s) : K s₀ (s.writeDebugLock on) := K.ite h h.setFld
theorem K.dropStaged {k} (h : K s₀ s) : K s₀ (s.dropStaged k) := K.ite h.setStaged h

theorem K.writeApprovedReq {on} (h : K s₀ s) : K s₀ (s.writeApprovedReq on) :=
  K.ite h (by dsimp only; split; exacts [h.setFld.setFlds, h.setFld.setFld.dropStaged.dropStaged])

theorem K.writeSecCtrl {v} (h : K s₀ s) : K s₀ (s.writeSecCtrl v) := h.writeLinkEnc.writeDebugLock.writeApprovedReq
theorem execLinkEnc_keeps {on rp} (h : K s₀ s) : KR s₀ (execLinkEnc on rp s) := h.go (h.viaPath fun _ h₁ => h₁.writeLinkEnc)
theorem execDebugLock_keeps {rp} (h : K s₀ s) : KR s₀ (execDebugLock rp s) := h.go (h.viaPath fun _ h₁ => h₁.writeDebugLock)
theorem execApprovedReq_keeps {rp} (h : K s₀ s) : KR s₀ (execApprovedReq rp s) := h.go (h.viaPath fun _ h₁ => h₁.writeApprovedReq)
theorem K.tamper {cause} (h : K s₀ s) : K s₀ (s.tamper cause) := h.setFlds

theorem K.zeroise {cause} (h : K s₀ s) : K s₀ (s.zeroise cause) :=
  K.levelSeven (K.emptied (K.foldl (fun _ _ h₁ => K.ite h₁.linkLost h₁) h.tamper.satAdd))

theorem execLidMeshOpen_keeps (h : K s₀ s) : KR s₀ (execLidMeshOpen s) := h.go h.zeroise
theorem execZeroiseInput_keeps (h : K s₀ s) : KR s₀ (execZeroiseInput s) := h.go h.zeroise
theorem K.writeZeroise {v} (h : K s₀ s) : K s₀ (s.writeZeroise v) := K.ite h.modSec (K.ite h.zeroise h.modSec)
theorem execSecZeroise_keeps {v rp} (h : K s₀ s) : KR s₀ (execSecZeroise v rp s) := h.go (h.viaPath fun _ h₁ => h₁.writeZeroise)
theorem K.tamperOr {cause} (h : K s₀ s) : K s₀ (s.tamperOr cause) := K.ite h.zeroise h.tamper
theorem execAonRailExcursion_keeps (h : K s₀ s) : KR s₀ (execAonRailExcursion s) := h.go h.tamperOr
theorem execPdieCold_keeps (h : K s₀ s) : KR s₀ (execPdieCold s) := h.go h.tamperOr
theorem execSelftestFailure_keeps (h : K s₀ s) : KR s₀ (execSelftestFailure s) := h.go h.setFld

theorem K.spdm {k req ok effect} (h : K s₀ s) (heffect : ∀ v, K s₀ v → K s₀ (effect v)) : KR s₀ (s.spdm k req ok effect) :=
  h.go (K.ite h (K.ite h.emit (heffect _ h).emit))

theorem K.setStage {k v} (h : K s₀ s) : K s₀ (s.setStage k v) := h.modSec
theorem execGetVersion_keeps {k} (h : K s₀ s) : KR s₀ (execGetVersion k s) := h.spdm fun _ h₁ => h₁.setStage
theorem execGetCapabilities_keeps {k} (h : K s₀ s) : KR s₀ (execGetCapabilities k s) := h.spdm fun _ h₁ => h₁.setStage
theorem execNegotiateAlgorithms_keeps {k} (h : K s₀ s) : KR s₀ (execNegotiateAlgorithms k s) := h.spdm fun _ h₁ => h₁.setStage
theorem execGetDigests_keeps {k} (h : K s₀ s) : KR s₀ (execGetDigests k s) := h.spdm fun _ h₁ => h₁
theorem execGetCertificate_keeps {k slot} (h : K s₀ s) : KR s₀ (execGetCertificate k slot s) := h.spdm fun _ h₁ => h₁
theorem execChallenge_keeps {k} (h : K s₀ s) : KR s₀ (execChallenge k s) := h.spdm fun _ h₁ => h₁

theorem K.measurement {i} (h : K s₀ s) : K s₀ (s.measurement i) := by
  unfold State.measurement
  split
  · exact h.emit
  · exact h.emit.emit
  · exact h.emit
  · exact h.draw.emit

theorem execGetMeasurements_keeps {k index signed} (h : K s₀ s) : KR s₀ (execGetMeasurements k index signed s) :=
  h.spdm fun _ h₁ => h₁.measurement

theorem execKeyExchange_keeps {k id both} (h : K s₀ s) : KR s₀ (execKeyExchange k id both s) := h.spdm fun _ h₁ => h₁.modSec
theorem K.showSessions (h : K s₀ s) : K s₀ s.showSessions := h.setFld
theorem execFinish_keeps {k id ok} (h : K s₀ s) : KR s₀ (execFinish k id ok s) := h.spdm fun _ h₁ => h₁.modSec.showSessions
theorem execHeartbeat_keeps {k id} (h : K s₀ s) : KR s₀ (execHeartbeat k id s) := h.spdm fun _ h₁ => h₁
theorem execKeyUpdate_keeps {k id} (h : K s₀ s) : KR s₀ (execKeyUpdate k id s) := h.spdm fun _ h₁ => h₁
theorem execEndSession_keeps {k id} (h : K s₀ s) : KR s₀ (execEndSession k id s) := h.spdm fun _ h₁ => h₁.modSec.showSessions

/-! ### Boot -/

theorem K.stoppedAlert (h : K s₀ s) : K s₀ s.stoppedAlert := K.ite h.emit.emit h
theorem K.awaitRoast {k} (h : K s₀ s) : K s₀ (s.awaitRoast k) := h.setFld.setFld.setFld

theorem K.pdieIdle {k o} (h : K s₀ s) : K s₀ (s.pdieIdle k o) := by
  unfold State.pdieIdle
  split
  · exact h.bootStop
  · exact K.ite h h.awaitRoast
  · exact h

theorem K.mapUnit {x} (h : K s₀ s) : K s₀ (s.mapUnit x) := by
  unfold State.mapUnit
  split
  · exact h.unitFailed
  · extract_lets
    split
    · exact h.markChannel.assignSpare
    · exact h.markChannel
  · exact h.markPort
  · exact h.markReach
  · exact h.setFld.stackWorse
  · exact h.setFlds
  · exact h.markFdie
  · exact h

theorem K.formReach {r} (h : K s₀ s) : K s₀ (s.formReach r) :=
  K.ite h
    (K.ite h.markReach (
          have h₁ := K.ite h.setFlds.setFld h.setFlds
          K.ite h₁.setFlds h₁))

theorem K.readFuses {e} (h : K s₀ s) : K s₀ (s.readFuses e) := K.ite h h.update

theorem K.formMap {e} (h : K s₀ s) : K s₀ (s.formMap e) :=
  (K.foldl (fun _ _ h₁ => h₁.formReach)
     (K.foldl (fun _ _ h₁ => h₁.mapUnit)
        (K.foldl (fun _ _ h₁ => h₁.markChannel.setFld.countSpared)
           (K.foldl (fun _ _ h₁ => h₁.setFld) (K.foldl (fun _ _ h₁ => h₁.setFlds) h.readFuses.update))))).setReg.setReg

theorem K.bootCup {e r} (h : K s₀ s) : K s₀ (s.bootCup e r) :=
  K.ite h.draw.showCup.setFld.setFlds.setRate h.draw.showCup.setFld.setRate

theorem K.bootLogbook {e} (h : K s₀ s) : K s₀ (s.bootLogbook e) := K.ite h h.update

theorem K.closeOrphans {n} (h : K s₀ s) : K s₀ (s.closeOrphans n) := by
  induction n generalizing s with
  | zero => exact h
  | succ n ih =>
    unfold State.closeOrphans
    split
    · exact h
    · exact ih h.logEnter.update

theorem K.bootLog {e changed} (h : K s₀ s) : K s₀ (s.bootLog e changed) :=
  have h₁ := h.bootLogbook.logBoot.closeOrphans
  K.ite h₁.logRoast h₁

theorem K.pdieUp {k o} (h : K s₀ s) : K s₀ (s.pdieUp k o) := by
  unfold State.pdieUp
  split
  · exact h.setRunning.bootDone
  · exact h

theorem K.bootPorts (h : K s₀ s) : K s₀ s.bootPorts := K.foldl (fun _ _ h₁ => h₁.setFld) h

theorem K.bootPackage {e a o0 o1} (h : K s₀ s) : K s₀ (s.bootPackage e a o0 o1) :=
  have h₁ := (K.foldl (fun _ _ h₁ => h₁.bootCup) h.modSec.formMap).setFld.pdieUp.pdieUp.setFld.bootLog.setRole
  have h₁ := (K.foldl (fun _ _ h₁ => K.ite h₁.setFld h₁) (by
        split
        · exact h₁.beginSync
        · exact h₁.pdieIdle.noStandby
        · exact h₁.pdieIdle.noStandby)).setFld.setFld.showBucket.bootPorts.update
  K.ite h₁.setFld.setFld.writeApprovedReq h₁

theorem K.latchStraps {straps} (h : K s₀ s) : K s₀ (s.latchStraps straps) := K.foldl (fun _ _ h₁ => h₁.setFld) h.setReg
theorem K.readFlashes {e} (h : K s₀ s) : K s₀ (s.readFlashes e) := K.foldl (fun _ _ h₁ => K.ite h₁ h₁.setFlash) h

theorem K.boot {e} (h : K s₀ s) : K s₀ (s.boot e) :=
  K.ite h (
       have h₁ := K.ite h h.latchStraps.readFlashes
       K.ite h₁.bootPackage (K.ite h₁.bootPackage h₁.pdieIdle.pdieIdle.stoppedAlert))

theorem execBoot_keeps {e} (h : K s₀ s) : KR s₀ (execBoot e s) := h.go h.boot
theorem execAlwaysOnRailRise_keeps (h : K s₀ s) : KR s₀ (execAlwaysOnRailRise s) := K.next h.levelSeven.update
theorem K.tapRelease (h : K s₀ s) : K s₀ s.tapRelease := h.update

theorem execResetN_keeps {pulse opt} (h : K s₀ s) : KR s₀ (execResetN pulse opt s) :=
  h.go (by
       split
       · exact K.ite h (K.ite h.levelSeven.update.emit h.levelSeven.update)
       · exact K.ite (K.ite h.tapRelease.setFld h.tapRelease) (K.ite h h.levelSeven))

theorem K.absorb (h : K s₀ s) : K s₀ s.absorb := h.setFld
theorem K.portReset {k source} (h : K s₀ s) : K s₀ (s.portReset k source) := h.resetHostPort.resetRecord
theorem K.perst {k f} (h : K s₀ s) : K s₀ (s.perst k f) := K.ite h.levelSeven (K.ite h.absorb (K.ite h.resetPdie h.portReset))
theorem execPerstAN_keeps (h : K s₀ s) : KR s₀ (execPerstAN s) := h.go h.perst
theorem execPerstBN_keeps (h : K s₀ s) : KR s₀ (execPerstBN s) := h.go h.perst
theorem execPcieHotReset_keeps {k} (h : K s₀ s) : KR s₀ (execPcieHotReset k s) := h.go (K.ite h.absorb h.portReset)
theorem execVfFlr_keeps {k p} (h : K s₀ s) : KR s₀ (execVfFlr k p s) := h.go (K.ite h h.setHost.faultCanals)

theorem K.resetUnit {v} (h : K s₀ s) : K s₀ (s.resetUnit v) := by
  dsimp only [State.resetUnit]
  split
  · exact h.resetCluster.resetRecord
  · exact h.resetReach.resetRecord
  · exact h.resetCdie.resetRecord
  · exact h.resetStack.resetRecord
  · exact h.resetFdie.resetRecord
  · exact h.resetPdie
  · exact h.levelSeven

theorem K.writeResetCtrl {v} (h : K s₀ s) : K s₀ (s.writeResetCtrl v) :=
  K.ite h (by split; exacts [h.setFlds, K.ite h.absorb h.resetUnit])

theorem execResetCtrl_keeps {v rp} (h : K s₀ s) : KR s₀ (execResetCtrl v rp s) := h.go (h.viaPath fun _ h₁ => h₁.writeResetCtrl)
theorem K.endRecovery {k} (h : K s₀ s) : K s₀ (s.endRecovery k) := h.setHost.setFld

theorem K.recovered {k r} (h : K s₀ s) : K s₀ (s.recovered k r) :=
  K.ite h.setFld.modSec h.setFld.modSec.startRoast.bootDone.beginSync.endRecovery

theorem K.recoveryGo {k n} (h : K s₀ s) : K s₀ (s.recoveryGo k n) := by
  unfold State.recoveryGo
  extract_lets t bad img
  have ht : K s₀ t := h.setFld
  refine K.ite ht (K.ite ht.setFld ?_)
  split
  · exact K.ite ht.recovered ht.setFld
  · exact ht.setFld

theorem execRecoveryGo_keeps {k bytes} (h : K s₀ s) : KR s₀ (execRecoveryGo k bytes s) := h.go h.recoveryGo

theorem execRecoveryTimeout_keeps {k} (h : K s₀ s) : KR s₀ (execRecoveryTimeout k s) :=
  h.go
    (K.ite h (
          have h₁ := h.setFld.endRecovery.bootStop.setFld
          K.ite h₁.stoppedAlert h₁.noStandby))

theorem execPcieRetrain_keeps {k link} (h : K s₀ s) : KR s₀ (execPcieRetrain k link s) :=
  h.go (K.ite h (by split; exacts [K.ite h h.setFld, K.ite h.setFlds h.setFlds.setFld]))

theorem execPcieCompletionError_keeps {c tally} (h : K s₀ s) : KR s₀ (execPcieCompletionError c tally s) :=
  h.go
    (K.ite h
       (K.ite h.canalFault (by dsimp only; split; exacts [h, h.setReg.canalFault.logEnter])))

theorem K.hostErr {k code offset} (h : K s₀ s) : K s₀ (s.hostErr k code offset) := h.satAdd.setFlds
theorem K.poisonLocal {p la n} (h : K s₀ s) : K s₀ (s.poisonLocal p la n) := K.foldl (fun _ _ h₁ => h₁.setPoison) h

theorem K.win4 {k p la w errs x} (h : K s₀ s) : K s₀ (s.win4 k p la w errs x) := by
  dsimp only [State.win4]
  split
  · exact
      have h₁ := h.wakeBasin.remoteContest
      have h₁ := h₁.meetAll.storeLocal
      K.ite h₁.poisonLocal h₁
  · exact
      have h₁ := h.wakeBasin.remoteContest
      have h₁ := h₁.meetAll
      K.ite h₁.hostErr.emit h₁.emit

theorem execWindow4Access_keeps {k w errs x} (h : K s₀ s) : KR s₀ (execWindow4Access k w errs x s) :=
  h.go
    (K.ite h (
          have h₁ := K.ite h.wakeFirst h
          K.ite (K.ite h₁ h₁.emit) (by split; exacts [h₁.win4, K.ite h₁.hostErr h₁.hostErr.emit])))

theorem K.clockOut {i} (h : K s₀ s) : K s₀ (s.clockOut i) := h.update

theorem K.slipAll (h : K s₀ s) : K s₀ s.slipAll :=
  K.foldl
    (fun _ _ h₁ =>
       K.ite h₁ (by dsimp only; split; exacts [h₁.countSat.slipYields, h₁.countSat])) h

theorem execRefclkLoss_keeps {k} (h : K s₀ s) : KR s₀ (execRefclkLoss k s) :=
  h.go
    (K.ite h (
          have h₁ := K.ite h.clockOut.lockLoss (K.ite h.clockOut.slipAll h.clockOut)
          K.ite h₁.absorb h₁.portReset))

theorem execSrefclkLoss_keeps {f} (h : K s₀ s) : KR s₀ (execSrefclkLoss f s) :=
  h.go (K.ite h (K.foldl (fun _ _ h₁ => K.ite h₁.linkLost h₁) h.clockOut))

theorem execAonClkLoss_keeps {k} (h : K s₀ s) : KR s₀ (execAonClkLoss k s) := h.go h.clockOut

/-! ### Canals -/

theorem K.canalWrite {c write} (h : K s₀ s) (hwrite : ∀ v, K s₀ v → K s₀ (write v)) : K s₀ (s.canalWrite c write) :=
  K.ite (hwrite _ h) h.setFld

theorem K.canalEnable {c} (h : K s₀ s) : K s₀ (s.canalEnable c) :=
  have h₁ := h.setReg.setReg.setReg.setReg.setFlds.update.pruneDone.setFld.logCanal
  K.ite h₁.canalFault h₁

theorem K.writeCanalCtrl {c v window0} (h : K s₀ s) : K s₀ (s.writeCanalCtrl c v window0) :=
  h.canalWrite fun _ h₁ =>
      have h₂ := K.ite h₁ (K.ite h₁.setFld h₁.setReg)
      K.ite h₂.canalEnable (K.ite h₂.setFld.logCanal h₂)

theorem execCanalEnable_keeps {c cfg rp} (h : K s₀ s) : KR s₀ (execCanalEnable c cfg rp s) :=
  h.go (h.viaPath fun _ h₁ => h₁.writeCanalCtrl)

theorem execCanalDisable_keeps {c cfg rp} (h : K s₀ s) : KR s₀ (execCanalDisable c cfg rp s) :=
  h.go (h.viaPath fun _ h₁ => h₁.writeCanalCtrl)

theorem K.writeDoorbell {c v} (h : K s₀ s) : K s₀ (s.writeDoorbell c v) :=
  h.canalWrite fun _ h₁ => K.ite h₁.setFld (K.ite h₁.canalFault (K.ite h₁.setReg.wakeUp h₁.setReg))

theorem execCanalDoorbell_keeps {c v rp} (h : K s₀ s) : KR s₀ (execCanalDoorbell c v rp s) :=
  h.go (h.viaPath fun _ h₁ => h₁.writeDoorbell)

theorem K.writeTallyHead {c v} (h : K s₀ s) : K s₀ (s.writeTallyHead c v) :=
  h.canalWrite fun _ h₁ => K.ite h₁.setReg h₁.setFld

theorem execCanalTallyHead_keeps {c v rp} (h : K s₀ s) : KR s₀ (execCanalTallyHead c v rp s) :=
  h.go (h.viaPath fun _ h₁ => h₁.writeTallyHead)

theorem K.writeCanalHead {c v} (h : K s₀ s) : K s₀ (s.writeCanalHead c v) := h.canalWrite fun _ h₁ => K.ite h₁ h₁.setReg

theorem K.writeE4Ctrl {c v} (h : K s₀ s) : K s₀ (s.writeE4Ctrl c v) :=
  h.canalWrite fun _ h₁ => K.ite h₁.setFld.setFld h₁.setFld

theorem K.acceptBarge {c bytes packet batch} (h : K s₀ s) : K s₀ (s.acceptBarge c bytes packet batch) := by
  dsimp only [State.acceptBarge]
  split
  · exact h.logEnter.setReg.update.finish
  · exact h.logEnter.setReg.update.settle

theorem K.fetchSlot {c size ring k} (h : K s₀ s) (hk : ∀ x, K s₀ (k x)) : K s₀ (s.fetchSlot c size ring k) := by
  refine K.ite ?_ (K.ite (hk _) h.canalFault)
  split
  · exact K.ite h.canalFault (hk _)
  · exact h.canalFault

theorem execBargeAccept_keeps {c ring} (h : K s₀ s) : KR s₀ (execBargeAccept c ring s) :=
  h.go (K.ite (h.fetchSlot fun _ => h.acceptBarge.wakeUp) h)

theorem execE4Packet_keeps {c ring} (h : K s₀ s) : KR s₀ (execE4Packet c ring s) :=
  h.go (K.ite (h.fetchSlot fun _ => h.update.acceptBarge.wakeUp) h)

theorem execE4BatchWait_keeps {c} (h : K s₀ s) : KR s₀ (execE4BatchWait c s) := h.go h.update

/-! ### Cargo -/

theorem execCargoLoad_keeps {c q errs x} (h : K s₀ s) : KR s₀ (execCargoLoad c q errs x s) :=
  h.work fun _ _ h₁ =>
      K.ite h₁ (h₁.checked fun _ h₂ => h₂.execContest.useRange.meetAll.checked fun _ h₃ => h₃.setCargoSlot.finish)

theorem K.placeCargo {b x act gate} (h : K s₀ s) : K s₀ (s.placeCargo b x act gate) := by
  unfold State.placeCargo
  exact (K.foldl (fun _ _ h₁ => h₁.placeIn.setCl) h).setCargoSlot.working

theorem execCargoRun_keeps {c q} (h : K s₀ s) : KR s₀ (execCargoRun c q s) :=
  h.work fun _ _ h₁ => h₁.checked fun _ h₂ => by split; exacts [h₂, h₂.placeCargo.finishRun]

theorem K.release {b w g} (h : K s₀ s) : K s₀ (s.release b w g) :=
  K.ite h.logStop.disarm.finish (K.ite h.setBarge (K.foldl (fun _ _ h₁ => h₁.modCl) h.unwatch.setBarge).finishRun)

theorem K.readGate {c q ecc} (h : K s₀ s) : K s₀ (s.readGate c q ecc) := by
  unfold State.readGate
  split
  · exact h
  · split
    · exact h
    · split
      · exact h
      · exact K.ite h (K.ite h.release (K.ite h.stall.meetEcc.disarm.finish (K.ite h.stall.meetEcc.release h.stall.meetEcc)))

theorem execCargoArm_keeps {c q ecc} (h : K s₀ s) : KR s₀ (execCargoArm c q ecc s) :=
  h.work fun _ _ h₁ =>
      h₁.checked fun _ h₂ => by split; exacts [h₂.takeWatch.placeCargo.readGate, h₂]

theorem execLockGateRelease_keeps {c q ecc} (h : K s₀ s) : KR s₀ (execLockGateRelease c q ecc s) := h.go (K.ite h.readGate h)
theorem execLockGatePoll_keeps {c q ecc} (h : K s₀ s) : KR s₀ (execLockGatePoll c q ecc s) := h.go (K.ite h.readGate h)

theorem execCargoAbort_keeps {c q} (h : K s₀ s) : KR s₀ (execCargoAbort c q s) := by
  refine h.work fun _ _ h₁ => h₁.checked fun _ h₂ => ?_
  extract_lets
  split
  · exact h₂.finish
  · refine K.ite h₂.finish (K.ite h₂ ?_)
    extract_lets u
    have h₃ : K s₀ u := h₂.working
    split
    · exact h₃.logStop.finish
    · exact h₃
    · exact h₃.stopNow

theorem execCargoFree_keeps {c q} (h : K s₀ s) : KR s₀ (execCargoFree c q s) :=
  h.work fun _ _ h₁ => h₁.checked fun _ h₂ => h₂.setCargoSlot.finish

theorem K.clearSeen {r} (h : K s₀ s) : K s₀ (s.clearSeen r) := K.foldl (fun _ _ h₁ => h₁.modCl) h

theorem K.startBarge {b} (h : K s₀ s) : K s₀ (s.startBarge b) := by
  dsimp only [State.startBarge]
  split
  · exact h.logEnter
  · exact
      have h₁ := K.ite (K.foldl (fun _ _ h₁ => K.ite h₁.setReg.setReg.setReg.setReg h₁.setReg.setReg) h.logEnter) h.logEnter
      (K.ite (K.foldl (fun _ _ h₁ => h₁.firstIssue) h₁) h₁).commitBegins.setBarge

theorem K.tryStart {b} (h : K s₀ s) : K s₀ (s.tryStart b) :=
  K.ite h
    (K.ite h.logStop.finish
       (K.ite h
          (K.ite h.finish (by split; exacts [h.finish, K.ite h.setBarge (K.ite h.startBarge h.setBarge.passYields)]))))

theorem execBargeStart_keeps {c q} (h : K s₀ s) : KR s₀ (execBargeStart c q s) := h.go (by split; exacts [h.tryStart, h])

/-! ### Vector -/

theorem K.vrun {P rd wr f at_} (h : K s₀ s) (h₁ : K s₀ t) : K s₀ (s.vrun t P rd wr f at_) :=
  K.ite h (by split; exacts [h₁.regPoison, h₁.modCl])

theorem K.vecConfig {P w} (h : K s₀ s) : K s₀ (s.vecConfig P w) := h.trap
theorem execSetvl_keeps {p env} (h : K s₀ s) : KR s₀ (execSetvl p env s) := h.instr fun _ _ h₁ => h₁.modCl
theorem execSetvli_keeps {p env} (h : K s₀ s) : KR s₀ (execSetvli p env s) := h.instr fun _ _ h₁ => h₁.modCl
theorem execSetvlt_keeps {p env} (h : K s₀ s) : KR s₀ (execSetvlt p env s) := h.instr fun _ _ h₁ => K.ite h₁.vecConfig h₁.modCl
theorem execVectorIntegerOp_keeps {p env} (h : K s₀ s) : KR s₀ (execVectorIntegerOp p env s) := h.instr fun _ _ h₁ => h.vrun h₁

theorem execVectorFpOp_keeps {p env} (h : K s₀ s) : KR s₀ (execVectorFpOp p env s) :=
  h.instr fun _ _ h₁ => by dsimp only; split; exacts [h₁.vecConfig, h.vrun h₁]

theorem execVectorCompare_keeps {p env} (h : K s₀ s) : KR s₀ (execVectorCompare p env s) :=
  h.instr fun _ _ h₁ => K.ite (h.vrun h₁) (by split; exacts [h₁.vecConfig, h.vrun h₁])

theorem execVectorSelectMove_keeps {p env} (h : K s₀ s) : KR s₀ (execVectorSelectMove p env s) :=
  h.instr fun _ _ h₁ => K.ite (h.vrun h₁) (K.ite (h.vrun h₁) (h.vrun h₁))

theorem execVectorReduction_keeps {p env} (h : K s₀ s) : KR s₀ (execVectorReduction p env s) :=
  h.instr fun _ _ h₁ =>
      K.ite (h.vrun h₁) (K.ite (h.vrun h₁) (by split; exacts [h₁.vecConfig, h.vrun h₁]))

theorem execVectorScan_keeps {p env} (h : K s₀ s) : KR s₀ (execVectorScan p env s) :=
  h.instr fun _ _ h₁ => K.ite (h.vrun h₁) (by split; exacts [h₁.vecConfig, h.vrun h₁])

theorem execVectorConversion_keeps {p env} (h : K s₀ s) : KR s₀ (execVectorConversion p env s) :=
  h.instr fun _ _ h₁ => K.ite h₁.vecConfig (h.vrun h₁)

theorem execVectorPermute_keeps {p env} (h : K s₀ s) : KR s₀ (execVectorPermute p env s) := h.instr fun _ _ h₁ => h.vrun h₁

/-! ### RegWrite -/

theorem K.writeFields {a v} (h : K s₀ s) : K s₀ (s.writeFields a v) := by
  unfold State.writeFields
  split
  · exact h.setReg
  · exact h

theorem K.writeAccessErr {v} (h : K s₀ s) : K s₀ (s.writeAccessErr v) := K.ite h.setFlds h

theorem K.writeLogIndex {view v} (h : K s₀ s) : K s₀ (s.writeLogIndex view v) := by
  unfold State.writeLogIndex
  split
  · exact h.setReg
  · exact h.update

theorem K.writeScrub {st v} (h : K s₀ s) : K s₀ (s.writeScrub st v) := K.ite h.setFld h.setFld.setFld
theorem K.writeRateMin {r v} (h : K s₀ s) : K s₀ (s.writeRateMin r v) := h.setFld
theorem K.writeTiming {r v} (h : K s₀ s) : K s₀ (s.writeTiming r v) := h.setPaceReq.setOrderReq
theorem K.writePeak {a} (h : K s₀ s) : K s₀ (s.writePeak a) := h.setReg
theorem K.writeNode {v} (h : K s₀ s) : K s₀ (s.writeNode v) := K.ite h.setFld h.writeFields
theorem K.writeTimers {v} (h : K s₀ s) : K s₀ (s.writeTimers v) := K.ite h h.writeFields
theorem K.writeRoute {v} (h : K s₀ s) : K s₀ (s.writeRoute v) := h.update
theorem K.writeMaster {on} (h : K s₀ s) : K s₀ (s.writeMaster on) := K.ite h (K.ite h.setReg.setFlds h.setFlds)
theorem K.writeRecovery {k v} (h : K s₀ s) : K s₀ (s.writeRecovery k v) := K.ite h.recoveryGo h.setFld

theorem K.writeCanal {c off v window0} (h : K s₀ s) : K s₀ (s.writeCanal c off v window0) := by
  unfold State.writeCanal
  split
  · exact h.writeCanalCtrl
  · exact h.writeCanalHead
  · exact h.writeDoorbell
  · exact h.writeTallyHead
  · exact h.writeE4Ctrl
  · exact h.canalWrite fun _ h₁ => h₁.writeFields

theorem K.writeOne {rp a v} (h : K s₀ s) : KO s₀ (s.writeOne rp a v) :=
  KO.ite (K.some h.writeAccessErr)
    (KO.ite (K.some h.writeResetCtrl)
       (KO.ite (K.some (K.ite h.wakeUp h))
          (KO.ite (K.some h.writeLogIndex)
             (KO.ite (K.some h.writeSecCtrl)
                (KO.ite (K.some h.writeZeroise)
                   (KO.ite (K.some h.writeNode)
                      (KO.ite (K.some h.writeTimers)
                         (KO.ite (K.some h.writeMaster)
                            (KO.ite (K.some h.writeRoute) (KO.ite (K.some h.writeRecovery) K.none))))))))))

theorem K.writeMany {rp a v} (h : K s₀ s) : KO s₀ (s.writeMany rp a v) := by
  have arr : ∀ {o : Option Nat} {f : Nat → State} {t}, o.map f = .some t → (∀ k, K s₀ (f k)) → K s₀ t :=
    fun e hf => by
      obtain ⟨k, -, rfl⟩ := Option.map_eq_some_iff.mp e
      exact hf k
  refine KO.ite (K.some h.writeCanal) fun t ht => ?_
  obtain ⟨o, ho, e⟩ := List.exists_of_findSome?_eq_some ht
  fin_cases ho
  · exact arr e fun _ => h.writePartCtrl
  · exact arr e fun _ => h.writePartClaim
  · exact arr e fun _ => h.writeInterleave
  · exact arr e fun _ => h.writeScrub
  · exact arr e fun _ => h.writeRateMin
  · exact arr e fun _ => h.writeTiming
  · exact arr e fun _ => h.writePeak
  · exact arr e fun _ => h.writePeak

theorem K.writeReg {rp a v} (h : K s₀ s) : K s₀ (s.writeReg rp a v) := by
  unfold State.writeReg
  split
  next ht => exact K.getO h.writeOne ht
  · cases hm : s.writeMany rp a v with
    | none => exact h.writeFields
    | some t => exact K.getO h.writeMany hm

theorem K.writeBuffer {k off bs} (h : K s₀ s) : K s₀ (s.writeBuffer k off bs) := K.ite h h.setHost

theorem K.writeAt {rp off size v} (h : K s₀ s) : K s₀ (s.writeAt rp off size v) :=
  K.ite h.writeBuffer
    (K.ite h (K.ite h (K.ite (K.ite h.wakeFor h).accessErr (K.ite h.accessErr (h.viaPath fun _ h₁ => h₁.writeReg)))))

theorem K.writeSpan {rp off bs} (h : K s₀ s) : K s₀ (s.writeSpan rp off bs) := K.foldl (fun _ _ h₁ => K.ite h₁ h₁.writeAt) h
theorem K.fnConfig {k fn write} (h : K s₀ s) : K s₀ (s.fnConfig k fn write) := K.ite h h.setHost
theorem K.sendPending {k fn} (h : K s₀ s) : K s₀ (s.sendPending k fn) := K.ite h (K.foldl (fun _ _ h₁ => h₁.emit) h.setHost)

theorem K.hostWriteAt {w} (h : K s₀ s) : K s₀ (s.hostWriteAt w) := by
  unfold State.hostWriteAt
  split
  · exact h.writeAt
  · exact h.writeSpan
  · exact h.writeBuffer
  · exact h.fnConfig
  · exact h.fnConfig.sendPending
  · exact h.fnConfig.sendPending
  · exact K.ite h h.setFld.setHost
  · exact h.fnConfig

theorem execRegisterWrite_keeps {w} (h : K s₀ s) : KR s₀ (execRegisterWrite w s) := h.go h.hostWriteAt

theorem execRouteDataWrite_keeps {v rp} (h : K s₀ s) : KR s₀ (execRouteDataWrite v rp s) :=
  h.go (h.viaPath fun _ h₁ => h₁.writeRoute)

theorem execFabricNodeWrite_keeps {v rp} (h : K s₀ s) : KR s₀ (execFabricNodeWrite v rp s) :=
  h.go (h.viaPath fun _ h₁ => h₁.writeNode)

theorem execFabricTimersWrite_keeps {v rp} (h : K s₀ s) : KR s₀ (execFabricTimersWrite v rp s) :=
  h.go (h.viaPath fun _ h₁ => h₁.writeTimers)

theorem execTimeMaster_keeps {on rp} (h : K s₀ s) : KR s₀ (execTimeMaster on rp s) := h.go (h.viaPath fun _ h₁ => h₁.writeMaster)

/-! ### Mgmt -/

theorem K.modMgmt {k f} (h : K s₀ s) : K s₀ (s.modMgmt k f) := h.setMgmt
theorem K.takeAddr {k addr} (h : K s₀ s) : K s₀ (s.takeAddr k addr) := h.modMgmt
theorem execEntdaa_keeps {k addr} (h : K s₀ s) : KR s₀ (execEntdaa k addr s) := h.go h.takeAddr
theorem execSetdasa_keeps {k addr} (h : K s₀ s) : KR s₀ (execSetdasa k addr s) := h.go h.takeAddr
theorem execRstdaa_keeps {k} (h : K s₀ s) : KR s₀ (execRstdaa k s) := h.go h.modMgmt
theorem execEnec_keeps {k} (h : K s₀ s) : KR s₀ (execEnec k s) := h.go h.modMgmt
theorem execDisec_keeps {k} (h : K s₀ s) : KR s₀ (execDisec k s) := h.go h.modMgmt
theorem K.emitFixed {k what n} (h : K s₀ s) : K s₀ (s.emitFixed k what n) := h.emit
theorem execGetpid_keeps {k} (h : K s₀ s) : KR s₀ (execGetpid k s) := h.go h.emitFixed
theorem execGetbcr_keeps {k} (h : K s₀ s) : KR s₀ (execGetbcr k s) := h.go h.emitFixed
theorem execGetdcr_keeps {k} (h : K s₀ s) : KR s₀ (execGetdcr k s) := h.go h.emitFixed
theorem K.emitFree {n} (h : K s₀ s) : K s₀ (s.emitFree n) := h.draw.emit
theorem execGetstatus_keeps {k} (h : K s₀ s) : KR s₀ (execGetstatus k s) := h.go h.emitFree
theorem execGetmwl_keeps {k} (h : K s₀ s) : KR s₀ (execGetmwl k s) := h.go h.emit
theorem execGetmrl_keeps {k} (h : K s₀ s) : KR s₀ (execGetmrl k s) := h.go h.emit
theorem execSetmwl_keeps {k n} (h : K s₀ s) : KR s₀ (execSetmwl k n s) := h.go h.modMgmt
theorem execSetmrl_keeps {k n} (h : K s₀ s) : KR s₀ (execSetmrl k n s) := h.go h.modMgmt
theorem K.rstact {k} (h : K s₀ s) : K s₀ (s.rstact k) := K.ite (K.ite h.absorb h.resetPdie) h.levelSeven
theorem execRstact_keeps {k} (h : K s₀ s) : KR s₀ (execRstact k s) := h.go h.rstact
theorem K.mgmtRead {k off} (h : K s₀ s) : K s₀ (s.mgmtRead k off) := K.ite h (K.ite h.emit (K.ite h.wakeFor h).emit)
theorem execRegRead_keeps {k off} (h : K s₀ s) : KR s₀ (execRegRead k off s) := h.go h.mgmtRead
theorem execRegWrite_keeps {k off v} (h : K s₀ s) : KR s₀ (execRegWrite k off v s) := h.go h.writeAt
theorem K.tapLoad {a1} (h : K s₀ s) : K s₀ (s.tapLoad a1) := K.ite h.update (K.ite (K.ite h.update.emit h.update) h.update)
theorem execBypass_keeps (h : K s₀ s) : KR s₀ (execBypass s) := h.go h.tapLoad
theorem execIdcode_keeps (h : K s₀ s) : KR s₀ (execIdcode s) := h.go h.tapLoad.emit
theorem execSamplePreload_keeps (h : K s₀ s) : KR s₀ (execSamplePreload s) := h.go h.tapLoad
theorem execExtest_keeps (h : K s₀ s) : KR s₀ (execExtest s) := h.go h.tapLoad
theorem execExtestPulse_keeps (h : K s₀ s) : KR s₀ (execExtestPulse s) := h.go h.tapLoad
theorem execExtestTrain_keeps (h : K s₀ s) : KR s₀ (execExtestTrain s) := h.go h.tapLoad
theorem execClamp_keeps (h : K s₀ s) : KR s₀ (execClamp s) := h.go h.tapLoad
theorem execHighz_keeps (h : K s₀ s) : KR s₀ (execHighz s) := h.go h.tapLoad
theorem execTapDebugInstruction_keeps (h : K s₀ s) : KR s₀ (execTapDebugInstruction s) := h.go (K.ite h.tapLoad.tamper h.tapLoad)
theorem execTrstN_keeps (h : K s₀ s) : KR s₀ (execTrstN s) := h.go h.update

/-! ### Links -/

theorem K.bounce {p code} (h : K s₀ s) : K s₀ (s.bounce p code) := K.ite h.emitPkt h
theorem K.forwardPkt {k p} (h : K s₀ s) : K s₀ (s.forwardPkt k p) := K.ite h.bounce (by split; exacts [h.putPkt, h.bounce])
theorem K.regReply {p op refused v} (h : K s₀ s) : K s₀ (s.regReply p op refused v) := h.sendMgmt

theorem K.regAct {p} (h : K s₀ s) : K s₀ (State.regAct p s) :=
  K.sendAck (by split; exacts [h.regReply, K.ite h.modFab.writeAt.regReply h.regReply, h])

theorem K.actOn {errs x p} (h : K s₀ s) : K s₀ (State.actOn errs x p s) :=
  K.ite h.landReq.answerReq (K.ite h.collAct (K.ite h.regAct h.jobAct))

theorem K.ackIn {p} (h : K s₀ s) : K s₀ (s.ackIn p) :=
  K.foldl (fun _ _ h₁ => h₁.settleReq) (K.foldl (fun _ _ h₁ => h₁.unsend) h)

theorem K.nackIn {p} (h : K s₀ s) : K s₀ (s.nackIn p) := by
  unfold State.nackIn
  split
  · exact h.unsend.settleReq
  · exact h

theorem K.loadDone {P q p} (h : K s₀ s) : K s₀ (s.loadDone P q p) := by
  unfold State.loadDone
  split
  · exact K.ite h (K.ite h.modCl (K.ite h.loadFailed (h.atBoundary h.modCl)))
  · exact h

theorem K.respIn {p} (h : K s₀ s) : K s₀ (s.respIn p) := by
  unfold State.respIn
  split
  · exact K.ite h (by split; exacts [h.unsend.loadDone, h.unsend])
  · exact h

theorem K.noticeIn {p errs x} (h : K s₀ s) : K s₀ (s.noticeIn p errs x) :=
  K.foldl
    (fun _ _ h₁ =>
       K.ite h₁ (by
            dsimp only
            split
            · exact h₁.setSeqIn.modFab.drainSeq fun _ _ h₂ => h₂.actOn
            · exact h₁.setSeqIn)) h.modFab

theorem K.accept {p errs x} (h : K s₀ s) : K s₀ (s.accept p errs x) :=
  K.ite (h.receiveSeq fun _ _ h₁ => h₁.actOn) (K.ite h.ackIn (K.ite h.nackIn (K.ite h.respIn (K.ite h.noticeIn h))))

theorem K.deliver {k p errs x} (h : K s₀ s) : K s₀ (s.deliver k p errs x) :=
  K.ite h.satAdd (K.ite h (K.ite h.forwardPkt (K.ite h h.accept)))

theorem K.arrive {k p kind errs x} (h : K s₀ s) : K s₀ (s.arrive k p kind errs x) := K.ite h.deliver h
theorem execRead8_keeps {k p errs x} (h : K s₀ s) : KR s₀ (execRead8 k p errs x s) := h.go h.arrive
theorem execWrite8_keeps {k p errs x} (h : K s₀ s) : KR s₀ (execWrite8 k p errs x s) := h.go h.arrive
theorem execFlag8_keeps {k p errs x} (h : K s₀ s) : KR s₀ (execFlag8 k p errs x s) := h.go h.arrive
theorem execReadLines_keeps {k p errs x} (h : K s₀ s) : KR s₀ (execReadLines k p errs x s) := h.go h.arrive
theorem execWriteLines_keeps {k p errs x} (h : K s₀ s) : KR s₀ (execWriteLines k p errs x s) := h.go h.arrive
theorem execAck_keeps {k p} (h : K s₀ s) : KR s₀ (execAck k p s) := h.go h.arrive
theorem execNack_keeps {k p} (h : K s₀ s) : KR s₀ (execNack k p s) := h.go h.arrive
theorem execReadResp_keeps {k p} (h : K s₀ s) : KR s₀ (execReadResp k p s) := h.go h.arrive
theorem execLinkResync_keeps {k p errs x} (h : K s₀ s) : KR s₀ (execLinkResync k p errs x s) := h.go h.arrive
theorem K.collRow {k p unit errs x} (h : K s₀ s) : KR s₀ (s.collRow k p unit errs x) := h.go h.arrive
theorem execCollData_keeps {k p errs x} (h : K s₀ s) : KR s₀ (execCollData k p errs x s) := h.collRow
theorem execCollReady_keeps {k p errs x} (h : K s₀ s) : KR s₀ (execCollReady k p errs x s) := h.collRow
theorem execCollEnd_keeps {k p errs x} (h : K s₀ s) : KR s₀ (execCollEnd k p errs x s) := h.collRow
theorem execCollAbort_keeps {k p errs x} (h : K s₀ s) : KR s₀ (execCollAbort k p errs x s) := h.collRow
theorem K.mgmtRow {k p unit} (h : K s₀ s) : KR s₀ (s.mgmtRow k p unit) := h.go h.arrive
theorem execJobLaunchPacket_keeps {k p} (h : K s₀ s) : KR s₀ (execJobLaunchPacket k p s) := h.mgmtRow
theorem execJobReport_keeps {k p} (h : K s₀ s) : KR s₀ (execJobReport k p s) := h.mgmtRow
theorem execJobAbortPacket_keeps {k p} (h : K s₀ s) : KR s₀ (execJobAbortPacket k p s) := h.mgmtRow
theorem execJobTeardownPacket_keeps {k p} (h : K s₀ s) : KR s₀ (execJobTeardownPacket k p s) := h.mgmtRow
theorem execRegPacket_keeps {k p} (h : K s₀ s) : KR s₀ (execRegPacket k p s) := h.mgmtRow
theorem execPacketForward_keeps {k p} (h : K s₀ s) : KR s₀ (execPacketForward k p s) := h.go h.arrive

theorem execRetxTimeout_keeps {node vc seq} (h : K s₀ s) : KR s₀ (execRetxTimeout node vc seq s) :=
  h.go (by
       split
       · exact h
       · exact K.ite h (by
              split
              · exact h.unsend.settleReq
              · exact K.emitPkt (by split; exacts [h.modFab.addNote, h.modFab])))

theorem execReplyTimeout_keeps {node vc seq} (h : K s₀ s) : KR s₀ (execReplyTimeout node vc seq s) :=
  h.go (by split; exacts [h, K.ite h h.abandonNode])

theorem execTimePacket_keeps {k master hops offset} (h : K s₀ s) : KR s₀ (execTimePacket k master hops offset s) :=
  h.go
    (K.ite h (by dsimp only; split; exacts [h.modFab, K.ite h.modFab h.modFab.setFlds.modFab]))

/-! ### Flits -/

theorem K.flitAck {k ack} (h : K s₀ s) : K s₀ (s.flitAck k ack) := h.setLink
theorem K.askReplay {k} (h : K s₀ s) : K s₀ (s.askReplay k) := h.satAdd.sendControl

theorem K.linkOut {k kind} (h : K s₀ s) : K s₀ (s.linkOut k kind) :=
  K.ite h (K.ite h.linkLost.errRecord.portFail h.linkLost.errRecord)

theorem K.replay {k ack} (h : K s₀ s) : K s₀ (s.replay k ack) :=
  have h₁ := K.foldl (fun _ _ h₁ => h₁.emit) h.flitAck.setLink
  K.ite h₁.linkOut h₁

theorem execReplayRequest_keeps {k ack} (h : K s₀ s) : KR s₀ (execReplayRequest k ack s) := h.go (K.ite h.replay h)
theorem K.linkNotice {k code} (h : K s₀ s) : K s₀ (s.linkNotice k code) := K.ite h (K.ite h.linkDown (K.ite h.linkDown h))
theorem execLinkNotice_keeps {k code} (h : K s₀ s) : KR s₀ (execLinkNotice k code s) := h.go h.linkNotice
theorem execLinkLoss_keeps {k replays} (h : K s₀ s) : KR s₀ (execLinkLoss k replays s) := h.go h.linkOut
theorem K.freeUnits {k vc n} (h : K s₀ s) : K s₀ (s.freeUnits k vc n) := h.setLink

theorem K.unpack {k errs x n bs} (h : K s₀ s) : K s₀ (s.unpack k errs x n bs) := by
  induction n generalizing s bs with
  | zero => exact h.setLink
  | succ n ih =>
    refine K.ite h.setLink (K.ite (ih h) (K.ite h.setLink ?_))
    dsimp only
    split
    · exact ih h.freeUnits.deliver
    · exact ih h.freeUnits.satAdd

theorem K.bodyIn {k first body errs x} (h : K s₀ s) : K s₀ (s.bodyIn k first body errs x) :=
  K.ite (K.ite h h.satAdd).unpack h.unpack

theorem K.codewords {k f} (h : K s₀ s) : K s₀ (s.codewords k f) :=
  (K.foldl (fun _ _ h₁ => K.ite h₁.satAdd h₁.satAdd) h).setLink

theorem K.flitIn {k f errs x} (h : K s₀ s) : K s₀ (s.flitIn k f errs x) :=
  K.ite h.codewords.askReplay (
       have h₁ := h.codewords.flitAck.setLink
       K.ite h₁.setLink.bodyIn (
            have h₁ := K.ite h₁.askReplay h₁
            K.ite h₁.replay (K.ite h₁.linkNotice h₁)))

theorem execFlitReceive_keeps {k f errs x} (h : K s₀ s) : KR s₀ (execFlitReceive k f errs x s) := h.go (K.ite h.flitIn h)

theorem K.setLanes {k failed kind} (h : K s₀ s) : K s₀ (s.setLanes k failed kind) := by
  dsimp only [State.setLanes]
  split
  · exact h.setLink.setFld.throttleColls
  · exact (K.ite h.setLink.linkLost h.setLink).portFail

theorem execLinkTraining_keeps {k} (h : K s₀ s) : KR s₀ (execLinkTraining k s) := h.go (K.ite h h.setFld.setLink)
theorem K.partnerLanes {k t} (h : K s₀ s) : K s₀ (s.partnerLanes k t) := K.ite h h.setLanes

theorem execLinkTrainingComplete_keeps {k t} (h : K s₀ s) : KR s₀ (execLinkTrainingComplete k t s) :=
  h.go (K.ite h (K.ite h.partnerLanes (K.ite h (K.ite h.setFlds.satAdd.setFld h.setFlds.setFld.setLink.partnerLanes))))

theorem execLaneFailure_keeps {k lane lock symbols} (h : K s₀ s) : KR s₀ (execLaneFailure k lane lock symbols s) :=
  h.go (K.ite h h.noteFault.errRecord.setLanes)

/-! ### Deadline -/

theorem K.askStop {b} (h : K s₀ s) : K s₀ (s.askStop b) := h.logStop.setBarge

theorem K.deadlineAfter {b} (h : K s₀ s) : K s₀ (s.deadlineAfter b) :=
  K.ite h.stopNow
    (K.ite (K.ite h.askStop h)
       (K.ite h.collDeadline
          (K.ite h.jobDeadline (by
                split
                · exact h.logStop.unwatch.finish
                · exact h.logStop.endBarge
                · exact K.ite h.logStop.setDomain.endBarge h
                · exact h))))

theorem execBargeDeadline_keeps {c q} (h : K s₀ s) : KR s₀ (execBargeDeadline c q s) :=
  h.go (by split; exacts [h, K.ite h (by split; exacts [h.logStop.finish, h, h.deadlineAfter])])

theorem K.collFlag {b status ecc x} (h : K s₀ s) : K s₀ (s.collFlag b status ecc x) :=
  K.ite h
    (h.asHeld fun _ h₁ =>
         by split; exacts [h₁, K.ite h₁.execContest.meetEcc h₁.execContest.meetEcc.store8])

theorem execBargeCompletion_keeps {c q fail ecc x} (h : K s₀ s) : KR s₀ (execBargeCompletion c q fail ecc x s) :=
  h.go (by
       split
       · exact h
       · split
         · exact h.collFlag.collBreaks.complete1.settle.heldLaunches
         · exact h)

/-! ### VectorMem -/

theorem K.vmem {P env w store k} (h : K s₀ s) (h₁ : K s₀ t) (hk : ∀ x0 v, K s₀ v → K s₀ (k x0 v)) : K s₀ (s.vmem t P env w
    store k) :=
  K.ite h₁.vecConfig
    (K.ite h (by
          split
          · exact h₁.regPoison
          · dsimp only
            split
            · exact h₁.modCl.trap
            · exact K.ite h (hk _ _ h₁.modCl.access)))

theorem K.vecPoisonStop {P i ea} (h : K s₀ s) : K s₀ (s.vecPoisonStop P i ea) := h.modCl.stopCluster

theorem K.vloadAccess {P env w pas} (h : K s₀ s) : K s₀ (s.vloadAccess P env w pas) := by
  dsimp only [State.vloadAccess]
  split
  · exact (K.modCl (by split; exacts [h, h.meetEcc])).vecPoisonStop
  · exact (K.modCl (by split; exacts [h, h.meetEcc])).modCl

theorem execVectorLoad_keeps {p env} (h : K s₀ s) : KR s₀ (execVectorLoad p env s) :=
  h.instr fun _ _ h₁ => h.vmem h₁ fun _ _ h₂ => h₂.vloadAccess

theorem K.vstoreEls {P env width l} (h : K s₀ s) : K s₀ (s.vstoreEls P env width l) := by
  induction l generalizing s with
  | nil => exact h
  | cons a rest ih => exact ih (K.ite h.markStale.store h)

theorem K.vstoreAccess {P env w pas} (h : K s₀ s) : K s₀ (s.vstoreAccess P env w pas) := by
  dsimp only [State.vstoreAccess]
  split
  · exact (K.vstoreEls (by split; exacts [h, h.mergeRead])).vecPoisonStop
  · exact (K.vstoreEls (by split; exacts [h, h.mergeRead])).modCl

theorem execVectorStore_keeps {p env} (h : K s₀ s) : KR s₀ (execVectorStore p env s) :=
  h.instr fun _ _ h₁ => h.vmem h₁ fun _ _ h₂ => h₂.vstoreAccess

theorem execVecPoison_keeps {p env} (h : K s₀ s) : KR s₀ (execVecPoison p env s) :=
  h.instr fun _ _ h₁ => h.vmem h₁ fun _ _ h₂ => K.ite h₂.vloadAccess h

/-! ### Matrix -/

theorem execMma_keeps {p env} (h : K s₀ s) : KR s₀ (execMma p env s) := by
  refine h.instr fun _ _ h₁ => ?_
  extract_lets c
  split
  split
  · exact h₁.trap
  · exact K.ite h h₁.setCl

theorem K.matPoisonStop {P epc at_} (h : K s₀ s) : K s₀ (s.matPoisonStop P epc at_) := h.stopCluster

theorem execMout_keeps {p env} (h : K s₀ s) : KR s₀ (execMout p env s) :=
  h.instr fun _ _ h₁ =>
      have h₂ := K.ite h₁.access.meetEcc h₁
      K.ite h
        (K.ite h₂.matPoisonStop (by dsimp only; split; exacts [h₂.trap, K.ite h (by split; exacts [h, h₂.setCl])]))

theorem K.matEnd {P m after} (h : K s₀ s) : K s₀ (s.matEnd P m after) := by
  unfold State.matEnd
  split
  · exact h.matPoisonStop
  · exact h.matFinish.modCl

theorem K.matEcc {P m e} (h : K s₀ s) : K s₀ (s.matEcc P m e) := by
  unfold State.matEcc
  split
  · exact h.meetEcc
  · exact h

theorem execMmaComplete_keeps {p deferred env} (h : K s₀ s) : KR s₀ (execMmaComplete p deferred env s) :=
  h.goDie (K.ite h (by split; exacts [h, h.issueAt.access.matEcc.matEnd]))

theorem execMoutComplete_keeps {p deferred env} (h : K s₀ s) : KR s₀ (execMoutComplete p deferred env s) :=
  h.goDie (K.ite h (by split; exacts [h, h.issueAt.access.matEcc.matEnd]))

theorem K.tileOp {P kind w} (h : K s₀ s) (h₁ : K s₀ t) : K s₀ (s.tileOp t P kind w) := K.ite h h₁.setCl
theorem execMzero_keeps {p env} (h : K s₀ s) : KR s₀ (execMzero p env s) := h.instr fun _ _ h₁ => h.tileOp h₁
theorem execMtrans_keeps {p env} (h : K s₀ s) : KR s₀ (execMtrans p env s) := h.instr fun _ _ h₁ => h.tileOp h₁
theorem execMdrain_keeps {p env} (h : K s₀ s) : KR s₀ (execMdrain p env s) := h.instr fun _ _ h₁ => K.ite h₁.modCl h

theorem execMatPoison_keeps {p env} (h : K s₀ s) : KR s₀ (execMatPoison p env s) :=
  h.goDie (by dsimp only; split; exacts [K.matPoisonStop (by split; exacts [h.issueAt.matEcc, h]), h])

/-! ### SolverBatch -/

theorem K.solveStore {p rs la bs} (h : K s₀ s) : K s₀ (s.solveStore p rs la bs) := h.storeLocalIf
theorem K.writePivots {j ev} (h : K s₀ s) : K s₀ (s.writePivots j ev) := K.ite h h.solveStore.solveStore

theorem K.pivotRegs {r num events reg least failed} (h : K s₀ s) : K s₀ (s.pivotRegs r num events reg least failed) := by
  dsimp only [State.pivotRegs]
  split
  · exact h.count.count.setReg
  · exact h.count.count.setReg.setReg

theorem K.spoilBasins {j} (h : K s₀ s) : K s₀ (s.spoilBasins j) := K.foldl (fun _ _ h₁ => h₁.undefine) h
theorem K.solveFlush {ls} (h : K s₀ s) : K s₀ (s.solveFlush ls) := K.foldl (fun _ _ h₁ => h₁.modCl) h
theorem K.solveUse {j rs} (h : K s₀ s) : K s₀ (s.solveUse j rs) := K.foldl (fun _ _ h₁ => K.ite h₁ h₁.useRange) h

theorem K.solveEnd {j e x} (h : K s₀ s) : K s₀ (s.solveEnd j e x) :=
  have h₁ := K.foldl (fun _ _ h₁ => K.ite h₁.count.count h₁) h.addNote.spoilBasins.solveFlush
  K.ite
    (
       have h₁ := K.foldl (fun _ _ h₁ => h₁.setFlds) h₁
       K.ite h₁.endBarge (
            have h₁ := K.ite h₁ h₁.solveStore.update
            K.ite h₁.draw.endBarge h₁.endBarge)) h₁.endBarge

theorem K.batchItem {b : BatchForm} {j e a i} (h : K s₀ a.st) : K s₀ (b.item j e a i).st := by
  have spoil : ∀ l : List (Nat × Nat), K s₀ (l.foldl (fun v r => v.storeFree j.part r.1 r.2) a.st) := fun _ =>
    K.foldl (fun _ _ h₁ => h₁.storeFree) h
  unfold BatchForm.item
  dsimp only
  split
  · split
    · exact (spoil _).solveStore.pivotRegs
    · exact h
  · split
    · exact (spoil _).solveStore
    · exact K.bind (K.foldl (fun _ _ h₁ => h₁.solveStore) (spoil _)).solveStore.count.pivotRegs fun h₁ => K.ite h₁.count h₁

theorem K.batchRun {b : BatchForm} {j e pivots} (h : K s₀ s) : K s₀ (b.run j e pivots s) := by
  have items : ∀ (u : State) l, K s₀ u → K s₀ (List.foldl (b.item j e) { st := u } l).st := fun _ _ h₁ =>
    K.foldlOf BatchAcc.st (fun _ _ h₂ => h₂.batchItem) h₁
  exact K.solveEnd (K.ite (items _ _ (K.ite h h.solveStore)).writePivots (items _ _ (K.ite h h.solveStore)))

/-! ### SolverSched -/

theorem K.setFront {p area x} (h : K s₀ s) : K s₀ (s.setFront p area x) := h.update
theorem K.keep {r f x} (h : K s₀ s) : K s₀ (SchedRun.keep r s f x) := h.setFront
theorem K.seal {r} (h : K s₀ s) : K s₀ (SchedRun.seal r s) := K.foldl (fun _ _ h₁ => h₁.setFront) h.storeTagged
theorem K.writeProgress {r idx} (h : K s₀ s) : K s₀ (SchedRun.writeProgress r s idx) := h.solveStore
theorem K.writeFactor {r state} (h : K s₀ s) : K s₀ (SchedRun.writeFactor r s state) := h.solveStore

theorem K.schedFwd {r : SchedRun} {f x fx} (h : K s₀ s) : K s₀ (r.fwd s f x fx).1.1 :=
  K.foldl (fun _ _ h₁ => K.foldl (fun _ _ h₂ => h₂.solveStore) h₁) h.setFront

theorem K.schedBwd {r : SchedRun} {f x fx} (h : K s₀ s) : K s₀ (r.bwd s f x fx).1.1 :=
  K.foldl (fun _ _ h₁ => K.foldl (fun _ _ h₂ => h₂.solveStore) h₁) h

theorem K.schedSolved {r : SchedRun} {x f op a o} (h : K s₀ o.1.1) : K s₀ (r.solved x f op a o).st := by
  unfold SchedRun.solved
  dsimp only
  split
  · exact h
  · dsimp only
    exact K.pivotRegs h

theorem K.schedStep {r : SchedRun} {lim a f op} (h : K s₀ a.st) : K s₀ (r.step lim a f op).st := by
  unfold SchedRun.step
  refine K.iteOf SchedSt.st h (K.iteOf SchedSt.st (K.iteOf SchedSt.st h h) (K.iteOf SchedSt.st h ?_))
  split
  · exact K.setFront (s := a.st) h
  · exact K.setFront (s := a.st) h
  · refine K.bind ?_ fun h₁ => K.iteOf SchedSt.st h₁ (K.iteOf SchedSt.st h₁ h₁)
    exact K.ite (K.ite h h.setFront).pivotRegs.count (K.ite h h.setFront).pivotRegs
  · exact K.schedSolved (K.schedFwd h)
  · exact K.schedSolved (K.schedBwd h)
  · exact h

theorem K.schedRun {j e} (h : K s₀ s) : K s₀ (s.schedRun j e) := by
  have steps : ∀ (r : SchedRun) lim op (l : List Nat) (a : SchedSt), K s₀ a.st →
      K s₀ (l.foldl (fun a f => r.step lim a f op) a).st := fun _ _ _ _ _ h₁ =>
    K.foldlOf SchedSt.st (fun _ _ h₂ => h₂.schedStep) h₁
  have terms : K s₀ (if j.asm then j.reaches.head?.elim s fun k => s.count (Reg.solverAsmTerms k) (s.asmDesc j).nterm
      else s) := by
    cases j.reaches.head? with
    | none => exact K.ite h h
    | some k => exact K.ite h.count h
  unfold State.schedRun
  refine K.ite h.writePivots.solveEnd ?_
  extract_lets memVals place arith lists lim prog zero fronts s1
  split
  next _ =>
    extract_lets r a0 a1 posted complete a1' solving b0 b1 a2 stopped t t' again t'' factored
    have h1 : K s₀ s1 := terms
    clear_value s1
    have sealed : K s₀ (r.seal (r.writeProgress (r.writeFactor s1 0) zero)) := h1.writeFactor.writeProgress.seal
    clear_value r
    have ha0 : K s₀ a0.st := by
      unfold a0
      split
      · exact h1
      · split
        · exact h1
        · split
          · exact sealed
          · exact h1
    clear_value a0
    have ha1 : K s₀ a1.st := K.iteOf SchedSt.st ha0
      (K.foldlOf SchedSt.st (fun _ _ h₁ => K.foldlOf SchedSt.st (fun _ _ h₂ => h₂.schedStep) h₁) ha0)
    clear_value a1
    have ha1' : K s₀ a1'.st := by
      unfold a1'
      split
      · exact ha1.writeFactor
      · exact ha1
    clear_value a1'
    have ha2 : K s₀ a2.st := by
      unfold a2
      split
      · exact ha1'
      · exact steps _ _ _ _ _ (steps _ _ _ _ _ (K.ite ha1'.solveStore ha1'))
    clear_value a2
    have ht : K s₀ t := K.ite ha2.writeProgress (K.ite ha2.writeProgress ha2)
    clear_value t
    exact (K.ite ht.storeFree ht).writePivots.seal.solveEnd

/-! ### SolverIter -/

theorem K.iterRun {j e} (h : K s₀ s) : K s₀ (s.iterRun j e) := by
  have norms : ∀ (u : State) (count norm : Nat), K s₀ u → K s₀ (j.reaches.foldl (fun v r =>
      (v.setReg (Reg.solverIterCount r) count).setReg (Reg.solverResid r) norm) u) := fun _ _ _ hu =>
    K.foldl (fun _ _ h₁ => h₁.setReg.setReg) hu
  have terms : K s₀ (if j.asm then j.reaches.head?.elim s fun k => s.count (Reg.solverAsmTerms k) (s.asmDesc j).nterm
      else s) := by
    cases j.reaches.head? with
    | none => exact K.ite h h
    | some k => exact K.ite h.count h
  unfold State.iterRun
  extract_lets p c num d work poisoned keeps record regs s1 stop
  split
  next xb bb _ =>
    extract_lets failed
    have hfail : ∀ (u : State) code count norm fx, K s₀ u → K s₀ (failed u code count norm fx) := fun _ _ _ _ _ hu =>
      K.solveEnd (K.ite (norms _ _ _ hu.solveStore) (norms _ _ _ hu.solveStore).storeFree)
    refine K.ite (hfail _ _ _ _ _ h) (K.ite (hfail _ _ _ _ _ h) ?_)
    extract_lets
    split
    next all _ _ =>
      extract_lets
      refine K.ite (hfail _ _ _ _ _ terms) ?_
      split
      next st0 fx _ =>
        split
        · exact hfail _ _ _ _ _ terms
        next _ t0 passed =>
          extract_lets run
          split
          next o fx _ =>
            exact K.ite (hfail _ _ _ _ _ terms) (K.solveEnd (K.update (norms _ _ _ terms.solveStore.solveStore).storeTagged))

/-! ### Solver -/

theorem K.asmOne {j : SolveJob} {o d ts a i} (h : K s₀ a.1) : K s₀ (j.asmOne o d ts a i).1 := by
  unfold SolveJob.asmOne
  exact K.iteOf Prod.fst h (K.iteOf Prod.fst (K.storeFree (s := a.1) h) h.count.count.solveStore)

theorem K.asmRun {j e} (h : K s₀ s) : K s₀ (s.asmRun j e) := by
  unfold State.asmRun
  exact K.solveEnd (K.foldl (fun _ _ h₁ => h₁.storeFree) (K.foldlOf Prod.fst (fun _ _ h₁ => h₁.asmOne) h))

theorem K.solveRun {j e} (h : K s₀ s) : K s₀ (s.solveRun j e) := by
  unfold State.solveRun
  split
  · exact h.batchRun
  · exact h.schedRun
  · exact h.iterRun
  · exact h.asmRun
  · exact h.batchRun

theorem K.solveBegin {j rs} (h : K s₀ s) : K s₀ (s.solveBegin j rs) := (K.foldl (fun _ _ h₁ => h₁.clearSeen) h).solveUse

theorem K.solver {c q op e} (h : K s₀ s) : KR s₀ (s.solver c q op e) := by
  refine h.work fun _ _ h₁ => ?_
  extract_lets j t
  split
  · exact h₁.finish
  · split
    · exact h₁.meetAll.finish
    · exact h₁.meetAll.solveBegin.solveRun

theorem execSolveBatch_keeps {c q e} (h : K s₀ s) : KR s₀ (execSolveBatch c q e s) := h.solver
theorem execSolveSched_keeps {c q e} (h : K s₀ s) : KR s₀ (execSolveSched c q e s) := h.solver
theorem execSolveIter_keeps {c q e} (h : K s₀ s) : KR s₀ (execSolveIter c q e s) := h.solver
theorem execAssemble_keeps {c q e} (h : K s₀ s) : KR s₀ (execAssemble c q e s) := h.solver
theorem execQpBatch_keeps {c q e} (h : K s₀ s) : KR s₀ (execQpBatch c q e s) := h.solver

theorem execSolveResume_keeps {c q e} (h : K s₀ s) : KR s₀ (execSolveResume c q e s) :=
  h.work fun _ _ h₁ =>
      K.ite h₁ (by
           split
           · exact h₁.finish
           · dsimp only
             split
             · exact h₁.meetAll.finish
             · exact h₁.meetAll.solveBegin.solveStore.solveRun)

/-! ### Every command and every step -/

/-- Whatever a command's next state is, it has the queue of the state before, and canonical memory where that had it. -/
theorem exec_keeps (c : Instr) (s : State) : KR s (exec c s) := by
  have h := K.refl s
  cases c with
  | integerRegOp => exact execIntegerRegOp_keeps h
  | immediateOp => exact execImmediateOp_keeps h
  | integerLoad => exact execIntegerLoad_keeps h
  | integerStore => exact execIntegerStore_keeps h
  | fpLoad => exact execFpLoad_keeps h
  | fpStore => exact execFpStore_keeps h
  | branch => exact execBranch_keeps h
  | jal => exact execJal_keeps h
  | jalr => exact execJalr_keeps h
  | fpArithmetic => exact execFpArithmetic_keeps h
  | fusedMultiplyAdd => exact execFusedMultiplyAdd_keeps h
  | conversionMove => exact execConversionMove_keeps h
  | atomic => exact execAtomic_keeps h
  | stFlag => exact execStFlag_keeps h
  | stFlagAdd => exact execStFlagAdd_keeps h
  | waitFlag => exact execWaitFlag_keeps h
  | waitFlagComplete => exact execWaitFlagComplete_keeps h
  | waitFlagPoll => exact execWaitFlagPoll_keeps h
  | waitFlagTimeout => exact execWaitFlagTimeout_keeps h
  | nmPost => exact execNmPost_keeps h
  | ldR => exact execLdR_keeps h
  | stR => exact execStR_keeps h
  | stRflag => exact execStRflag_keeps h
  | fenceInstruction => exact execFenceInstruction_keeps h
  | fenceR => exact execFenceR_keeps h
  | fenceNm => exact execFenceNm_keeps h
  | fenceI => exact execFenceI_keeps h
  | fenceWaitEnd => exact execFenceWaitEnd_keeps h
  | cwRd => exact execCwRd_keeps h
  | cwWr => exact execCwWr_keeps h
  | cwSet => exact execCwSet_keeps h
  | cwClr => exact execCwClr_keeps h
  | halt => exact execHalt_keeps h
  | haltWaitEnd => exact execHaltWaitEnd_keeps h
  | brk => exact execBrk_keeps h
  | eret => exact execEret_keeps h
  | setvl => exact execSetvl_keeps h
  | setvli => exact execSetvli_keeps h
  | setvlt => exact execSetvlt_keeps h
  | vectorLoad => exact execVectorLoad_keeps h
  | vectorStore => exact execVectorStore_keeps h
  | vectorIntegerOp => exact execVectorIntegerOp_keeps h
  | vectorFpOp => exact execVectorFpOp_keeps h
  | vectorCompare => exact execVectorCompare_keeps h
  | vectorSelectMove => exact execVectorSelectMove_keeps h
  | vectorReduction => exact execVectorReduction_keeps h
  | vectorScan => exact execVectorScan_keeps h
  | vectorConversion => exact execVectorConversion_keeps h
  | vectorPermute => exact execVectorPermute_keeps h
  | vecPoison => exact execVecPoison_keeps h
  | mma => exact execMma_keeps h
  | mmaComplete => exact execMmaComplete_keeps h
  | mout => exact execMout_keeps h
  | moutComplete => exact execMoutComplete_keeps h
  | mzero => exact execMzero_keeps h
  | mtrans => exact execMtrans_keeps h
  | mdrain => exact execMdrain_keeps h
  | matPoison => exact execMatPoison_keeps h
  | canalEnable => exact execCanalEnable_keeps h
  | canalDisable => exact execCanalDisable_keeps h
  | canalDoorbell => exact execCanalDoorbell_keeps h
  | canalTallyHead => exact execCanalTallyHead_keeps h
  | bargeAccept => exact execBargeAccept_keeps h
  | bargeStart => exact execBargeStart_keeps h
  | bargeDeadline => exact execBargeDeadline_keeps h
  | e4Packet => exact execE4Packet_keeps h
  | e4BatchWait => exact execE4BatchWait_keeps h
  | nop => exact execNop_keeps h
  | fence => exact execFence_keeps h
  | signalStore => exact execSignalStore_keeps h
  | signalAdd => exact execSignalAdd_keeps h
  | wait => exact execWait_keeps h
  | waitConditionMet => exact execWaitConditionMet_keeps h
  | waitPoll => exact execWaitPoll_keeps h
  | logQuery => exact execLogQuery_keeps h
  | canalDrain => exact execCanalDrain_keeps h
  | memCopy => exact execMemCopy_keeps h
  | memFill => exact execMemFill_keeps h
  | memScrub => exact execMemScrub_keeps h
  | mapSet => exact execMapSet_keeps h
  | mapClear => exact execMapClear_keeps h
  | mapClearComplete => exact execMapClearComplete_keeps h
  | cargoLoad => exact execCargoLoad_keeps h
  | cargoRun => exact execCargoRun_keeps h
  | cargoArm => exact execCargoArm_keeps h
  | lockGateRelease => exact execLockGateRelease_keeps h
  | lockGatePoll => exact execLockGatePoll_keeps h
  | cargoAbort => exact execCargoAbort_keeps h
  | cargoFree => exact execCargoFree_keeps h
  | solveBatch => exact execSolveBatch_keeps h
  | solveSched => exact execSolveSched_keeps h
  | solveIter => exact execSolveIter_keeps h
  | solveResume => exact execSolveResume_keeps h
  | assemble => exact execAssemble_keeps h
  | qpBatch => exact execQpBatch_keeps h
  | axpby => exact execAxpby_keeps h
  | mul => exact execMul_keeps h
  | reduce => exact execReduce_keeps h
  | scan => exact execScan_keeps h
  | gather => exact execGather_keeps h
  | scatter => exact execScatter_keeps h
  | scatterAdd => exact execScatterAdd_keeps h
  | bridgeNarrow => exact execBridgeNarrow_keeps h
  | bridgeWiden => exact execBridgeWiden_keeps h
  | dualOrderWrite => exact execDualOrderWrite_keeps h
  | dirtyArm => exact execDirtyArm_keeps h
  | dirtyCollect => exact execDirtyCollect_keeps h
  | dirtyDisarm => exact execDirtyDisarm_keeps h
  | hash => exact execHash_keeps h
  | nmOpComplete => exact execNmOpComplete_keeps h
  | landingSet => exact execLandingSet_keeps h
  | landingRevokeIndex => exact execLandingRevokeIndex_keeps h
  | landingRevokeJob => exact execLandingRevokeJob_keeps h
  | landingRevokeJobId => exact execLandingRevokeJobId_keeps h
  | collAlltoall => exact execCollAlltoall_keeps h
  | collAlltoallv => exact execCollAlltoallv_keeps h
  | collAllreduceSmall => exact execCollAllreduceSmall_keeps h
  | collBcast => exact execCollBcast_keeps h
  | commForm => exact execCommForm_keeps h
  | commShrink => exact execCommShrink_keeps h
  | collStallTimeout => exact execCollStallTimeout_keeps h
  | jobLaunchRoot => exact execJobLaunchRoot_keeps h
  | jobLaunchJoin => exact execJobLaunchJoin_keeps h
  | jobTeardownRoot => exact execJobTeardownRoot_keeps h
  | jobTeardownLocal => exact execJobTeardownLocal_keeps h
  | ckptBegin => exact execCkptBegin_keeps h
  | ckptDiff => exact execCkptDiff_keeps h
  | ckptCommit => exact execCkptCommit_keeps h
  | ckptAbandon => exact execCkptAbandon_keeps h
  | ckptSurvey => exact execCkptSurvey_keeps h
  | ckptLoad => exact execCkptLoad_keeps h
  | weirSet => exact execWeirSet_keeps h
  | sleep => exact execSleep_keeps h
  | domainEnable => exact execDomainEnable_keeps h
  | domainDisable => exact execDomainDisable_keeps h
  | partCreate => exact execPartCreate_keeps h
  | partDestroy => exact execPartDestroy_keeps h
  | keyLoadMk => exact execKeyLoadMk_keeps h
  | keyLoadCk => exact execKeyLoadCk_keeps h
  | keyClearCk => exact execKeyClearCk_keeps h
  | keyClearMk => exact execKeyClearMk_keeps h
  | attest => exact execAttest_keeps h
  | roastStage => exact execRoastStage_keeps h
  | raiseFloor => exact execRaiseFloor_keeps h
  | roastSwitchLoad => exact execRoastSwitchLoad_keeps h
  | handover => exact execHandover_keeps h
  | diagCupping => exact execDiagCupping_keeps h
  | spareSubstitute => exact execSpareSubstitute_keeps h
  | errQuery => exact execErrQuery_keeps h
  | paceReq => exact execPaceReq_keeps h
  | orderReq => exact execOrderReq_keeps h
  | timingModeChange => exact execTimingModeChange_keeps h
  | hcRateUpdate => exact execHcRateUpdate_keeps h
  | pacingSlip => exact execPacingSlip_keeps h
  | pacingLockLoss => exact execPacingLockLoss_keeps h
  | pacingLockRegained => exact execPacingLockRegained_keeps h
  | partCtrlWrite => exact execPartCtrlWrite_keeps h
  | partClaimWrite => exact execPartClaimWrite_keeps h
  | partChangeEffect => exact execPartChangeEffect_keeps h
  | memInterleaveWrite => exact execMemInterleaveWrite_keeps h
  | weirTick => exact execWeirTick_keeps h
  | vmodeAdjust => exact execVmodeAdjust_keeps h
  | issueGuard => exact execIssueGuard_keeps h
  | idleDrop => exact execIdleDrop_keeps h
  | reachRetain => exact execReachRetain_keeps h
  | reachWake => exact execReachWake_keeps h
  | latencyCeiling => exact execLatencyCeiling_keeps h
  | thermalTrip => exact execThermalTrip_keeps h
  | dramOver110 => exact execDramOver110_keeps h
  | dramOver105 => exact execDramOver105_keeps h
  | cdieOver105 => exact execCdieOver105_keeps h
  | fpdieOver105 => exact execFpdieOver105_keeps h
  | tjTargetExceeded => exact execTjTargetExceeded_keeps h
  | thermalResponseEnd => exact execThermalResponseEnd_keeps h
  | refreshBandChange => exact execRefreshBandChange_keeps h
  | refresh => exact execRefresh_keeps h
  | refreshManagement => exact execRefreshManagement_keeps h
  | patrolScrub => exact execPatrolScrub_keeps h
  | selfRefreshScrubBurst => exact execSelfRefreshScrubBurst_keeps h
  | channelCopyComplete => exact execChannelCopyComplete_keeps h
  | residueMismatch => exact execResidueMismatch_keeps h
  | lockstepMismatch => exact execLockstepMismatch_keeps h
  | substitutionResume => exact execSubstitutionResume_keeps h
  | dieLinkLost => exact execDieLinkLost_keeps h
  | towpathBreak => exact execTowpathBreak_keeps h
  | heartbeatMiss => exact execHeartbeatMiss_keeps h
  | railFault => exact execRailFault_keeps h
  | vcoreUndervolt => exact execVcoreUndervolt_keeps h
  | boardRailOutOfRange => exact execBoardRailOutOfRange_keeps h
  | wakeEvent => exact execWakeEvent_keeps h
  | weirWake => exact execWeirWake_keeps h
  | flitReceive => exact execFlitReceive_keeps h
  | replayRequest => exact execReplayRequest_keeps h
  | linkNotice => exact execLinkNotice_keeps h
  | linkLoss => exact execLinkLoss_keeps h
  | linkTraining => exact execLinkTraining_keeps h
  | linkTrainingComplete => exact execLinkTrainingComplete_keeps h
  | laneFailure => exact execLaneFailure_keeps h
  | packetForward => exact execPacketForward_keeps h
  | read8 => exact execRead8_keeps h
  | write8 => exact execWrite8_keeps h
  | flag8 => exact execFlag8_keeps h
  | readLines => exact execReadLines_keeps h
  | writeLines => exact execWriteLines_keeps h
  | ack => exact execAck_keeps h
  | nack => exact execNack_keeps h
  | readResp => exact execReadResp_keeps h
  | retxTimeout => exact execRetxTimeout_keeps h
  | replyTimeout => exact execReplyTimeout_keeps h
  | linkResync => exact execLinkResync_keeps h
  | timePacket => exact execTimePacket_keeps h
  | collData => exact execCollData_keeps h
  | collReady => exact execCollReady_keeps h
  | collEnd => exact execCollEnd_keeps h
  | collAbort => exact execCollAbort_keeps h
  | jobLaunchPacket => exact execJobLaunchPacket_keeps h
  | jobReport => exact execJobReport_keeps h
  | jobAbortPacket => exact execJobAbortPacket_keeps h
  | jobTeardownPacket => exact execJobTeardownPacket_keeps h
  | regPacket => exact execRegPacket_keeps h
  | routeDataWrite => exact execRouteDataWrite_keeps h
  | fabricNodeWrite => exact execFabricNodeWrite_keeps h
  | fabricTimersWrite => exact execFabricTimersWrite_keeps h
  | timeMaster => exact execTimeMaster_keeps h
  | linkEnc => exact execLinkEnc_keeps h
  | debugLock => exact execDebugLock_keeps h
  | approvedReq => exact execApprovedReq_keeps h
  | secZeroise => exact execSecZeroise_keeps h
  | lidMeshOpen => exact execLidMeshOpen_keeps h
  | zeroiseInput => exact execZeroiseInput_keeps h
  | aonRailExcursion => exact execAonRailExcursion_keeps h
  | pdieCold => exact execPdieCold_keeps h
  | selftestFailure => exact execSelftestFailure_keeps h
  | alwaysOnRailRise => exact execAlwaysOnRailRise_keeps h
  | resetN => exact execResetN_keeps h
  | boot => exact execBoot_keeps h
  | perstAN => exact execPerstAN_keeps h
  | perstBN => exact execPerstBN_keeps h
  | pcieHotReset => exact execPcieHotReset_keeps h
  | vfFlr => exact execVfFlr_keeps h
  | resetCtrl => exact execResetCtrl_keeps h
  | recoveryGo => exact execRecoveryGo_keeps h
  | recoveryTimeout => exact execRecoveryTimeout_keeps h
  | pcieRetrain => exact execPcieRetrain_keeps h
  | pcieCompletionError => exact execPcieCompletionError_keeps h
  | window4Access => exact execWindow4Access_keeps h
  | refclkLoss => exact execRefclkLoss_keeps h
  | srefclkLoss => exact execSrefclkLoss_keeps h
  | aonClkLoss => exact execAonClkLoss_keeps h
  | entdaa => exact execEntdaa_keeps h
  | setdasa => exact execSetdasa_keeps h
  | rstdaa => exact execRstdaa_keeps h
  | enec => exact execEnec_keeps h
  | disec => exact execDisec_keeps h
  | getpid => exact execGetpid_keeps h
  | getbcr => exact execGetbcr_keeps h
  | getdcr => exact execGetdcr_keeps h
  | getstatus k => exact execGetstatus_keeps (k := k) h
  | getmwl => exact execGetmwl_keeps h
  | getmrl => exact execGetmrl_keeps h
  | setmwl => exact execSetmwl_keeps h
  | setmrl => exact execSetmrl_keeps h
  | rstact => exact execRstact_keeps h
  | regRead => exact execRegRead_keeps h
  | regWrite => exact execRegWrite_keeps h
  | getVersion => exact execGetVersion_keeps h
  | getCapabilities => exact execGetCapabilities_keeps h
  | negotiateAlgorithms => exact execNegotiateAlgorithms_keeps h
  | getDigests => exact execGetDigests_keeps h
  | getCertificate => exact execGetCertificate_keeps h
  | challenge => exact execChallenge_keeps h
  | getMeasurements => exact execGetMeasurements_keeps h
  | keyExchange => exact execKeyExchange_keeps h
  | finish => exact execFinish_keeps h
  | heartbeat => exact execHeartbeat_keeps h
  | keyUpdate => exact execKeyUpdate_keeps h
  | endSession => exact execEndSession_keeps h
  | bypass => exact execBypass_keeps h
  | idcode => exact execIdcode_keeps h
  | samplePreload => exact execSamplePreload_keeps h
  | extest => exact execExtest_keeps h
  | extestPulse => exact execExtestPulse_keeps h
  | extestTrain => exact execExtestTrain_keeps h
  | clamp => exact execClamp_keeps h
  | highz => exact execHighz_keeps h
  | tapDebugInstruction => exact execTapDebugInstruction_keeps h
  | trstN => exact execTrstN_keeps h
  | registerWrite => exact execRegisterWrite_keeps h
  | bargeCompletion => exact execBargeCompletion_keeps h
  | issueGuardEnd => exact execIssueGuardEnd_keeps h
  | watchdogExpiry => exact execWatchdogExpiry_keeps h

/-- A step keeps canonical memory. -/
theorem memWf_of_step {s t : State} (hs : s.memWf = true) (h : step s = .next t) : t.memWf = true := by
  unfold step at h
  split at h
  · cases h
    exact (K.refl s).idleStep.memWf hs
  · exact (exec_keeps _ _ t h).memWf ((State.memWf_congr rfl rfl).trans hs)

/-! ### The statements -/

/-- Settles O3: every operation of the state keeps the canonical form, so every command and every step does. -/
theorem memoryStaysCanonical : Obligations.MemoryStaysCanonical := by
  unfold Obligations.MemoryStaysCanonical
  exact fun _ _ => memWf_of_step

/-- Settles O5: no operation of the state touches the queue, so no command does. -/
theorem commandsLeaveTheQueue : Obligations.CommandsLeaveTheQueue := by
  unfold Obligations.CommandsLeaveTheQueue
  exact fun c s t h => (exec_keeps c s t h).pending

/-- Settles O1: the step's second case. -/
theorem stepRunsFrontCommand : Obligations.StepRunsFrontCommand := by
  unfold Obligations.StepRunsFrontCommand
  intros
  rfl

/-- Settles O4. -/
theorem resetMemoryCanonical : Obligations.ResetMemoryCanonical := reset_memWf

end Sys2Proof.Machine

/-! PROOFS. A package whose board rail has left its range (R665, R668): every command but the rise of the always-on rail
asks the rails before anything else, so that it leaves the package undefined. -/

namespace Sys2Proof.Machine

/-- Where a board rail is out of its range, the outcome leaves `s` undefined. -/
def State.Guarded (s : State) (r : Res State) : Prop := s.health.railOut = true → r = .next s.voided

/-! ### The guards that commands act behind -/

theorem State.goOn_guarded (s t : State) : s.Guarded (s.goOn t) := fun out => if_pos out

theorem State.go_guarded (s t : State) : s.Guarded (s.go t) := fun out => by
  unfold State.go
  rw [out]
  exact s.goOn_guarded t out

theorem State.goDieOn_guarded (s : State) (d : Nat) (t : State) : s.Guarded (s.goDieOn d t) := fun out => by
  unfold State.goDieOn
  rw [s.goOn_guarded t out, ite_self]

theorem State.goDie_guarded (s : State) (d : Nat) (t : State) : s.Guarded (s.goDie d t) := fun out => by
  unfold State.goDie
  rw [s.go_guarded t out, ite_self]

theorem State.goStack_guarded (s : State) (st : Nat) (t : State) : s.Guarded (s.goStack st t) := fun out => by
  unfold State.goStack
  rw [s.go_guarded t out, ite_self]

theorem State.nmRow_guarded (s : State) (op : Nat) (who : NmWho) (errs : List (Nat × Ecc)) (x : Contest) :
    s.Guarded (s.nmRow op who errs x) := by
  cases who with
  | op n => exact s.go_guarded _
  | barge c q =>
    dsimp only [State.nmRow]
    split
    · exact s.go_guarded _
    · exact s.go_guarded _

theorem execRailFault_guarded (r : Rail) (s : State) : s.Guarded (execRailFault r s) := by
  cases r with
  | vcore d | vunc d => exact s.goDie_guarded _ _
  | vfab f | vser f | vserh f => exact s.go_guarded _

theorem execThermalResponseEnd_guarded (h : HeatAt) (s : State) : s.Guarded (execThermalResponseEnd h s) := by
  cases h with
  | dram110 st | dram105 st => exact s.goStack_guarded _ _
  | cdie d | target d => exact s.goDie_guarded _ _
  | fpdie k => exact s.go_guarded _

theorem execResidueMismatch_guarded (w : ResidueAt) (again : Bool) (s : State) :
    s.Guarded (execResidueMismatch w again s) := by
  cases w with
  | matrix p | vector p => exact s.goDie_guarded _ _
  | near e ops => exact s.goStack_guarded _ _

theorem execLockstepMismatch_guarded (w : LockstepAt) (s : State) : s.Guarded (execLockstepMismatch w s) := by
  cases w with
  | sequencer p | solver r | crossbar r => exact s.goDie_guarded _ _
  | fdie f | pdie k => exact s.go_guarded _
  | base st => exact s.goStack_guarded _ _

theorem execWeirTick_guarded (e : WeirEnv) (s : State) : s.Guarded (execWeirTick e s) := by
  unfold execWeirTick
  split
  · exact s.go_guarded _
  · exact s.go_guarded _

/-! ### The statement -/

/-- Every command but the rise of the always-on rail acts behind one of the guards. -/
theorem exec_guarded {c : Instr} (s : State) (h : c ≠ .alwaysOnRailRise) : s.Guarded (exec c s) := by
  cases c with
  | integerRegOp | immediateOp | integerLoad | integerStore | fpLoad | fpStore | branch | jal | jalr | fpArithmetic |
  fusedMultiplyAdd | conversionMove | atomic | stFlag | stFlagAdd | waitFlag | nmPost | ldR | stR | stRflag |
  fenceInstruction | fenceR | fenceNm | fenceI | cwRd | cwWr | cwSet | cwClr | halt | brk | eret | setvl | setvli |
  setvlt | vectorLoad | vectorStore | vectorIntegerOp | vectorFpOp | vectorCompare | vectorSelectMove | vectorReduction
  | vectorScan | vectorConversion | vectorPermute | vecPoison | mma | mout | mzero | mtrans | mdrain
  | waitFlagComplete | waitFlagPoll | waitFlagTimeout | fenceWaitEnd | haltWaitEnd | mmaComplete | moutComplete |
  matPoison | timingModeChange | hcRateUpdate | pacingSlip | vmodeAdjust | issueGuard | idleDrop | reachRetain |
  reachWake | cdieOver105 | tjTargetExceeded | issueGuardEnd =>
    exact s.goDie_guarded _ _
  | canalEnable | canalDisable | canalDoorbell | canalTallyHead | bargeAccept | bargeStart | bargeDeadline | e4Packet |
  e4BatchWait | nop | fence | signalStore | signalAdd | wait | waitConditionMet | waitPoll | logQuery | canalDrain |
  memCopy | memFill | memScrub | mapSet | mapClear | mapClearComplete | cargoLoad | cargoRun | cargoArm |
  lockGateRelease | lockGatePoll | cargoAbort | cargoFree | solveBatch | solveSched | solveIter | solveResume | assemble
  | qpBatch | nmOpComplete | landingSet | landingRevokeIndex | landingRevokeJob | landingRevokeJobId | collAlltoall |
  collAlltoallv | collAllreduceSmall | collBcast | commForm | commShrink | collStallTimeout | jobLaunchRoot |
  jobLaunchJoin | jobTeardownRoot | jobTeardownLocal | ckptBegin | ckptDiff | ckptCommit | ckptAbandon | ckptSurvey |
  ckptLoad | weirSet | sleep | domainEnable | domainDisable | partCreate | partDestroy | keyLoadMk | keyLoadCk |
  keyClearCk | keyClearMk | attest | roastStage | raiseFloor | roastSwitchLoad | handover | diagCupping |
  spareSubstitute | errQuery | paceReq | orderReq | pacingLockLoss | pacingLockRegained | partCtrlWrite | partClaimWrite
  | partChangeEffect | memInterleaveWrite | latencyCeiling | thermalTrip | fpdieOver105 | dieLinkLost | towpathBreak |
  heartbeatMiss | vcoreUndervolt | boardRailOutOfRange | wakeEvent | weirWake | flitReceive | replayRequest | linkNotice
  | linkLoss | linkTraining | linkTrainingComplete | laneFailure | packetForward | read8 | write8 | flag8 | readLines |
  writeLines | ack | nack | readResp | retxTimeout | replyTimeout | linkResync | timePacket | collData | collReady |
  collEnd | collAbort | jobLaunchPacket | jobReport | jobAbortPacket | jobTeardownPacket | regPacket | routeDataWrite |
  fabricNodeWrite | fabricTimersWrite | timeMaster | linkEnc | debugLock | approvedReq | secZeroise | lidMeshOpen |
  zeroiseInput | aonRailExcursion | pdieCold | selftestFailure | resetN | boot | perstAN | perstBN | pcieHotReset |
  vfFlr | resetCtrl | recoveryGo | recoveryTimeout | pcieRetrain | pcieCompletionError | window4Access | refclkLoss |
  srefclkLoss | aonClkLoss | entdaa | setdasa | rstdaa | enec | disec | getpid | getbcr | getdcr | getstatus | getmwl |
  getmrl | setmwl | setmrl | rstact | regRead | regWrite | getVersion | getCapabilities | negotiateAlgorithms |
  getDigests | getCertificate | challenge | getMeasurements | keyExchange | finish | heartbeat | keyUpdate | endSession
  | bypass | idcode | samplePreload | extest | extestPulse | extestTrain | clamp | highz | tapDebugInstruction | trstN |
  registerWrite | bargeCompletion | watchdogExpiry =>
    exact s.go_guarded _
  | axpby | mul | reduce | scan | gather | scatter | scatterAdd | bridgeNarrow | bridgeWiden | dualOrderWrite | dirtyArm
  | dirtyCollect | dirtyDisarm | hash =>
    exact s.nmRow_guarded _ _ _ _
  | dramOver110 | dramOver105 | refreshBandChange | refresh | refreshManagement | patrolScrub | selfRefreshScrubBurst |
  channelCopyComplete =>
    exact s.goStack_guarded _ _
  | substitutionResume =>
    exact s.goDieOn_guarded _ _
  | railFault r => exact execRailFault_guarded r s
  | thermalResponseEnd w => exact execThermalResponseEnd_guarded w s
  | residueMismatch w again => exact execResidueMismatch_guarded w again s
  | lockstepMismatch w => exact execLockstepMismatch_guarded w s
  | weirTick e => exact execWeirTick_guarded e s
  | alwaysOnRailRise => exact absurd rfl h

/-- Settles O6: every other command asks the rails first. -/
theorem voidPackageIsUndefined : Obligations.VoidPackageIsUndefined := by
  unfold Obligations.VoidPackageIsUndefined
  exact fun _ s out h => exec_guarded s h out

end Sys2Proof.Machine

/-! PROOFS. The rise of the always-on rail (R627). -/

namespace Sys2Proof.Machine

theorem State.reg_with_tap (s : State) (tap : Tap) (a : Nat) : State.reg { s with tap := tap } a = s.reg a := rfl

/-- A reset record leaves its cause in RESET_CAUSE: it enters the error counters besides. -/
theorem State.reg_resetRecord (s : State) (cause unit : Nat) {level : Nat} :
    (s.resetRecord cause level unit).reg Reg.resetCause = cause % 2 ^ 64 :=
  (State.reg_setReg_other _ (show Reg.errCount level ≠ Reg.resetCause by unfold Reg.errCount Reg.resetCause; omega) _).trans
    (s.reg_setReg_same _ _)

/-- RESET_CAUSE after a cold reset: a first boot counts no reset and latches no bit of one. -/
theorem State.reg_levelSeven_cold (s : State) (source : Nat) :
    (s.levelSeven true source false false false).reg Reg.resetCause = causeOf source 7 0 % 2 ^ 64 := by
  refine (State.reg_resetRecord _ _ _).trans ?_
  simp [b2n]

/-- Settles O7: each field is that of a cold reset, and RESET_CAUSE is read back from the reset record. -/
theorem alwaysOnRailRiseIsColdReset : Obligations.AlwaysOnRailRiseIsColdReset := by
  unfold Obligations.AlwaysOnRailRiseIsColdReset
  intro s
  have cause : State.reg { s.levelSeven true 1 false false false with tap := {} } Reg.resetCause = causeOf 1 7 0 :=
    (State.reg_with_tap _ _ _).trans (s.reg_levelSeven_cold 1)
  refine ⟨_, rfl, rfl, rfl, rfl, rfl, rfl, ?rails, rfl, ?queue, ?source, ?level⟩
  case rails => exact Bool.and_false _
  case queue => exact (K.refl s).levelSeven.update.pending
  case source =>
    unfold State.fld
    rw [cause]
    decide
  case level =>
    unfold State.fld
    rw [cause]
    decide

end Sys2Proof.Machine

/-! PROOFS. The test port: how the TAP takes an instruction (R653, R616). -/

namespace Sys2Proof.Machine

variable {s : State} {i : Nat}

/-- The TAP with `inst` in force and `loaded` in its instruction register. -/
def State.withTap (s : State) (inst loaded : Nat) : State := { s with tap := { s.tap with inst := inst, loaded := loaded } }

/-- In approved mode all but BYPASS and IDCODE act as BYPASS. -/
theorem State.tapLoad_of_approved (approved : s.approved = true) (other : 2 ≤ i) :
    s.tapLoad i = s.withTap tapBypass tapBypass :=
  if_pos (by rw [approved, decide_eq_true other]; rfl)

theorem State.tapLoad_of_not_approved (open_ : s.approved = false) : s.tapLoad i =
    if boundary i then (if s.tap.low then (s.withTap i i).emit (.pins i) else s.withTap tapBypass i) else s.withTap i i :=
  if_neg (by rw [open_]; exact Bool.false_ne_true)

/-- A boundary-scan instruction acts as BYPASS until RESET_N is low. -/
theorem State.tapLoad_of_high (open_ : s.approved = false) (scans : boundary i = true) (high : s.tap.low = false) :
    s.tapLoad i = s.withTap tapBypass i := by
  rw [State.tapLoad_of_not_approved open_, if_pos scans, if_neg (by rw [high]; exact Bool.false_ne_true)]

theorem State.tapLoad_of_low (open_ : s.approved = false) (scans : boundary i = true) (low : s.tap.low = true) :
    s.tapLoad i = (s.withTap i i).emit (.pins i) := by
  rw [State.tapLoad_of_not_approved open_, if_pos scans, if_pos low]

theorem State.tapLoad_of_not_boundary (open_ : s.approved = false) (other : boundary i = false) :
    s.tapLoad i = s.withTap i i := by
  rw [State.tapLoad_of_not_approved open_, if_neg (by rw [other]; exact Bool.false_ne_true)]

/-- BYPASS is loaded in either mode. -/
theorem State.tapLoad_bypass (s : State) : s.tapLoad tapBypass = s.withTap tapBypass tapBypass := by
  cases approved : s.approved with
  | true =>
    unfold State.tapLoad
    rw [approved]
    rfl
  | false => exact State.tapLoad_of_not_boundary approved rfl

theorem State.tapLoad_sample (s : State) : s.tapLoad tapSample =
    if s.approved then s.withTap tapBypass tapBypass else s.withTap tapSample tapSample := by
  cases approved : s.approved with
  | true => exact State.tapLoad_of_approved approved (Nat.le_refl 2)
  | false => exact State.tapLoad_of_not_boundary approved rfl

/-- The rows of the boundary-scan instructions load them. -/
theorem exec_boundary_of_sound {row : Instr} (sound : s.Sound) (listed : (i, row) ∈ [(tapExtest, Instr.extest),
    (tapPulse, .extestPulse), (tapTrain, .extestTrain), (tapClamp, .clamp), (tapHighz, .highz)]) :
    exec row s = .next (s.tapLoad i) ∧ boundary i = true := by
  simp only [List.mem_cons, List.not_mem_nil, or_false, Prod.mk.injEq] at listed
  obtain ⟨rfl, rfl⟩ | ⟨rfl, rfl⟩ | ⟨rfl, rfl⟩ | ⟨rfl, rfl⟩ | ⟨rfl, rfl⟩ := listed
  all_goals exact ⟨State.go_of_sound sound _, rfl⟩

theorem exec_tapDebugInstruction_of_locked (sound : s.Sound) (locked : s.debugLocked = true) :
    exec .tapDebugInstruction s = .next ((s.withTap tapBypass tapBypass).tamper 6) := by
  refine (State.go_of_sound sound _).trans ?_
  rw [if_pos locked, s.tapLoad_bypass]

theorem exec_tapDebugInstruction_of_unlocked (sound : s.Sound) (unlocked : s.debugLocked = false) (open_ : s.approved = false) :
    exec .tapDebugInstruction s = .next (s.withTap tapDebug tapDebug) := by
  refine (State.go_of_sound sound _).trans ?_
  rw [if_neg (by rw [unlocked]; exact Bool.false_ne_true), State.tapLoad_of_not_boundary open_ rfl]

/-- Settles O60: each row loads its instruction, which mode and RESET_N decide. -/
theorem testPort : Obligations.TestPort := by
  unfold Obligations.TestPort
  intro s i row sound load
  refine ⟨State.go_of_sound sound _, State.go_of_sound sound _, State.go_of_sound sound _, ?sample, fun listed => ?scan,
    exec_tapDebugInstruction_of_locked sound, exec_tapDebugInstruction_of_unlocked sound⟩
  case sample => exact (State.go_of_sound sound _).trans (congrArg _ s.tapLoad_sample)
  case scan =>
    obtain ⟨loads, scans⟩ := exec_boundary_of_sound sound listed
    have other : 2 ≤ i := by
      have := of_decide_eq_true scans
      omega
    rw [loads]
    exact ⟨fun approved => congrArg _ (State.tapLoad_of_approved approved other),
      fun open_ high => congrArg _ (State.tapLoad_of_high open_ scans high),
      fun open_ low => congrArg _ (State.tapLoad_of_low open_ scans low)⟩

end Sys2Proof.Machine

/-! PROOFS. The management port of a P-die: its CCCs and its register messages (R650, R651). -/

namespace Sys2Proof.Machine

/-- A port that is on SMBus takes its address and goes to I3C SDR. -/
theorem State.takeAddr_of_smbus {s : State} {k : Nat} (smbus : (s.mgmtPort k).i3c = false) (addr : Nat) :
    s.takeAddr k addr = s.setMgmt k { s.mgmtPort k with i3c := true, addr := addr } :=
  congrArg (s.setMgmt k) (if_neg (by rw [smbus]; exact Bool.false_ne_true))

theorem State.rstact_of_pdie {s : State} (fuse : s.fld Reg.resetFuse F.RESET_FUSE_RSTACT_LEVEL = 6)
    (booted : s.booting = false) (k : Nat) : s.rstact k = s.resetPdie k 7 :=
  (if_pos fuse).trans (if_neg (by rw [booted]; exact Bool.false_ne_true))

theorem State.rstact_of_package {s : State} (fuse : s.fld Reg.resetFuse F.RESET_FUSE_RSTACT_LEVEL ≠ 6) (k : Nat) :
    s.rstact k = s.levelSeven false 7 false false false := if_neg fuse

/-- Settles O58: each row is its effect on the port, in a sound package. -/
theorem managementPort : Obligations.ManagementPort := by
  unfold Obligations.ManagementPort
  intro s k addr n off v sound m set
  have go : ∀ t, s.go t = .next t := State.go_of_sound sound
  refine ⟨fun smbus => ?address, go _, go _, go _, go _, go _, go _, go _, go _, go _, go _, go _,
    fun fuse booted => ?pdie, fun fuse => ?package, go _, go _⟩
  case address =>
    have taken := (go _).trans (congrArg Host.Outcome.next (State.takeAddr_of_smbus smbus addr.toNat))
    exact ⟨taken, taken⟩
  case pdie => exact (go _).trans (congrArg _ (State.rstact_of_pdie fuse booted k.val))
  case package => exact (go _).trans (congrArg _ (State.rstact_of_package fuse k.val))

end Sys2Proof.Machine

/-! PROOFS. The security registers and the tamper events (R616, R617, R620). -/

namespace Sys2Proof.Machine

variable {s : State} {rp : RegPath}

/-! ### SEC_CTRL -/

theorem State.writeLinkEnc_of_approved (approved : s.approved = true) (on : Bool) : s.writeLinkEnc on = s := if_pos approved

theorem State.writeLinkEnc_of_not_approved (open_ : s.approved = false) (on : Bool) :
    s.writeLinkEnc on = s.setFld Reg.secCtrl F.SEC_CTRL_LINK_ENC (b2n on) :=
  if_neg (by rw [open_]; exact Bool.false_ne_true)

theorem State.writeDebugLock_of_approved (approved : s.approved = true) : s.writeDebugLock true = s :=
  if_pos (by rw [approved]; rfl)

theorem State.writeDebugLock_of_not_approved (open_ : s.approved = false) :
    s.writeDebugLock true = s.setFld Reg.secCtrl F.SEC_CTRL_DEBUG_LOCK 1 :=
  if_neg (by rw [open_]; exact Bool.false_ne_true)

theorem State.writeApprovedReq_of_set (requested : s.flag Reg.secCtrl F.SEC_CTRL_APPROVED_REQ = true) :
    s.writeApprovedReq true = s := if_pos (by rw [requested]; rfl)

theorem State.writeApprovedReq_of_clear (clear : s.flag Reg.secCtrl F.SEC_CTRL_APPROVED_REQ = false) :
    s.writeApprovedReq true =
      match (s.setFld Reg.secCtrl F.SEC_CTRL_APPROVED_REQ 1).refuseReason with
      | some r => (s.setFld Reg.secCtrl F.SEC_CTRL_APPROVED_REQ 1).setFlds Reg.secStatus
          [(F.SEC_STATUS_APPROVED_REFUSED, 1), (F.SEC_STATUS_REFUSE_REASON, r)]
      | none => (((s.setFld Reg.secCtrl F.SEC_CTRL_APPROVED_REQ 1).setFld Reg.secStatus F.SEC_STATUS_APPROVED 1).dropStaged
          0).dropStaged 1 :=
  if_neg (by rw [clear]; exact Bool.false_ne_true)

/-! ### SEC_ZEROISE -/

theorem State.writeZeroise_of_arming {v : Nat} (arming : v % 65536 = 0x5EC0) :
    s.writeZeroise v = s.modSec fun x => { x with armedAt := some s.now } := if_pos arming

/-- 0x0ED5 within 10 µs of 0x5EC0 zeroises. -/
theorem State.writeZeroise_of_armed {v at_ : Nat} (firing : v % 65536 = 0x0ED5) (armed : s.sec.armedAt = some at_)
    (fresh : s.now ≤ at_ + 10000) : s.writeZeroise v = s.zeroise 3 := by
  unfold State.writeZeroise
  rw [if_neg (by rw [firing]; decide), if_pos ⟨firing, by rw [armed]; exact decide_eq_true fresh⟩]

/-- Any other write discards a pending 0x5EC0. -/
theorem State.writeZeroise_of_discarding {v : Nat} (other : v % 65536 ≠ 0x5EC0)
    (stale : v % 65536 = 0x0ED5 → ∀ a, s.sec.armedAt = some a → a + 10000 < s.now) :
    s.writeZeroise v = s.modSec fun x => { x with armedAt := none } := by
  unfold State.writeZeroise
  rw [if_neg other, if_neg]
  rintro ⟨firing, fresh⟩
  cases armed : s.sec.armedAt with
  | none => simp [armed] at fresh
  | some a =>
    have late := stale firing a armed
    simp only [armed, Option.any_some, decide_eq_true_eq] at fresh
    omega

/-! ### Tamper events -/

theorem State.tamperOr_of_approved (approved : s.approved = true) (cause : Nat) : s.tamperOr cause = s.zeroise cause :=
  if_pos approved

theorem State.tamperOr_of_not_approved (open_ : s.approved = false) (cause : Nat) : s.tamperOr cause = s.tamper cause :=
  if_neg (by rw [open_]; exact Bool.false_ne_true)

/-- The later of two fields that are written together holds its value. -/
theorem State.fld_setFlds_snd (s : State) {f g : Fld} (range : g.lo ≤ g.hi) (word : g.hi < 64) (a v w : Nat) :
    (s.setFlds a [(f, v), (g, w)]).fld a g = w % 2 ^ (g.hi + 1 - g.lo) := by
  unfold State.fld State.setFlds
  rw [State.reg_setReg_same, bitsOf_mod_two_pow_64 word]
  exact bitsOf_withBits_same range _ _

/-- So does the earlier one, where the later one lies apart from it. -/
theorem State.fld_setFlds_fst (s : State) {f g : Fld} (range : f.lo ≤ f.hi) (word : f.hi < 64) (range' : g.lo ≤ g.hi)
    (apart : f.hi < g.lo ∨ g.hi < f.lo) (a v w : Nat) :
    (s.setFlds a [(f, v), (g, w)]).fld a f = v % 2 ^ (f.hi + 1 - f.lo) := by
  unfold State.fld State.setFlds
  rw [State.reg_setReg_same, bitsOf_mod_two_pow_64 word]
  exact (bitsOf_withBits_other range' apart _ _).trans (bitsOf_withBits_same range _ _)

/-- SEC_TAMPER holds the cause and the time of the event. -/
theorem State.fld_tamper (s : State) {k : Nat} (small : k < 16) :
    (s.tamper k).fld Reg.secTamper F.SEC_TAMPER_LAST_CAUSE = k ∧
      (s.tamper k).fld Reg.secTamper F.SEC_TAMPER_TIME = s.now % 2 ^ 48 :=
  ⟨(s.fld_setFlds_fst (by decide) (by decide) (by decide) (by decide) _ _ _).trans (Nat.mod_eq_of_lt small),
    (s.fld_setFlds_snd (by decide) (by decide) _ _ _).trans (Nat.mod_mod _ _)⟩

/-! ### The statement -/

/-- Settles O55: each write is its effect behind its register path, and each event acts as the mode decides. -/
theorem securityInputs : Obligations.SecurityInputs := by
  unfold Obligations.SecurityInputs
  intro s on v rp at_ c z q
  refine ⟨fun served approved => ?locked, fun served open_ => ?written, fun served requested => ?kept,
    fun served clear accepted => ?accepted, fun r served clear refused => ?refused, fun served arming => ?arming,
    fun served firing armed fresh => ?fires, fun served other stale => ?discards,
    fun sound => ⟨State.go_of_sound sound _, State.go_of_sound sound _⟩, fun sound approved => ?zeroises,
    fun sound open_ => ?recorded, exec_tapDebugInstruction_of_locked, fun _ => s.fld_tamper,
    fun sound => State.go_of_sound sound _⟩
  case locked =>
    exact ⟨(State.go_viaPath_of_reaches served _).trans (congrArg _ (State.writeLinkEnc_of_approved approved on)),
      (State.go_viaPath_of_reaches served _).trans (congrArg _ (State.writeDebugLock_of_approved approved))⟩
  case written =>
    exact ⟨(State.go_viaPath_of_reaches served _).trans (congrArg _ (State.writeLinkEnc_of_not_approved open_ on)),
      (State.go_viaPath_of_reaches served _).trans (congrArg _ (State.writeDebugLock_of_not_approved open_))⟩
  case kept => exact (State.go_viaPath_of_reaches served _).trans (congrArg _ (State.writeApprovedReq_of_set requested))
  case accepted =>
    refine (State.go_viaPath_of_reaches served _).trans (congrArg _ ((State.writeApprovedReq_of_clear clear).trans ?_))
    rw [show State.refuseReason _ = none from accepted]
  case refused =>
    refine (State.go_viaPath_of_reaches served _).trans (congrArg _ ((State.writeApprovedReq_of_clear clear).trans ?_))
    rw [show State.refuseReason _ = some r from refused]
  case arming => exact (State.go_viaPath_of_reaches served _).trans (congrArg _ (State.writeZeroise_of_arming arming))
  case fires => exact (State.go_viaPath_of_reaches served _).trans (congrArg _ (State.writeZeroise_of_armed firing armed fresh))
  case discards => exact (State.go_viaPath_of_reaches served _).trans (congrArg _ (State.writeZeroise_of_discarding other stale))
  case zeroises =>
    exact ⟨(State.go_of_sound sound _).trans (congrArg _ (State.tamperOr_of_approved approved 4)),
      (State.go_of_sound sound _).trans (congrArg _ (State.tamperOr_of_approved approved 5))⟩
  case recorded =>
    exact ⟨(State.go_of_sound sound _).trans (congrArg _ (State.tamperOr_of_not_approved open_ 4)),
      (State.go_of_sound sound _).trans (congrArg _ (State.tamperOr_of_not_approved open_ 5))⟩

end Sys2Proof.Machine

/-! PROOFS. The landing table: LANDING_SET and LANDING_REVOKE (R519, R520). -/

namespace Sys2Proof.Machine

variable {s : State} {b : Barge} {c : Fin 256} {q m : Nat}

/-- A revoke row whose mode and shape are right, and which finds an entry where it names one, removes what it selects. -/
theorem State.revokeRow_of_shaped (begun : s.Begun c q b 0x501) (mode : b.f 32 32 = m) (listed : m < 3)
    (shape : b.reservedZero [(127, 44), (39, 38), (35, 33)] = true)
    (found : m = 0 → s.fabric.landing.any (fun e => e.index == b.f 37 36 && e.part == b.part) = true)
    (sel : Barge → Landing → Bool) : s.revokeRow c.val q m sel =
      .next ((s.revoke fun e => e.part == b.part && sel b e).2.finish b.canal b.seq St.done
        (s.revoke fun e => e.part == b.part && sel b e).1 0) := by
  refine (State.work_of_begun begun (List.mem_singleton.mpr rfl) _).trans (congrArg _ ?_)
  have good : (!b.reservedZero [(127, 44), (39, 38), (35, 33)] || decide (3 ≤ b.f 32 32)) = false := by
    rw [shape, mode]
    simpa using listed
  have named : (m == 0 && !s.fabric.landing.any fun e => e.index == b.f 37 36 && e.part == b.part) = false := by
    by_cases zero : m = 0
    · rw [found zero]
      exact Bool.and_false _
    · rw [beq_false_of_ne zero]
      rfl
  dsimp only
  rw [if_neg (fun other => other.1 mode), State.checked_of_passes]
  rw [Passes, firstFail, good, named]
  rfl

/-- Settles O40: LANDING_SET is its list of checks, and each revoke row selects by its mode. -/
theorem landingBarges : Obligations.LandingBarges := by
  unfold Obligations.LandingBarges
  intro s c q i b mine left gone byIndex byTag byJob shape clash free checks
  refine ⟨fun st r0 begun fails => ?refused, fun begun passes lowest => ?set, fun begun shaped mode found => ?index,
    fun begun shaped mode => ?job, fun begun shaped mode => ?jobId⟩
  case refused =>
    change execLandingSet c q s = _
    rw [execLandingSet, State.work_of_begun begun (List.mem_singleton_self _)]
    exact congrArg _ (State.checked_of_fails fails _)
  case set =>
    change execLandingSet c q s = _
    rw [execLandingSet, State.work_of_begun begun (List.mem_singleton_self _)]
    refine congrArg _ ((State.checked_of_passes passes _).trans ?_)
    rw [show (List.range 4096).find? _ = some i from lowest]
    rfl
  case index =>
    refine State.revokeRow_of_shaped begun mode (by omega) shaped (fun _ => ?_) _
    obtain ⟨e, he⟩ := List.exists_mem_of_ne_nil _ found
    obtain ⟨listed, named⟩ := List.mem_filter.mp he
    exact List.any_eq_true.mpr ⟨e, listed, by rw [Bool.and_comm]; exact named⟩
  case job => exact State.revokeRow_of_shaped begun mode (by omega) shaped (fun no => absurd no (by omega)) _
  case jobId => exact State.revokeRow_of_shaped begun mode (by omega) shaped (fun no => absurd no (by omega)) _

end Sys2Proof.Machine

/-! PROOFS. Requests that nothing covers: sent again, and abandoned (R507, R508). -/

namespace Sys2Proof.Machine

variable {s : State} {node : BitVec 16} {vc : Fin 4} {seq : BitVec 32} {r : ReqOut}

/-- The request `r` is noted as sent once more, now. -/
def State.resent (s : State) (r : ReqOut) : State :=
  s.modFab fun f => { f with sent := f.sent.map fun y => if y = r then { y with lastAt := s.now } else y }

section Retx
variable (sound : s.Sound) (out : s.outstanding node.toNat vc.val seq.toNat = some r)
include sound out

theorem exec_retxTimeout_of_outstanding : exec (.retxTimeout node vc seq) s = .next
    (if !s.nodeValid || decide (s.now < r.lastAt + s.fld Reg.fabricTimers F.FABRIC_TIMERS_RETX_US * 1000) then s
      else match s.pathCode r.pkt.dst with
        | some c => (s.unsend r).settleReq r (some c)
        | none => State.emitPkt (match (s.resent r).reqBarge r with
          | some (c, q) => (s.resent r).addNote c q Note.retried
          | none => s.resent r) r.pkt) := by
  refine (State.go_of_sound sound _).trans ?_
  rw [out]
  rfl

theorem exec_retxTimeout_of_early
    (early : s.now < r.lastAt + s.fld Reg.fabricTimers F.FABRIC_TIMERS_RETX_US * 1000 ∨ s.nodeValid = false) :
    exec (.retxTimeout node vc seq) s = .next s := by
  rw [exec_retxTimeout_of_outstanding sound out, if_pos]
  rcases early with early | none
  · rw [decide_eq_true early, Bool.or_true]
  · rw [none]
    rfl

theorem exec_retxTimeout_of_due (valid : s.nodeValid = true)
    (due : r.lastAt + s.fld Reg.fabricTimers F.FABRIC_TIMERS_RETX_US * 1000 ≤ s.now) (path : s.pathCode r.pkt.dst = none) :
    exec (.retxTimeout node vc seq) s = .next (State.emitPkt (match (s.resent r).reqBarge r with
      | some (c, q) => (s.resent r).addNote c q Note.retried
      | none => s.resent r) r.pkt) := by
  rw [exec_retxTimeout_of_outstanding sound out, if_neg (by simpa [valid] using due), path]

theorem exec_replyTimeout_of_outstanding : exec (.replyTimeout node vc seq) s = .next
    (if s.now < r.sentAt + s.fld Reg.fabricTimers F.FABRIC_TIMERS_REPLY_US * 1000 then s else s.abandonNode node.toNat) := by
  refine (State.go_of_sound sound _).trans ?_
  rw [out]

end Retx

/-- A NOTICE is due before the next request to an abandoned node. -/
theorem mem_resync (l : List Nat) (node : Nat) : node ∈ if l.contains node then l else l ++ [node] := by
  split
  next listed => exact List.contains_iff_mem.mp listed
  next => exact List.mem_append_right _ (List.mem_singleton_self node)

/-- Settles O53: a request sent again, and the requests of a node pair abandoned. -/
theorem uncoveredRequests : Obligations.UncoveredRequests := by
  unfold Obligations.UncoveredRequests
  refine ⟨fun s node vc seq r sound out => ⟨exec_retxTimeout_of_early sound out, fun valid due path alone => ?alone,
    fun c q valid due path owned => ?owned⟩, fun s node vc seq r sound out => ⟨fun early => ?early, fun late => ?late⟩⟩
  case alone =>
    rw [exec_retxTimeout_of_due sound out valid due path, show (s.resent r).reqBarge r = none from alone]
    rfl
  case owned =>
    rw [exec_retxTimeout_of_due sound out valid due path, show (s.resent r).reqBarge r = some (c, q) from owned]
    rfl
  case early => rw [exec_replyTimeout_of_outstanding sound out, if_pos early]
  case late =>
    refine ⟨?_, fun y hy => ?_, mem_resync _ _⟩
    · rw [exec_replyTimeout_of_outstanding sound out, if_neg (Nat.not_lt.mpr late)]
      rfl
    · exact bne_iff_ne.mp (List.mem_filter.mp hy).2

end Sys2Proof.Machine

/-! PROOFS. The registers of the fabric and its TIME packets (R502, R522, R525, R526). -/

namespace Sys2Proof.Machine

variable {s : State}

/-! ### Register writes -/

theorem State.writeNode_of_job {v : Nat}
    (job : (List.range 8).any (fun p => s.flag (Reg.fabricJob p) F.FABRIC_JOB_VALID) = true) :
    s.writeNode v = s.setFld Reg.fabricNode F.FABRIC_NODE_WRITE_IGNORED 1 := if_pos job

theorem State.writeNode_of_no_job {v : Nat}
    (job : (List.range 8).any (fun p => s.flag (Reg.fabricJob p) F.FABRIC_JOB_VALID) = false) :
    s.writeNode v = s.writeFields Reg.fabricNode v := if_neg (by rw [job]; exact Bool.false_ne_true)

theorem State.writeTimers_of_right {v : Nat} (set : bitsOf v 15 0 ≠ 0) (room : 2 * bitsOf v 15 0 ≤ bitsOf v 47 32) :
    s.writeTimers v = s.writeFields Reg.fabricTimers v :=
  if_neg (by rintro (zero | less); exacts [set zero, Nat.not_lt.mpr room less])

theorem State.writeTimers_of_wrong {v : Nat} (wrong : bitsOf v 15 0 = 0 ∨ bitsOf v 47 32 < 2 * bitsOf v 15 0) :
    s.writeTimers v = s := if_pos wrong

theorem State.writeMaster_of_becoming (follower : s.flag Reg.timeStatus F.TIME_STATUS_MASTER = false) :
    s.writeMaster true = (s.setReg Reg.timeStatus 0).setFlds Reg.timeStatus
      [(F.TIME_STATUS_MASTER, 1), (F.TIME_STATUS_LOCKED, 1)] :=
  if_neg (by rw [follower]; exact Bool.false_ne_true)

theorem State.writeMaster_of_resigning (master : s.flag Reg.timeStatus F.TIME_STATUS_MASTER = true) :
    s.writeMaster false = s.setFlds Reg.timeStatus [(F.TIME_STATUS_MASTER, 0), (F.TIME_STATUS_LOCKED, 0)] :=
  if_neg (by rw [master]; exact Bool.false_ne_true)

/-! ### TIME packets -/

section Time
variable {k : Fin 18} {m : BitVec 16} {hops : BitVec 6} {off : BitVec 32}

/-- What `s` has heard once a TIME packet has come in over port `k`. -/
def State.heardTime (s : State) (k : Fin 18) (m : BitVec 16) (hops : BitVec 6) (off : BitVec 32) : State :=
  s.modFab fun f => { f with times := spPut k.val ⟨m.toNat, hops.toNat, off⟩ f.times }

/-- The offset that a packet with `hops` gives, where the best path is of `x`. -/
def State.takeTime (s : State) (leads : Bool) (x : TimeRec) (hops : BitVec 6) (off : BitVec 32) : State :=
  (s.setFlds Reg.timeStatus
    [(F.TIME_STATUS_LOCKED, b2n (decide (off.toInt.natAbs ≤ 10 + 5 * hops.toNat) && !leads)), (F.TIME_STATUS_HOPS, x.hops),
      (F.TIME_STATUS_OFFSET, off.toNat)]).modFab fun f => { f with gain := (-off.toInt).toNat, lag := off.toInt.toNat }

/-- A package that has a time master above it goes by the best path that it has heard. -/
theorem exec_timePacket_of_outranked (sound : s.Sound) (up : s.portUp k.val = true)
    (outranked : s.flag Reg.timeStatus F.TIME_STATUS_MASTER = false ∨ m.toNat < s.nodeId) :
    exec (.timePacket k m hops off) s = .next (match (s.heardTime k m hops off).timeBest with
      | none => s.heardTime k m hops off
      | some (port, x) => if port ≠ k.val then s.heardTime k m hops off
        else (s.heardTime k m hops off).takeTime
          (s.flag Reg.timeStatus F.TIME_STATUS_MASTER && s.fld Reg.timeStatus F.TIME_STATUS_HOPS == 0) x hops off) := by
  refine (State.go_of_sound sound _).trans (congrArg _ ((if_neg ?_).trans rfl))
  rcases outranked with follower | below
  · simp [up, follower]
  · simp [up, below]

theorem exec_timePacket_of_leading (sound : s.Sound) (master : s.flag Reg.timeStatus F.TIME_STATUS_MASTER = true)
    (lowest : s.nodeId ≤ m.toNat) : exec (.timePacket k m hops off) s = .next s :=
  (State.go_of_sound sound _).trans (congrArg _ (if_pos (by simp [master, lowest])))

end Time

/-! ### The statement -/

/-- Settles O54: each write is its effect behind its register path, and a TIME packet counts by the best path. -/
theorem fabricRegisters : Obligations.FabricRegisters := by
  unfold Obligations.FabricRegisters
  intro s v rp k m hops off n rd entry fn ft ts a d leads heard job
  refine ⟨fun served => State.go_viaPath_of_reaches served _, fun served hasJob => ?ignored, fun served noJob => ?written,
    fun served set room => ?timers, fun served wrong => ?kept, fun served follower => ?becomes, fun served master => ?resigns,
    fun sound up outranked => ⟨fun x best => ?best, fun o x best other => ?other⟩,
    fun sound => exec_timePacket_of_leading sound⟩
  case ignored => exact (State.go_viaPath_of_reaches served _).trans (congrArg _ (State.writeNode_of_job hasJob))
  case written => exact (State.go_viaPath_of_reaches served _).trans (congrArg _ (State.writeNode_of_no_job noJob))
  case timers => exact (State.go_viaPath_of_reaches served _).trans (congrArg _ (State.writeTimers_of_right set room))
  case kept => exact (State.go_viaPath_of_reaches served _).trans (congrArg _ (State.writeTimers_of_wrong wrong))
  case becomes => exact (State.go_viaPath_of_reaches served _).trans (congrArg _ (State.writeMaster_of_becoming follower))
  case resigns => exact (State.go_viaPath_of_reaches served _).trans (congrArg _ (State.writeMaster_of_resigning master))
  case best =>
    rw [exec_timePacket_of_outranked sound up outranked, show (s.heardTime k m hops off).timeBest = some (k.val, x) from best]
    exact congrArg _ (if_neg (fun ne => ne rfl))
  case other =>
    rw [exec_timePacket_of_outranked sound up outranked, show (s.heardTime k m hops off).timeBest = some (o, x) from best]
    exact congrArg _ (if_pos other)

end Sys2Proof.Machine

/-! PROOFS. The events of a fabric link: flits, replays, notices, losses, training and lanes (R493 to R500, R524, R606). -/

namespace Sys2Proof.Machine

variable {s : State} {k : Nat}

/-! ### Flits -/

theorem State.link_satAdd (a : Nat) (f : Fld) (n : Nat) : (s.satAdd a f n).link k = s.link k :=
  congrArg (fun b : Fabric => spGet (fun _ => ({} : LinkSt)) b.links k) (s.setFld_fabric a f _)

/-- One codeword counts what it corrected, or that it could not. -/
theorem State.codewords_of_single {f : Flit} {n : Nat} (one : f.fixed = [n]) : s.codewords k f =
    (if 15 < n then s.satAdd (Reg.portErrors k) F.PORT_ERRORS_UNCORRECTED 1
      else s.satAdd (Reg.portErrors k) F.PORT_ERRORS_CORRECTED n).setLink k { s.link k with lastCw := n } := by
  unfold State.codewords
  rw [one]
  dsimp only [List.foldl_cons, List.foldl_nil, List.getLast?_singleton, Option.getD_some]
  split
  · rw [State.link_satAdd]
  · rw [State.link_satAdd]

/-- A flit breaks where a codeword was not corrected or the CRC disagrees. -/
theorem State.flitBad_iff (f : Flit) : (s.flitLost k f || !flitGood f.bytes) = true ↔
    (∃ n ∈ f.fixed, 15 < n) ∨ (f.carry = true ∧ 15 < (s.link k).lastCw) ∨ flitGood f.bytes = false := by
  simp only [State.flitLost, Bool.or_eq_true, List.any_eq_true, decide_eq_true_eq, Bool.and_eq_true, Bool.not_eq_true',
    or_assoc]

/-- What a good flit has acknowledged and given back before its own content counts. -/
def State.flitHeard (s : State) (k : Nat) (f : Flit) : State :=
  ((s.codewords k f).flitAck k (fieldB f.bytes 3 2)).setLink k
    ((((s.codewords k f).flitAck k (fieldB f.bytes 3 2)).link k).creditIn (flitCredit f.bytes))

/-- How far the sequence number of a flit is after the last one in turn. -/
def State.flitGap (s : State) (k : Nat) (f : Flit) : Nat :=
  flitAfter ((s.flitHeard k f).link k).recv (fieldB f.bytes 1 0)

/-- A flit ahead of its turn asks for a replay. -/
def State.flitLate (s : State) (k : Nat) (f : Flit) : State :=
  if 0 < s.flitGap k f ∧ s.flitGap k f < 32768 then (s.flitHeard k f).askReplay k else s.flitHeard k f

section Flit
variable {f : Flit} {errs : List (Nat × Ecc)} {x : Contest}

theorem State.flitIn_of_bad (bad : (s.flitLost k f || !flitGood f.bytes) = true) :
    s.flitIn k f errs x = (s.codewords k f).askReplay k := if_pos bad

theorem State.flitIn_of_inTurn (good : ¬ (s.flitLost k f || !flitGood f.bytes) = true)
    (inTurn : fieldB f.bytes 12 12 = Ft.data ∧ s.flitGap k f = 1) : s.flitIn k f errs x =
      ((s.flitHeard k f).setLink k { (s.flitHeard k f).link k with recv := fieldB f.bytes 1 0, ackDue := true }).bodyIn k
        (fieldB f.bytes 13 13) (sliceB f.bytes 30 512) errs x := (if_neg good).trans (if_pos inTurn)

theorem State.flitIn_of_outOfTurn (good : ¬ (s.flitLost k f || !flitGood f.bytes) = true)
    (outOfTurn : ¬ (fieldB f.bytes 12 12 = Ft.data ∧ s.flitGap k f = 1)) : s.flitIn k f errs x =
      if fieldB f.bytes 12 12 = Ft.replay then (s.flitLate k f).replay k (fieldB f.bytes 3 2)
      else if fieldB f.bytes 12 12 = Ft.notice then (s.flitLate k f).linkNotice k (fieldB f.bytes 14 14)
      else s.flitLate k f := (if_neg good).trans (if_neg outOfTurn)

end Flit

/-! ### Replays, notices and losses -/

/-- The held flits that an ACK leaves are sent again. -/
def State.resendHeld (s : State) (k ack : Nat) : State :=
  (((s.flitAck k ack).link k).held.map fun y => { y with tries := y.tries + 1 }).foldl
    (fun u y => u.emit (.flit k y.bytes)) ((s.flitAck k ack).setLink k { (s.flitAck k ack).link k with
      held := ((s.flitAck k ack).link k).held.map fun y => { y with tries := y.tries + 1 } })

theorem State.replay_eq (ack : Nat) : s.replay k ack =
    if (((s.flitAck k ack).link k).held.map fun y => ({ y with tries := y.tries + 1 } : HeldFlit)).any
      (fun y => decide (16 ≤ y.tries)) then (s.resendHeld k ack).linkOut k 5 else s.resendHeld k ack := rfl

theorem State.replay_of_tries {ack : Nat} (few : ∀ y ∈ ((s.flitAck k ack).link k).held, y.tries < 15) :
    s.replay k ack = s.resendHeld k ack := by
  rw [State.replay_eq, if_neg]
  simp only [List.any_map, List.any_eq_true, Function.comp_apply, decide_eq_true_eq, not_exists, not_and]
  intro y held
  have := few y held
  omega

/-- The sixteenth time for one of them loses the link. -/
theorem State.replay_of_worn {ack : Nat} (worn : ∃ y ∈ ((s.flitAck k ack).link k).held, 15 ≤ y.tries) :
    s.replay k ack = (s.resendHeld k ack).linkOut k 5 := by
  rw [State.replay_eq, if_pos]
  obtain ⟨y, held, tries⟩ := worn
  simp only [List.any_map, List.any_eq_true, Function.comp_apply, decide_eq_true_eq]
  exact ⟨y, held, by omega⟩

/-- A notice over a link that is up moors it or takes it down. -/
theorem State.linkNotice_of_up (up : s.portUp k = true) (code : Nat) : s.linkNotice k code =
    if code = 1 then s.linkDown k 4 else if code = 2 then s.linkDown k 3 else s :=
  if_neg (by rw [up]; exact Bool.false_ne_true)

/-- The link is lost and the loss recorded. -/
def State.lossNoted (s : State) (k kind : Nat) : State :=
  (s.linkLost k).errRecord (unitPort k) kind 3 6 none 0 0 0 (s.linkLost k).now

theorem State.linkOut_of_trained (up : s.trained k = true) (kind : Nat) : s.linkOut k kind =
    if 16 ≤ (s.lossNoted k kind).faultsIn (unitPort k) 7 hourNs then (s.lossNoted k kind).portFail k 3 kind
    else s.lossNoted k kind := if_neg (by rw [up]; exact Bool.false_ne_true)

/-! ### Training -/

/-- A link that does not rest, may not be trained, or was tried within the second is not trained. -/
theorem exec_linkTraining_of_resting {k : Fin 18} (sound : s.Sound)
    (rests : s.fld (Reg.portStatus k.val) F.PORT_STATUS_STATE = 0 ∨ s.fld (Reg.portStatus k.val) F.PORT_STATUS_STATE = 3)
    (may : s.mayTrain k.val = true) (due : (s.link k.val).lastTry = 0 ∨ (s.link k.val).lastTry + 10 ^ 9 ≤ s.now) :
    exec (.linkTraining k) s = .next ((s.setFld (Reg.portStatus k.val) F.PORT_STATUS_STATE 1).setLink k.val
      { s.link k.val with lastTry := s.now }) := by
  refine (State.go_of_sound sound _).trans (congrArg _ (if_neg ?_))
  rw [may]
  rintro (awake | never | ⟨tried, early⟩)
  · omega
  · exact Bool.false_ne_true never
  · omega

theorem exec_linkTraining_of_early {k : Fin 18} (sound : s.Sound) (tried : (s.link k.val).lastTry ≠ 0)
    (early : s.now < (s.link k.val).lastTry + 10 ^ 9) : exec (.linkTraining k) s = .next s :=
  (State.go_of_sound sound _).trans (congrArg _ (if_pos (.inr (.inr ⟨tried, early⟩))))

/-- The port notes which partner it has found. -/
def State.partnered (s : State) (k : Nat) (t : Training) : State :=
  s.setFlds (Reg.portStatus k) [(F.PORT_STATUS_PARTNER_NODE, t.node.toNat), (F.PORT_STATUS_PARTNER_F, b2n t.f),
    (F.PORT_STATUS_PARTNER_PORT, t.port.val)]

/-- The link is up with that partner. -/
def State.trainedUp (s : State) (k : Nat) (t : Training) : State :=
  ((s.partnered k t).setFld (Reg.portStatus k) F.PORT_STATUS_STATE 2).setLink k
    { ((s.partnered k t).link k).fresh with enc := t.enc }

theorem State.partnerLanes_of_same {t : Training} (same : (s.link k).failed ||| t.lanes.toNat = (s.link k).failed) :
    s.partnerLanes k t = s := if_pos same

theorem State.partnerLanes_of_new {t : Training} (new : (s.link k).failed ||| t.lanes.toNat ≠ (s.link k).failed) :
    s.partnerLanes k t = s.setLanes k ((s.link k).failed ||| t.lanes.toNat) 6 := if_neg new

section Complete
variable {k : Fin 18} {t : Training} (sound : s.Sound) (may : s.mayTrain k.val = true)
include sound may

theorem exec_linkTrainingComplete_of_up (up : s.fld (Reg.portStatus k.val) F.PORT_STATUS_STATE = 2) :
    exec (.linkTrainingComplete k t) s = .next (s.partnerLanes k.val t) :=
  (State.go_of_sound sound _).trans (congrArg _
    ((if_neg (by rw [may]; exact Bool.false_ne_true)).trans (if_pos up)))

variable (tries : s.fld (Reg.portStatus k.val) F.PORT_STATUS_STATE = 1 ∨
  s.fld (Reg.portStatus k.val) F.PORT_STATUS_STATE = 4)
include tries

theorem exec_linkTrainingComplete_of_tries : exec (.linkTrainingComplete k t) s = .next
    (if !s.keysAgree t then ((s.partnered k.val t).satAdd Reg.secStatus F.SEC_STATUS_LINK_KEY_FAILS 1).setFld
      (Reg.portStatus k.val) F.PORT_STATUS_STATE 3
    else (s.trainedUp k.val t).partnerLanes k.val t) :=
  (State.go_of_sound sound _).trans (congrArg _ ((if_neg (by rw [may]; exact Bool.false_ne_true)).trans
    ((if_neg (by omega)).trans (if_neg (by omega)))))

theorem exec_linkTrainingComplete_of_keys (agree : s.keysAgree t = true) :
    exec (.linkTrainingComplete k t) s = .next ((s.trainedUp k.val t).partnerLanes k.val t) := by
  rw [exec_linkTrainingComplete_of_tries sound may tries, agree]
  rfl

theorem exec_linkTrainingComplete_of_no_keys (disagree : s.keysAgree t = false) :
    exec (.linkTrainingComplete k t) s = .next (((s.partnered k.val t).satAdd Reg.secStatus
      F.SEC_STATUS_LINK_KEY_FAILS 1).setFld (Reg.portStatus k.val) F.PORT_STATUS_STATE 3) := by
  rw [exec_linkTrainingComplete_of_tries sound may tries, disagree]
  rfl

end Complete

/-! ### Lanes -/

section Lane
variable {k : Fin 18} {lane : Fin 4} {lock : Bool} {symbols : Word} (sound : s.Sound)
include sound

theorem exec_laneFailure_of_failed (failed : bitOf (s.link k.val).failed lane.val = true) :
    exec (.laneFailure k lane lock symbols) s = .next s := (State.go_of_sound sound _).trans (congrArg _ (if_pos failed))

/-- The failed lane in the error store. -/
def State.laneNoted (s : State) (k lane kind detail : Nat) : State :=
  (s.noteFault (unitLane (k / 9) (k % 9 * 4 + lane)) kind 0).errRecord (unitLane (k / 9) (k % 9 * 4 + lane)) kind 2 6 none 0 0
    detail (s.noteFault (unitLane (k / 9) (k % 9 * 4 + lane)) kind 0).now

theorem exec_laneFailure_of_new (new : bitOf (s.link k.val).failed lane.val = false) :
    exec (.laneFailure k lane lock symbols) s = .next ((s.laneNoted k.val lane.val (if lock then 7 else 6)
      (if lock then 0 else symbols.toNat)).setLanes k.val ((s.link k.val).failed ||| 2 ^ lane.val) (if lock then 7 else 6)) :=
  (State.go_of_sound sound _).trans (congrArg _ (if_neg (by rw [new]; exact Bool.false_ne_true)))

end Lane

theorem State.setLanes_of_width {failed w : Nat} (width : widthOf failed = some w) (kind : Nat) :
    s.setLanes k failed kind = ((s.setLink k { s.link k with failed := failed }).setFld (Reg.portStatus k)
      F.PORT_STATUS_WIDTH w).throttleColls := by
  unfold State.setLanes
  rw [width]

theorem State.setLanes_of_no_width {failed : Nat} (width : widthOf failed = none) (kind : Nat) :
    s.setLanes k failed kind = (if (s.setLink k { s.link k with failed := failed }).linked k then
      (s.setLink k { s.link k with failed := failed }).linkLost k else s.setLink k { s.link k with failed := failed }).portFail
        k 3 kind := by
  unfold State.setLanes
  rw [width]

/-! ### The statement -/

/-- Settles O51: each event is its effect on the port, in a sound package. -/
theorem linkEvents : Obligations.LinkEvents := by
  unfold Obligations.LinkEvents
  intro s k f errs x ack code replays t lane lock symbols w sound e a kind l up read bad acks h seq ftype gap inTurn late asked
    again sent loss lost rests tries u upAgain unit noted rec_ marked
  have go : ∀ t, s.go t = .next t := State.go_of_sound sound
  have flit : up → exec (.flitReceive k f errs x) s = .next (s.flitIn k.val f errs x) := fun h =>
    (go _).trans (congrArg _ (if_pos h))
  have good : ¬ bad → ¬ (s.flitLost k.val f || !flitGood f.bytes) = true := mt (State.flitBad_iff f).mp
  refine ⟨fun n => State.codewords_of_single, fun h b => ?bad, fun h b i => ?inTurn, fun h b i r n => ?late,
    fun h b r => ?replay, fun h b n => ?notice, fun d => ?untrained, fun h few => ?resent, fun h worn => ?worn,
    fun h c => ?down, fun h c => ?moored, fun h c d => ?other, fun h few => ?lost, fun h many => ?failed,
    exec_linkTraining_of_resting sound, fun _ => exec_linkTraining_of_early sound, fun r m g same => ?same,
    fun r m g new => ?new, fun r m g => exec_linkTrainingComplete_of_no_keys sound m r g, fun m up new => ?partner,
    exec_laneFailure_of_failed sound, fun new width => ?width, fun new width => ?none⟩
  case bad => exact (flit h).trans (congrArg _ (State.flitIn_of_bad ((State.flitBad_iff f).mpr b)))
  case inTurn => exact (flit h).trans (congrArg _ (State.flitIn_of_inTurn (good b) i))
  case late =>
    exact (flit h).trans (congrArg _ ((State.flitIn_of_outOfTurn (good b) i).trans ((if_neg r).trans (if_neg n))))
  case replay =>
    exact (flit h).trans (congrArg _ ((State.flitIn_of_outOfTurn (good b) fun i => absurd (i.1.symm.trans r) (by decide)).trans
      (if_pos r)))
  case notice =>
    exact (flit h).trans (congrArg _ ((State.flitIn_of_outOfTurn (good b) fun i => absurd (i.1.symm.trans n) (by decide)).trans
      ((if_neg fun r => absurd (r.symm.trans n) (by decide)).trans (if_pos n))))
  case resent => exact (go _).trans (congrArg _ ((if_pos h).trans (State.replay_of_tries few)))
  case worn => exact (go _).trans (congrArg _ ((if_pos h).trans (State.replay_of_worn worn)))
  case down => exact (go _).trans (congrArg _ ((State.linkNotice_of_up h _).trans (by rw [c]; rfl)))
  case moored => exact (go _).trans (congrArg _ ((State.linkNotice_of_up h _).trans (by rw [c]; rfl)))
  case other =>
    refine (go _).trans (congrArg _ ((State.linkNotice_of_up h _).trans ((if_neg ?_).trans (if_neg ?_))))
    · exact fun one => c (BitVec.eq_of_toNat_eq one)
    · exact fun two => d (BitVec.eq_of_toNat_eq two)
  case lost => exact (go _).trans (congrArg _ ((State.linkOut_of_trained h _).trans (if_neg (Nat.not_le.mpr few))))
  case failed => exact (go _).trans (congrArg _ ((State.linkOut_of_trained h _).trans (if_pos many)))
  case same =>
    exact (exec_linkTrainingComplete_of_keys sound m r g).trans (congrArg _ (State.partnerLanes_of_same same))
  case new => exact (exec_linkTrainingComplete_of_keys sound m r g).trans (congrArg _ (State.partnerLanes_of_new new))
  case partner => exact (exec_linkTrainingComplete_of_up sound m up).trans (congrArg _ (State.partnerLanes_of_new new))
  case width => exact (exec_laneFailure_of_new sound new).trans (congrArg _ (State.setLanes_of_width width kind))
  case none => exact (exec_laneFailure_of_new sound new).trans (congrArg _ (State.setLanes_of_no_width width kind))
  case untrained =>
    have down : ¬ s.trained k.val = true := by
      rw [d]
      exact Bool.false_ne_true
    refine ⟨(go _).trans (congrArg _ (if_neg down)), (go _).trans (congrArg _ (if_neg down)), (go _).trans (congrArg _ ?_)⟩
    exact if_pos (by rw [d]; rfl)

end Sys2Proof.Machine

/-! PROOFS. Packets that a link brings: delivered, forwarded, refused, performed or settled (R500 to R502, R504, R507, R508). -/

namespace Sys2Proof.Machine

variable {s : State} {k : Nat} {p : Packet} {errs : List (Nat × Ecc)} {x : Contest}

/-! ### Arrival -/

theorem State.arrive_of_trained (up : s.trained k = true) {kind : Bool} (is : kind = true) :
    s.arrive k p kind errs x = s.deliver k p errs x := if_pos (by rw [up, is]; rfl)

theorem State.arrive_of_untrained (down : s.trained k = false) (kind : Bool) : s.arrive k p kind errs x = s :=
  if_neg (by rw [down, Bool.and_false]; exact Bool.false_ne_true)

/-! ### Delivery -/

theorem State.deliver_of_broken (broken : p.ok = false) :
    s.deliver k p errs x = s.satAdd (Reg.portErrors k) F.PORT_ERRORS_DISCARDED 1 := if_pos (by rw [broken]; rfl)

theorem State.deliver_of_ok (ok : p.ok = true) : s.deliver k p errs x =
    if p.ptype = Pt.time then s
    else if p.dst ≠ s.nodeId then s.forwardPkt k p
    else if !s.nodeValid && p.ptype != Pt.mgmt then s
    else s.accept p errs x := if_neg (by rw [ok]; exact Bool.false_ne_true)

theorem State.deliver_of_away (away : p.ok = true ∧ p.ptype ≠ Pt.time ∧ p.dst ≠ s.nodeId) :
    s.deliver k p errs x = s.forwardPkt k p := by
  obtain ⟨ok, other, elsewhere⟩ := away
  rw [State.deliver_of_ok ok, if_neg other, if_pos elsewhere]

theorem State.deliver_of_here (here : p.ok = true ∧ p.dst = s.nodeId) (other : p.ptype ≠ Pt.time)
    (taken : s.nodeValid = true ∨ p.ptype = Pt.mgmt) : s.deliver k p errs x = s.accept p errs x := by
  rw [State.deliver_of_ok here.1, if_neg other, if_neg (not_not_intro here.2), if_neg]
  rcases taken with valid | mgmt
  · simp [valid]
  · simp [mgmt]

/-! ### Forwarding -/

/-- Forwarding changes what waits at the ports, and what is sent, alone. -/
def State.OnlySends (s t : State) : Prop :=
  ∃ links out, t = { s with fabric := { s.fabric with links := links }, out := out }

theorem State.onlySends_refl (s : State) : s.OnlySends s := ⟨s.fabric.links, s.out, rfl⟩

theorem State.onlySends_putPkt (s : State) (o : Nat) (p : Packet) : s.OnlySends (s.putPkt o p) := ⟨_, _, rfl⟩

theorem State.onlySends_emitPkt (s : State) (p : Packet) : s.OnlySends (s.emitPkt p) := by
  unfold State.emitPkt
  split
  · exact s.onlySends_putPkt _ p
  · exact s.onlySends_refl

theorem State.onlySends_bounce (s : State) (p : Packet) (code : Nat) : s.OnlySends (s.bounce p code) := by
  unfold State.bounce
  split
  · exact s.onlySends_emitPkt _
  · exact s.onlySends_refl

theorem State.onlySends_forwardPkt (s : State) (k : Nat) (p : Packet) : s.OnlySends (s.forwardPkt k p) := by
  unfold State.forwardPkt
  split
  · exact s.onlySends_bounce p 9
  · split
    · exact s.onlySends_putPkt _ p
    · exact s.onlySends_bounce p 8

theorem State.bounce_of_request (request : isRequest p = true) (code : Nat) :
    s.bounce p code = s.emitPkt (routerNack p code) := if_pos request

theorem State.bounce_of_other (other : isRequest p = false) (code : Nat) : s.bounce p code = s :=
  if_neg (by rw [other]; exact Bool.false_ne_true)

/-- A request to a node over a moored link is refused. -/
theorem State.forwardPkt_of_moored (moored : s.mooredNode p.dst = true) (request : isRequest p = true) :
    s.forwardPkt k p = s.emitPkt (routerNack p 9) :=
  (if_pos (by rw [moored, request]; rfl)).trans (State.bounce_of_request request 9)

theorem State.forwardPkt_of_open (open_ : isRequest p = false ∨ s.mooredNode p.dst = false) : s.forwardPkt k p =
    match s.forwardPort (k / 9) p.dst with
    | some o => s.putPkt o p
    | none => s.bounce p 8 := by
  refine if_neg ?_
  rcases open_ with other | open_
  · simp [other]
  · simp [open_]

/-! ### Packets of this node -/

/-- A whole packet is a request by its type. -/
theorem isRequest_of_ok (ok : p.ok = true) :
    isRequest p = (vcOf p.ptype == 0 || p.ptype == Pt.coll || p.ptype == Pt.mgmt) := by
  have vc : p.vc = vcOf p.ptype := by
    simp only [Packet.ok, Bool.and_eq_true, beq_iff_eq] at ok
    exact ok.1.1.1.1.1.1
  rw [isRequest, vc]

theorem State.accept_of_request (request : isRequest p = true) :
    s.accept p errs x = s.receiveSeq p (State.actOn errs x) := if_pos request

/-- An answer or a notice is taken by its type. -/
theorem State.accept_of_other (other : isRequest p = false) : s.accept p errs x =
    if p.ptype = Pt.ack then s.ackIn p
    else if p.ptype = Pt.nack then s.nackIn p
    else if p.ptype = Pt.readResp then s.respIn p
    else if p.ptype = Pt.notice then s.noticeIn p errs x
    else s := if_neg (by rw [other]; exact Bool.false_ne_true)

section Here
variable (ok : p.ok = true) (dst : p.dst = s.nodeId)
include ok dst

theorem State.deliver_of_no_node (invalid : s.nodeValid = false) (other : p.ptype ≠ Pt.mgmt) : s.deliver k p errs x = s := by
  rw [State.deliver_of_ok ok, if_neg (not_not_intro dst)]
  split
  · rfl
  · exact if_pos (by simp [invalid, other])

theorem State.deliver_of_mgmt (mgmt : p.ptype = Pt.mgmt) :
    s.deliver k p errs x = s.receiveSeq p (State.actOn errs x) := by
  rw [State.deliver_of_here ⟨ok, dst⟩ (by rw [mgmt]; decide) (.inr mgmt), State.accept_of_request]
  rw [isRequest, mgmt, beq_self_eq_true, Bool.or_true]

variable (valid : s.nodeValid = true)
include valid

theorem State.deliver_of_request (request : isRequest p = true) :
    s.deliver k p errs x = s.receiveSeq p (State.actOn errs x) := by
  refine (State.deliver_of_here ⟨ok, dst⟩ (fun time => ?_) (.inl valid)).trans (State.accept_of_request request)
  rw [isRequest_of_ok ok, time] at request
  exact absurd request (by decide)

theorem State.deliver_of_ack (ack : p.ptype = Pt.ack) : s.deliver k p errs x = s.ackIn p := by
  rw [State.deliver_of_here ⟨ok, dst⟩ (by rw [ack]; decide) (.inl valid), State.accept_of_other, if_pos ack]
  rw [isRequest_of_ok ok, ack]
  decide

theorem State.deliver_of_nack (nack : p.ptype = Pt.nack) : s.deliver k p errs x = s.nackIn p := by
  rw [State.deliver_of_here ⟨ok, dst⟩ (by rw [nack]; decide) (.inl valid), State.accept_of_other, nack]
  · rfl
  · rw [isRequest_of_ok ok, nack]
    decide

theorem State.deliver_of_readResp (resp : p.ptype = Pt.readResp) : s.deliver k p errs x = s.respIn p := by
  rw [State.deliver_of_here ⟨ok, dst⟩ (by rw [resp]; decide) (.inl valid), State.accept_of_other, resp]
  · rfl
  · rw [isRequest_of_ok ok, resp]
    decide

theorem State.deliver_of_notice (notice : p.ptype = Pt.notice) : s.deliver k p errs x = s.noticeIn p errs x := by
  rw [State.deliver_of_here ⟨ok, dst⟩ (by rw [notice]; decide) (.inl valid), State.accept_of_other, notice]
  · rfl
  · rw [isRequest_of_ok ok, notice]
    decide

end Here

theorem State.nackIn_of_named {r : ReqOut} (named : s.named p = some r) : s.nackIn p = (s.unsend r).settleReq r (some p.code) := by
  unfold State.nackIn
  rw [named]

theorem State.nackIn_of_unnamed (unnamed : s.named p = none) : s.nackIn p = s := by
  unfold State.nackIn
  rw [unnamed]

theorem State.respIn_of_unnamed (unnamed : s.named p = none) : s.respIn p = s := by
  unfold State.respIn
  rw [unnamed]

/-- A READ_RESP ends the load of the cluster that read. -/
theorem State.respIn_of_cluster {r : ReqOut} {P : Nat} {run : Option (Nat × Nat)} (named : s.named p = some r)
    (reads : r.pkt.reads = true) (owner : r.owner = .cluster P run) : s.respIn p = (s.unsend r).loadDone P r.pkt p := by
  unfold State.respIn
  rw [named]
  dsimp only
  rw [reads, owner]
  rfl

/-! ### The statement -/

/-- Settles O52: each row delivers its packet over a trained link, and a packet is delivered by its type and its node. -/
theorem packetDelivery : Obligations.PacketDelivery := by
  unfold Obligations.PacketDelivery
  intro s k p errs x o sound up d d' away here
  have row : ∀ {kind : Bool} {e y}, up → kind = true → s.go (s.arrive k.val p kind e y) = .next (s.deliver k.val p e y) :=
    fun trained is => (State.go_of_sound sound _).trans (congrArg _ (State.arrive_of_trained trained is))
  have typed : ∀ {t e y}, up → p.ptype = t → s.go (s.arrive k.val p (p.ptype == t) e y) = .next (s.deliver k.val p e y) :=
    fun trained is => row trained (beq_iff_eq.mpr is)
  have named : ∀ {t u e y}, up → p.ptype = t → p.unit = u →
      s.go (s.arrive k.val p (p.ptype == t && p.unit == u) e y) = .next (s.deliver k.val p e y) :=
    fun trained is unit => row trained (by rw [is, unit, beq_self_eq_true, beq_self_eq_true]; rfl)
  refine ⟨typed, typed, typed, typed, typed, typed, typed, typed, typed,
    fun trained is => ⟨named trained is, named trained is, named trained is, named trained is⟩,
    fun trained is => ⟨named trained is, named trained is, named trained is, named trained is, named trained is⟩,
    fun trained other => row trained (bne_iff_ne.mpr other), fun down => ?untrained, State.deliver_of_broken,
    fun ok time => ?time, fun away => ?frame, fun away request moored => ?moored, fun away open_ port => ?port,
    fun away request open_ port => ?refused, fun away other port => ?dropped,
    fun ok dst invalid other => State.deliver_of_no_node ok dst invalid other,
    fun ok dst mgmt => State.deliver_of_mgmt ok dst mgmt,
    fun ⟨ok, dst, valid⟩ => State.deliver_of_request ok dst valid, fun ⟨ok, dst, valid⟩ => State.deliver_of_ack ok dst valid,
    fun ⟨ok, dst, valid⟩ nack r named => ?nack, fun ⟨ok, dst, valid⟩ is unnamed => ?unnamed,
    fun ⟨ok, dst, valid⟩ resp r P run named reads owner => ?resp,
    fun ⟨ok, dst, valid⟩ => State.deliver_of_notice ok dst valid⟩
  case untrained =>
    have rests : ∀ {kind : Bool} {e y}, s.go (s.arrive k.val p kind e y) = .next s := fun {kind _ _} =>
      (State.go_of_sound sound _).trans (congrArg _ (State.arrive_of_untrained down kind))
    exact ⟨rests, rests, rests, rests, rests, rests, rests, rests, rests, rests, rests, rests, rests, rests, rests, rests,
      rests, rests, rests⟩
  case time => exact (State.deliver_of_ok ok).trans (if_pos time)
  case frame =>
    obtain ⟨links, out, sends⟩ := s.onlySends_forwardPkt k.val p
    rw [show d = _ from (State.deliver_of_away away).trans sends]
    exact ⟨rfl, rfl, rfl, rfl, rfl, rfl, rfl, rfl⟩
  case moored => exact (State.deliver_of_away away).trans (State.forwardPkt_of_moored moored request)
  case port => exact (State.deliver_of_away away).trans ((State.forwardPkt_of_open open_).trans (by rw [port]))
  case refused =>
    refine (State.deliver_of_away away).trans ((State.forwardPkt_of_open (.inr open_)).trans ?_)
    rw [port]
    exact State.bounce_of_request request 8
  case dropped =>
    refine (State.deliver_of_away away).trans ((State.forwardPkt_of_open (.inl other)).trans ?_)
    rw [port]
    exact State.bounce_of_other other 8
  case nack => exact (State.deliver_of_nack ok dst valid nack).trans (State.nackIn_of_named named)
  case unnamed =>
    rcases is with nack | resp
    · exact (State.deliver_of_nack ok dst valid nack).trans (State.nackIn_of_unnamed unnamed)
    · exact (State.deliver_of_readResp ok dst valid resp).trans (State.respIn_of_unnamed unnamed)
  case resp => exact (State.deliver_of_readResp ok dst valid resp).trans (State.respIn_of_cluster named reads owner)

end Sys2Proof.Machine

/-! PROOFS. The sources of reset, boot and recovery (R625 to R640, R646, R647). -/

namespace Sys2Proof.Machine

variable {s : State}

/-! ### RESET_N -/

/-- What the fall of RESET_N leaves: a level-7 reset, with RESET_N low at the TAP. -/
def State.resetFell (s : State) (opt : Bool) : State :=
  { s.levelSeven false 2 false opt false with
    tap := { (s.levelSeven false 2 false opt false).tap with
      low := true, inst := (s.levelSeven false 2 false opt false).tap.loaded } }

theorem exec_resetN_of_high {opt : Bool} (sound : s.Sound) (high : s.tap.low = false)
    (other : boundary (s.resetFell opt).tap.inst = false) : exec (.resetN none opt) s = .next (s.resetFell opt) :=
  (State.go_of_sound sound _).trans (congrArg _ ((if_neg (by rw [high]; exact Bool.false_ne_true)).trans
    (if_neg (ne_true_of_eq_false other))))

theorem exec_resetN_of_low {opt : Bool} (sound : s.Sound) (low : s.tap.low = true) : exec (.resetN none opt) s = .next s :=
  (State.go_of_sound sound _).trans (congrArg _ (if_pos low))

/-- A pulse under 50 ns is no reset. -/
theorem exec_resetN_of_glitch {opt : Bool} {n : Nat} (sound : s.Sound) (high : s.tap.low = false) (short : n < 50) :
    exec (.resetN (some n) opt) s = .next s :=
  (State.go_of_sound sound _).trans (congrArg _ ((if_neg (by rw [high]; exact Bool.false_ne_true)).trans (if_pos short)))

theorem exec_resetN_of_pulse {opt : Bool} {n : Nat} (sound : s.Sound) (high : s.tap.low = false) (long : 50 ≤ n) :
    exec (.resetN (some n) opt) s = .next (s.levelSeven false 2 (decide (n < 10000)) opt false) :=
  (State.go_of_sound sound _).trans (congrArg _ ((if_neg (by rw [high]; exact Bool.false_ne_true)).trans
    (if_neg (Nat.not_lt.mpr long))))

/-! ### Host ports and virtual functions -/

theorem exec_pcieHotReset_of_booted {k : Fin 2} (sound : s.Sound) (booted : s.booting = false) :
    exec (.pcieHotReset k) s = .next (s.portReset k.val 5) :=
  (State.go_of_sound sound _).trans (congrArg _ (if_neg (by rw [booted]; exact Bool.false_ne_true)))

/-- Host port `k` once the function of partition `p` has been reset. -/
def HostPort.withoutVf (h : HostPort) (p : Nat) : HostPort :=
  { h with
    window := h.window.filter fun x => x.1 / 8 != p + 1
    master := h.master.filter (· != p + 1)
    msixOn := h.msixOn.filter (· != p + 1)
    unmasked := h.unmasked.filter fun x => x / 512 != p + 1
    waiting := h.waiting.filter fun x => x / 512 != p + 1 }

theorem exec_vfFlr_of_exists {k : Fin 2} {p : Fin 8} (sound : s.Sound) (there : s.vfExists k.val p.val = true) :
    exec (.vfFlr k p) s = .next ((s.setHost k.val ((s.host k.val).withoutVf p.val)).faultCanals
      (((s.setHost k.val ((s.host k.val).withoutVf p.val)).canalsBehind k.val).filter fun c => s.canalPart c == some p.val)
      0x02) :=
  (State.go_of_sound sound _).trans (congrArg _ (if_neg (by rw [there]; exact Bool.false_ne_true)))

/-! ### RESET_CTRL and recovery -/

theorem State.writeResetCtrl_of_other {v : Nat} (other : bitsOf v 63 48 ≠ 0xB0E7) : s.writeResetCtrl v = s := if_pos other

/-- P-die `k` after its recovery has ended without an image. -/
def State.recoveryEnded (s : State) (k : Nat) : State :=
  (((s.setFld Reg.recoveryCtrl F.RECOVERY_CTRL_STATE 0).endRecovery k).bootStop k 4).setFld (Reg.hostPortStatus k)
    F.HOST_PORT_STATUS_STATE 0

theorem exec_recoveryTimeout_of_booting {k : Fin 2} (sound : s.Sound) (recovering : s.recovering k.val = true)
    (waits : s.fld Reg.recoveryCtrl F.RECOVERY_CTRL_STATE ≠ 4) (booting : (s.recoveryEnded k.val).booting = true) :
    exec (.recoveryTimeout k) s = .next (s.recoveryEnded k.val).stoppedAlert := by
  refine (State.go_of_sound sound _).trans (congrArg _ ((if_neg ?_).trans (if_pos booting)))
  rw [recovering]
  rintro (never | taking)
  · exact Bool.false_ne_true never
  · exact waits taking

/-! ### The statement -/

/-- Settles O56: each source is its reset, in a sound package. -/
theorem resets : Obligations.Resets := by
  unfold Obligations.Resets
  intro s k p opt n v rp e bytes low fell t u fn h
  exact ⟨exec_resetN_of_high, exec_resetN_of_low, exec_resetN_of_glitch, exec_resetN_of_pulse,
    fun sound => State.go_of_sound sound _, fun sound => State.go_of_sound sound _, exec_pcieHotReset_of_booted,
    exec_vfFlr_of_exists, fun served => State.go_viaPath_of_reaches served _, State.writeResetCtrl_of_other,
    fun sound => State.go_of_sound sound _, fun sound => State.go_of_sound sound _, exec_recoveryTimeout_of_booting⟩

end Sys2Proof.Machine

/-! PROOFS. Communicators and the start of collectives (R529 to R547). -/

namespace Sys2Proof.Machine

/-! ### Communicators -/

/-- The slot that COMM_FORM makes of the member list. -/
def State.formed (t : State) (b : Barge) (k tag : Nat) (members : List Nat) : State :=
  (t.setSlot k { job := tag, members := members, stall := b.f 47 44, scr := b.f 63 56, digest := memberDigest members }).showSlot
    k b.part (b.f 35 32) (b.f 41 40) (b.f 39 36) (b.f 42 42)

section Form
variable {s : State} {c : Fin 256} {q k : Nat} {b : Barge} {errs : List (Nat × Ecc)}

theorem exec_commForm_of_passes {members : List Nat} {t : State} (begun : s.Begun c q b 0x518)
    (reserved : b.reservedZero [(127, 64), (43, 43)] = true) (job : (s.jobTag b.part).isSome = true) (field : b.commField = none)
    (met : s.meetAll errs = t) (list : t.localNums b.part (b.f 55 48) 2 (b.f 39 36) = members)
    (read : t.readFault b.part (b.f 55 48) (2 * b.f 39 36) = none)
    (window : (t.windowEntry b.part ((s.jobTag b.part).getD 0) (b.f 63 56) 65536).isSome = true)
    (own : members.getD (b.f 41 40) 0 = t.nodeId) (distinct : members.eraseDups.length = b.f 39 36)
    (new : t.findSlot b.part (b.f 35 32) = none) (free : (List.range 64).find? (fun i => t.slotState i == 0) = some k) :
    exec (.commForm c q errs) s = .next ((t.formed b k ((s.jobTag b.part).getD 0) members).finish b.canal b.seq St.done k 0) := by
  change execCommForm c q errs s = _
  rw [execCommForm, State.work_of_begun begun (List.mem_singleton_self _)]
  dsimp only
  rw [State.checked_of_passes (by simp [Passes, firstFail, reserved, Option.isSome_iff_ne_none.mp job, field]), met, list,
    State.checked_of_passes, free]
  · rfl
  · rw [own]
    simp [Passes, firstFail, read, Option.isSome_iff_ne_none.mp window, distinct, new, free]

theorem exec_commShrink_of_release (begun : s.Begun c q b 0x519) (reserved : b.reservedZero [(127, 56), (47, 41)] = true)
    (release : b.f 40 40 = 1) (id : b.f 39 36 = 0) (drop : b.f 55 48 = 0) (found : s.findSlot b.part (b.f 35 32) = some k) :
    exec (.commShrink c q errs) s = .next ((s.freeSlot' k).finish b.canal b.seq St.done 0 0) := by
  change execCommShrink c q errs s = _
  rw [execCommShrink, State.work_of_begun begun (List.mem_singleton_self _)]
  dsimp only
  rw [release, id, drop, found, State.checked_of_passes (by simp [Passes, firstFail, reserved, bitOf])]
  rfl

/-- Has member `r` of the slot its bit in the table at `drop`? -/
def State.dropsMember (t : State) (p drop r : Nat) : Bool := bitOf (numLE (t.localBytes t.maps p (drop + r / 8) 1)) (r % 8)

/-- The ranks that the table at `drop` leaves of `n`. -/
def State.keptMembers (t : State) (p drop n : Nat) : List Nat := (List.range n).filter fun r => !t.dropsMember p drop r

/-- The rank that the package has among those that are kept. -/
def State.newRank (t : State) (p drop n k : Nat) : Nat :=
  ((t.keptMembers p drop n).findIdx? (· == t.slotRank k)).getD 0

/-- The slot with the members that COMM_SHRINK keeps. -/
def State.shrunk (t : State) (b : Barge) (k : Nat) (sl : CommSlot) : State :=
  let kept := t.keptMembers b.part (b.f 55 48) sl.members.length
  let members := kept.map fun r => sl.members.getD r 0
  (t.setSlot k { job := t.reg (Reg.fabricJob b.part) % 2 ^ 32, members := members, stall := sl.stall, scr := sl.scr
                 digest := memberDigest members }).showSlot k b.part (b.f 39 36)
    (t.newRank b.part (b.f 55 48) sl.members.length k) kept.length (t.slotRadix k)

theorem exec_commShrink_of_table {sl : CommSlot} (begun : s.Begun c q b 0x519)
    (reserved : b.reservedZero [(127, 56), (47, 41)] = true) (shrink : b.f 40 40 = 0) (id : b.f 39 36 ≠ 0)
    (found : s.findSlot b.part (b.f 35 32) = some k) (slot : s.slot? k = some sl) (aligned : b.f 55 48 % 128 = 0)
    (read : (s.meetAll errs).readFault b.part (b.f 55 48) (ceilDiv sl.members.length 1024 * 128) = none)
    (stays : (s.meetAll errs).dropsMember b.part (b.f 55 48) ((s.meetAll errs).slotRank k) = false)
    (own : ∀ j, (s.meetAll errs).findSlot b.part (b.f 39 36) = some j → j = k) :
    exec (.commShrink c q errs) s = .next (((s.meetAll errs).shrunk b k sl).finish b.canal b.seq St.done
      ((s.meetAll errs).newRank b.part (b.f 55 48) sl.members.length k +
        ((s.meetAll errs).keptMembers b.part (b.f 55 48) sl.members.length).length * 2 ^ 16) 0) := by
  change execCommShrink c q errs s = _
  rw [execCommShrink, State.work_of_begun begun (List.mem_singleton_self _)]
  dsimp only
  rw [shrink, found, State.checked_of_passes (by simp [Passes, firstFail, reserved, bitOf, id])]
  dsimp only [Option.getD_some]
  rw [if_neg (by decide), slot]
  dsimp only
  unfold State.dropsMember at stays
  rw [State.checked_of_passes]
  · rfl
  · have mine : ((s.meetAll errs).findSlot b.part (b.f 39 36)).any (fun j => j != k) = false := by
      cases at_ : (s.meetAll errs).findSlot b.part (b.f 39 36) with
      | none => rfl
      | some j => simp [own j at_]
    simp [Passes, firstFail, aligned, read, stays, mine]

end Form

/-! ### The start of a collective -/

/-- The four collective rows start by their opcode. -/
theorem exec_collective {row : Fin 256 → Nat → List (Nat × Ecc) → Contest → Instr} {op : Nat}
    (listed : (op, row) ∈ [(0x510, Instr.collAlltoall), (0x511, .collAlltoallv), (0x512, .collAllreduceSmall),
      (0x513, .collBcast)]) (s : State) (c : Fin 256) (q : Nat) (errs : List (Nat × Ecc)) (x : Contest) :
    exec (row c q errs x) s = s.collStart c.val q op errs x := by
  simp only [List.mem_cons, List.not_mem_nil, or_false, Prod.mk.injEq] at listed
  obtain ⟨rfl, rfl⟩ | ⟨rfl, rfl⟩ | ⟨rfl, rfl⟩ | ⟨rfl, rfl⟩ := listed
  all_goals rfl

/-- The state in which a collective of slot `k` has met what its accesses meet and has used its ranges. -/
def State.collMet (s : State) (b : Barge) (k : Nat) (sl : CommSlot) (errs : List (Nat × Ecc)) (x : Contest) : State :=
  ((s.execContest b (s.collTouches b sl sl.members.length (s.slotRank k)) x).meetAll errs).collUse b sl sl.members.length
    (s.slotRank k)

/-- The operands of a reduction. -/
def State.collOperands (t : State) (b : Barge) : List Nat :=
  if b.isReduce then (t.localNums b.part b.send (dtypeBytes (b.f 37 37)) b.size).map (canonOf (b.f 37 37)) else []

/-- The poisoned lines among them. -/
def State.collPoisoned (t : State) (b : Barge) : List Nat :=
  if b.isReduce then (List.range (b.partBytes / 128)).filter fun l => t.anyPoison b.part (b.send + 128 * l)
    (min 128 (alignUp (b.size * dtypeBytes (b.f 37 37) - 128 * l) 8)) else []

/-- The signature of the collective that starts in slot `k`. -/
def State.collSig (t : State) (b : Barge) (k : Nat) (sl : CommSlot) : Nat :=
  sigOf b (t.fld (Reg.commId k) F.COMM_ID_COLL_SEQ) sl.job sl.members.length (t.slotRadix k) sl.digest

/-- The run of the collective that starts in slot `k`. -/
def State.collRunOf (t : State) (b : Barge) (k : Nat) (sl : CommSlot) (c q op : Nat) : CollRun :=
  { canal := c, seq := q, op := op, num := t.fld (Reg.commId k) F.COMM_ID_COLL_SEQ, sig := t.collSig b k sl
    sendT := t.sendTab b sl.members.length, recvT := t.recvTab b sl.members.length, acc := t.collOperands b
    accBad := t.collPoisoned b, poison := !(t.collPoisoned b).isEmpty, from_ := t.now }

/-- Slot `k` runs the collective, which has taken its number. -/
def State.collBegun (t : State) (b : Barge) (k : Nat) (sl : CommSlot) (c q op : Nat) : State :=
  (((t.setSlot k { sl with run := some (t.collRunOf b k sl c q op), early := none }).setSlotState k 2).setFld (Reg.commId k)
    F.COMM_ID_COLL_SEQ (t.fld (Reg.commId k) F.COMM_ID_COLL_SEQ + 1)).working b.canal b.seq id

theorem State.collStart_of_passes {s t u : State} {c : Fin 256} {q op k : Nat} {b : Barge} {sl : CommSlot}
    {errs : List (Nat × Ecc)} {x : Contest} {v : CollEnv} (begun : s.Begun c q b op)
    (reserved : b.reservedZero [(127, 96), (87, 82), (39, 39)] = true) (flags : b.f 36 36 < 4)
    (unused : b.collUnused = true) (found : s.findSlot b.part (b.f 35 32) = some k) (sound : s.slotState k ≠ 3)
    (slot : s.slot? k = some sl) (field : b.collField sl.members.length (s.slotRank k) = none)
    (tab : s.tabFault b sl.members.length = none) (fault : s.collFault b sl (s.slotRank k) = none) (early : sl.early = none)
    (met : s.collMet b k sl errs x = t) (env : (t.collBegun b k sl c q op).collEnv k = some v)
    (copy : (t.collBegun b k sl c q op).selfCopy v = some u) :
    s.collStart c.val q op errs x = .next ((v.peers.foldl (fun a j =>
      a.sendColl k (b.f 35 32) (a.jobOf b.part) sl j 0x801 sl.scr (t.collSig b k sl) false []) u.throttleColls).collGo k
        collFuel) := by
  rw [State.collStart, State.work_of_begun begun (List.mem_singleton_self _)]
  dsimp only
  rw [found, State.checked_of_passes]
  · dsimp only [Option.getD_some]
    rw [slot]
    dsimp only
    rw [State.checked_of_passes (by simp [Passes, firstFail, field, tab, fault])]
    subst met
    unfold State.collBegun State.collRunOf State.collSig State.collOperands State.collPoisoned State.collMet at env copy
    unfold State.collSig State.collMet
    rw [env]
    dsimp only
    rw [early]
    rw [copy]
    rfl
  · simp [Passes, firstFail, reserved, flags, unused, sound]

/-! ### The statement -/

/-- Settles O41: the passing paths of COMM_FORM, COMM_SHRINK and the collectives, and the failure by silence. -/
theorem communicatorsAndCollectives : Obligations.CommunicatorsAndCollectives := by
  unfold Obligations.CommunicatorsAndCollectives
  refine ⟨fun s c q k b errs sl => ?communicators, fun s c q op k row b sl errs x v u k' j listed => ?collectives⟩
  case communicators =>
    intro p t size rank scr tag members drop n gone r0 kept new r1
    exact ⟨fun begun reserved job field read window own distinct other free => exec_commForm_of_passes begun reserved job field
        rfl rfl read window own distinct other free,
      exec_commShrink_of_release,
      fun begun reserved shrink id found slot aligned read stays own => exec_commShrink_of_table begun reserved shrink id found
        slot aligned read stays own⟩
  case collectives =>
    intro p n me t num sig es acc bad r w
    refine ⟨fun begun reserved flags unused found sound slot field tab fault early env copy => ?start,
      fun sound env waits silent => ?stall⟩
    case start =>
      rw [exec_collective listed]
      exact State.collStart_of_passes begun reserved flags unused found sound slot field tab fault early rfl env copy
    case stall =>
      refine (State.go_of_sound sound _).trans (congrArg _ ?_)
      rw [env]
      exact if_pos (by rw [waits, decide_eq_true silent]; rfl)

end Sys2Proof.Machine

/-! PROOFS. Keys, attestation and roasts (R597, R610 to R614). -/

namespace Sys2Proof.Machine

variable {s : State} {c : Fin 256} {q : Nat} {b : Barge}

/-- The four key rows act by their kind. -/
theorem exec_key {row : Fin 256 → Nat → Instr} {kind : Nat} (listed : (kind, row) ∈ [(1, Instr.keyLoadMk), (2, .keyLoadCk),
    (3, .keyClearCk), (4, .keyClearMk)]) (s : State) (c : Fin 256) (q : Nat) : exec (row c q) s = s.keyRow c.val q kind := by
  simp only [List.mem_cons, List.not_mem_nil, or_false, Prod.mk.injEq] at listed
  obtain ⟨rfl, rfl⟩ | ⟨rfl, rfl⟩ | ⟨rfl, rfl⟩ | ⟨rfl, rfl⟩ := listed
  all_goals rfl

theorem State.keyRow_of_passes {kind : Nat} {key : List Byte} (begun : s.Begun c q b 0x802) (is : b.f 32 32 = kind)
    (passes : Passes (s.keyChecks b)) (found : s.keyOf b = some key)
    (idle : kind = 2 ∨ kind = 3 → (s.takeNonce b).slotInUse b.part = none) :
    s.keyRow c.val q kind = .next (((s.takeNonce b).keySet b key).finish b.canal b.seq St.done 0 0) := by
  rw [State.keyRow, State.work_of_begun begun (List.mem_singleton_self _)]
  dsimp only
  rw [if_neg (fun other => other.1 is), State.checked_of_passes passes, found]
  dsimp only
  rw [State.checked_of_passes]
  have free : (if kind = 2 ∨ kind = 3 then (s.takeNonce b).slotInUse b.part else none) = none := by
    split
    next chamber => exact idle chamber
    next => rfl
  simp [Passes, firstFail, free]

theorem exec_attest_of_passes {x : Contest} (begun : s.Begun c q b 0x803)
    (reserved : b.reservedZero [(127, 96), (63, 45)] = true) (lo : 1 ≤ b.f 44 44) (hi : b.f 44 44 ≤ 3)
    (room : 4992 ≤ b.f 43 40) (fault : s.bufferFault b.part (b.f 39 32) (b.f 43 40) 128 = none) (well : s.secError = false)
    (dus : s.sec.dusShut = false) : exec (.attest c q x) s =
      .next (((s.execContest b (s.touches b.part (b.f 39 32) 4992 true) x).storeLocal s.maps b.part (b.f 39 32)
        (s.attestReport b)).finish b.canal b.seq St.done 4992 0) := by
  change execAttest c q x s = _
  rw [execAttest, State.work_of_begun begun (List.mem_singleton_self _)]
  dsimp only
  rw [if_neg (Nat.not_lt.mpr room), fault, State.checked_of_passes]
  have flags : ¬ (b.f 44 44 = 0 ∨ 4 ≤ b.f 44 44) := by omega
  simp [Passes, firstFail, reserved, flags, well, dus]

/-! ### ROAST_STAGE and ROAST_SWITCH -/

/-- The standby's staging buffer is empty. -/
def State.unstaged (s : State) : State := s.setStaged (1 - s.activePdie) none

/-- What the reads of a ROAST_STAGE meet. -/
def State.stageMet (s : State) (b : Barge) (errs : List (Nat × Ecc)) (x : Contest) : State :=
  (s.execContest b (s.touches (b.f 33 33) (b.f 47 40) (b.f 55 48) false) x).meetAll errs

theorem exec_roastStage_of_passes {x : Contest} {errs : List (Nat × Ecc)} (begun : s.Begun c q b 0x804) (mode : b.f 32 32 = 1)
    (shaped : Passes ((s.unstaged.stageChecks b).take 2)) (passes : Passes ((s.unstaged.stageMet b errs x).stageChecks b)) :
    exec (.roastStage c q errs x) s = .next ((s.unstaged.stageMet b errs x).stageImage b) := by
  change execRoastStage c q errs x s = _
  rw [execRoastStage, State.work_of_begun begun (List.mem_singleton_self _)]
  dsimp only
  rw [if_neg (fun floor => absurd (mode.symm.trans floor.1) (by decide)), if_pos mode]
  have goesOn : (if (firstFail ((s.unstaged.stageChecks b).take 2)).isSome then s.unstaged
      else s.unstaged.stageMet b errs x) = s.unstaged.stageMet b errs x := if_neg (by rw [shaped]; decide)
  unfold State.unstaged State.stageMet at goesOn passes
  rw [goesOn]
  exact congrArg _ (State.checked_of_passes passes _)

theorem exec_raiseFloor_of_passes (begun : s.Begun c q b 0x804) (mode : b.f 32 32 = 2) (shaped : b.stageShape = true)
    (higher : s.svnFloor < b.f 56 56) (running : ∀ r ∈ s.sec.running, b.f 56 56 ≤ r.2.svn) (zero : b.f 33 33 = 0)
    (unused : zeroB b.bytes 55 40 = true) (well : s.secError = false) : exec (.raiseFloor c q) s =
      .next ((s.setFld Reg.secFuse F.SEC_FUSE_SVN_FLOOR (b.f 56 56)).finish b.canal b.seq St.done 0 0) := by
  change execRaiseFloor c q s = _
  rw [execRaiseFloor, State.work_of_begun begun (List.mem_singleton_self _)]
  dsimp only
  rw [if_neg (fun stage => absurd (mode.symm.trans stage.1) (by decide)), State.checked_of_passes]
  simpa [Passes, firstFail, shaped, higher, zero, unused, well] using running

/-- The standby P-die has the other bank of its flash selected, and its state is clear. -/
def State.standbySwitched (s : State) : State :=
  (s.setFlash (1 - s.activePdie) { s.flashOf (1 - s.activePdie) with sel := 1 - (s.flashOf (1 - s.activePdie)).sel }).clearPdie
    (1 - s.activePdie)

theorem exec_roastSwitchLoad_of_passes (begun : s.Begun c q b 0x805) (mode : b.f 32 32 = 1)
    (passes : Passes (s.switchChecks b false (s.staged (1 - s.activePdie)))) : exec (.roastSwitchLoad c q) s =
      .next ((s.standbySwitched.bootStandby (1 - s.activePdie)
        (s.standbySwitched.fld (Reg.pdieStatus (1 - s.activePdie)) F.PDIE_STATUS_CHANGE)).finish b.canal b.seq St.done 0 0) := by
  change execRoastSwitchLoad c q s = _
  rw [execRoastSwitchLoad, State.work_of_begun begun (List.mem_singleton_self _)]
  dsimp only
  rw [if_neg (fun other => absurd (mode.symm.trans other.1) (by decide)), State.checked_of_passes passes]
  rfl

theorem exec_handover_of_passes (begun : s.Begun c q b 0x805) (mode : b.f 32 32 = 2)
    (passes : Passes (s.switchChecks b true (s.runs? (1 - s.activePdie)))) :
    exec (.handover c q) s = .next (s.handover.finish b.canal b.seq St.done 0 0) := by
  change execHandover c q s = _
  rw [execHandover, State.work_of_begun begun (List.mem_singleton_self _)]
  dsimp only
  rw [if_neg (fun other => absurd (mode.symm.trans other.1) (by decide)), State.checked_of_passes passes]

/-! ### The statement -/

/-- Settles O49: the passing path of each row. -/
theorem keysAndRoasts : Obligations.KeysAndRoasts := by
  unfold Obligations.KeysAndRoasts
  intro s c q kind row b key x errs listed base t u w k f e v
  refine ⟨fun begun is passes found idle => ?key, exec_attest_of_passes, exec_roastStage_of_passes,
    exec_raiseFloor_of_passes, exec_roastSwitchLoad_of_passes, exec_handover_of_passes⟩
  rw [exec_key listed]
  exact State.keyRow_of_passes begun is passes found idle

end Sys2Proof.Machine

/-! PROOFS. Job barges: launch, join and teardown (R695 to R702). -/

namespace Sys2Proof.Machine

variable {s : State} {c : Fin 256} {q : Nat} {b : Barge} {errs : List (Nat × Ecc)}

/-- A job barge whose shared checks pass goes on once its reads have met what they meet. -/
theorem State.jobChecked_of_ok {tear : Bool} (ok : s.JobOk b tear errs) (k : State → State) :
    s.jobChecked b tear errs k = k (s.meetAll errs) := by
  obtain ⟨reserved, radix, field, read, members, valid⟩ := ok
  unfold State.jobChecked
  dsimp only
  rw [State.checked_of_passes (by simp [Passes, firstFail, reserved, radix, field]),
    State.checked_of_passes (by simp [Passes, firstFail, read]),
    State.checked_of_passes (by simp [Passes, firstFail, members, valid])]

theorem exec_jobLaunchRoot_of_passes (begun : s.Begun c q b 0x520) (ok : s.JobOk b false errs) (root : b.f 36 36 ≠ 2)
    (passes : Passes ((s.meetAll errs).launchBars b)) : exec (.jobLaunchRoot c q errs) s =
      .next (((((s.meetAll errs).dropJobs b.part ((s.meetAll errs).jobRecord b false).tag).working b.canal b.seq id).applyJob
        (jobKey ((s.meetAll errs).jobRecord b false).tag b.part false) ((s.meetAll errs).jobRecord b false)).forwardJob
          (jobKey ((s.meetAll errs).jobRecord b false).tag b.part false) .launch) := by
  change execJobLaunchRoot c q errs s = _
  rw [execJobLaunchRoot, State.work_of_begun begun (List.mem_singleton_self _)]
  dsimp only
  rw [if_neg (fun join => root join.1), State.jobChecked_of_ok ok, State.checked_of_passes passes]

theorem exec_jobLaunchJoin_of_passes (begun : s.Begun c q b 0x520) (ok : s.JobOk b false errs) (join : b.f 36 36 = 2)
    (passes : Passes ((s.meetAll errs).launchBars b)) : exec (.jobLaunchJoin c q errs) s =
      .next ((((s.meetAll errs).working b.canal b.seq id).setJob (jobKey ((s.meetAll errs).jobRecord b false).tag b.part false)
        ((s.meetAll errs).jobRecord b false)).heldLaunches) := by
  change execJobLaunchJoin c q errs s = _
  rw [execJobLaunchJoin, State.work_of_begun begun (List.mem_singleton_self _)]
  dsimp only
  rw [if_neg (fun other => other.1 join), State.jobChecked_of_ok ok, State.checked_of_passes passes]

/-- The record of a teardown by this node, which has applied it itself. -/
def State.tearRecord (t : State) (b : Barge) : JobRun := { t.jobRecord b true with started := true, applied := 1 }

theorem exec_jobTeardownRoot_of_passes (begun : s.Begun c q b 0x521) (ok : s.JobOk b true errs) (tree : b.f 36 36 ≠ 3)
    (named : (s.meetAll errs).jobTag b.part = some (b.f 35 32)) : exec (.jobTeardownRoot c q errs) s =
      .next (((((s.meetAll errs).working b.canal b.seq id).tearHere b.part ((s.meetAll errs).tearRecord b).tag).setJob
        (jobKey ((s.meetAll errs).tearRecord b).tag b.part true) ((s.meetAll errs).tearRecord b)).forwardJob
          (jobKey ((s.meetAll errs).tearRecord b).tag b.part true) .teardown) := by
  change execJobTeardownRoot c q errs s = _
  rw [execJobTeardownRoot, State.work_of_begun begun (List.mem_singleton_self _)]
  dsimp only
  rw [if_neg (fun here => tree here.1), State.jobChecked_of_ok ok,
    State.checked_of_passes (by simp [Passes, firstFail, named])]
  rfl

theorem exec_jobTeardownLocal_of_passes (begun : s.Begun c q b 0x521) (here : b.f 36 36 = 3)
    (reserved : b.reservedZero [(127, 68), (39, 39)] = true) (graceful : b.f 37 37 = 0)
    (named : s.jobTag b.part = some (b.f 35 32)) : exec (.jobTeardownLocal c q) s =
      .next ((s.tearHere b.part (b.f 35 32)).finish b.canal b.seq St.done 0 0) := by
  change execJobTeardownLocal c q s = _
  rw [execJobTeardownLocal, State.work_of_begun begun (List.mem_singleton_self _)]
  rw [if_neg (not_not_intro here), State.checked_of_passes (by simp [Passes, firstFail, reserved, graceful, named])]

/-- Settles O42: the passing path of each row. -/
theorem jobBarges : Obligations.JobBarges := by
  unfold Obligations.JobBarges
  intro s c q b errs t j d k w kt named
  exact ⟨exec_jobLaunchRoot_of_passes, exec_jobLaunchJoin_of_passes, exec_jobTeardownRoot_of_passes,
    exec_jobTeardownLocal_of_passes⟩

end Sys2Proof.Machine

/-! PROOFS. Checkpoint barges: BEGIN, DIFF, COMMIT, ABANDON, SURVEY and LOAD (R557 to R571). -/

namespace Sys2Proof.Machine

variable {s u v : State} {c : Fin 256} {q k : Nat} {b : Barge} {e : CkptEnv} {x : Stream} {ch : Chamber}

/-! ### CKPT_BEGIN (R557 to R559) -/

theorem exec_ckptBegin_of_passes {h : List Byte} {bad : Bool} {t : State}
    (asked : (s.execContest b (s.touches b.part (b.f 71 64) (16 * b.f 36 36) false ++
      s.touches b.part (b.f 87 80) (8 * b.f 37 37) false) e.contest).meetAll e.errs = t)
    (begun : s.Begun c q b 0x600)
    (reserved : b.reservedZero [(127, 96)] = true) (full : b.f 39 39 = 1 ∨ b.f 39 39 = 3) (job : (s.jobTag b.part).isSome = true)
    (open_ : s.flag Reg.secStatus F.SEC_STATUS_APPROVED = false) (fresh : s.slotFor b.part (b.f 35 32) = none)
    (untaken : (s.streams.any fun y => y.2.id == b.f 35 32 && y.2.part != b.part) = false) (field : b.beginField = none)
    (ranges : t.rangesFault b.part (b.f 71 64) (b.f 36 36) false = none)
    (table : 1 < b.f 37 37 → t.readFault b.part (b.f 87 80) (8 * b.f 37 37) = none)
    (stream : x = t.beginStream b none) (mine : x.repl.getD x.rank 0 = x.chamber)
    (slot : ((List.range 16).find? fun i => (t.stream? i).isNone) = some k)
    (room : (t.streams.map fun y => granules y.2.ranges).sum + granules x.ranges ≤ 2 ^ 25)
    (header : t.chBytes e b x.chamber 128 = (.ok (h, bad), v))
    (formatted : bitOf (b.f 39 39) 1 = true → poolBlocks x.blocks (granules x.ranges) ≠ 0)
    (same : bitOf (b.f 39 39) 1 = false → bad = false ∧ headerValid h = true ∧ fieldB h 23 16 = x.blocks ∧
      fieldB h 39 32 = granules x.ranges ∧ fieldB h 40 40 = x.rc ∧ fieldB h 41 41 = x.rank)
    (chamber : (if bad || !headerValid h then (.ok ⟨[], none, none⟩, v) else v.manifests e b x.chamber h) = (.ok ch, u))
    (newer : heldBy ch.cur < x.step) (keeps : x.keep = 0 ∨ x.keep = heldBy ch.cur ∨ x.keep = heldBy ch.prev) :
    exec (.ckptBegin c q e) s = .next (u.openStream e b k x ch) := by
  have hfull : bitOf (b.f 39 39) 0 = true := by obtain h | h := full <;> rw [h] <;> decide
  have hsmall : ¬ 4 ≤ b.f 39 39 := by omega
  have others : (t.streams.filter fun y => some y.1 != none) = t.streams := List.filter_eq_self.mpr fun _ _ => rfl
  have headerFits : (if bitOf (b.f 39 39) 1 = true then poolBlocks x.blocks (granules x.ranges) == 0
      else bad || !headerValid h || !(fieldB h 23 16 == x.blocks && fieldB h 39 32 == granules x.ranges && fieldB h 40 40 == x.rc
        && fieldB h 41 41 == x.rank)) = false := by
    cases hf : bitOf (b.f 39 39) 1 with
    | true => simpa using formatted hf
    | false =>
      obtain ⟨sound, valid, blocks, count, rc, rank⟩ := same hf
      simp [sound, valid, blocks, count, rc, rank]
  have keepHeld : (x.keep != 0 && x.keep != heldBy ch.cur && x.keep != heldBy ch.prev) = false := by
    obtain h | h | h := keeps <;> simp [h]
  change execCkptBegin c q e s = _
  rw [execCkptBegin, State.work_of_begun begun (List.mem_singleton_self _)]
  dsimp only
  rw [State.checked_of_passes (by
    simp [Passes, firstFail, reserved, hsmall, Option.isSome_iff_ne_none.mp job, open_, hfull, fresh, untaken, field])]
  rw [asked, hfull, fresh, State.checked_of_passes (by simp [Passes, firstFail, ranges]; exact table)]
  simp only [Option.bind_none, ← stream]
  rw [mine, others, slot, State.checked_of_passes (by simp [Passes, firstFail]; exact room), header]
  dsimp only
  rw [State.checked_of_passes (by simp only [Passes, firstFail, headerFits]; rfl), chamber]
  dsimp only
  rw [State.checked_of_passes (by simp [Passes, firstFail, newer, keepHeld])]
  rfl

/-! ### CKPT_DIFF, CKPT_COMMIT and CKPT_ABANDON (R560, R562 and R564) -/

/-- A barge that started after every removed mapping was removed sees the map entries as they are. -/
theorem State.asHeld_of_none_after (current : (s.unmapped.any fun r => decide (b.startNo < r.1)) = false) (f : State → State) :
    s.asHeld b f = f s := by
  have none : (s.unmapped.filter fun r => decide (b.startNo < r.1)) = [] :=
    List.filter_eq_nil_iff.mpr fun r hr => by simpa using List.any_eq_false.mp current r hr
  simp [State.asHeld, none]

theorem exec_ckptDiff_of_passes {d : DiffSt} {y : Stream} (begun : s.Begun c q b 0x601)
    (reserved : b.reservedZero [(127, 56), (39, 36)] = true)
    (has : s.slotFor b.part (b.f 35 32) = some k ∧ s.stream? k = some x) (opened : s.ckptSt k = 2) (some_ : b.f 55 48 ≠ 0)
    (inside : b.f 47 40 + b.f 55 48 ≤ granules x.ranges) (whole : b.stopBy = 0)
    (current : (s.unmapped.any fun r => decide (b.startNo < r.1)) = false)
    (staged : ((s.execContest b (x.ranges.flatMap fun r => s.touches b.part r.1 r.2 false) e.contest).meetAll e.errs).diffAll e b k
      ((List.range (b.f 55 48)).map (b.f 47 40 + ·)) {} = (d, u)) (unstopped : d.stop = none) (untorn : d.torn = [])
    (after : u.stream? k = some y) :
    exec (.ckptDiff c q e) s = .next ((u.showStream k 2 y).endBarge b.canal b.seq St.done d.copied d.carried) := by
  obtain ⟨slot, stream⟩ := has
  change execCkptDiff c q e s = _
  rw [execCkptDiff, State.work_of_begun begun (List.mem_singleton_self _)]
  dsimp only
  rw [State.asHeld_of_none_after current]
  simp only [slot, Option.getD_some, stream, Option.map_some]
  rw [State.checked_of_passes (by simp [Passes, firstFail, reserved, opened, some_, inside]), whole]
  simp only [Nat.zero_ne_one, if_false, stream, Option.elim_some, staged, unstopped, untorn, after, Nat.lt_irrefl]

theorem exec_ckptCommit_of_passes (begun : s.Begun c q b 0x602) (reserved : b.reservedZero [(127, 48), (39, 36)] = true)
    (has : s.slotFor b.part (b.f 35 32) = some k ∧ s.stream? k = some x) (opened : s.ckptSt k = 2 ∨ s.ckptSt k = 3)
    (step : x.step = b.f 47 40) (whole : x.missing = []) :
    exec (.ckptCommit c q e) s = .next ((s.meetAll e.errs).commitStream e b k x) := by
  obtain ⟨slot, stream⟩ := has
  change execCkptCommit c q e s = _
  rw [execCkptCommit, State.work_of_begun begun (List.mem_singleton_self _)]
  simp only [slot, Option.getD_some, stream, whole]
  rw [State.checked_of_passes (by simp [Passes, firstFail, reserved, step]; exact fun other => opened.resolve_left other)]

theorem exec_ckptAbandon_of_passes (begun : s.Begun c q b 0x604) (reserved : b.reservedZero [(127, 37)] = true)
    (mode : b.f 36 36 < 2) (slot : s.slotFor b.part (b.f 35 32) = some k) :
    exec (.ckptAbandon c q) s = .next ((s.abandon k (bitOf (b.f 36 36) 0)).finish b.canal b.seq St.done 0 0) := by
  change execCkptAbandon c q s = _
  rw [execCkptAbandon, State.work_of_begun begun (List.mem_singleton_self _)]
  simp only [slot, Option.getD_some]
  rw [State.checked_of_passes (by simp [Passes, firstFail, reserved, mode])]

/-- A CKPT_COMMIT that starts with nothing missing shows its stream committing (R562). -/
theorem State.commitBegins_of_whole (opcode : b.opcode = 0x602) (reserved : b.reservedZero [(127, 48), (39, 36)] = true)
    (has : s.slotFor b.part (b.f 35 32) = some k ∧ s.stream? k = some x) (opened : s.ckptSt k = 2) (step : x.step = b.f 47 40)
    (whole : x.missing = []) : s.commitBegins b = s.showStream k 3 x := by
  obtain ⟨slot, stream⟩ := has
  simp [State.commitBegins, slot, stream, opcode, reserved, opened, step, whole]

/-! ### CKPT_SURVEY and CKPT_LOAD (R568 to R571) -/

/-- A survey's barge uses the range of its chamber table, and then that of its output. -/
def State.surveyUsed (s : State) (b : Barge) : State :=
  let t := s.useRange (some (b.canal, b.seq)) s.maps b.part (b.f 55 48) (8 * b.f 75 72)
  t.useRange (some (b.canal, b.seq)) t.maps b.part (b.f 63 56) (16 * b.f 75 72)

/-! What an access leaves of the map entries. -/

theorem State.stall_maps (s : State) (l : List (Nat × Nat)) : (s.stall l).maps = s.maps := by
  unfold State.stall
  split <;> rfl

theorem State.rouse_maps (s : State) (pas : List Nat) : (s.rouse pas).maps = s.maps := by
  unfold State.rouse
  dsimp only
  split
  · exact s.stall_maps _
  · exact (foldl_same State.maps _ (fun t r => t.setFlds_maps _ _) _ _).trans (s.stall_maps _)

theorem State.yieldG_maps (s : State) (p guar cause site winner : Nat) (sel : Barge → Bool) :
    (s.yieldG p guar cause site winner sel).maps = s.maps := by
  unfold State.yieldG
  dsimp only
  split
  · rfl
  · dsimp only
    rw [State.setFlds_maps, State.count_maps]

theorem State.slowStacks_maps (s : State) (b : Barge) (pas : List Nat) : (s.slowStacks b pas).maps = s.maps := by
  unfold State.slowStacks
  split
  · rfl
  · split
    · rfl
    · exact foldl_same State.maps _ (fun t st => t.yieldG_maps _ _ _ _ _ _) _ s

theorem State.usePas_maps (s : State) (who : Option (Nat × Nat)) (pas : List Nat) : (s.usePas who pas).maps = s.maps := by
  unfold State.usePas
  split
  · rfl
  · exact State.slowStacks_maps _ _ _

theorem State.useRange_maps (s : State) (who : Option (Nat × Nat)) (maps : List MapRec) (part la len : Nat) :
    (s.useRange who maps part la len).maps = s.maps :=
  (State.usePas_maps _ who _).trans (s.rouse_maps _)

theorem exec_ckptSurvey_of_passes {out : State} {l : List (Nat × Nat)} {step : Nat} {ts : State}
    (asked : (s.execContest b (s.touches b.part (b.f 55 48) (8 * b.f 75 72) false ++
      s.touches b.part (b.f 63 56) (16 * b.f 75 72) true) e.contest).meetAll e.errs = ts)
    (surveyed : (ts.surveyUsed b).surveyAll e b ((ts.surveyUsed b).localNums b.part (b.f 55 48) 8 (b.f 75 72)) [] = (l, u))
    (first : (l.getD 0 (0, 0)).1 = step)
    (stored : u.storeLocal u.maps b.part (b.f 63 56) (l.flatMap fun r => bytesLE 8 r.1 ++ bytesLE 8 r.2) = out)
    (begun : s.Begun c q b 0x603) (survey : b.f 32 32 = 1) (job : (s.jobTag b.part).isSome = true)
    (reserved : b.reservedZero [(127, 76), (39, 39), (35, 33)] = true) (least : 1 ≤ b.f 75 72) (most : b.f 75 72 ≤ 65536)
    (noTable : b.f 71 64 = 0) (noStep : b.f 47 40 = 0) (noRank : b.f 38 36 = 0)
    (tableRead : ts.readFault b.part (b.f 55 48) (8 * b.f 75 72) = none) (aligned : b.f 63 56 % 128 = 0)
    (outWritten : ts.rangeFault ts.maps b.part true (b.f 63 56) (16 * b.f 75 72) = none) (common : commonStep l ≠ 0)
    (all : (l.all fun r => r.1 == step) = true) :
    exec (.ckptSurvey c q e) s = .next (out.endBarge b.canal b.seq St.done step 0) := by
  change execCkptSurvey c q e s = _
  rw [execCkptSurvey, State.work_of_begun begun (List.mem_singleton_self _)]
  dsimp only
  rw [if_neg (by omega), State.checked_of_passes (by
    simp [Passes, firstFail, reserved, survey, Option.isSome_iff_ne_none.mp job, noTable, noStep, noRank]; omega), asked,
    State.checked_of_passes (by simp [Passes, firstFail, tableRead, aligned, outWritten])]
  rw [State.surveyUsed, State.useRange_maps] at surveyed
  rw [surveyed]
  dsimp only
  rw [stored, if_neg common, first, if_pos all]

theorem exec_ckptLoad_of_passes {m : Man} {t : State} {free : CkptEnv} (errs : s.meetAll e.errs = t)
    (alone : { e with contest := .free } = free)
    (begun : s.Begun c q b 0x603) (load : b.f 32 32 = 0)
    (job : (s.jobTag b.part).isSome = true) (reserved : b.reservedZero [(127, 76), (39, 39), (35, 33)] = true)
    (noCount : b.f 75 72 = 0) (rank : b.f 38 38 = 0) (replicas : b.f 37 37 = 1) (least : 1 ≤ b.f 36 36) (most : b.f 36 36 ≤ 16)
    (chamberAligned : b.f 55 48 % 65536 = 0) (listAligned : b.f 63 56 % 128 = 0) (noTable : b.f 71 64 = 0)
    (ranges : t.rangesFault b.part (b.f 63 56) (b.f 36 36) true = none)
    (chamber : t.chamber free b (b.f 55 48) = (.ok ch, u)) (held : ch.manOf (b.f 47 40) = some m) :
    exec (.ckptLoad c q e) s = .next (u.loadMan free b (t.rangeList b.part (b.f 63 56) (b.f 36 36)) [b.f 55 48] m) := by
  change execCkptLoad c q e s = _
  rw [execCkptLoad, State.work_of_begun begun (List.mem_singleton_self _)]
  dsimp only
  rw [if_neg (by omega), State.checked_of_passes (by
    simp [Passes, firstFail, reserved, load, Option.isSome_iff_ne_none.mp job, noCount, rank, replicas, chamberAligned, listAligned,
      noTable]; omega), errs, State.checked_of_passes (by simp [Passes, firstFail, ranges, replicas])]
  simp only [replicas, rank, if_true]
  rw [State.checked_of_passes (by simp [Passes, firstFail]), alone, chamber]
  dsimp only
  rw [held]

/-- Settles O43: the passing path of each row. -/
theorem checkpointBarges : Obligations.CheckpointBarges := by
  unfold Obligations.CheckpointBarges
  intro s c q k b e x u v ch m d h bad p asks tb td ts t free format mine num has form own t1 tr tab sv out step l
  refine ⟨?begin, ?diff, exec_ckptCommit_of_passes, exec_ckptAbandon_of_passes, ?survey, ?load, State.commitBegins_of_whole⟩
  case begin =>
    intro begun reserved full job approved fresh _ untaken field
    exact exec_ckptBegin_of_passes rfl begun reserved full job approved fresh untaken field
  case diff =>
    intro begun reserved has opened some_ inside whole current staged unstopped untorn y after
    exact exec_ckptDiff_of_passes begun reserved has opened some_ inside whole current staged unstopped untorn after
  case survey =>
    intro begun survey form
    exact exec_ckptSurvey_of_passes rfl rfl rfl rfl begun survey form.1 form.2
  case load =>
    intro begun load form
    exact exec_ckptLoad_of_passes rfl rfl begun load form.1 form.2

end Sys2Proof.Machine
